-- ==== Sys2Proof/Word.lean ====
section
/-! DEFINITION. The word types of the T25 model and their plainest arithmetic (spec/00_scope.md, R10, R15, R16). -/

namespace Sys2Proof

/-- One byte of memory. -/
abbrev Byte := BitVec 8

/-- One 32-bit register word (R10). -/
abbrev Word := BitVec 32

/-- One 64-bit quantity: a scalar register, a descriptor word (R172, R308). -/
abbrev Dword := BitVec 64

/-- The bits `[lo + w - 1 : lo]` of `x`. -/
def natBits (lo w x : Nat) : Nat := x / 2 ^ lo % 2 ^ w

/-- Bit `i` of `x`. -/
def natBit (i x : Nat) : Bool := x / 2 ^ i % 2 == 1

/-- `x` with its bits `[lo + w - 1 : lo]` replaced by the low `w` bits of `v`. -/
def natPut (lo w x v : Nat) : Nat :=
  x - natBits lo w x * 2 ^ lo + v % 2 ^ w * 2 ^ lo

/-- The value of a `w`-bit two's-complement pattern. -/
def sext (w x : Nat) : Int :=
  if 2 * (x % 2 ^ w) < 2 ^ w then (x % 2 ^ w : Nat) else (x % 2 ^ w : Nat) - (2 ^ w : Nat)

/-- Bytes of a number, least significant first (little-endian, R10, R15). -/
def toBytes : Nat → Nat → List Byte
  | 0, _ => []
  | n + 1, x => BitVec.ofNat 8 x :: toBytes n (x / 256)

/-- The number that little-endian bytes spell. -/
def ofBytes : List Byte → Nat
  | [] => 0
  | b :: t => b.toNat + 256 * ofBytes t

/-- Addition that stops at a largest value: the saturating counters of the register tables. -/
def satAdd (limit a b : Nat) : Nat := min limit (a + b)

/-- The ceiling of `a / b`. -/
def ceilDiv (a b : Nat) : Nat := (a + b - 1) / b

end Sys2Proof
end

