-- ==== Sys2Proof/Syntax.lean ====
section
/-! DEFINITION. The commands of the T25 block: one constructor of `Instr` for each row of spec/opcode_table.json, in the table's order, and the plain data that their operands carry. -/

namespace Sys2Proof

/-- The identity of a master: device ID and master number (R306). -/
structure Ident where
  dev : BitVec 14
  num : BitVec 12
  deriving DecidableEq, Repr

/-- A logical core ID (spec/00_scope.md, Naming). -/
abbrev CoreId := Fin 1024
/-- A compute die C0 to C15. -/
abbrev DieId := Fin 16
/-- A wharf die W0 to W7, and its stack H0 to H7. -/
abbrev WharfId := Fin 8
/-- A link port. -/
abbrev PortId := Fin 16
/-- A sub-port of a port (R344). -/
abbrev SubId := Fin 8
/-- A partition P0 to P3 (R19). -/
abbrev PartId := Fin 4
/-- A DMA engine: 2c + e for engine e of core c, 2048 + 16n + k for engine k of wharf die Wn
(the master numbers of R306 less 0x400). -/
abbrev EngineId := Fin 2176

/-- The four words of a tile instruction (R175). -/
structure TileWords where
  w0 : Word
  w1 : Word
  w2 : Word
  w3 : Word
  deriving DecidableEq, Repr

/-- What a stored word suffered since its last access: nothing, one flipped bit, or more (R277, R295). -/
inductive Upset where
  | none
  | single
  | double
  deriving DecidableEq, Repr

/-- The program of one core in a schedule image (R170, R212, R243): where the program and its all-wide form begin and how many bytes
each takes, and the bucket tables that it uses. -/
structure CoreProgram where
  core : CoreId
  entry : Nat
  size : Nat
  entryWide : Option Nat
  sizeWide : Nat
  btab : Nat
  tables : Nat
  claimOnly : Bool
  pool : Nat
  /-- Basin bytes that the core's all-wide plan needs (R211). -/
  basinNeed : Nat
  /-- The pointer lists of the program: basin offset and entry count (R187, R211). -/
  pointerLists : List (Nat × Nat)
  /-- The layers that the program sounds: layer, and the largest N of its SOUND instructions (R193, R221, R242). -/
  soundings : List (Nat × Nat)
  deriving DecidableEq, Repr

/-- The limit a schedule gives one claim counter (R207): of die hub `die`, or device-wide. -/
structure ClaimLimit where
  device : Bool
  die : DieId
  ctr : Nat
  limit : Nat
  deriving DecidableEq, Repr

/-- A committed tensor: the base address of each of its K + 1 slots, and its length (R82, R247). -/
structure Tensor where
  slots : List Nat
  size : Nat
  exposed : Bool
  prot : Bool
  deriving DecidableEq, Repr

/-- A serving plan (R319, R320). -/
structure Plan where
  number : Nat
  maxInput : Nat
  deriving DecidableEq, Repr

/-- A mailbox binding that a schedule asks for (R334, R450). -/
structure Binding where
  core : CoreId
  chan : Fin 4
  smid : Nat
  smask : Nat
  sdev : Nat
  deriving DecidableEq, Repr

/-- What a schedule image says (R65, R82, R91, R164, R207, R211, R212, R221, R240, R242, R244, R253, R274, R323).
`loads` lists the register words that the image loads: trackers, scale register file, sounding,
training, spike watch, class-1 windows, intake, mailbox bindings and shard marks. -/
structure ScheduleImage where
  anchor : Nat
  poundUs : Nat
  voteLead : Nat
  retain : Nat
  serveSlot : Nat
  quota : Nat
  seed : Dword
  hbmNeed : Nat
  programs : List CoreProgram
  claims : List ClaimLimit
  loads : List (Nat × Word)
  tensors : List Tensor
  plans : List Plan
  bindings : List Binding
  /-- The owners the image gives rings, beside the intake rings (R316). -/
  ringOwners : List (Fin 16 × Ident)
  /-- The SM3 hash of the image (R457). -/
  digest : BitVec 256
  deriving DecidableEq, Repr

/-- The outcome of a lock (R72). -/
inductive Outcome where
  | commit
  | empty
  | hold
  deriving DecidableEq, Repr

/-- A lock decision as the top manager sends it down (R72, R234, R266, R384, R402). -/
structure Decision where
  /-- The lock instant it decides. -/
  lock : Nat
  outcome : Outcome
  /-- The fleet-wide union of sluice failures, one bit a layer. -/
  layers : BitVec 256
  causes : BitVec 6
  wideRerun : Bool
  repair : Bool
  rerun : Bool
  /-- ID changes named in a REPAIR decision: old ID of the spare, new ID. -/
  idChange : Option (BitVec 14 × BitVec 14)
  deriving DecidableEq, Repr

/-- The three votes (R70). -/
inductive Vote where
  | ready
  | notReady
  | veto
  deriving DecidableEq, Repr

/-- A head flit's fields (R350). -/
structure Head where
  addr : Dword
  src : Ident
  op : Byte
  status : Byte
  body : Nat
  tid : Word
  epoch : BitVec 48
  flags : Byte
  msop : Byte
  /-- True when every reserved bit of the head is zero. -/
  reservedZero : Bool
  deriving DecidableEq, Repr

/-- The kind of a flit (R349). -/
inductive FlitKind where
  | idle
  | head
  | body
  | control
  deriving DecidableEq, Repr

/-- One flit: its class, its kind and its 64 bytes as a number. -/
structure Flit where
  cls : BitVec 2
  kind : FlitKind
  data : BitVec 512
  deriving DecidableEq, Repr

/-- A codeword as it stands after decoding and deciphering: header fields (R349), flits, the integrity check value, and how many symbols the
lane has changed. -/
structure Codeword where
  seq : BitVec 20
  ack : BitVec 20
  nak : Bool
  kph : Bool
  cclass : BitVec 2
  credit : BitVec 12
  flits : List Flit
  /-- Symbol errors on the lane; up to 16 are corrected (R348). -/
  symbolErrors : Nat
  /-- The integrity check value (R364, R365). -/
  icv : BitVec 64
  deriving DecidableEq, Repr

/-- The header of a serving datagram (R317), and the client it comes from. -/
structure ServeHeader where
  ver : Byte
  type : Byte
  cls : Byte
  status : Byte
  plan : BitVec 16
  fidx : Byte
  fcntM1 : Byte
  reqId : Dword
  epoch : BitVec 48
  flags : Byte
  reserved : Byte
  total : Word
  offset : Word
  srcAddr : BitVec 128
  srcPort : BitVec 16
  deriving DecidableEq, Repr

/-- What an Ethernet frame is (R374, R375). -/
inductive FrameKind where
  | intakeUdp
  | neighbourOrEcho
  | ptp
  | other
  deriving DecidableEq, Repr

/-- What a frame's MACsec tag says (R375): its secure channel, association and packet number. -/
structure SecTag where
  sci : BitVec 64
  an : BitVec 2
  pn : BitVec 64
  deriving DecidableEq, Repr

/-- An Ethernet frame (R374, R375): its kind, its payload in bytes, the VLAN ID of its 802.1Q tag, its IPv6 destination, and its MACsec tag. -/
structure EthFrame where
  kind : FrameKind
  bytes : Nat
  vlan : Option (BitVec 12)
  dst : BitVec 128
  sec : Option SecTag
  deriving DecidableEq, Repr

/-- A PTP message that arrives (R376), times in ns: a Sync with its arrival and, from a one-step master, its origin; the Follow_Up of a
two-step master; the answer to the device's Delay_Req. -/
inductive PtpMsg where
  | sync (origin : Option Nat) (arrival : Nat)
  | followUp (origin : Nat)
  | delayResp (arrival : Nat)
  deriving DecidableEq, Repr

/-- An authorisation token (R466): its fields, the SM3 hash of its key and its signature. -/
structure Token where
  version : Word
  op : Byte
  arg : Byte
  index : Byte
  zeros : Bool
  serial : BitVec 128
  nonce : BitVec 256
  keyHash : BitVec 256
  digest : BitVec 256
  signature : BitVec 512
  deriving DecidableEq, Repr

/-- A fleet command record, as FLEET_CMD carries it (R389): what the manager tells a device's Keeper. -/
inductive FleetOrder where
  | assign (id : BitVec 14) (role : BitVec 2) (duty : BitVec 2) (krAuth : Bool) (record : BitVec 256) (epoch step cursor : BitVec 48)
  | ringOwner (ring : Fin 16) (owner : Ident)
  | fleetWord (index : Fin 8) (value : Word)
  | routeEntry (dest : BitVec 14) (entry : Word)
  | routeSwitch (epoch : Option (BitVec 48))
  | group (index : Fin 4) (words : List Word) (epoch : BitVec 48)
  | broadcastStart (number : Byte) (blocks : Nat) (stage : BitVec 48) (children : List (BitVec 14)) (windowEnd deadline : Nat) (activation : BitVec 48)
  | snapshot (toPeer toSink : Bool)
  | restore (epoch : BitVec 48)
  | withdraw
  | readmit
  | wake (mask : BitVec 4)
  | release
  | failed (dev : BitVec 14)
  | keeperReset
  | authorisation (t : Token)
  /-- An order that a lower manager passes on, by the number of its kind and its words: to one device that it governs, or to all. -/
  | relay (dev : Option (BitVec 14)) (kind : Nat) (words : List (BitVec 64))
  deriving DecidableEq, Repr

/-- An admission record (R464). -/
structure AdmissionRecord where
  version : Word
  checkMask : Byte
  minRollback : Byte
  flags : Byte
  zero : Byte
  serial : BitVec 128
  meas : List (BitVec 256)
  digest : BitVec 256
  deriving DecidableEq, Repr

/-- The parts of an attestation report that an admission checks (R459, R463). -/
structure Report where
  serial : BitVec 128
  tenants : Bool
  rollback : Byte
  nonce : BitVec 256
  meas : List (BitVec 256)
  /-- The report's signature verifies. -/
  signatureGood : Bool
  deriving DecidableEq, Repr

/-- What a REPORT says of the locks (R389, R404): for how many the device had no decision, and whether it is in IDLE. -/
structure LockNote where
  missed : Nat
  idle : Bool
  deriving DecidableEq, Repr

/-- Which executing instruction of a core ends (R135): its queue, and of the CV queue the converter, 0 or 1. -/
structure UnitSlot where
  q : Fin 8
  second : Bool
  deriving DecidableEq, Repr

/-- A finding of the start-up check or of a self-test, as a repair entry (R422), or one of the findings
that fail the start (R419). -/
inductive Finding where
  | coreSite (die : DieId) (site : Fin 68)
  | basinRow (die : DieId) (site : Fin 64) (tier : Fin 4) (row : Fin 8192)
  | basinSlice (die : DieId) (site : Fin 64)
  | dieHub (die : DieId)
  | wharfLogic (n : WharfId)
  | aqueduct (k : Fin 40)
  | hbmDataLane (stack : WharfId) (chan : Fin 16) (pc : Fin 2) (lane : Fin 34)
  | hbmCaLane (stack : WharfId) (chan : Fin 16) (lane : Fin 32)
  | transceiverLane (port : PortId) (lane : Fin 8)
  deriving DecidableEq, Repr

/-- The commands of the block: one constructor per row of spec/opcode_table.json. -/
inductive Instr where
  -- Registers (R11, R15)
  | registerWrite (m : Ident) (addr : Dword) (size : Nat) (value : Word)
  | wideLowRead (m : Ident) (addr : Dword)
  | wideHighWrite (m : Ident) (addr : Dword) (value : Word)
  | wideLowWrite (m : Ident) (addr : Dword) (value : Word)
  -- Memory (R275 to R304, R44)
  | basinAccess (m : Ident) (addr : Dword) (size : Nat) (write : Bool) (data : List Byte) (upset : Upset)
  | basinPatrolScrub (core : CoreId) (word : BitVec 22) (upset : Upset)
  | hbmAccess (m : Ident) (addr : Dword) (size : Nat) (narrow : Bool) (write : Bool) (data : List Byte) (upset : Upset)
  | msopAdd (m : Ident) (addr : Dword) (mtype : BitVec 3) (operand : BitVec 512)
  | msopMin (m : Ident) (addr : Dword) (mtype : BitVec 3) (operand : BitVec 512)
  | msopMax (m : Ident) (addr : Dword) (mtype : BitVec 3) (operand : BitVec 512)
  | msopXor (m : Ident) (addr : Dword) (mtype : BitVec 3) (operand : BitVec 512)
  | hbmPatrol (stack : WharfId) (addr : Dword) (upset : Upset)
  | refreshRateChange (stack : WharfId) (temp : Byte)
  | hbmHotThrottle (stack : WharfId) (temp : Byte)
  | hbmInitDone
  | aqueductTransfer (m : Ident) (src dst : Fin 5 × Fin 5) (failedAt : Option (Fin 40))
  -- Time (R53 to R64)
  | ppsEdge (at_ : Nat)
  | ppsFail
  | ppsRequalify
  | ref10mFail (absentNs : Nat) (ppb : Int)
  | ref10mRequalify
  | ptpMessage (port : PortId) (slave : Bool) (udp : Bool) (msg : PtpMsg)
  | ptpTimeout
  | timeOfDayWrite (m : Ident) (ns : Nat)
  | sourceFailover
  | sourceUpgrade
  | timeDisciplineTick (elapsed : Nat) (offset : Int)
  | ppsOutRise
  | ppsOutFall
  -- Locks (R65 to R91)
  | anchorReached
  | voteReady
  | voteVeto
  | voteCutoff
  | vote (worker : BitVec 14) (lock : Nat) (v : Vote) (layers : BitVec 256) (overcommit : Bool) (causes : BitVec 6)
  | decision (d : Decision)
  | lockInstant
  | lockHold
  | lockCommitStep
  | lockEnd
  | noDecisionTimeout
  | servingSlotStart (port : PortId)
  -- The tiller (R135, R173, R177)
  | issueResume (core : CoreId)
  | instructionComplete (core : CoreId) (queue : UnitSlot)
  | alu (core : CoreId) (d a b : BitVec 5) (fn : BitVec 11)
  | addi (core : CoreId) (d a : BitVec 5) (imm : BitVec 16)
  | andi (core : CoreId) (d a : BitVec 5) (imm : BitVec 16)
  | ori (core : CoreId) (d a : BitVec 5) (imm : BitVec 16)
  | xori (core : CoreId) (d a : BitVec 5) (imm : BitVec 16)
  | shi (core : CoreId) (d a : BitVec 5) (imm : BitVec 16)
  | shlor (core : CoreId) (d a : BitVec 5) (imm : BitVec 16)
  | ld (core : CoreId) (d a : BitVec 5) (imm : BitVec 16)
  | ldw (core : CoreId) (d a : BitVec 5) (imm : BitVec 16)
  | st (core : CoreId) (d a : BitVec 5) (imm : BitVec 16)
  | stw (core : CoreId) (d a : BitVec 5) (imm : BitVec 16)
  | tillerLoadReturn (core : CoreId)
  | beq (core : CoreId) (a b : BitVec 5) (off : BitVec 16)
  | bne (core : CoreId) (a b : BitVec 5) (off : BitVec 16)
  | blt (core : CoreId) (a b : BitVec 5) (off : BitVec 16)
  | bge (core : CoreId) (a b : BitVec 5) (off : BitVec 16)
  | bltu (core : CoreId) (a b : BitVec 5) (off : BitVec 16)
  | bgeu (core : CoreId) (a b : BitVec 5) (off : BitVec 16)
  | jal (core : CoreId) (d : BitVec 5) (off : BitVec 21)
  | jr (core : CoreId) (d a : BitVec 5) (imm : BitVec 16)
  | rds (core : CoreId) (d : BitVec 5) (imm : BitVec 16)
  | waitq (core : CoreId) (imm : BitVec 16)
  | statq (core : CoreId) (d : BitVec 5) (imm : BitVec 16)
  | msend (core : CoreId) (d a b : BitVec 5) (fn : BitVec 11)
  | mrecv (core : CoreId) (d a b : BitVec 5) (fn : BitVec 11)
  | wfe (core : CoreId) (a : BitVec 5)
  | wfeTimeout (core : CoreId)
  -- Tile instructions (R175 to R205)
  | gemm (core : CoreId) (t : TileWords)
  | convert (core : CoreId) (t : TileWords)
  | sound (core : CoreId) (t : TileWords)
  | vectorAdd (core : CoreId) (t : TileWords)
  | vectorSub (core : CoreId) (t : TileWords)
  | vectorMul (core : CoreId) (t : TileWords)
  | vectorFma (core : CoreId) (t : TileWords)
  | vectorDiv (core : CoreId) (t : TileWords)
  | vectorSqrt (core : CoreId) (t : TileWords)
  | vectorRem (core : CoreId) (t : TileWords)
  | vectorMin (core : CoreId) (t : TileWords)
  | vectorMax (core : CoreId) (t : TileWords)
  | cmpeq (core : CoreId) (t : TileWords)
  | cmplt (core : CoreId) (t : TileWords)
  | cmple (core : CoreId) (t : TileWords)
  | cvt (core : CoreId) (t : TileWords)
  | neg (core : CoreId) (t : TileWords)
  | abs (core : CoreId) (t : TileWords)
  | vectorAnd (core : CoreId) (t : TileWords)
  | vectorOr (core : CoreId) (t : TileWords)
  | vectorXor (core : CoreId) (t : TileWords)
  | shl (core : CoreId) (t : TileWords)
  | shr (core : CoreId) (t : TileWords)
  | redsum (core : CoreId) (t : TileWords)
  | redmax (core : CoreId) (t : TileWords)
  | vectorLd (core : CoreId) (t : TileWords)
  | vectorSt (core : CoreId) (t : TileWords)
  | ldb (core : CoreId) (t : TileWords)
  | stb (core : CoreId) (t : TileWords)
  | srfw (core : CoreId) (t : TileWords)
  | moveAccToReg (core : CoreId) (t : TileWords)
  | moveRegToAcc (core : CoreId) (t : TileWords)
  | moveBasinCopy (core : CoreId) (t : TileWords)
  | moveBasinToSrf (core : CoreId) (t : TileWords)
  | moveSrfToBasin (core : CoreId) (t : TileWords)
  | moveClearRows (core : CoreId) (t : TileWords)
  | fenceQueue (core : CoreId) (t : TileWords)
  | fenceVisible (core : CoreId) (t : TileWords)
  | fenceGlobal (core : CoreId) (t : TileWords)
  | fenceEop (core : CoreId) (t : TileWords)
  | writeAcknowledged (m : Ident) (remote : Bool)
  | claimTake (core : CoreId) (t : TileWords)
  | claimTakeResume (core : CoreId)
  | claimDone (core : CoreId) (t : TileWords)
  -- Command rings (R307 to R316)
  | ringDoorbell (m : Ident) (off : BitVec 12) (size : Nat) (value : Dword)
  | ringFetch (ring : Fin 16) (remote : Option (Byte × BitVec 512))
  | ringResume (m : Ident) (ring : Fin 16)
  | nop (ring : Fin 16) (index : Word)
  | schedule (ring : Fin 16) (index : Word) (image : ScheduleImage)
  | config (ring : Fin 16) (index : Word)
  | serve (ring : Fin 16) (index : Word) (response : List Byte)
  | copy (ring : Fin 16) (index : Word)
  -- Serving intake (R317 to R321)
  | intakeFragment (port : PortId) (h : ServeHeader) (data : List Byte)
  | intakeExpiry (port : PortId) (srcAddr : BitVec 128) (srcPort : BitVec 16) (reqId : Dword)
  | intakeRefusalForget (port : PortId) (srcAddr : BitVec 128) (srcPort : BitVec 16) (reqId : Dword)
  -- DMA (R324 to R333, R515)
  | dmGo (m : Ident) (engine : EngineId) (value : Word)
  | dmaDescriptorFetch (engine : EngineId)
  | dmaCopy (engine : EngineId)
  | dmaFill (engine : EngineId)
  | dmaMsop (engine : EngineId)
  | dmaBarge (engine : EngineId)
  | dmaSignal (engine : EngineId)
  | dmaDescriptorComplete (engine : EngineId)
  | dmaResume (m : Ident) (engine : EngineId)
  | dmaAbort (m : Ident) (engine : EngineId)
  -- Mailboxes (R334 to R342)
  | mbMsgSend (m : Ident) (core : CoreId) (chan : Fin 4) (value : Word)
  | mailboxArrival
  | emptyNote
  | mbLockRead (m : Ident) (core : CoreId) (chan : Fin 4)
  | mbLockWrite (m : Ident) (core : CoreId) (chan : Fin 4) (value : Word)
  -- Training (R241, R256 to R265)
  | obsWrite (m : Ident) (core : CoreId) (index : Fin 2048) (value : Word)
  | gnPartialWrite (m : Ident) (core : CoreId) (value : Word)
  | gnDeviceSum
  | gnNorm (sums : List (BitVec 14 × Dword))
  | gnDone (norm fact : Dword) (nf : Bool)
  | lossWrite (m : Ident) (core : CoreId) (value : Word)
  | spikeSample
  -- Eweline links (R343 to R381)
  | linkTrained (port : PortId) (sub : SubId) (failed : BitVec 8) (peer : BitVec 14)
  | keyReady (port : PortId) (sub : SubId)
  | codewordTransmit (port : PortId) (sub : SubId) (at_ : Nat)
  | codewordReceive (port : PortId) (sub : SubId) (cw : Codeword)
  | nakReceived (port : PortId) (sub : SubId) (ack : BitVec 20)
  | laneFail (port : PortId) (sub : SubId) (lane : Fin 8) (uncorrectable : Nat) (correctedPpm : Nat)
  | retrainDone (port : PortId) (sub : SubId)
  | linkDown (port : PortId) (sub : SubId)
  | linkRetryTimer (port : PortId) (sub : SubId)
  | lkRetrain (m : Ident) (port : PortId) (sub : SubId)
  | lkRestore (m : Ident) (port : PortId) (sub : SubId)
  | lkTowpath (m : Ident) (port : PortId) (sub : SubId)
  | lkFullRate (m : Ident) (port : PortId) (sub : SubId)
  | lkWake (m : Ident) (port : PortId) (sub : SubId) (mask : BitVec 4)
  | portReconfigure (port : PortId) (mode split : BitVec 2)
  | rekeySwitch (port : PortId) (sub : SubId)
  | keyPhaseErase (port : PortId) (sub : SubId) (phase : Bool)
  | keyAging (port : PortId) (sub : SubId)
  | towpathChangeover (port : PortId) (sub : SubId)
  | fullRateTrained (port : PortId) (sub : SubId)
  | delayTimer (port : PortId) (sub : SubId) (t1 : BitVec 80)
  | delayReq (port : PortId) (sub : SubId) (t1 t2 t3 : BitVec 80)
  | delayResp (port : PortId) (sub : SubId) (t2 t3 t4 : BitVec 80)
  | timeSendTimer (port : PortId) (sub : SubId) (tcw : BitVec 80)
  | time (port : PortId) (sub : SubId) (tcw t2 : BitVec 80) (errBound : BitVec 16)
  | ttTimeout (port : PortId) (sub : SubId)
  | wake (port : PortId) (sub : SubId) (mask : BitVec 4)
  | towpathEnter (port : PortId) (sub : SubId)
  | fullRate (port : PortId) (sub : SubId)
  | read (port : PortId) (sub : SubId) (h : Head) (size : Nat)
  | write (port : PortId) (sub : SubId) (h : Head) (data : List Byte)
  | memorySideOperation (port : PortId) (sub : SubId) (h : Head) (operand : BitVec 512)
  | doorbell (port : PortId) (sub : SubId) (h : Head) (value : Dword)
  | mailboxSend (port : PortId) (sub : SubId) (h : Head) (message : BitVec 128)
  | readResponse (port : PortId) (sub : SubId) (h : Head) (data : List Byte)
  | writeAcknowledgement (port : PortId) (sub : SubId) (h : Head)
  | forward (port : PortId) (sub : SubId) (cls : BitVec 2) (h : Head) (data : List Byte)
  /-- `macsecGood`: the frame verifies under the key of the association that its MACsec tag names (R375). -/
  | ethFrame (port : PortId) (iface : Fin 2) (frame : EthFrame) (macsecGood : Bool)
  -- Fleets (R382 to R412)
  /-- `chainGood`: the chain of the candidate's certificates up to the Root CA verifies (R463). -/
  | admitDevice (ring : Fin 16) (index : Word) (open_ chainGood : Bool) (report : Report) (peerAccepts : Bool)
  | release (ring : Fin 16) (index : Word)
  | routes (ring : Fin 16) (index : Word)
  | broadcast (ring : Fin 16) (index : Word)
  | snapshot (ring : Fin 16) (index : Word)
  | restore (ring : Fin 16) (index : Word)
  | replace (ring : Fin 16) (index : Word) (spareHoldsCores : Bool)
  | keeperReset (ring : Fin 16) (index : Word)
  | readmit (ring : Fin 16) (index : Word)
  | fleetWake (ring : Fin 16) (index : Word)
  | group (ring : Fin 16) (index : Word)
  | withdraw (ring : Fin 16) (index : Word)
  | fleetCmd (src : Ident) (order : FleetOrder)
  | report (worker : BitVec 14) (score : Byte) (losses : List Dword) (missedLocks : LockNote) (epoch : BitVec 48)
  | chunk (number : Byte) (block : BitVec 16) (index : Byte) (data : List Byte)
  | broadcastWindowEnd
  | missing (receiver : BitVec 14) (blocks : List (BitVec 16 × BitVec 80))
  | missingRepeat
  /-- `badTries`: how often, at most, one chunk of a die's part reached its die with a bad CRC (R393). -/
  | imageVerify (badTries : Nat)
  | broadcastDeadline
  | lease (lock : Nat) (epoch : BitVec 48) (poundUs : Nat)
  | leaseAck (lock : Nat) (epoch : BitVec 48) (poundUs : Nat)
  | leaseExpiry
  | standbyTakeover
  | adrift (dev : BitVec 14) (epoch : BitVec 48)
  | repairSwitch
  | replayCheck (samples : List Dword)
  | snapshotTransferEnd (toSink : Bool) (good : Bool)
  | keeperHeartbeat
  | adriftDetect (agent : WharfId) (missed : Nat)
  -- Start-up (R413 to R423)
  | vinPowerUp (vinMv : BitVec 16)
  | keeperRailsGood (good : Bool)
  | resonatorSettled
  | bootRom (selfTestGood : Bool)
  | keeperFirmwareReady (good : Bool)
  | partitionSwitchOn (part : PartId)
  | startupCheckDone (found : List Finding)
  | linksFirstTrainingDone
  | ready
  | startFail (cause : Byte)
  -- Resets (R417, R430 to R437)
  | resetNAssert (lowNs : Nat)
  | deviceReset (m : Ident) (value : Word)
  | keeperOnlyReset (m : Ident) (value : Word)
  | keeperRestarted
  | coreReset (m : Ident) (core : BitVec 10)
  | clusterReset (m : Ident) (cluster : BitVec 10)
  | partitionReset (m : Ident) (part : BitVec 10)
  | resetDrainComplete (scope : Fin 3) (target : Fin 1024)
  | resetRelease (scope : Fin 3) (target : Fin 1024)
  | pwDomEnWrite (m : Ident) (part : PartId) (en : Bool)
  | wakingDone (part : PartId) (tookMs : Nat)
  | drainingDone (part : PartId)
  -- Self-test and repair (R424 to R429)
  | selftestFull (m : Ident)
  | selftestPart (m : Ident) (parts : BitVec 4)
  | selftestAbort (m : Ident)
  | selftestSliceEnd (failures : List Finding) (passed : List Finding)
  | selftestSliceTimeout
  | burn (m : Ident) (value : Word)
  | fuseEntryBurned (good : Bool)
  -- Security (R451 to R468)
  | attestationRequest (nonce : BitVec 256) (wantKey : Bool)
  | ephemeralKeyExpiry
  | authorisationOffer (t : Token)
  | authorisationExpiry
  | revokeSigningKey (index : Fin 4)
  | raiseRollback (value : Byte)
  | replaceOperatorKeys (hashes : List (BitVec 256)) (digest : BitVec 256)
  | sessionOpen (keyHash : BitVec 256) (exchangeGood : Bool)
  | imageSlotWrite (image : List Byte)
  | drbgReseed
  | measExtend (m : Ident) (value : Word)
  | hmKregWrite (m : Ident) (index : Fin 16) (value : Word) (epoch : BitVec 48)
  | i3cSetdasa (address : BitVec 7)
  | i3cEntdaa (address : BitVec 7)
  -- Events (R473 to R487)
  | eventReport
  | evTailWrite (m : Ident) (value : Word)
  -- Power (R488 to R514)
  | pwLimitWrite (m : Ident) (value : Word)
  | pwClkWrite (m : Ident) (value : Word)
  | limiterSample (vinMv iin10ma : BitVec 16) (avgW peakW : BitVec 16) (lowerMhz : BitVec 12)
  | clockRaise
  | throttleDown (jmax : Byte) (die : Fin 25)
  | throttleUp (jmax : Byte) (die : Fin 25)
  | thermalTrip (jmax : Byte) (hmax : Byte) (above105Ms : Nat)
  | thermalTripRelease (hottest : Byte) (coolMs : Nat)
  | uvWarn (vinMv : BitVec 16) (lastedUs : Nat)
  | ovWarn (vinMv : BitVec 16) (lastedUs : Nat)
  | railWarn (vinMv : BitVec 16) (permille : Nat) (lastedUs : Nat)
  | uvShutdown (vinMv : BitVec 16) (lastedUs : Nat)
  | ovShutdown (vinMv : BitVec 16) (lastedUs : Nat)
  | railShutdown (vinMv : BitVec 16) (permille : Nat) (overCurrent : Bool) (lastedUs : Nat)
  | overcurrentShutdown (vinMv iin10ma : BitVec 16) (lastedUs : Nat)
  | supplyShutdownRelease (vinMv : BitVec 16) (steadyMs : Nat) (resetNLowNs : Nat) (below10vMs : Nat)
  | cablePresent (port : PortId)
  | resetNRelease
  | kpResetRelease
  -- Keys and Ethernet links (R374, R462, R467)
  | linkKeyExchange (port : PortId) (sub : SubId) (good : Bool) (material : BitVec 320)
  | ethLinkUp (port : PortId) (iface : Fin 2)
  | ethLinkDown (port : PortId) (iface : Fin 2)
  -- Late rows of the table
  | keeperReportTimeout (dev : BitVec 14)
  | admitTimeout (ring : Fin 16) (index : Word)
  | ppsInFallingEdge (at_ : Nat)
  | cakDelivery (port : PortId) (iface : Fin 2) (cak : BitVec 256)
  | keeperFirmwareException (pc : Dword)
  deriving DecidableEq, Repr

end Sys2Proof
end

