-- ==== Sys2Proof/Config.lean ====
section
/-! DEFINITION. What the manual leaves open: the free values, and the functions of other standards that it names without giving. Each is a constant with no body, so no proof can see a value of it (notes/assumptions). -/

namespace Sys2Proof

/-- The `n`-th free value of a run: a value that the manual does not state. The state's counter `free` numbers
them, and a user takes as many low bits as it needs. -/
opaque Config.freeBits : Nat → Nat

/-- SM3 of a byte string (GB/T 32905), which R453, R457 and R466 name and the manual does not define. -/
opaque Config.sm3 : List Byte → BitVec 256

/-- Whether a signature (r then s) over a hash verifies under an SM2 public key (GB/T 32918.2; R453, R466). -/
opaque Config.sm2Verify : BitVec 512 → BitVec 256 → BitVec 512 → Bool

/-- What a 16-byte block that was written under one key reads as under another (SM4-XTS, R298, R299): a number of the two keys in force,
the data-unit number u, the number j of the block in its unit, and the block. -/
opaque Config.xtsAcross : Nat → Nat → Nat → Nat → Nat → Nat

/-- The SM4-GCM tag of R365, truncated to its first 64 bits: of a key, an IV, the additional data and the plaintext. -/
opaque Config.gcmTag : Nat → Nat → List Byte → List Byte → BitVec 64

/-- The SM4-GCM ciphertext of a plaintext under a key and an IV (R365). -/
opaque Config.gcmText : Nat → Nat → List Byte → List Byte

/-- The holdover error added, in ns, after a holdover of so many ns that is none of the four times of R60's
table. -/
opaque Config.holdoverBetween : Nat → Nat

/-- The result of an operation on operands for which the manual states none: a number of the operation and
its operand patterns. -/
opaque Config.unstated : Nat → Nat → Nat → Nat

end Sys2Proof
end

