-- ==== Sys2Proof/Machine/Flags.lean ====
section
/-! DEFINITION. Exact binary arithmetic, rounding and the five exception flags of the vector unit (R101, R130 to R133, R165, R198). -/

namespace Sys2Proof.Machine

/-! ## Exact values -/

/-- A finite value (-1)^neg × m × 2^e; zero keeps its sign. -/
structure Dy where
  neg : Bool
  m : Nat
  e : Int
  deriving DecidableEq, Repr

/-- A decoded element: a NaN with its sign, quiet bit and payload, an infinity, or a finite value. -/
inductive FV where
  | nan (neg quiet : Bool) (payload : Nat)
  | inf (neg : Bool)
  | fin (x : Dy)
  deriving DecidableEq, Repr

/-- The number of bits of a number. -/
def bitLen (m : Nat) : Nat := if m = 0 then 0 else Nat.log2 m + 1

/-- `m × 2^k`, with the fraction dropped for a negative `k`. -/
def shiftBy (m : Nat) (k : Int) : Nat := if 0 ≤ k then m * 2 ^ k.toNat else m / 2 ^ (-k).toNat

/-- The signed mantissa of `x` in units of `2^q`, for `q ≤ x.e`. -/
def Dy.at_ (x : Dy) (q : Int) : Int := (if x.neg then -1 else 1) * (x.m * 2 ^ (x.e - q).toNat : Nat)

/-- A signed number of units of `2^q` as a value; zero takes the sign given. -/
def Dy.ofInt (zneg : Bool) (n q : Int) : Dy := ⟨if n = 0 then zneg else decide (n < 0), n.natAbs, q⟩

/-- The exact product. -/
def Dy.mul (x y : Dy) : Dy := ⟨x.neg != y.neg, x.m * y.m, x.e + y.e⟩

/-- The exact sum; an exact zero takes the sign given, unless both are zeros of one sign. -/
def Dy.add (zneg : Bool) (x y : Dy) : Dy :=
  let q := min x.e y.e
  let z := if x.m = 0 ∧ y.m = 0 ∧ x.neg = y.neg then x.neg else zneg
  Dy.ofInt z (x.at_ q + y.at_ q) q

/-- The order of exact values. -/
def Dy.lt (x y : Dy) : Bool :=
  let q := min x.e y.e
  decide (x.at_ q < y.at_ q)

/-- The order of magnitudes. -/
def Dy.magLt (x y : Dy) : Bool :=
  let q := min x.e y.e
  decide (x.m * 2 ^ (x.e - q).toNat < y.m * 2 ^ (y.e - q).toNat)

/-- Multiplication by a power of two. -/
def Dy.scale (x : Dy) (k : Int) : Dy := { x with e := x.e + k }

/-! ## Interchange formats (R101) -/

/-- A binary format: exponent bits and fraction bits. -/
structure FFmt where
  eb : Nat
  mb : Nat
  deriving DecidableEq, Repr

def fp16F : FFmt := ⟨5, 10⟩
def bf16F : FFmt := ⟨8, 7⟩
def fp32F : FFmt := ⟨8, 23⟩
def fp64F : FFmt := ⟨11, 52⟩

def FFmt.bias (f : FFmt) : Int := 2 ^ (f.eb - 1) - 1
def FFmt.emin (f : FFmt) : Int := 1 - f.bias
def FFmt.width (f : FFmt) : Nat := f.eb + f.mb + 1
def FFmt.expAll (f : FFmt) : Nat := 2 ^ f.eb - 1

/-- The element a pattern encodes. -/
def FFmt.decode (f : FFmt) (x : Nat) : FV :=
  let neg := natBit (f.eb + f.mb) x
  let ex := natBits f.mb f.eb x
  let fr := natBits 0 f.mb x
  if ex = f.expAll then
    (if fr = 0 then .inf neg else .nan neg (natBit (f.mb - 1) fr) fr)
  else if ex = 0 then .fin ⟨neg, fr, f.emin - f.mb⟩
  else .fin ⟨neg, 2 ^ f.mb + fr, (ex : Int) - f.bias - f.mb⟩

def FFmt.sign (f : FFmt) (neg : Bool) : Nat := if neg then 2 ^ (f.eb + f.mb) else 0
def FFmt.infP (f : FFmt) (neg : Bool) : Nat := f.sign neg + f.expAll * 2 ^ f.mb
/-- The positive quiet NaN with zero payload (R102, R132). -/
def FFmt.qnan (f : FFmt) : Nat := f.expAll * 2 ^ f.mb + 2 ^ (f.mb - 1)
def FFmt.maxP (f : FFmt) (neg : Bool) : Nat := f.sign neg + (f.expAll - 1) * 2 ^ f.mb + (2 ^ f.mb - 1)

/-! ## Rounding -/

/-- The rounding directions, and the stochastic draw of R165. -/
inductive Rnd where
  | tiesEven
  | tiesAway
  | up
  | down
  | zero
  | draw (r : Nat)
  deriving DecidableEq, Repr

/-- Whether a magnitude `n + rem / 2^k` units (plus something below one part of the last place when `sticky`)
is rounded away from zero to `n + 1`. -/
def roundsUp (rm : Rnd) (neg : Bool) (n rem k : Nat) (sticky : Bool) : Bool :=
  match rm with
  | .tiesEven => decide (2 ^ k < 2 * rem) || (2 * rem == 2 ^ k && (sticky || n % 2 == 1))
  | .tiesAway => decide (2 ^ k ≤ 2 * rem)
  | .up => !neg && (rem != 0 || sticky)
  | .down => neg && (rem != 0 || sticky)
  | .zero => false
  | .draw r => decide (65536 ≤ rem * 65536 / 2 ^ k + r)

/-- The magnitude `m × 2^e` rounded to a whole number of units of `2^q`, and whether it was inexact. -/
def roundUnits (rm : Rnd) (neg : Bool) (m : Nat) (e q : Int) (sticky : Bool) : Nat × Bool :=
  if q ≤ e then (m * 2 ^ (e - q).toNat, sticky)
  else
    let k := (q - e).toNat
    let n := m / 2 ^ k
    let rem := m % 2 ^ k
    ((if roundsUp rm neg n rem k sticky then n + 1 else n), rem != 0 || sticky)

/-- Exception flags: bit 0 NV, 1 DZ, 2 OF, 3 UF, 4 NX (R169). -/
def flNV : Nat := 1
def flDZ : Nat := 2
def flOF : Nat := 4
def flUF : Nat := 8
def flNX : Nat := 16

/-- A value rounded once to a format: its pattern and the flags it raises. Tininess is detected after rounding
(R132). -/
def FFmt.round (f : FFmt) (rm : Rnd) (x : Dy) (sticky : Bool) : Nat × Nat :=
  if x.m = 0 then (f.sign x.neg, 0)
  else
    let top : Int := x.e + bitLen x.m - 1
    let qn := top - f.mb
    let q := max qn (f.emin - f.mb)
    let (n, ix) := roundUnits rm x.neg x.m x.e q sticky
    -- tiny: below the smallest normal when rounded as if the exponent were unbounded
    let free := (roundUnits rm x.neg x.m x.e qn sticky).1
    let tiny := decide (bitLen free + qn - 1 < f.emin)
    let carry := decide (2 ^ (f.mb + 1) ≤ n)
    let n' := if carry then n / 2 else n
    let q' := if carry then q + 1 else q
    let nx := if ix then flNX else 0
    if n' < 2 ^ f.mb then (f.sign x.neg + n', nx + (if tiny && ix then flUF else 0))
    else
      let ex : Int := q' + f.mb + f.bias
      if (f.expAll : Int) ≤ ex then
        let toInf := match rm with
          | .tiesEven => true
          | .tiesAway => true
          | .draw _ => true
          | .up => !x.neg
          | .down => x.neg
          | .zero => false
        ((if toInf then f.infP x.neg else f.maxP x.neg), flOF + flNX)
      else (f.sign x.neg + ex.toNat * 2 ^ f.mb + (n' - 2 ^ f.mb), nx + (if tiny && ix then flUF else 0))

/-- Round-to-nearest-even to a format, flags dropped. -/
def FFmt.rne (f : FFmt) (x : Dy) : Nat := (f.round .tiesEven x false).1

/-! ## Operations with flags (R132) -/

/-- Whether an element is a signalling NaN. -/
def FV.snan : FV → Bool
  | .nan _ q _ => !q
  | _ => false

/-- The pattern of the first NaN among the operands, quieted with its payload kept, and the flags (R132). -/
def FFmt.firstNan (f : FFmt) (xs : List FV) : Option (Nat × Nat) :=
  let nv := if xs.any FV.snan then flNV else 0
  xs.findSome? (fun x => match x with
    | .nan neg _ p => some (f.sign neg + f.expAll * 2 ^ f.mb + (p % 2 ^ (f.mb - 1)) + 2 ^ (f.mb - 1), nv)
    | _ => none)

def FFmt.invalid (f : FFmt) : Nat × Nat := (f.qnan, flNV)

/-- The sign of an exact zero sum of operands of unlike sign. -/
def zeroSign (rm : Rnd) : Bool := rm == .down

/-- Addition. -/
def FFmt.add (f : FFmt) (rm : Rnd) (x y : FV) : Nat × Nat :=
  match f.firstNan [x, y] with
  | some r => r
  | none =>
    match x, y with
    | .inf a, .inf b => if a = b then (f.infP a, 0) else f.invalid
    | .inf a, _ => (f.infP a, 0)
    | _, .inf b => (f.infP b, 0)
    | .fin a, .fin b => f.round rm (Dy.add (zeroSign rm) a b) false
    | _, _ => f.invalid

/-- The element with its sign changed. -/
def FV.negate : FV → FV
  | .nan n q p => .nan n q p
  | .inf a => .inf (!a)
  | .fin a => .fin { a with neg := !a.neg }

def FFmt.sub (f : FFmt) (rm : Rnd) (x y : FV) : Nat × Nat :=
  match f.firstNan [x, y] with
  | some r => r
  | none => f.add rm x y.negate

def FFmt.mul (f : FFmt) (rm : Rnd) (x y : FV) : Nat × Nat :=
  match f.firstNan [x, y] with
  | some r => r
  | none =>
    match x, y with
    | .inf a, .inf b => (f.infP (a != b), 0)
    | .inf a, .fin b => if b.m = 0 then f.invalid else (f.infP (a != b.neg), 0)
    | .fin a, .inf b => if a.m = 0 then f.invalid else (f.infP (a.neg != b), 0)
    | .fin a, .fin b => f.round rm (a.mul b) false
    | _, _ => f.invalid

/-- Fused multiply-add x × y + z, rounded once. 0 × ∞ with a quiet NaN addend raises no flag (DESIGN CHOICE: IEEE 754 leaves it to the
implementation, and R132 does not settle it). -/
def FFmt.fma (f : FFmt) (rm : Rnd) (x y z : FV) : Nat × Nat :=
  match f.firstNan [x, y, z] with
  | some r => r
  | none =>
    let p : Option FV :=
      match x, y with
      | .inf a, .inf b => some (.inf (a != b))
      | .inf a, .fin b => if b.m = 0 then none else some (.inf (a != b.neg))
      | .fin a, .inf b => if a.m = 0 then none else some (.inf (a.neg != b))
      | .fin a, .fin b => some (.fin (a.mul b))
      | _, _ => none
    match p with
    | none => f.invalid
    | some p => f.add rm p z

def FFmt.div (f : FFmt) (rm : Rnd) (x y : FV) : Nat × Nat :=
  match f.firstNan [x, y] with
  | some r => r
  | none =>
    match x, y with
    | .inf _, .inf _ => f.invalid
    | .inf a, .fin b => (f.infP (a != b.neg), 0)
    | .fin a, .inf b => (f.sign (a.neg != b), 0)
    | .fin a, .fin b =>
      let s := a.neg != b.neg
      if b.m = 0 then (if a.m = 0 then f.invalid else (f.infP s, flDZ))
      else
        let k := f.mb + 20 + bitLen b.m
        f.round rm ⟨s, a.m * 2 ^ k / b.m, a.e - b.e - k⟩ (a.m * 2 ^ k % b.m != 0)
    | _, _ => f.invalid

/-- The integer square root below `2^i`, from bit `i - 1` down. -/
def isqrtFrom (n : Nat) : Nat → Nat → Nat
  | 0, r => r
  | i + 1, r => isqrtFrom n i (if (r + 2 ^ i) * (r + 2 ^ i) ≤ n then r + 2 ^ i else r)

def FFmt.sqrt (f : FFmt) (rm : Rnd) (x : FV) : Nat × Nat :=
  match f.firstNan [x] with
  | some r => r
  | none =>
    match x with
    | .inf neg => if neg then f.invalid else (f.infP false, 0)
    | .fin a =>
      if a.m = 0 then (f.sign a.neg, 0)
      else if a.neg then f.invalid
      else
        let k := 2 * f.mb + 40 + (a.e % 2).toNat
        let m := a.m * 2 ^ k
        let r := isqrtFrom m ((bitLen m + 1) / 2) 0
        f.round rm ⟨false, r, (a.e - k) / 2⟩ (r * r != m)
    | _ => f.invalid

/-- Remainder: x - n y, with n the integer nearest x / y, ties to even. -/
def FFmt.rem (f : FFmt) (x y : FV) : Nat × Nat :=
  match f.firstNan [x, y] with
  | some r => r
  | none =>
    match x, y with
    | .inf _, _ => f.invalid
    | .fin a, .inf _ => f.round .tiesEven a false
    | .fin a, .fin b =>
      if b.m = 0 then f.invalid
      else
        let q := min a.e b.e
        let p := a.m * 2 ^ (a.e - q).toNat
        let d := b.m * 2 ^ (b.e - q).toNat
        let n := p / d
        let r := p % d
        let up := decide (d < 2 * r) || (2 * r == d && n % 2 == 1)
        let v : Int := if up then (r : Int) - d else r
        f.round .tiesEven (Dy.ofInt a.neg (if a.neg then -v else v) q) false
    | _, _ => f.invalid

/-- The order of minimum and maximum: -0 below +0 (IEEE 754-2019 minimum). -/
def FV.below (x y : FV) : Bool :=
  match x, y with
  | .inf a, .inf b => a && !b
  | .inf a, _ => a
  | _, .inf b => !b
  | .fin a, .fin b => if a.m = 0 ∧ b.m = 0 then a.neg && !b.neg else a.lt b
  | _, _ => false

/-- The pattern of a decoded element that is no NaN. -/
def FFmt.encode (f : FFmt) (x : FV) : Nat :=
  match x with
  | .inf a => f.infP a
  | .fin a => f.rne a
  | .nan _ _ _ => f.qnan

def FFmt.min (f : FFmt) (x y : FV) : Nat × Nat :=
  match f.firstNan [x, y] with
  | some r => r
  | none => (f.encode (if y.below x then y else x), 0)

def FFmt.max (f : FFmt) (x y : FV) : Nat × Nat :=
  match f.firstNan [x, y] with
  | some r => r
  | none => (f.encode (if x.below y then y else x), 0)

def FV.isNan : FV → Bool
  | .nan _ _ _ => true
  | _ => false

/-- Equality of elements that are no NaN; the two zeros are equal. -/
def FV.same (x y : FV) : Bool :=
  match x, y with
  | .inf a, .inf b => a == b
  | .fin a, .fin b => (a.m == 0 && b.m == 0) || (!a.lt b && !b.lt a)
  | _, _ => false

/-- Quiet equality: invalid for a signalling NaN alone. -/
def fvEq (x y : FV) : Bool × Nat := (x.same y, if x.snan || y.snan then flNV else 0)

/-- Less than: invalid for any NaN. -/
def fvLt (x y : FV) : Bool × Nat :=
  if x.isNan || y.isNan then (false, flNV) else (x.below y && !x.same y, 0)

/-- Less than or equal: invalid for any NaN. -/
def fvLe (x y : FV) : Bool × Nat :=
  if x.isNan || y.isNan then (false, flNV) else (x.below y || x.same y, 0)

/-! ## Integer types (R130, R131) -/

/-- The eight element types of R196: width, and whether signed. -/
inductive VType where
  | fp (f : FFmt)
  | int (w : Nat) (signed : Bool)
  deriving DecidableEq, Repr

/-- The type a TYPE code names (R196). -/
def vtype (t : Nat) : VType :=
  [VType.fp fp32F, .fp fp64F, .fp bf16F, .fp fp16F, .int 32 true, .int 64 true, .int 32 false, .int 64 false].getD t (.fp fp32F)

def VType.width : VType → Nat
  | .fp f => f.width
  | .int w _ => w

/-- The value of an integer element. -/
def intVal (w : Nat) (signed : Bool) (x : Nat) : Int := if signed then sext w x else (x % 2 ^ w : Nat)

def intMin (w : Nat) (signed : Bool) : Int := if signed then -(2 ^ (w - 1) : Nat) else 0
def intMax (w : Nat) (signed : Bool) : Int := if signed then (2 ^ (w - 1) : Nat) - 1 else (2 ^ w : Nat) - 1

/-- An exact integer result as an element: wrapped, or saturated and counted (R130). -/
def intResult (w : Nat) (signed sat : Bool) (x : Int) : Nat × Nat :=
  if sat && (decide (x < intMin w signed) || decide (intMax w signed < x)) then
    (((if x < intMin w signed then intMin w signed else intMax w signed) % (2 ^ w : Nat)).toNat, 1)
  else ((x % (2 ^ w : Nat)).toNat, 0)

/-- Floating-point to integer (R131): pattern, flags, saturated elements. -/
def fvToInt (rm : Rnd) (w : Nat) (signed sat : Bool) (x : FV) : Nat × Nat × Nat :=
  match x with
  | .nan _ _ _ => (0, flNV, 0)
  | .inf neg =>
    if sat then (((if neg then intMin w signed else intMax w signed) % (2 ^ w : Nat)).toNat, flNV, 1) else (0, flNV, 0)
  | .fin a =>
    let (n, ix) := roundUnits rm a.neg a.m a.e 0 false
    let v : Int := if a.neg then -(n : Int) else n
    let r := intResult w signed sat v
    if v < intMin w signed ∨ intMax w signed < v then (r.1, flNV, r.2) else (r.1, (if ix then flNX else 0), 0)

end Sys2Proof.Machine
end

