-- ==== Sys2Proof/Machine/RegNames.lean ====
section
/-! DEFINITION. The register map of R52 and every register of the spec's register tables: its address, under the spec's own name, and the places of its fields. Addresses are local addresses of R47. -/

namespace Sys2Proof.Machine

/-- A field of a register: its lowest bit and its width. -/
structure Fld where
  lo : Nat
  width : Nat
  deriving DecidableEq, Repr

/-- Base of the Keeper die's block (R52). -/
def kpBase : Nat := 0x008000000000
/-- Base of the time unit's block (R52). -/
def tmBase : Nat := 0x008000010000
/-- Base of the power block (R52). -/
def pwBase : Nat := 0x008000020000
/-- Base of the event log's block (R52). -/
def evBase : Nat := 0x008000030000
/-- The doorbell page (R312). -/
def doorbellBase : Nat := 0x008000040000
/-- Base of compute die hub `n` (R52). -/
def cdBase (n : Nat) : Nat := 0x008010000000 + n * 0x100000
/-- Base of core `c` (R52). -/
def coBase (c : Nat) : Nat := 0x008020000000 + c * 0x10000
/-- Base of wharf die `n` (R52). -/
def whBase (n : Nat) : Nat := 0x008030000000 + n * 0x10000
/-- Base of HBM controller `n` (R52). -/
def hmBase (n : Nat) : Nat := 0x008031000000 + n * 0x10000
/-- Base of link port `p` (R52). -/
def lkBase (p : Nat) : Nat := 0x008032000000 + p * 0x10000
/-- Base of DMA engine `e`: 2c + e for a core engine, 2048 + 16n + k for a wharf engine (R52). -/
def dmBase (e : Nat) : Nat :=
  if e < 2048 then 0x008040000000 + e * 0x800
  else 0x008041000000 + (e - 2048) / 16 * 0x10000 + (e - 2048) % 16 * 0x800
/-- Base of mailbox channel `x` = 4c + m (R52). -/
def mbBase (x : Nat) : Nat := 0x008050000000 + x / 4 * 0x1000 + x % 4 * 0x400
/-- Base of the event counter slice of core `c` (R52). -/
def ccBase (c : Nat) : Nat := 0x008060000000 + c * 0x1000

/-- KP_PART_INFO (R5). -/
def KP_PART_INFO : Nat := kpBase + 0x10
def KP_PART_INFO_CODE : Fld := ⟨0, 4⟩
def KP_PART_INFO_CLK_MAX : Fld := ⟨4, 12⟩
def KP_PART_INFO_PWR_MAX : Fld := ⟨16, 8⟩
/-- CD_DIE_INFO (R29). -/
def CD_DIE_INFO (n : Nat) : Nat := cdBase n + 0x0
def CD_DIE_INFO_DIE : Fld := ⟨0, 4⟩
def CD_DIE_INFO_PARTITION : Fld := ⟨4, 2⟩
def CD_DIE_INFO_CORES_PRESENT : Fld := ⟨8, 7⟩
def CD_DIE_INFO_SPARE_USED : Fld := ⟨16, 4⟩
/-- CD_CORE_MAP_i (R30). -/
def CD_CORE_MAP (n i : Nat) : Nat := cdBase n + 0x100 + 0x4 * i
def CD_CORE_MAP_SITE : Fld := ⟨0, 7⟩
def CD_CORE_MAP_PRESENT : Fld := ⟨7, 1⟩
def CD_CORE_MAP_SPARE : Fld := ⟨8, 1⟩
/-- KP_CORE_COUNT (R31). -/
def KP_CORE_COUNT : Nat := kpBase + 0x14
def KP_CORE_COUNT_PRESENT : Fld := ⟨0, 11⟩
def KP_CORE_COUNT_SPARES_USED : Fld := ⟨16, 16⟩
/-- TM_NOW_0 (R92). -/
def TM_NOW_0 : Nat := tmBase + 0x0
def TM_NOW_0_FRAC : Fld := ⟨0, 16⟩
def TM_NOW_0_NS_LO : Fld := ⟨16, 16⟩
/-- TM_NOW_1 (R92). -/
def TM_NOW_1 : Nat := tmBase + 0x4
def TM_NOW_1_NS_MID : Fld := ⟨0, 32⟩
/-- TM_NOW_2 (R92). -/
def TM_NOW_2 : Nat := tmBase + 0x8
def TM_NOW_2_NS_HI : Fld := ⟨0, 16⟩
/-- TM_SRC_STATUS (R92). -/
def TM_SRC_STATUS : Nat := tmBase + 0x10
def TM_SRC_STATUS_ACTIVE : Fld := ⟨0, 2⟩
def TM_SRC_STATUS_PPS_OK : Fld := ⟨2, 1⟩
def TM_SRC_STATUS_REF_OK : Fld := ⟨3, 1⟩
def TM_SRC_STATUS_PTP_OK : Fld := ⟨4, 1⟩
def TM_SRC_STATUS_EWE_OK : Fld := ⟨5, 1⟩
def TM_SRC_STATUS_TOD_VALID : Fld := ⟨6, 1⟩
def TM_SRC_STATUS_TIME_LOST : Fld := ⟨7, 1⟩
def TM_SRC_STATUS_ERR_BOUND : Fld := ⟨16, 16⟩
/-- TM_SRC_CTRL (R92). -/
def TM_SRC_CTRL : Nat := tmBase + 0x14
def TM_SRC_CTRL_PPS_EN : Fld := ⟨0, 1⟩
def TM_SRC_CTRL_PTP_EN : Fld := ⟨1, 1⟩
def TM_SRC_CTRL_EWE_EN : Fld := ⟨2, 1⟩
def TM_SRC_CTRL_PTP_PORT : Fld := ⟨4, 4⟩
/-- TM_PPS_DELAY (R92). -/
def TM_PPS_DELAY : Nat := tmBase + 0x18
def TM_PPS_DELAY_DELAY : Fld := ⟨0, 16⟩
/-- TM_EPOCH_0 (R92). -/
def TM_EPOCH_0 : Nat := tmBase + 0x20
def TM_EPOCH_0_EPOCH_LO : Fld := ⟨0, 32⟩
/-- TM_EPOCH_1 (R92). -/
def TM_EPOCH_1 : Nat := tmBase + 0x24
def TM_EPOCH_1_EPOCH_HI : Fld := ⟨0, 16⟩
/-- TM_NEXT_LOCK_0 (R92). -/
def TM_NEXT_LOCK_0 : Nat := tmBase + 0x28
def TM_NEXT_LOCK_0_LOCK_LO : Fld := ⟨0, 32⟩
/-- TM_NEXT_LOCK_1 (R92). -/
def TM_NEXT_LOCK_1 : Nat := tmBase + 0x2C
def TM_NEXT_LOCK_1_LOCK_HI : Fld := ⟨0, 32⟩
/-- TM_SCHED_0 (R92). -/
def TM_SCHED_0 : Nat := tmBase + 0x30
def TM_SCHED_0_POUND_US : Fld := ⟨0, 24⟩
def TM_SCHED_0_RETAIN : Fld := ⟨24, 3⟩
/-- TM_SCHED_1 (R92). -/
def TM_SCHED_1 : Nat := tmBase + 0x34
def TM_SCHED_1_VOTE_LEAD : Fld := ⟨0, 16⟩
def TM_SCHED_1_SERVE_SLOT : Fld := ⟨16, 16⟩
/-- TM_LOCK_STATUS (R92). -/
def TM_LOCK_STATUS : Nat := tmBase + 0x38
def TM_LOCK_STATUS_STATE : Fld := ⟨0, 3⟩
def TM_LOCK_STATUS_LAST : Fld := ⟨3, 2⟩
def TM_LOCK_STATUS_HOLDS : Fld := ⟨8, 8⟩
def TM_LOCK_STATUS_VOTE : Fld := ⟨16, 2⟩
/-- TM_LOCK_CTRL (R92). -/
def TM_LOCK_CTRL : Nat := tmBase + 0x3C
def TM_LOCK_CTRL_HOLD_LIMIT : Fld := ⟨0, 8⟩
def TM_LOCK_CTRL_PPS_OUT_EN : Fld := ⟨8, 1⟩
/-- CO_VCTRL (R169). -/
def CO_VCTRL (c : Nat) : Nat := coBase c + 0x100
def CO_VCTRL_RM : Fld := ⟨0, 3⟩
/-- CO_VFLAGS (R169). -/
def CO_VFLAGS (c : Nat) : Nat := coBase c + 0x104
def CO_VFLAGS_NV : Fld := ⟨0, 1⟩
def CO_VFLAGS_DZ : Fld := ⟨1, 1⟩
def CO_VFLAGS_OF : Fld := ⟨2, 1⟩
def CO_VFLAGS_UF : Fld := ⟨3, 1⟩
def CO_VFLAGS_NX : Fld := ⟨4, 1⟩
/-- CO_SR_SEED_0 (R169). -/
def CO_SR_SEED_0 (c : Nat) : Nat := coBase c + 0x108
def CO_SR_SEED_0_SEED_LO : Fld := ⟨0, 32⟩
/-- CO_SR_SEED_1 (R169). -/
def CO_SR_SEED_1 (c : Nat) : Nat := coBase c + 0x10C
def CO_SR_SEED_1_SEED_HI : Fld := ⟨0, 32⟩
/-- CO_CNT_RESERVED (R169). -/
def CO_CNT_RESERVED (c : Nat) : Nat := coBase c + 0x110
def CO_CNT_RESERVED_COUNT : Fld := ⟨0, 32⟩
/-- CO_CNT_INTSAT (R169). -/
def CO_CNT_INTSAT (c : Nat) : Nat := coBase c + 0x114
def CO_CNT_INTSAT_COUNT : Fld := ⟨0, 32⟩
/-- CO_CNT_REFRAME (R169). -/
def CO_CNT_REFRAME (c : Nat) : Nat := coBase c + 0x118
def CO_CNT_REFRAME_COUNT : Fld := ⟨0, 32⟩
/-- CO_CNT_OVERRANGE (R169). -/
def CO_CNT_OVERRANGE (c : Nat) : Nat := coBase c + 0x11C
def CO_CNT_OVERRANGE_COUNT : Fld := ⟨0, 32⟩
/-- CO_UNIT_BUSY (R169). -/
def CO_UNIT_BUSY (c : Nat) : Nat := coBase c + 0x120
def CO_UNIT_BUSY_F : Fld := ⟨0, 1⟩
def CO_UNIT_BUSY_BD : Fld := ⟨1, 1⟩
def CO_UNIT_BUSY_BW : Fld := ⟨2, 1⟩
def CO_UNIT_BUSY_CV0 : Fld := ⟨3, 1⟩
def CO_UNIT_BUSY_CV1 : Fld := ⟨4, 1⟩
def CO_UNIT_BUSY_VU : Fld := ⟨5, 1⟩
/-- Converter statistics slot t: SSE_LO (R169). -/
def CO_STAT_SSE_0 (c t : Nat) : Nat := coBase c + 0x1000 + 0x20 * t
def CO_STAT_SSE_0_SSE_LO : Fld := ⟨0, 32⟩
/-- Converter statistics slot t: SSE_HI (R169). -/
def CO_STAT_SSE_1 (c t : Nat) : Nat := coBase c + 0x1004 + 0x20 * t
def CO_STAT_SSE_1_SSE_HI : Fld := ⟨0, 32⟩
/-- Converter statistics slot t: COUNT_LO (R169). -/
def CO_STAT_COUNT_0 (c t : Nat) : Nat := coBase c + 0x1008 + 0x20 * t
def CO_STAT_COUNT_0_COUNT_LO : Fld := ⟨0, 32⟩
/-- Converter statistics slot t: COUNT_HI (R169). -/
def CO_STAT_COUNT_1 (c t : Nat) : Nat := coBase c + 0x100C + 0x20 * t
def CO_STAT_COUNT_1_COUNT_HI : Fld := ⟨0, 16⟩
/-- Converter statistics slot t: SAT_CNT (R169). -/
def CO_STAT_SAT_CNT (c t : Nat) : Nat := coBase c + 0x1010 + 0x20 * t
def CO_STAT_SAT_CNT_SAT_CNT : Fld := ⟨0, 32⟩
/-- Converter statistics slot t: FLUSH_CNT (R169). -/
def CO_STAT_FLUSH_CNT (c t : Nat) : Nat := coBase c + 0x1014 + 0x20 * t
def CO_STAT_FLUSH_CNT_FLUSH_CNT : Fld := ⟨0, 32⟩
/-- Converter statistics slot t: REGAUGE_CNT (R169). -/
def CO_STAT_REGAUGE_CNT (c t : Nat) : Nat := coBase c + 0x1018 + 0x20 * t
def CO_STAT_REGAUGE_CNT_REGAUGE_CNT : Fld := ⟨0, 32⟩
/-- Converter statistics slot t: AMAX (R169). -/
def CO_STAT_AMAX (c t : Nat) : Nat := coBase c + 0x101C + 0x20 * t
def CO_STAT_AMAX_AMAX : Fld := ⟨0, 32⟩
/-- CO_SRF_i (R169). -/
def CO_SRF (c i : Nat) : Nat := coBase c + 0x8000 + 0x4 * i
def CO_SRF_ENTRY : Fld := ⟨0, 32⟩
/-- CO_ENTRY (R212). -/
def CO_ENTRY (c : Nat) : Nat := coBase c + 0x0
def CO_ENTRY_OFFSET : Fld := ⟨0, 25⟩
/-- CO_ENTRY_WIDE (R212). -/
def CO_ENTRY_WIDE (c : Nat) : Nat := coBase c + 0x4
def CO_ENTRY_WIDE_OFFSET : Fld := ⟨0, 25⟩
/-- CO_BTAB (R212). -/
def CO_BTAB (c : Nat) : Nat := coBase c + 0x8
def CO_BTAB_OFFSET : Fld := ⟨0, 25⟩
/-- CO_TSTATUS (R212). -/
def CO_TSTATUS (c : Nat) : Nat := coBase c + 0x10
def CO_TSTATUS_STATE : Fld := ⟨0, 3⟩
def CO_TSTATUS_FAULT_T : Fld := ⟨3, 1⟩
def CO_TSTATUS_FAULT : Fld := ⟨8, 8⟩
def CO_TSTATUS_FAULT_Q : Fld := ⟨16, 3⟩
def CO_TSTATUS_CLAIM_ONLY : Fld := ⟨19, 1⟩
def CO_TSTATUS_TOKENS : Fld := ⟨20, 3⟩
/-- CO_FAULT_PC (R212). -/
def CO_FAULT_PC (c : Nat) : Nat := coBase c + 0x14
def CO_FAULT_PC_PC : Fld := ⟨0, 25⟩
/-- CO_QDEPTH (R212). -/
def CO_QDEPTH (c : Nat) : Nat := coBase c + 0x18
def CO_QDEPTH_DEPTH (q : Nat) : Fld := ⟨4 * q, 4⟩
/-- CO_LASTST_0 (R212). -/
def CO_LASTST_0 (c : Nat) : Nat := coBase c + 0x1C
def CO_LASTST_0_ST (q : Nat) : Fld := ⟨8 * q, 8⟩
/-- CO_LASTST_1 (R212). -/
def CO_LASTST_1 (c : Nat) : Nat := coBase c + 0x20
def CO_LASTST_1_ST (q : Nat) : Fld := ⟨8 * q, 8⟩
/-- CO_TRK_CFG_t (R240). -/
def CO_TRK_CFG (c t : Nat) : Nat := coBase c + 0x2000 + 0x10 * t
def CO_TRK_CFG_KIND : Fld := ⟨0, 3⟩
def CO_TRK_CFG_MODE : Fld := ⟨3, 1⟩
def CO_TRK_CFG_HIST_M1 : Fld := ⟨4, 4⟩
def CO_TRK_CFG_HEAD : Fld := ⟨8, 2⟩
def CO_TRK_CFG_CLR : Fld := ⟨10, 1⟩
def CO_TRK_CFG_TFMT : Fld := ⟨12, 4⟩
def CO_TRK_CFG_GAUGE_N : Fld := ⟨16, 15⟩
/-- CO_TRK_REC_t (R240). -/
def CO_TRK_REC (c t : Nat) : Nat := coBase c + 0x2004 + 0x10 * t
def CO_TRK_REC_REC_BASE : Fld := ⟨0, 12⟩
def CO_TRK_REC_REC_CNT_M1 : Fld := ⟨12, 12⟩
/-- CO_TRK_OBS_t (R240). -/
def CO_TRK_OBS (c t : Nat) : Nat := coBase c + 0x2008 + 0x10 * t
def CO_TRK_OBS_OBS_BASE : Fld := ⟨0, 11⟩
/-- CO_TRK_STATUS_t (R240). -/
def CO_TRK_STATUS (c t : Nat) : Nat := coBase c + 0x200C + 0x10 * t
def CO_TRK_STATUS_FILL : Fld := ⟨0, 5⟩
def CO_TRK_STATUS_HPTR : Fld := ⟨5, 4⟩
def CO_TRK_STATUS_FELL_BACK : Fld := ⟨9, 1⟩
def CO_TRK_STATUS_RG_RUN : Fld := ⟨10, 3⟩
def CO_TRK_STATUS_RG : Fld := ⟨13, 1⟩
def CO_TRK_STATUS_SAT_SEEN : Fld := ⟨14, 1⟩
def CO_TRK_STATUS_FLUSH_RG : Fld := ⟨15, 1⟩
def CO_TRK_STATUS_PACK : Fld := ⟨16, 1⟩
def CO_TRK_STATUS_GAUGED : Fld := ⟨17, 15⟩
/-- CO_OBS_i (R241). -/
def CO_OBS (c i : Nat) : Nat := coBase c + 0x4000 + 0x4 * i
def CO_OBS_VALUE : Fld := ⟨0, 32⟩
/-- CO_SND_CFG_l (R242). -/
def CO_SND_CFG (c l : Nat) : Nat := coBase c + 0x2400 + 0x8 * l
def CO_SND_CFG_TFMT : Fld := ⟨0, 4⟩
def CO_SND_CFG_TR : Fld := ⟨4, 1⟩
def CO_SND_CFG_PERCOL : Fld := ⟨5, 1⟩
def CO_SND_CFG_SAT : Fld := ⟨6, 2⟩
def CO_SND_CFG_SREC : Fld := ⟨8, 13⟩
def CO_SND_CFG_DEMAND : Fld := ⟨21, 11⟩
/-- CO_SND_THR_l (R242). -/
def CO_SND_THR (c l : Nat) : Nat := coBase c + 0x2404 + 0x8 * l
def CO_SND_THR_THR : Fld := ⟨0, 32⟩
/-- CO_SLUICE_k (R243). -/
def CO_SLUICE (c k : Nat) : Nat := coBase c + 0x140 + 0x4 * k
def CO_SLUICE_SET : Fld := ⟨0, 32⟩
/-- CO_SND_FAIL_k (R243). -/
def CO_SND_FAIL (c k : Nat) : Nat := coBase c + 0x160 + 0x4 * k
def CO_SND_FAIL_FAIL : Fld := ⟨0, 32⟩
/-- CO_SND_DONE (R243). -/
def CO_SND_DONE (c : Nat) : Nat := coBase c + 0x180
def CO_SND_DONE_COUNT : Fld := ⟨0, 32⟩
/-- CO_SND_FAILED (R243). -/
def CO_SND_FAILED (c : Nat) : Nat := coBase c + 0x184
def CO_SND_FAILED_COUNT : Fld := ⟨0, 32⟩
/-- CO_WIDE_POOL (R243). -/
def CO_WIDE_POOL (c : Nat) : Nat := coBase c + 0x188
def CO_WIDE_POOL_POOL : Fld := ⟨0, 16⟩
def CO_WIDE_POOL_DEMAND : Fld := ⟨16, 16⟩
/-- CO_TRK_DROPPED (R243). -/
def CO_TRK_DROPPED (c : Nat) : Nat := coBase c + 0x18C
def CO_TRK_DROPPED_COUNT : Fld := ⟨0, 32⟩
/-- KP_SLUICE_CTRL (R244). -/
def KP_SLUICE_CTRL : Nat := kpBase + 0x100
def KP_SLUICE_CTRL_SLUICE_POUNDS : Fld := ⟨0, 15⟩
def KP_SLUICE_CTRL_ALL_WIDE : Fld := ⟨16, 1⟩
def KP_SLUICE_CTRL_OVER : Fld := ⟨17, 1⟩
/-- KP_SLUICE_OVERCOMMITS (R244). -/
def KP_SLUICE_OVERCOMMITS : Nat := kpBase + 0x104
def KP_SLUICE_OVERCOMMITS_COUNT : Fld := ⟨0, 32⟩
/-- KP_SLUICE_SET_k (R244). -/
def KP_SLUICE_SET (k : Nat) : Nat := kpBase + 0x120 + 0x4 * k
def KP_SLUICE_SET_SET : Fld := ⟨0, 32⟩
/-- KP_SLUICE_PEND_k (R244). -/
def KP_SLUICE_PEND (k : Nat) : Nat := kpBase + 0x140 + 0x4 * k
def KP_SLUICE_PEND_PEND : Fld := ⟨0, 32⟩
/-- KP_SLUICE_LEFT_l (R244). -/
def KP_SLUICE_LEFT (l : Nat) : Nat := kpBase + 0x400 + 0x4 * l
def KP_SLUICE_LEFT_LEFT : Fld := ⟨0, 16⟩
/-- CO_LOSS_0 (R273). -/
def CO_LOSS_0 (c : Nat) : Nat := coBase c + 0x200
def CO_LOSS_0_LOSS_LO : Fld := ⟨0, 32⟩
/-- CO_LOSS_1 (R273). -/
def CO_LOSS_1 (c : Nat) : Nat := coBase c + 0x204
def CO_LOSS_1_LOSS_HI : Fld := ⟨0, 32⟩
/-- CO_GN_PART_0 (R273). -/
def CO_GN_PART_0 (c : Nat) : Nat := coBase c + 0x208
def CO_GN_PART_0_PART_LO : Fld := ⟨0, 32⟩
/-- CO_GN_PART_1 (R273). -/
def CO_GN_PART_1 (c : Nat) : Nat := coBase c + 0x20C
def CO_GN_PART_1_PART_HI : Fld := ⟨0, 32⟩
/-- CO_GN_NORM_0 (R273). -/
def CO_GN_NORM_0 (c : Nat) : Nat := coBase c + 0x210
def CO_GN_NORM_0_NORM_LO : Fld := ⟨0, 32⟩
/-- CO_GN_NORM_1 (R273). -/
def CO_GN_NORM_1 (c : Nat) : Nat := coBase c + 0x214
def CO_GN_NORM_1_NORM_HI : Fld := ⟨0, 32⟩
/-- CO_GN_FACT_0 (R273). -/
def CO_GN_FACT_0 (c : Nat) : Nat := coBase c + 0x218
def CO_GN_FACT_0_FACT_LO : Fld := ⟨0, 32⟩
/-- CO_GN_FACT_1 (R273). -/
def CO_GN_FACT_1 (c : Nat) : Nat := coBase c + 0x21C
def CO_GN_FACT_1_FACT_HI : Fld := ⟨0, 32⟩
/-- CO_GN_STATUS (R273). -/
def CO_GN_STATUS (c : Nat) : Nat := coBase c + 0x220
def CO_GN_STATUS_SENT : Fld := ⟨0, 1⟩
def CO_GN_STATUS_DONE : Fld := ⟨1, 1⟩
def CO_GN_STATUS_NF : Fld := ⟨2, 1⟩
/-- CO_GN_FACT32 (R273). -/
def CO_GN_FACT32 (c : Nat) : Nat := coBase c + 0x224
def CO_GN_FACT32_FACT : Fld := ⟨0, 32⟩
/-- CO_NF_CNT_k (R273). -/
def CO_NF_CNT (c k : Nat) : Nat := coBase c + 0x230 + 0x4 * k
def CO_NF_CNT_COUNT : Fld := ⟨0, 32⟩
/-- KP_TRAIN_CTRL (R274). -/
def KP_TRAIN_CTRL : Nat := kpBase + 0x200
def KP_TRAIN_CTRL_TRAIN_EN : Fld := ⟨0, 1⟩
def KP_TRAIN_CTRL_GN_EN : Fld := ⟨1, 1⟩
def KP_TRAIN_CTRL_SKIP_MASK : Fld := ⟨2, 6⟩
def KP_TRAIN_CTRL_EMPTY_LIMIT : Fld := ⟨8, 8⟩
/-- KP_TRAIN_LAST (R274). -/
def KP_TRAIN_LAST : Nat := kpBase + 0x204
def KP_TRAIN_LAST_OUTCOME : Fld := ⟨0, 2⟩
def KP_TRAIN_LAST_CAUSES : Fld := ⟨2, 6⟩
def KP_TRAIN_LAST_EMPTIES : Fld := ⟨8, 8⟩
/-- KP_STEP_0 (R274). -/
def KP_STEP_0 : Nat := kpBase + 0x208
def KP_STEP_0_STEP_LO : Fld := ⟨0, 32⟩
/-- KP_STEP_1 (R274). -/
def KP_STEP_1 : Nat := kpBase + 0x20C
def KP_STEP_1_STEP_HI : Fld := ⟨0, 16⟩
/-- KP_CURSOR_0 (R274). -/
def KP_CURSOR_0 : Nat := kpBase + 0x210
def KP_CURSOR_0_CUR_LO : Fld := ⟨0, 32⟩
/-- KP_CURSOR_1 (R274). -/
def KP_CURSOR_1 : Nat := kpBase + 0x214
def KP_CURSOR_1_CUR_HI : Fld := ⟨0, 16⟩
/-- KP_GN_MAX_0 (R274). -/
def KP_GN_MAX_0 : Nat := kpBase + 0x218
def KP_GN_MAX_0_MAX_LO : Fld := ⟨0, 32⟩
/-- KP_GN_MAX_1 (R274). -/
def KP_GN_MAX_1 : Nat := kpBase + 0x21C
def KP_GN_MAX_1_MAX_HI : Fld := ⟨0, 32⟩
/-- KP_GN_SUM_0 (R274). -/
def KP_GN_SUM_0 : Nat := kpBase + 0x220
def KP_GN_SUM_0_SUM_LO : Fld := ⟨0, 32⟩
/-- KP_GN_SUM_1 (R274). -/
def KP_GN_SUM_1 : Nat := kpBase + 0x224
def KP_GN_SUM_1_SUM_HI : Fld := ⟨0, 32⟩
/-- KP_NF_ACT (R274). -/
def KP_NF_ACT : Nat := kpBase + 0x228
def KP_NF_ACT_ACT (q : Nat) : Fld := ⟨2 * q, 2⟩
/-- KP_NF_POUND_k (R274). -/
def KP_NF_POUND (k : Nat) : Nat := kpBase + 0x230 + 0x4 * k
def KP_NF_POUND_COUNT : Fld := ⟨0, 32⟩
/-- KP_SPIKE_CFG_c (R274). -/
def KP_SPIKE_CFG (c : Nat) : Nat := kpBase + 0x240 + 0x20 * c
def KP_SPIKE_CFG_ACT : Fld := ⟨0, 2⟩
def KP_SPIKE_CFG_ALPHA_SH : Fld := ⟨2, 5⟩
def KP_SPIKE_CFG_LIMIT : Fld := ⟨8, 8⟩
def KP_SPIKE_CFG_LOSS_CORE : Fld := ⟨16, 10⟩
/-- KP_SPIKE_WARM_c (R274). -/
def KP_SPIKE_WARM (c : Nat) : Nat := kpBase + 0x244 + 0x20 * c
def KP_SPIKE_WARM_WARMUP : Fld := ⟨0, 16⟩
/-- KP_SPIKE_THR_c (R274). -/
def KP_SPIKE_THR (c : Nat) : Nat := kpBase + 0x248 + 0x20 * c
def KP_SPIKE_THR_THR : Fld := ⟨0, 32⟩
/-- KP_SPIKE_STATUS_c (R274). -/
def KP_SPIKE_STATUS (c : Nat) : Nat := kpBase + 0x24C + 0x20 * c
def KP_SPIKE_STATUS_RUN : Fld := ⟨0, 8⟩
def KP_SPIKE_STATUS_FIRED : Fld := ⟨8, 1⟩
def KP_SPIKE_STATUS_N : Fld := ⟨16, 16⟩
/-- KP_SPIKE_MEAN_c, word 0 (R274). -/
def KP_SPIKE_MEAN_0 (c : Nat) : Nat := kpBase + 0x250 + 0x20 * c
def KP_SPIKE_MEAN_0_MEAN : Fld := ⟨0, 32⟩
/-- KP_SPIKE_MEAN_c, word 1 (R274). -/
def KP_SPIKE_MEAN_1 (c : Nat) : Nat := kpBase + 0x254 + 0x20 * c
def KP_SPIKE_MEAN_1_MEAN : Fld := ⟨0, 32⟩
/-- KP_SPIKE_VAR_c, word 0 (R274). -/
def KP_SPIKE_VAR_0 (c : Nat) : Nat := kpBase + 0x258 + 0x20 * c
def KP_SPIKE_VAR_0_VAR : Fld := ⟨0, 32⟩
/-- KP_SPIKE_VAR_c, word 1 (R274). -/
def KP_SPIKE_VAR_1 (c : Nat) : Nat := kpBase + 0x25C + 0x20 * c
def KP_SPIKE_VAR_1_VAR : Fld := ⟨0, 32⟩
/-- KP_C1WIN_S_i (R274). -/
def KP_C1WIN_S (i : Nat) : Nat := kpBase + 0x280 + 0x8 * i
def KP_C1WIN_S_START : Fld := ⟨0, 24⟩
/-- KP_C1WIN_L_i (R274). -/
def KP_C1WIN_L (i : Nat) : Nat := kpBase + 0x284 + 0x8 * i
def KP_C1WIN_L_LEN : Fld := ⟨0, 24⟩
/-- HM_CFG (R304). -/
def HM_CFG (n : Nat) : Nat := hmBase n + 0x0
def HM_CFG_INTEG : Fld := ⟨0, 1⟩
def HM_CFG_REF2X : Fld := ⟨1, 1⟩
/-- HM_STATUS (R304). -/
def HM_STATUS (n : Nat) : Nat := hmBase n + 0x4
def HM_STATUS_TRAINED : Fld := ⟨0, 1⟩
def HM_STATUS_INIT_DONE : Fld := ⟨1, 1⟩
def HM_STATUS_REFRESH_2X : Fld := ⟨2, 1⟩
def HM_STATUS_REPAIR_EXHAUSTED : Fld := ⟨3, 1⟩
def HM_STATUS_INIT_LOCK : Fld := ⟨4, 1⟩
def HM_STATUS_TEMP : Fld := ⟨8, 8⟩
def HM_STATUS_LANES : Fld := ⟨16, 8⟩
/-- HM_REPAIR_c (R304). -/
def HM_REPAIR (n c : Nat) : Nat := hmBase n + 0x40 + 0x4 * c
def HM_REPAIR_PC0 : Fld := ⟨0, 2⟩
def HM_REPAIR_PC1 : Fld := ⟨2, 2⟩
def HM_REPAIR_CA : Fld := ⟨4, 1⟩
def HM_REPAIR_FAILED : Fld := ⟨5, 1⟩
/-- HM_CE_CNT (R304). -/
def HM_CE_CNT (n : Nat) : Nat := hmBase n + 0x80
def HM_CE_CNT_COUNT : Fld := ⟨0, 32⟩
/-- HM_UE_CNT (R304). -/
def HM_UE_CNT (n : Nat) : Nat := hmBase n + 0x84
def HM_UE_CNT_COUNT : Fld := ⟨0, 32⟩
/-- HM_MAC_FAIL (R304). -/
def HM_MAC_FAIL (n : Nat) : Nat := hmBase n + 0x88
def HM_MAC_FAIL_COUNT : Fld := ⟨0, 32⟩
/-- HM_RMW_CNT (R304). -/
def HM_RMW_CNT (n : Nat) : Nat := hmBase n + 0x8C
def HM_RMW_CNT_COUNT : Fld := ⟨0, 32⟩
/-- HM_MSOP_NF (R304). -/
def HM_MSOP_NF (n : Nat) : Nat := hmBase n + 0x90
def HM_MSOP_NF_COUNT : Fld := ⟨0, 32⟩
/-- HM_NARROW_CNT (R304). -/
def HM_NARROW_CNT (n : Nat) : Nat := hmBase n + 0x94
def HM_NARROW_CNT_COUNT : Fld := ⟨0, 32⟩
/-- HM_RD_BYTES_0 (R304). -/
def HM_RD_BYTES_0 (n : Nat) : Nat := hmBase n + 0xA0
def HM_RD_BYTES_0_LO : Fld := ⟨0, 32⟩
/-- HM_RD_BYTES_1 (R304). -/
def HM_RD_BYTES_1 (n : Nat) : Nat := hmBase n + 0xA4
def HM_RD_BYTES_1_HI : Fld := ⟨0, 32⟩
/-- HM_WR_BYTES_0 (R304). -/
def HM_WR_BYTES_0 (n : Nat) : Nat := hmBase n + 0xA8
def HM_WR_BYTES_0_LO : Fld := ⟨0, 32⟩
/-- HM_WR_BYTES_1 (R304). -/
def HM_WR_BYTES_1 (n : Nat) : Nat := hmBase n + 0xAC
def HM_WR_BYTES_1_HI : Fld := ⟨0, 32⟩
/-- HM_SCRUB (R304). -/
def HM_SCRUB (n : Nat) : Nat := hmBase n + 0xB0
def HM_SCRUB_PERIOD : Fld := ⟨0, 16⟩
def HM_SCRUB_DONE_PCT : Fld := ⟨16, 8⟩
/-- HM_KREG_i (R304). -/
def HM_KREG (n i : Nat) : Nat := hmBase n + 0x100 + 0x4 * i
def HM_KREG_BASE : Fld := ⟨0, 8⟩
def HM_KREG_LAST : Fld := ⟨8, 8⟩
def HM_KREG_SLOT : Fld := ⟨16, 3⟩
def HM_KREG_VALID : Fld := ⟨31, 1⟩
/-- KP_RING_BASE_0_r (R315). -/
def KP_RING_BASE_0 (r : Nat) : Nat := kpBase + 0x800 + 0x20 * r
def KP_RING_BASE_0_BASE_LO : Fld := ⟨12, 20⟩
/-- KP_RING_BASE_1_r (R315). -/
def KP_RING_BASE_1 (r : Nat) : Nat := kpBase + 0x804 + 0x20 * r
def KP_RING_BASE_1_BASE_HI : Fld := ⟨0, 32⟩
/-- KP_RING_CFG_r (R315). -/
def KP_RING_CFG (r : Nat) : Nat := kpBase + 0x808 + 0x20 * r
def KP_RING_CFG_EN : Fld := ⟨0, 1⟩
def KP_RING_CFG_SIZE_LOG2 : Fld := ⟨1, 5⟩
/-- KP_RING_OWNER_r (R315). -/
def KP_RING_OWNER (r : Nat) : Nat := kpBase + 0x80C + 0x20 * r
def KP_RING_OWNER_OWNER : Fld := ⟨0, 26⟩
/-- KP_RING_PROD_r (R315). -/
def KP_RING_PROD (r : Nat) : Nat := kpBase + 0x810 + 0x20 * r
def KP_RING_PROD_PROD : Fld := ⟨0, 32⟩
/-- KP_RING_CONS_r (R315). -/
def KP_RING_CONS (r : Nat) : Nat := kpBase + 0x814 + 0x20 * r
def KP_RING_CONS_CONS : Fld := ⟨0, 32⟩
/-- KP_RING_STATUS_r (R315). -/
def KP_RING_STATUS (r : Nat) : Nat := kpBase + 0x818 + 0x20 * r
def KP_RING_STATUS_STATE : Fld := ⟨0, 2⟩
def KP_RING_STATUS_CODE : Fld := ⟨8, 8⟩
def KP_RING_STATUS_IGNORED : Fld := ⟨16, 16⟩
/-- KP_RING_CTRL_r (R315). -/
def KP_RING_CTRL (r : Nat) : Nat := kpBase + 0x81C + 0x20 * r
def KP_RING_CTRL_RESUME : Fld := ⟨0, 1⟩
/-- WH_INTAKE_CFG (R323). -/
def WH_INTAKE_CFG (n h : Nat) : Nat := whBase n + 0x100 + 0x20 * h
def WH_INTAKE_CFG_EN : Fld := ⟨0, 1⟩
def WH_INTAKE_CFG_RING : Fld := ⟨1, 4⟩
def WH_INTAKE_CFG_UDP_PORT : Fld := ⟨16, 16⟩
/-- WH_INTAKE_POOL (R323). -/
def WH_INTAKE_POOL (n h : Nat) : Nat := whBase n + 0x104 + 0x20 * h
def WH_INTAKE_POOL_BASE_MIB : Fld := ⟨0, 18⟩
/-- WH_INTAKE_SIZE (R323). -/
def WH_INTAKE_SIZE (n h : Nat) : Nat := whBase n + 0x108 + 0x20 * h
def WH_INTAKE_SIZE_SIZE_MIB : Fld := ⟨0, 13⟩
/-- WH_INTAKE_STATUS (R323). -/
def WH_INTAKE_STATUS (n h : Nat) : Nat := whBase n + 0x10C + 0x20 * h
def WH_INTAKE_STATUS_BUSY : Fld := ⟨0, 1⟩
def WH_INTAKE_STATUS_RING_LOW : Fld := ⟨1, 1⟩
def WH_INTAKE_STATUS_POOL_LOW : Fld := ⟨2, 1⟩
def WH_INTAKE_STATUS_FREE_MIB : Fld := ⟨16, 13⟩
/-- WH_INTAKE_ADMIT (R323). -/
def WH_INTAKE_ADMIT (n h : Nat) : Nat := whBase n + 0x110 + 0x20 * h
def WH_INTAKE_ADMIT_COUNT : Fld := ⟨0, 32⟩
/-- WH_INTAKE_BUSY (R323). -/
def WH_INTAKE_BUSY (n h : Nat) : Nat := whBase n + 0x114 + 0x20 * h
def WH_INTAKE_BUSY_COUNT : Fld := ⟨0, 32⟩
/-- WH_INTAKE_REFUSED (R323). -/
def WH_INTAKE_REFUSED (n h : Nat) : Nat := whBase n + 0x118 + 0x20 * h
def WH_INTAKE_REFUSED_COUNT : Fld := ⟨0, 32⟩
/-- WH_INTAKE_EXPIRED (R323). -/
def WH_INTAKE_EXPIRED (n h : Nat) : Nat := whBase n + 0x11C + 0x20 * h
def WH_INTAKE_EXPIRED_COUNT : Fld := ⟨0, 32⟩
/-- DM_GO (R333). -/
def DM_GO (e : Nat) : Nat := dmBase e + 0x0
def DM_GO_OFFSET : Fld := ⟨0, 25⟩
def DM_GO_N_M1 : Fld := ⟨25, 7⟩
/-- DM_CTRL (R333). -/
def DM_CTRL (e : Nat) : Nat := dmBase e + 0x4
def DM_CTRL_RESUME : Fld := ⟨0, 1⟩
def DM_CTRL_ABORT : Fld := ⟨1, 1⟩
/-- DM_STATUS (R333). -/
def DM_STATUS (e : Nat) : Nat := dmBase e + 0x8
def DM_STATUS_STATE : Fld := ⟨0, 2⟩
def DM_STATUS_DIR : Fld := ⟨2, 1⟩
def DM_STATUS_CODE : Fld := ⟨8, 8⟩
def DM_STATUS_PENDING : Fld := ⟨16, 4⟩
/-- DM_FAULT_ADDR_0, _1, word 0 (R333). -/
def DM_FAULT_ADDR_0 (e : Nat) : Nat := dmBase e + 0x10
def DM_FAULT_ADDR_0_ADDR : Fld := ⟨0, 32⟩
/-- DM_FAULT_ADDR_0, _1, word 1 (R333). -/
def DM_FAULT_ADDR_1 (e : Nat) : Nat := dmBase e + 0x14
def DM_FAULT_ADDR_1_ADDR : Fld := ⟨0, 32⟩
/-- DM_FAULT_DESC_0, _1, word 0 (R333). -/
def DM_FAULT_DESC_0 (e : Nat) : Nat := dmBase e + 0x18
def DM_FAULT_DESC_0_DESC : Fld := ⟨0, 32⟩
/-- DM_FAULT_DESC_0, _1, word 1 (R333). -/
def DM_FAULT_DESC_1 (e : Nat) : Nat := dmBase e + 0x1C
def DM_FAULT_DESC_1_DESC : Fld := ⟨0, 32⟩
/-- DM_CHAIN_0, _1, word 0 (R333). -/
def DM_CHAIN_0 (e : Nat) : Nat := dmBase e + 0x20
def DM_CHAIN_0_CHAIN : Fld := ⟨0, 32⟩
/-- DM_CHAIN_0, _1, word 1 (R333). -/
def DM_CHAIN_1 (e : Nat) : Nat := dmBase e + 0x24
def DM_CHAIN_1_CHAIN : Fld := ⟨0, 32⟩
/-- DM_DONE_CNT (R333). -/
def DM_DONE_CNT (e : Nat) : Nat := dmBase e + 0x28
def DM_DONE_CNT_COUNT : Fld := ⟨0, 32⟩
/-- DM_UNACKED (R333). -/
def DM_UNACKED (e : Nat) : Nat := dmBase e + 0x2C
def DM_UNACKED_COUNT : Fld := ⟨0, 16⟩
/-- MB_BIND_0 (R342). -/
def MB_BIND_0 (x : Nat) : Nat := mbBase x + 0x0
def MB_BIND_0_SMID : Fld := ⟨0, 12⟩
def MB_BIND_0_SMASK : Fld := ⟨12, 12⟩
def MB_BIND_0_VALID : Fld := ⟨24, 1⟩
/-- MB_BIND_1 (R342). -/
def MB_BIND_1 (x : Nat) : Nat := mbBase x + 0x4
def MB_BIND_1_SDEV : Fld := ⟨0, 14⟩
def MB_BIND_1_LOCKED : Fld := ⟨31, 1⟩
/-- MB_STATUS (R342). -/
def MB_STATUS (x : Nat) : Nat := mbBase x + 0x8
def MB_STATUS_FULL : Fld := ⟨0, 1⟩
def MB_STATUS_HELD : Fld := ⟨1, 1⟩
def MB_STATUS_WAITING : Fld := ⟨2, 1⟩
/-- MB_LOCK (R342). -/
def MB_LOCK (x : Nat) : Nat := mbBase x + 0xC
def MB_LOCK_LOCK : Fld := ⟨0, 32⟩
/-- Mailbox message word 0 (R342). -/
def MB_MSG_0 (x : Nat) : Nat := mbBase x + 0x10
def MB_MSG_0_MSG : Fld := ⟨0, 32⟩
/-- Mailbox message word 1 (R342). -/
def MB_MSG_1 (x : Nat) : Nat := mbBase x + 0x14
def MB_MSG_1_MSG : Fld := ⟨0, 32⟩
/-- Mailbox message word 2 (R342). -/
def MB_MSG_2 (x : Nat) : Nat := mbBase x + 0x18
def MB_MSG_2_MSG : Fld := ⟨0, 32⟩
/-- Mailbox message word 3 (R342). -/
def MB_MSG_3 (x : Nat) : Nat := mbBase x + 0x1C
def MB_MSG_3_MSG : Fld := ⟨0, 32⟩
/-- MB_SENDER (R342). -/
def MB_SENDER (x : Nat) : Nat := mbBase x + 0x20
def MB_SENDER_ID : Fld := ⟨0, 26⟩
/-- MB_OVERRUN (R342). -/
def MB_OVERRUN (x : Nat) : Nat := mbBase x + 0x24
def MB_OVERRUN_COUNT : Fld := ⟨0, 32⟩
/-- MB_REFUSED (R342). -/
def MB_REFUSED (x : Nat) : Nat := mbBase x + 0x28
def MB_REFUSED_COUNT : Fld := ⟨0, 32⟩
/-- MB_DISCARD (R342). -/
def MB_DISCARD (x : Nat) : Nat := mbBase x + 0x2C
def MB_DISCARD_COUNT : Fld := ⟨0, 32⟩
/-- MB_NOTES (R342). -/
def MB_NOTES (x : Nat) : Nat := mbBase x + 0x100
def MB_NOTES_COUNT : Fld := ⟨0, 4⟩
/-- MB_NOTE_LOST (R342). -/
def MB_NOTE_LOST (x : Nat) : Nat := mbBase x + 0x104
def MB_NOTE_LOST_COUNT : Fld := ⟨0, 32⟩
/-- LK_CFG (R379). -/
def LK_CFG (p : Nat) : Nat := lkBase p + 0x0
def LK_CFG_MODE : Fld := ⟨0, 2⟩
def LK_CFG_SPLIT : Fld := ⟨2, 2⟩
def LK_CFG_LR_EN : Fld := ⟨4, 1⟩
/-- LK_LANES (R379). -/
def LK_LANES (p : Nat) : Nat := lkBase p + 0x4
def LK_LANES_FAILED : Fld := ⟨0, 8⟩
def LK_LANES_ACTIVE : Fld := ⟨8, 8⟩
/-- LK_LR_BASE (R379). -/
def LK_LR_BASE (p : Nat) : Nat := lkBase p + 0x8
def LK_LR_BASE_BASE_MIB : Fld := ⟨0, 18⟩
/-- LK_STATE_s (R380). -/
def LK_STATE (p s : Nat) : Nat := lkBase p + 0x100 + 0x40 * s
def LK_STATE_STATE : Fld := ⟨0, 3⟩
def LK_STATE_WIDTH : Fld := ⟨3, 2⟩
def LK_STATE_LONG : Fld := ⟨5, 1⟩
def LK_STATE_KPH : Fld := ⟨6, 1⟩
def LK_STATE_TT_OK : Fld := ⟨7, 1⟩
def LK_STATE_TT_SRC : Fld := ⟨8, 1⟩
def LK_STATE_PEER : Fld := ⟨16, 14⟩
/-- LK_DELAY_s (R380). -/
def LK_DELAY (p s : Nat) : Nat := lkBase p + 0x104 + 0x40 * s
def LK_DELAY_DELAY : Fld := ⟨0, 32⟩
/-- LK_RTT_s (R380). -/
def LK_RTT (p s : Nat) : Nat := lkBase p + 0x108 + 0x40 * s
def LK_RTT_RTT : Fld := ⟨0, 32⟩
/-- LK_ASYM_s (R380). -/
def LK_ASYM (p s : Nat) : Nat := lkBase p + 0x10C + 0x40 * s
def LK_ASYM_ASYM : Fld := ⟨0, 32⟩
/-- LK_CTRL_s (R380). -/
def LK_CTRL (p s : Nat) : Nat := lkBase p + 0x110 + 0x40 * s
def LK_CTRL_RETRAIN : Fld := ⟨0, 1⟩
def LK_CTRL_RESTORE : Fld := ⟨1, 1⟩
def LK_CTRL_TOWPATH : Fld := ⟨2, 1⟩
def LK_CTRL_FULL_RATE : Fld := ⟨3, 1⟩
def LK_CTRL_WAKE : Fld := ⟨4, 1⟩
def LK_CTRL_WAKE_MASK : Fld := ⟨5, 4⟩
/-- LK_CORR_s (R380). -/
def LK_CORR (p s : Nat) : Nat := lkBase p + 0x114 + 0x40 * s
def LK_CORR_COUNT : Fld := ⟨0, 32⟩
/-- LK_UNCORR_s (R380). -/
def LK_UNCORR (p s : Nat) : Nat := lkBase p + 0x118 + 0x40 * s
def LK_UNCORR_COUNT : Fld := ⟨0, 32⟩
/-- LK_ICV_FAIL_s (R380). -/
def LK_ICV_FAIL (p s : Nat) : Nat := lkBase p + 0x11C + 0x40 * s
def LK_ICV_FAIL_COUNT : Fld := ⟨0, 32⟩
/-- LK_RETRY_s (R380). -/
def LK_RETRY (p s : Nat) : Nat := lkBase p + 0x120 + 0x40 * s
def LK_RETRY_COUNT : Fld := ⟨0, 32⟩
/-- LK_RETRAIN_s (R380). -/
def LK_RETRAIN (p s : Nat) : Nat := lkBase p + 0x124 + 0x40 * s
def LK_RETRAIN_COUNT : Fld := ⟨0, 32⟩
/-- LK_C0_LATE_s (R380). -/
def LK_C0_LATE (p s : Nat) : Nat := lkBase p + 0x128 + 0x40 * s
def LK_C0_LATE_COUNT : Fld := ⟨0, 32⟩
/-- LK_DROP_s (R380). -/
def LK_DROP (p s : Nat) : Nat := lkBase p + 0x12C + 0x40 * s
def LK_DROP_COUNT : Fld := ⟨0, 32⟩
/-- LK_KEYCNT_0_s (R380). -/
def LK_KEYCNT_0 (p s : Nat) : Nat := lkBase p + 0x130 + 0x40 * s
def LK_KEYCNT_0_LO : Fld := ⟨0, 32⟩
/-- LK_KEYCNT_1_s (R380). -/
def LK_KEYCNT_1 (p s : Nat) : Nat := lkBase p + 0x134 + 0x40 * s
def LK_KEYCNT_1_HI : Fld := ⟨0, 32⟩
/-- LK_ETH_CFG_i (R381). -/
def LK_ETH_CFG (p i : Nat) : Nat := lkBase p + 0x400 + 0x40 * i
def LK_ETH_CFG_MSEC : Fld := ⟨0, 1⟩
def LK_ETH_CFG_XPN : Fld := ⟨1, 1⟩
def LK_ETH_CFG_PROFILE : Fld := ⟨2, 1⟩
def LK_ETH_CFG_VLAN_EN : Fld := ⟨3, 1⟩
def LK_ETH_CFG_VID : Fld := ⟨4, 12⟩
def LK_ETH_CFG_MTU : Fld := ⟨16, 16⟩
/-- LK_ETH_MAC_0_i (R381). -/
def LK_ETH_MAC_0 (p i : Nat) : Nat := lkBase p + 0x404 + 0x40 * i
def LK_ETH_MAC_0_MAC_LO : Fld := ⟨0, 32⟩
/-- LK_ETH_MAC_1_i (R381). -/
def LK_ETH_MAC_1 (p i : Nat) : Nat := lkBase p + 0x408 + 0x40 * i
def LK_ETH_MAC_1_MAC_HI : Fld := ⟨0, 16⟩
/-- LK_ETH_IP6_k_i (R381). -/
def LK_ETH_IP6 (p i k : Nat) : Nat := lkBase p + 0x410 + 0x40 * i + 0x4 * k
def LK_ETH_IP6_ADDR : Fld := ⟨0, 32⟩
/-- LK_ETH_RX_i (R381). -/
def LK_ETH_RX (p i : Nat) : Nat := lkBase p + 0x420 + 0x40 * i
def LK_ETH_RX_COUNT : Fld := ⟨0, 32⟩
/-- LK_ETH_DROP_i (R381). -/
def LK_ETH_DROP (p i : Nat) : Nat := lkBase p + 0x424 + 0x40 * i
def LK_ETH_DROP_COUNT : Fld := ⟨0, 32⟩
/-- LK_ETH_MSEC_FAIL_i (R381). -/
def LK_ETH_MSEC_FAIL (p i : Nat) : Nat := lkBase p + 0x428 + 0x40 * i
def LK_ETH_MSEC_FAIL_COUNT : Fld := ⟨0, 32⟩
/-- KP_FLEET_ID (R411). -/
def KP_FLEET_ID : Nat := kpBase + 0xA00
def KP_FLEET_ID_DEV_ID : Fld := ⟨0, 14⟩
def KP_FLEET_ID_ROLE : Fld := ⟨14, 2⟩
def KP_FLEET_ID_MGR_ID : Fld := ⟨16, 14⟩
def KP_FLEET_ID_DUTY : Fld := ⟨30, 2⟩
/-- KP_FLEET_CFG (R411). -/
def KP_FLEET_CFG : Nat := kpBase + 0xA04
def KP_FLEET_CFG_FAIL_HOLDS : Fld := ⟨0, 8⟩
def KP_FLEET_CFG_EMPTY_ACT : Fld := ⟨8, 2⟩
def KP_FLEET_CFG_KR_AUTH : Fld := ⟨10, 1⟩
def KP_FLEET_CFG_REPLAY : Fld := ⟨11, 1⟩
/-- KP_FLEET_STBY (R411). -/
def KP_FLEET_STBY : Nat := kpBase + 0xA08
def KP_FLEET_STBY_STBY_ID : Fld := ⟨0, 14⟩
def KP_FLEET_STBY_LEASE : Fld := ⟨14, 2⟩
/-- KP_LEASE_EXP_0, _1, word 0 (R411). -/
def KP_LEASE_EXP_0 : Nat := kpBase + 0xA10
def KP_LEASE_EXP_0_EXP : Fld := ⟨0, 32⟩
/-- KP_LEASE_EXP_0, _1, word 1 (R411). -/
def KP_LEASE_EXP_1 : Nat := kpBase + 0xA14
def KP_LEASE_EXP_1_EXP : Fld := ⟨0, 32⟩
/-- KP_FLEET_STATUS (R411). -/
def KP_FLEET_STATUS : Nat := kpBase + 0xA18
def KP_FLEET_STATUS_WORKERS : Fld := ⟨0, 9⟩
def KP_FLEET_STATUS_FAILED : Fld := ⟨9, 9⟩
def KP_FLEET_STATUS_RESTORES : Fld := ⟨18, 8⟩
/-- KP_RISK (R411). -/
def KP_RISK : Nat := kpBase + 0xA20
def KP_RISK_SCORE : Fld := ⟨0, 8⟩
def KP_RISK_THR_PEER : Fld := ⟨8, 8⟩
def KP_RISK_THR_EXT : Fld := ⟨16, 8⟩
/-- KP_RISK_W (R411). -/
def KP_RISK_W : Nat := kpBase + 0xA24
def KP_RISK_W_W_T : Fld := ⟨0, 4⟩
def KP_RISK_W_W_CE : Fld := ⟨4, 4⟩
def KP_RISK_W_W_LR : Fld := ⟨8, 4⟩
def KP_RISK_W_W_SUP : Fld := ⟨12, 4⟩
/-- KP_SNAP_CFG (R411). -/
def KP_SNAP_CFG : Nat := kpBase + 0xA28
def KP_SNAP_CFG_PEER_ID : Fld := ⟨0, 14⟩
def KP_SNAP_CFG_SINK_ID : Fld := ⟨16, 14⟩
/-- KP_SNAP_EVERY (R411). -/
def KP_SNAP_EVERY : Nat := kpBase + 0xA2C
def KP_SNAP_EVERY_COMMITS : Fld := ⟨0, 24⟩
/-- KP_SNAP_STATUS (R411). -/
def KP_SNAP_STATUS : Nat := kpBase + 0xA30
def KP_SNAP_STATUS_STATE : Fld := ⟨0, 2⟩
def KP_SNAP_STATUS_PEER_DUE : Fld := ⟨2, 1⟩
def KP_SNAP_STATUS_EXT_DUE : Fld := ⟨3, 1⟩
def KP_SNAP_STATUS_DEFERRED : Fld := ⟨4, 1⟩
/-- KP_SNAP_EPOCH_0, _1, word 0 (R411). -/
def KP_SNAP_EPOCH_0 : Nat := kpBase + 0xA34
def KP_SNAP_EPOCH_0_EPOCH : Fld := ⟨0, 32⟩
/-- KP_SNAP_EPOCH_0, _1, word 1 (R411). -/
def KP_SNAP_EPOCH_1 : Nat := kpBase + 0xA38
def KP_SNAP_EPOCH_1_EPOCH : Fld := ⟨0, 32⟩
/-- KP_ROUTE (R411). -/
def KP_ROUTE : Nat := kpBase + 0xA3C
def KP_ROUTE_BANK : Fld := ⟨0, 1⟩
/-- KP_FWD_DROP (R411). -/
def KP_FWD_DROP : Nat := kpBase + 0xA40
def KP_FWD_DROP_COUNT : Fld := ⟨0, 32⟩
/-- KP_BCAST (R411). -/
def KP_BCAST : Nat := kpBase + 0xA44
def KP_BCAST_NUM : Fld := ⟨0, 8⟩
def KP_BCAST_MISSING : Fld := ⟨8, 8⟩
def KP_BCAST_STATE : Fld := ⟨16, 2⟩
/-- KP_GRP_CFG_g (R412). -/
def KP_GRP_CFG (g : Nat) : Nat := kpBase + 0xE00 + 0x80 * g
def KP_GRP_CFG_N : Fld := ⟨0, 5⟩
def KP_GRP_CFG_IDX : Fld := ⟨5, 4⟩
def KP_GRP_CFG_DUAL : Fld := ⟨9, 1⟩
def KP_GRP_CFG_VALID : Fld := ⟨10, 1⟩
def KP_GRP_CFG_UNIT_LOG2 : Fld := ⟨11, 5⟩
/-- KP_GRP_PAR_g (R412). -/
def KP_GRP_PAR (g : Nat) : Nat := kpBase + 0xE04 + 0x80 * g
def KP_GRP_PAR_PAR_MIB : Fld := ⟨0, 18⟩
/-- KP_GRP_UNITS_g (R412). -/
def KP_GRP_UNITS (g : Nat) : Nat := kpBase + 0xE08 + 0x80 * g
def KP_GRP_UNITS_D : Fld := ⟨0, 24⟩
/-- KP_GRP_PEPOCH_0_g, _1_g, word 0 (R412). -/
def KP_GRP_PEPOCH_0 (g : Nat) : Nat := kpBase + 0xE0C + 0x80 * g
def KP_GRP_PEPOCH_0_PEPOCH : Fld := ⟨0, 32⟩
/-- KP_GRP_PEPOCH_0_g, _1_g, word 1 (R412). -/
def KP_GRP_PEPOCH_1 (g : Nat) : Nat := kpBase + 0xE10 + 0x80 * g
def KP_GRP_PEPOCH_1_PEPOCH : Fld := ⟨0, 32⟩
/-- KP_GRP_MEMBER_j_g (R412). -/
def KP_GRP_MEMBER (g j : Nat) : Nat := kpBase + 0xE40 + 0x80 * g + 0x4 * j
def KP_GRP_MEMBER_DEV : Fld := ⟨0, 14⟩
/-- PW_DOM_k (R442). -/
def PW_DOM (k : Nat) : Nat := pwBase + 0x100 + 0x4 * k
def PW_DOM_EN : Fld := ⟨0, 1⟩
def PW_DOM_STATE : Fld := ⟨1, 3⟩
def PW_DOM_WAKES : Fld := ⟨8, 8⟩
def PW_DOM_WAKE_MS : Fld := ⟨16, 8⟩
/-- PW_RESET (R442). -/
def PW_RESET : Nat := pwBase + 0x200
def PW_RESET_SCOPE : Fld := ⟨0, 2⟩
def PW_RESET_TARGET : Fld := ⟨2, 10⟩
/-- PW_RESET_STATUS (R442). -/
def PW_RESET_STATUS : Nat := pwBase + 0x204
def PW_RESET_STATUS_BUSY : Fld := ⟨0, 1⟩
def PW_RESET_STATUS_DEFERRED : Fld := ⟨1, 1⟩
def PW_RESET_STATUS_SCOPE : Fld := ⟨2, 2⟩
def PW_RESET_STATUS_TARGET : Fld := ⟨4, 10⟩
def PW_RESET_STATUS_IN_RESET : Fld := ⟨16, 4⟩
/-- KP_RESET (R443). -/
def KP_RESET : Nat := kpBase + 0x30
def KP_RESET_DEVICE : Fld := ⟨0, 1⟩
def KP_RESET_KEEPER : Fld := ⟨1, 1⟩
def KP_RESET_KEY : Fld := ⟨16, 16⟩
/-- KP_BOOT_STATUS (R443). -/
def KP_BOOT_STATUS : Nat := kpBase + 0x40
def KP_BOOT_STATUS_STAGE : Fld := ⟨0, 4⟩
def KP_BOOT_STATUS_SLOT : Fld := ⟨4, 1⟩
def KP_BOOT_STATUS_FALLBACK : Fld := ⟨5, 1⟩
def KP_BOOT_STATUS_CAUSE : Fld := ⟨8, 8⟩
def KP_BOOT_STATUS_READY_MS : Fld := ⟨16, 16⟩
/-- KP_TEST_CTRL (R443). -/
def KP_TEST_CTRL : Nat := kpBase + 0x50
def KP_TEST_CTRL_START : Fld := ⟨0, 1⟩
def KP_TEST_CTRL_ABORT : Fld := ⟨1, 1⟩
def KP_TEST_CTRL_FULL : Fld := ⟨2, 1⟩
def KP_TEST_CTRL_PART : Fld := ⟨3, 4⟩
/-- KP_TEST_STATUS (R443). -/
def KP_TEST_STATUS : Nat := kpBase + 0x54
def KP_TEST_STATUS_STATE : Fld := ⟨0, 2⟩
def KP_TEST_STATUS_SLICE : Fld := ⟨2, 9⟩
def KP_TEST_STATUS_FAILED : Fld := ⟨11, 9⟩
def KP_TEST_STATUS_INCOMPL : Fld := ⟨20, 9⟩
/-- KP_TEST_REC_0, _1, word 0 (R443). -/
def KP_TEST_REC_0 : Nat := kpBase + 0x58
def KP_TEST_REC_0_ADDR : Fld := ⟨0, 32⟩
/-- KP_TEST_REC_0, _1, word 1 (R443). -/
def KP_TEST_REC_1 : Nat := kpBase + 0x5C
def KP_TEST_REC_1_ADDR : Fld := ⟨0, 32⟩
/-- KP_REPAIR_CTRL (R443). -/
def KP_REPAIR_CTRL : Nat := kpBase + 0x60
def KP_REPAIR_CTRL_BURN : Fld := ⟨0, 1⟩
def KP_REPAIR_CTRL_KEY : Fld := ⟨16, 16⟩
/-- KP_REPAIR_STATUS (R443). -/
def KP_REPAIR_STATUS : Nat := kpBase + 0x64
def KP_REPAIR_STATUS_SOFT : Fld := ⟨0, 11⟩
def KP_REPAIR_STATUS_FUSED : Fld := ⟨11, 9⟩
def KP_REPAIR_STATUS_BURN_BUSY : Fld := ⟨20, 1⟩
def KP_REPAIR_STATUS_BURN_FAIL : Fld := ⟨21, 1⟩
/-- KP_SEC_CTRL (R468). -/
def KP_SEC_CTRL : Nat := kpBase + 0xC00
def KP_SEC_CTRL_TENANTS : Fld := ⟨0, 1⟩
def KP_SEC_CTRL_LOCK : Fld := ⟨1, 1⟩
/-- KP_SEC_STATUS (R468). -/
def KP_SEC_STATUS : Nat := kpBase + 0xC04
def KP_SEC_STATUS_ROLLBACK : Fld := ⟨0, 7⟩
def KP_SEC_STATUS_AUTH_VALID : Fld := ⟨7, 1⟩
def KP_SEC_STATUS_AUTH_OP : Fld := ⟨8, 3⟩
def KP_SEC_STATUS_REVOKED : Fld := ⟨12, 4⟩
def KP_SEC_STATUS_SVN_ACTIVE : Fld := ⟨16, 8⟩
def KP_SEC_STATUS_SVN_OTHER : Fld := ⟨24, 8⟩
/-- KP_AUTH_NONCE_w (R468). -/
def KP_AUTH_NONCE (w : Nat) : Nat := kpBase + 0xC20 + 0x4 * w
def KP_AUTH_NONCE_NONCE : Fld := ⟨0, 32⟩
/-- KP_TENANT_k (R468). -/
def KP_TENANT (k : Nat) : Nat := kpBase + 0xC40 + 0x8 * k
def KP_TENANT_EN : Fld := ⟨0, 1⟩
def KP_TENANT_SHARED : Fld := ⟨1, 2⟩
/-- KP_TENANT_PEER_k (R468). -/
def KP_TENANT_PEER (k : Nat) : Nat := kpBase + 0xC44 + 0x8 * k
def KP_TENANT_PEER_PEER_LO : Fld := ⟨0, 14⟩
def KP_TENANT_PEER_PEER_HI : Fld := ⟨16, 14⟩
/-- KP_RIGHTS_VIOL (R468). -/
def KP_RIGHTS_VIOL : Nat := kpBase + 0xC60
def KP_RIGHTS_VIOL_COUNT : Fld := ⟨0, 32⟩
/-- KP_RIGHTS_LAST (R468). -/
def KP_RIGHTS_LAST : Nat := kpBase + 0xC64
def KP_RIGHTS_LAST_ID : Fld := ⟨0, 26⟩
/-- KP_MEAS_EXT_w (R468). -/
def KP_MEAS_EXT (w : Nat) : Nat := kpBase + 0xC80 + 0x4 * w
def KP_MEAS_EXT_DIGEST : Fld := ⟨0, 32⟩
/-- KP_MEAS_i_w (R468). -/
def KP_MEAS (i w : Nat) : Nat := kpBase + 0xD00 + 0x20 * i + 0x4 * w
def KP_MEAS_VALUE : Fld := ⟨0, 32⟩
/-- EV_CTRL (R486). -/
def EV_CTRL : Nat := evBase + 0x0
def EV_CTRL_MIN_SEV : Fld := ⟨0, 2⟩
/-- EV_HEAD (R486). -/
def EV_HEAD : Nat := evBase + 0x4
def EV_HEAD_HEAD : Fld := ⟨0, 32⟩
/-- EV_TAIL (R486). -/
def EV_TAIL : Nat := evBase + 0x8
def EV_TAIL_TAIL : Fld := ⟨0, 32⟩
/-- EV_LOST (R486). -/
def EV_LOST : Nat := evBase + 0xC
def EV_LOST_COUNT : Fld := ⟨0, 32⟩
/-- EV_ALERT (R486). -/
def EV_ALERT : Nat := evBase + 0x10
def EV_ALERT_ALERT_PEND : Fld := ⟨0, 1⟩
def EV_ALERT_FATAL_PEND : Fld := ⟨1, 1⟩
def EV_ALERT_ASSERTED : Fld := ⟨2, 1⟩
def EV_ALERT_LAST_CLASS : Fld := ⟨8, 6⟩
/-- EV_FATAL (R486). -/
def EV_FATAL : Nat := evBase + 0x14
def EV_FATAL_VALID : Fld := ⟨0, 16⟩
/-- EV_CNT_c (R486). -/
def EV_CNT (c : Nat) : Nat := evBase + 0x1000 + 0x80 * c
def EV_CNT_COUNT : Fld := ⟨0, 32⟩
/-- EV_LOST_c (R486). -/
def EV_LOST_CLASS (c : Nat) : Nat := evBase + 0x1004 + 0x80 * c
def EV_LOST_CLASS_COUNT : Fld := ⟨0, 32⟩
/-- EV_PEND_c (R486). -/
def EV_PEND (c : Nat) : Nat := evBase + 0x1008 + 0x80 * c
def EV_PEND_PEND : Fld := ⟨0, 16⟩
/-- EV_CAP_c (R486). -/
def EV_CAP (c : Nat) : Nat := evBase + 0x100C + 0x80 * c
def EV_CAP_FIRST_VALID : Fld := ⟨0, 1⟩
def EV_CAP_LAST_VALID : Fld := ⟨1, 1⟩
/-- EV_FIRST_c_w (R486). -/
def EV_FIRST (c w : Nat) : Nat := evBase + 0x1020 + 0x80 * c + 0x4 * w
def EV_FIRST_REC : Fld := ⟨0, 32⟩
/-- EV_LAST_c_w (R486). -/
def EV_LAST (c w : Nat) : Nat := evBase + 0x1040 + 0x80 * c + 0x4 * w
def EV_LAST_REC : Fld := ⟨0, 32⟩
/-- PW_IN (R513). -/
def PW_IN : Nat := pwBase + 0x0
def PW_IN_VIN : Fld := ⟨0, 16⟩
def PW_IN_IIN : Fld := ⟨16, 16⟩
/-- PW_POWER (R513). -/
def PW_POWER : Nat := pwBase + 0x4
def PW_POWER_AVG : Fld := ⟨0, 16⟩
def PW_POWER_PEAK : Fld := ⟨16, 16⟩
/-- PW_LIMIT (R513). -/
def PW_LIMIT : Nat := pwBase + 0x8
def PW_LIMIT_LIMIT : Fld := ⟨0, 8⟩
def PW_LIMIT_EFFECTIVE : Fld := ⟨8, 16⟩
/-- PW_CLK (R513). -/
def PW_CLK : Nat := pwBase + 0xC
def PW_CLK_REQ : Fld := ⟨0, 12⟩
def PW_CLK_SSC_EN : Fld := ⟨12, 1⟩
def PW_CLK_ACTUAL : Fld := ⟨16, 12⟩
def PW_CLK_LIMITED : Fld := ⟨28, 1⟩
def PW_CLK_THROTTLED : Fld := ⟨29, 1⟩
def PW_CLK_BELOW_BOUND : Fld := ⟨30, 1⟩
/-- PW_TEMP (R513). -/
def PW_TEMP : Nat := pwBase + 0x10
def PW_TEMP_JMAX : Fld := ⟨0, 8⟩
def PW_TEMP_JDIE : Fld := ⟨8, 5⟩
def PW_TEMP_HMAX : Fld := ⟨16, 8⟩
def PW_TEMP_HSTACK : Fld := ⟨24, 3⟩
/-- PW_SUPPLY (R513). -/
def PW_SUPPLY : Nat := pwBase + 0x14
def PW_SUPPLY_UV : Fld := ⟨0, 1⟩
def PW_SUPPLY_OV : Fld := ⟨1, 1⟩
def PW_SUPPLY_RAIL : Fld := ⟨2, 1⟩
def PW_SUPPLY_HBM_HOT : Fld := ⟨3, 1⟩
/-- PW_LIMITED_MS (R513). -/
def PW_LIMITED_MS : Nat := pwBase + 0x18
def PW_LIMITED_MS_COUNT : Fld := ⟨0, 32⟩
/-- PW_THROTTLE_MS (R513). -/
def PW_THROTTLE_MS : Nat := pwBase + 0x1C
def PW_THROTTLE_MS_COUNT : Fld := ⟨0, 32⟩
/-- PW_HBM_HOT_MS (R513). -/
def PW_HBM_HOT_MS : Nat := pwBase + 0x20
def PW_HBM_HOT_MS_COUNT : Fld := ⟨0, 32⟩
/-- PW_SUPPLY_CNT (R513). -/
def PW_SUPPLY_CNT : Nat := pwBase + 0x24
def PW_SUPPLY_CNT_COUNT : Fld := ⟨0, 32⟩
/-- PW_ENERGY_0 (R513). -/
def PW_ENERGY_0 : Nat := pwBase + 0x28
def PW_ENERGY_0_E_LO : Fld := ⟨0, 32⟩
/-- PW_ENERGY_1 (R513). -/
def PW_ENERGY_1 : Nat := pwBase + 0x2C
def PW_ENERGY_1_E_HI : Fld := ⟨0, 32⟩
/-- PW_DIE_TEMP_i (R514). -/
def PW_DIE_TEMP (i : Nat) : Nat := pwBase + 0x300 + 0x4 * i
def PW_DIE_TEMP_TEMP : Fld := ⟨0, 8⟩
def PW_DIE_TEMP_PEAK : Fld := ⟨8, 8⟩
/-- KP_CLAIM_ARMING (R213). -/
def KP_CLAIM_ARMING (n : Nat) : Nat := kpBase + 0x1000 + 0x10 * n
def KP_CLAIM_ARMING_LIMIT : Fld := ⟨0, 16⟩
def KP_CLAIM_ARMING_ARM : Fld := ⟨16, 5⟩
/-- KP_CLAIM_PROGRESS (R213). -/
def KP_CLAIM_PROGRESS (n : Nat) : Nat := kpBase + 0x1004 + 0x10 * n
def KP_CLAIM_PROGRESS_NEXT : Fld := ⟨0, 16⟩
def KP_CLAIM_PROGRESS_DONE : Fld := ⟨16, 16⟩
/-- KP_CLAIM_RECLAIM (R213). -/
def KP_CLAIM_RECLAIM (n : Nat) : Nat := kpBase + 0x1008 + 0x10 * n
def KP_CLAIM_RECLAIM_RECLAIM : Fld := ⟨0, 16⟩
def KP_CLAIM_RECLAIM_REISSUED : Fld := ⟨16, 16⟩
/-- KP_CLAIM_HELD (R213). -/
def KP_CLAIM_HELD (n : Nat) : Nat := kpBase + 0x100C + 0x10 * n
def KP_CLAIM_HELD_OUTSTANDING : Fld := ⟨0, 16⟩
/-- CD_CLAIM_ARMING (R213). -/
def CD_CLAIM_ARMING (n n' : Nat) : Nat := cdBase n + 0x1000 + 0x10 * n'
def CD_CLAIM_ARMING_LIMIT : Fld := ⟨0, 16⟩
def CD_CLAIM_ARMING_ARM : Fld := ⟨16, 5⟩
/-- CD_CLAIM_PROGRESS (R213). -/
def CD_CLAIM_PROGRESS (n n' : Nat) : Nat := cdBase n + 0x1004 + 0x10 * n'
def CD_CLAIM_PROGRESS_NEXT : Fld := ⟨0, 16⟩
def CD_CLAIM_PROGRESS_DONE : Fld := ⟨16, 16⟩
/-- CD_CLAIM_RECLAIM (R213). -/
def CD_CLAIM_RECLAIM (n n' : Nat) : Nat := cdBase n + 0x1008 + 0x10 * n'
def CD_CLAIM_RECLAIM_RECLAIM : Fld := ⟨0, 16⟩
def CD_CLAIM_RECLAIM_REISSUED : Fld := ⟨16, 16⟩
/-- CD_CLAIM_HELD (R213). -/
def CD_CLAIM_HELD (n n' : Nat) : Nat := cdBase n + 0x100C + 0x10 * n'
def CD_CLAIM_HELD_OUTSTANDING : Fld := ⟨0, 16⟩
/-- EV_CCNT_k of core `c` (R487). -/
def EV_CCNT (c k : Nat) : Nat := ccBase c + 4 * k
def EV_CCNT_COUNT : Fld := ⟨0, 32⟩

end Sys2Proof.Machine
end

