-- ==== Sys2Proof/Machine/RegTable.lean ====
section
/-! DEFINITION. The access codes (R11) and reset values of every register field, as the spec's register tables give them, and the quantities wider than 32 bits (R15). -/

namespace Sys2Proof.Machine

/-- The access codes of R11. -/
inductive Access where
  | ro
  | rw
  | w1c
  | wo
  | rwl
  deriving DecidableEq, Repr

/-- One field: lowest bit, width, access code, reset value. -/
structure RegField where
  lo : Nat
  width : Nat
  acc : Access
  reset : Nat
  deriving DecidableEq, Repr

/-- One row of a block's table: a register, or an array of `n1` by `n2` registers, at `off` from the
block's base, with strides `s1` and `s2`. -/
structure RegRow where
  off : Nat
  s1 : Nat
  n1 : Nat
  s2 : Nat
  n2 : Nat
  fields : List RegField
  deriving DecidableEq, Repr

/-- The registers of a KP_ block: Keeper die. -/
def kpRows : List RegRow := [
  -- KP_PART_INFO
  ⟨0x10, 0x0, 1, 0x0, 1, [⟨0, 4, .ro, 0x1⟩, ⟨4, 12, .ro, 0x3E8⟩, ⟨16, 8, .ro, 0x30⟩]⟩,
  -- KP_CORE_COUNT
  ⟨0x14, 0x0, 1, 0x0, 1, [⟨0, 11, .ro, 0x0⟩, ⟨16, 16, .ro, 0x0⟩]⟩,
  -- KP_RESET
  ⟨0x30, 0x0, 1, 0x0, 1, [⟨0, 1, .wo, 0x0⟩, ⟨1, 1, .wo, 0x0⟩, ⟨16, 16, .wo, 0x0⟩]⟩,
  -- KP_BOOT_STATUS
  ⟨0x40, 0x0, 1, 0x0, 1, [⟨0, 4, .ro, 0x0⟩, ⟨4, 1, .ro, 0x0⟩, ⟨5, 1, .ro, 0x0⟩, ⟨8, 8, .ro, 0x0⟩, ⟨16, 16, .ro, 0x0⟩]⟩,
  -- KP_TEST_CTRL
  ⟨0x50, 0x0, 1, 0x0, 1, [⟨0, 1, .wo, 0x0⟩, ⟨1, 1, .wo, 0x0⟩, ⟨2, 1, .wo, 0x0⟩, ⟨3, 4, .wo, 0x0⟩]⟩,
  -- KP_TEST_STATUS
  ⟨0x54, 0x0, 1, 0x0, 1, [⟨0, 2, .ro, 0x0⟩, ⟨2, 9, .ro, 0x0⟩, ⟨11, 9, .ro, 0x0⟩, ⟨20, 9, .ro, 0x0⟩]⟩,
  -- KP_TEST_REC_0
  ⟨0x58, 0x0, 1, 0x0, 1, [⟨0, 32, .ro, 0x0⟩]⟩,
  -- KP_TEST_REC_1
  ⟨0x5C, 0x0, 1, 0x0, 1, [⟨0, 32, .ro, 0x0⟩]⟩,
  -- KP_REPAIR_CTRL
  ⟨0x60, 0x0, 1, 0x0, 1, [⟨0, 1, .wo, 0x0⟩, ⟨16, 16, .wo, 0x0⟩]⟩,
  -- KP_REPAIR_STATUS
  ⟨0x64, 0x0, 1, 0x0, 1, [⟨0, 11, .ro, 0x0⟩, ⟨11, 9, .ro, 0x0⟩, ⟨20, 1, .ro, 0x0⟩, ⟨21, 1, .w1c, 0x0⟩]⟩,
  -- KP_SLUICE_CTRL
  ⟨0x100, 0x0, 1, 0x0, 1, [⟨0, 15, .ro, 0x0⟩, ⟨16, 1, .ro, 0x0⟩, ⟨17, 1, .ro, 0x0⟩]⟩,
  -- KP_SLUICE_OVERCOMMITS
  ⟨0x104, 0x0, 1, 0x0, 1, [⟨0, 32, .rw, 0x0⟩]⟩,
  -- KP_SLUICE_SET
  ⟨0x120, 0x4, 8, 0x0, 1, [⟨0, 32, .ro, 0x0⟩]⟩,
  -- KP_SLUICE_PEND
  ⟨0x140, 0x4, 8, 0x0, 1, [⟨0, 32, .ro, 0x0⟩]⟩,
  -- KP_TRAIN_CTRL
  ⟨0x200, 0x0, 1, 0x0, 1, [⟨0, 1, .ro, 0x0⟩, ⟨1, 1, .ro, 0x0⟩, ⟨2, 6, .ro, 0x1C⟩, ⟨8, 8, .ro, 0x4⟩]⟩,
  -- KP_TRAIN_LAST
  ⟨0x204, 0x0, 1, 0x0, 1, [⟨0, 2, .ro, 0x0⟩, ⟨2, 6, .ro, 0x0⟩, ⟨8, 8, .ro, 0x0⟩]⟩,
  -- KP_STEP_0
  ⟨0x208, 0x0, 1, 0x0, 1, [⟨0, 32, .ro, 0x0⟩]⟩,
  -- KP_STEP_1
  ⟨0x20C, 0x0, 1, 0x0, 1, [⟨0, 16, .ro, 0x0⟩]⟩,
  -- KP_CURSOR_0
  ⟨0x210, 0x0, 1, 0x0, 1, [⟨0, 32, .ro, 0x0⟩]⟩,
  -- KP_CURSOR_1
  ⟨0x214, 0x0, 1, 0x0, 1, [⟨0, 16, .ro, 0x0⟩]⟩,
  -- KP_GN_MAX_0
  ⟨0x218, 0x0, 1, 0x0, 1, [⟨0, 32, .ro, 0x0⟩]⟩,
  -- KP_GN_MAX_1
  ⟨0x21C, 0x0, 1, 0x0, 1, [⟨0, 32, .ro, 0x0⟩]⟩,
  -- KP_GN_SUM_0
  ⟨0x220, 0x0, 1, 0x0, 1, [⟨0, 32, .ro, 0x0⟩]⟩,
  -- KP_GN_SUM_1
  ⟨0x224, 0x0, 1, 0x0, 1, [⟨0, 32, .ro, 0x0⟩]⟩,
  -- KP_NF_ACT
  ⟨0x228, 0x0, 1, 0x0, 1, [⟨0, 2, .ro, 0x1⟩, ⟨2, 2, .ro, 0x1⟩, ⟨4, 2, .ro, 0x1⟩, ⟨6, 2, .ro, 0x1⟩]⟩,
  -- KP_NF_POUND
  ⟨0x230, 0x4, 4, 0x0, 1, [⟨0, 32, .ro, 0x0⟩]⟩,
  -- KP_SPIKE_CFG
  ⟨0x240, 0x20, 2, 0x0, 1, [⟨0, 2, .ro, 0x1⟩, ⟨2, 5, .ro, 0x6⟩, ⟨8, 8, .ro, 0x8⟩, ⟨16, 10, .ro, 0x0⟩]⟩,
  -- KP_SPIKE_WARM
  ⟨0x244, 0x20, 2, 0x0, 1, [⟨0, 16, .ro, 0x40⟩]⟩,
  -- KP_SPIKE_THR
  ⟨0x248, 0x20, 2, 0x0, 1, [⟨0, 32, .ro, 0x40C00000⟩]⟩,
  -- KP_SPIKE_STATUS
  ⟨0x24C, 0x20, 2, 0x0, 1, [⟨0, 8, .ro, 0x0⟩, ⟨8, 1, .ro, 0x0⟩, ⟨16, 16, .ro, 0x0⟩]⟩,
  -- KP_SPIKE_MEAN_0
  ⟨0x250, 0x20, 2, 0x0, 1, [⟨0, 32, .ro, 0x0⟩]⟩,
  -- KP_SPIKE_MEAN_1
  ⟨0x254, 0x20, 2, 0x0, 1, [⟨0, 32, .ro, 0x0⟩]⟩,
  -- KP_SPIKE_VAR_0
  ⟨0x258, 0x20, 2, 0x0, 1, [⟨0, 32, .ro, 0x0⟩]⟩,
  -- KP_SPIKE_VAR_1
  ⟨0x25C, 0x20, 2, 0x0, 1, [⟨0, 32, .ro, 0x0⟩]⟩,
  -- KP_C1WIN_S
  ⟨0x280, 0x8, 8, 0x0, 1, [⟨0, 24, .ro, 0x0⟩]⟩,
  -- KP_C1WIN_L
  ⟨0x284, 0x8, 8, 0x0, 1, [⟨0, 24, .ro, 0x0⟩]⟩,
  -- KP_SLUICE_LEFT
  ⟨0x400, 0x4, 256, 0x0, 1, [⟨0, 16, .ro, 0x0⟩]⟩,
  -- KP_RING_BASE_0
  ⟨0x800, 0x20, 16, 0x0, 1, [⟨12, 20, .rw, 0x0⟩]⟩,
  -- KP_RING_BASE_1
  ⟨0x804, 0x20, 16, 0x0, 1, [⟨0, 32, .rw, 0x0⟩]⟩,
  -- KP_RING_CFG
  ⟨0x808, 0x20, 16, 0x0, 1, [⟨0, 1, .rw, 0x0⟩, ⟨1, 5, .rw, 0x4⟩]⟩,
  -- KP_RING_OWNER
  ⟨0x80C, 0x20, 16, 0x0, 1, [⟨0, 26, .rw, 0xD01⟩]⟩,
  -- KP_RING_PROD
  ⟨0x810, 0x20, 16, 0x0, 1, [⟨0, 32, .ro, 0x0⟩]⟩,
  -- KP_RING_CONS
  ⟨0x814, 0x20, 16, 0x0, 1, [⟨0, 32, .ro, 0x0⟩]⟩,
  -- KP_RING_STATUS
  ⟨0x818, 0x20, 16, 0x0, 1, [⟨0, 2, .ro, 0x0⟩, ⟨8, 8, .ro, 0x0⟩, ⟨16, 16, .ro, 0x0⟩]⟩,
  -- KP_RING_CTRL
  ⟨0x81C, 0x20, 16, 0x0, 1, [⟨0, 1, .wo, 0x0⟩]⟩,
  -- KP_FLEET_ID
  ⟨0xA00, 0x0, 1, 0x0, 1, [⟨0, 14, .ro, 0x0⟩, ⟨14, 2, .ro, 0x0⟩, ⟨16, 14, .ro, 0x0⟩, ⟨30, 2, .ro, 0x0⟩]⟩,
  -- KP_FLEET_CFG
  ⟨0xA04, 0x0, 1, 0x0, 1, [⟨0, 8, .ro, 0x10⟩, ⟨8, 2, .ro, 0x0⟩, ⟨10, 1, .ro, 0x0⟩, ⟨11, 1, .ro, 0x0⟩]⟩,
  -- KP_FLEET_STBY
  ⟨0xA08, 0x0, 1, 0x0, 1, [⟨0, 14, .ro, 0x0⟩, ⟨14, 2, .ro, 0x0⟩]⟩,
  -- KP_LEASE_EXP_0
  ⟨0xA10, 0x0, 1, 0x0, 1, [⟨0, 32, .ro, 0x0⟩]⟩,
  -- KP_LEASE_EXP_1
  ⟨0xA14, 0x0, 1, 0x0, 1, [⟨0, 32, .ro, 0x0⟩]⟩,
  -- KP_FLEET_STATUS
  ⟨0xA18, 0x0, 1, 0x0, 1, [⟨0, 9, .ro, 0x0⟩, ⟨9, 9, .ro, 0x0⟩, ⟨18, 8, .ro, 0x0⟩]⟩,
  -- KP_RISK
  ⟨0xA20, 0x0, 1, 0x0, 1, [⟨0, 8, .ro, 0x0⟩, ⟨8, 8, .ro, 0x0⟩, ⟨16, 8, .ro, 0x0⟩]⟩,
  -- KP_RISK_W
  ⟨0xA24, 0x0, 1, 0x0, 1, [⟨0, 4, .ro, 0x4⟩, ⟨4, 4, .ro, 0x4⟩, ⟨8, 4, .ro, 0x8⟩, ⟨12, 4, .ro, 0xF⟩]⟩,
  -- KP_SNAP_CFG
  ⟨0xA28, 0x0, 1, 0x0, 1, [⟨0, 14, .ro, 0x0⟩, ⟨16, 14, .ro, 0x0⟩]⟩,
  -- KP_SNAP_EVERY
  ⟨0xA2C, 0x0, 1, 0x0, 1, [⟨0, 24, .ro, 0x0⟩]⟩,
  -- KP_SNAP_STATUS
  ⟨0xA30, 0x0, 1, 0x0, 1, [⟨0, 2, .ro, 0x0⟩, ⟨2, 1, .ro, 0x0⟩, ⟨3, 1, .ro, 0x0⟩, ⟨4, 1, .ro, 0x0⟩]⟩,
  -- KP_SNAP_EPOCH_0
  ⟨0xA34, 0x0, 1, 0x0, 1, [⟨0, 32, .ro, 0x0⟩]⟩,
  -- KP_SNAP_EPOCH_1
  ⟨0xA38, 0x0, 1, 0x0, 1, [⟨0, 32, .ro, 0x0⟩]⟩,
  -- KP_ROUTE
  ⟨0xA3C, 0x0, 1, 0x0, 1, [⟨0, 1, .ro, 0x0⟩]⟩,
  -- KP_FWD_DROP
  ⟨0xA40, 0x0, 1, 0x0, 1, [⟨0, 32, .rw, 0x0⟩]⟩,
  -- KP_BCAST
  ⟨0xA44, 0x0, 1, 0x0, 1, [⟨0, 8, .ro, 0x0⟩, ⟨8, 8, .ro, 0x0⟩, ⟨16, 2, .ro, 0x0⟩]⟩,
  -- KP_SEC_CTRL
  ⟨0xC00, 0x0, 1, 0x0, 1, [⟨0, 1, .rwl, 0x0⟩, ⟨1, 1, .rwl, 0x0⟩]⟩,
  -- KP_SEC_STATUS
  ⟨0xC04, 0x0, 1, 0x0, 1, [⟨0, 7, .ro, 0x0⟩, ⟨7, 1, .ro, 0x0⟩, ⟨8, 3, .ro, 0x0⟩, ⟨12, 4, .ro, 0x0⟩, ⟨16, 8, .ro, 0x0⟩, ⟨24, 8, .ro, 0x0⟩]⟩,
  -- KP_AUTH_NONCE
  ⟨0xC20, 0x4, 8, 0x0, 1, [⟨0, 32, .ro, 0x0⟩]⟩,
  -- KP_TENANT
  ⟨0xC40, 0x8, 4, 0x0, 1, [⟨0, 1, .ro, 0x0⟩, ⟨1, 2, .ro, 0x0⟩]⟩,
  -- KP_TENANT_PEER
  ⟨0xC44, 0x8, 4, 0x0, 1, [⟨0, 14, .ro, 0x0⟩, ⟨16, 14, .ro, 0x0⟩]⟩,
  -- KP_RIGHTS_VIOL
  ⟨0xC60, 0x0, 1, 0x0, 1, [⟨0, 32, .rw, 0x0⟩]⟩,
  -- KP_RIGHTS_LAST
  ⟨0xC64, 0x0, 1, 0x0, 1, [⟨0, 26, .ro, 0x0⟩]⟩,
  -- KP_MEAS_EXT
  ⟨0xC80, 0x4, 8, 0x0, 1, [⟨0, 32, .wo, 0x0⟩]⟩,
  -- KP_MEAS
  ⟨0xD00, 0x20, 8, 0x4, 8, [⟨0, 32, .ro, 0x0⟩]⟩,
  -- KP_GRP_CFG
  ⟨0xE00, 0x80, 4, 0x0, 1, [⟨0, 5, .ro, 0x0⟩, ⟨5, 4, .ro, 0x0⟩, ⟨9, 1, .ro, 0x0⟩, ⟨10, 1, .ro, 0x0⟩, ⟨11, 5, .ro, 0x0⟩]⟩,
  -- KP_GRP_PAR
  ⟨0xE04, 0x80, 4, 0x0, 1, [⟨0, 18, .ro, 0x0⟩]⟩,
  -- KP_GRP_UNITS
  ⟨0xE08, 0x80, 4, 0x0, 1, [⟨0, 24, .ro, 0x0⟩]⟩,
  -- KP_GRP_PEPOCH_0
  ⟨0xE0C, 0x80, 4, 0x0, 1, [⟨0, 32, .ro, 0x0⟩]⟩,
  -- KP_GRP_PEPOCH_1
  ⟨0xE10, 0x80, 4, 0x0, 1, [⟨0, 32, .ro, 0x0⟩]⟩,
  -- KP_GRP_MEMBER
  ⟨0xE40, 0x80, 4, 0x4, 16, [⟨0, 14, .ro, 0x0⟩]⟩,
  -- KP_CLAIM_ARMING
  ⟨0x1000, 0x10, 16, 0x0, 1, [⟨0, 16, .ro, 0x0⟩, ⟨16, 5, .ro, 0x0⟩]⟩,
  -- KP_CLAIM_PROGRESS
  ⟨0x1004, 0x10, 16, 0x0, 1, [⟨0, 16, .ro, 0x0⟩, ⟨16, 16, .ro, 0x0⟩]⟩,
  -- KP_CLAIM_RECLAIM
  ⟨0x1008, 0x10, 16, 0x0, 1, [⟨0, 16, .ro, 0x0⟩, ⟨16, 16, .ro, 0x0⟩]⟩,
  -- KP_CLAIM_HELD
  ⟨0x100C, 0x10, 16, 0x0, 1, [⟨0, 16, .ro, 0x0⟩]⟩]

/-- The registers of a TM_ block: Time unit. -/
def tmRows : List RegRow := [
  -- TM_NOW_0
  ⟨0x0, 0x0, 1, 0x0, 1, [⟨0, 16, .ro, 0x0⟩, ⟨16, 16, .ro, 0x0⟩]⟩,
  -- TM_NOW_1
  ⟨0x4, 0x0, 1, 0x0, 1, [⟨0, 32, .ro, 0x0⟩]⟩,
  -- TM_NOW_2
  ⟨0x8, 0x0, 1, 0x0, 1, [⟨0, 16, .ro, 0x0⟩]⟩,
  -- TM_SRC_STATUS
  ⟨0x10, 0x0, 1, 0x0, 1, [⟨0, 2, .ro, 0x0⟩, ⟨2, 1, .ro, 0x0⟩, ⟨3, 1, .ro, 0x0⟩, ⟨4, 1, .ro, 0x0⟩, ⟨5, 1, .ro, 0x0⟩, ⟨6, 1, .ro, 0x0⟩, ⟨7, 1, .ro, 0x0⟩, ⟨16, 16, .ro, 0xFFFF⟩]⟩,
  -- TM_SRC_CTRL
  ⟨0x14, 0x0, 1, 0x0, 1, [⟨0, 1, .rw, 0x1⟩, ⟨1, 1, .rw, 0x1⟩, ⟨2, 1, .rw, 0x1⟩, ⟨4, 4, .rw, 0x0⟩]⟩,
  -- TM_PPS_DELAY
  ⟨0x18, 0x0, 1, 0x0, 1, [⟨0, 16, .rw, 0x0⟩]⟩,
  -- TM_EPOCH_0
  ⟨0x20, 0x0, 1, 0x0, 1, [⟨0, 32, .ro, 0x0⟩]⟩,
  -- TM_EPOCH_1
  ⟨0x24, 0x0, 1, 0x0, 1, [⟨0, 16, .ro, 0x0⟩]⟩,
  -- TM_NEXT_LOCK_0
  ⟨0x28, 0x0, 1, 0x0, 1, [⟨0, 32, .ro, 0x0⟩]⟩,
  -- TM_NEXT_LOCK_1
  ⟨0x2C, 0x0, 1, 0x0, 1, [⟨0, 32, .ro, 0x0⟩]⟩,
  -- TM_SCHED_0
  ⟨0x30, 0x0, 1, 0x0, 1, [⟨0, 24, .ro, 0x0⟩, ⟨24, 3, .ro, 0x0⟩]⟩,
  -- TM_SCHED_1
  ⟨0x34, 0x0, 1, 0x0, 1, [⟨0, 16, .ro, 0x0⟩, ⟨16, 16, .ro, 0x0⟩]⟩,
  -- TM_LOCK_STATUS
  ⟨0x38, 0x0, 1, 0x0, 1, [⟨0, 3, .ro, 0x0⟩, ⟨3, 2, .ro, 0x0⟩, ⟨8, 8, .ro, 0x0⟩, ⟨16, 2, .ro, 0x0⟩]⟩,
  -- TM_LOCK_CTRL
  ⟨0x3C, 0x0, 1, 0x0, 1, [⟨0, 8, .rw, 0x8⟩, ⟨8, 1, .rw, 0x1⟩]⟩]

/-- The registers of a PW_ block: Power. -/
def pwRows : List RegRow := [
  -- PW_IN
  ⟨0x0, 0x0, 1, 0x0, 1, [⟨0, 16, .ro, 0x0⟩, ⟨16, 16, .ro, 0x0⟩]⟩,
  -- PW_POWER
  ⟨0x4, 0x0, 1, 0x0, 1, [⟨0, 16, .ro, 0x0⟩, ⟨16, 16, .ro, 0x0⟩]⟩,
  -- PW_LIMIT
  ⟨0x8, 0x0, 1, 0x0, 1, [⟨0, 8, .rw, 0x30⟩, ⟨8, 16, .ro, 0x0⟩]⟩,
  -- PW_CLK
  ⟨0xC, 0x0, 1, 0x0, 1, [⟨0, 12, .rw, 0x3E8⟩, ⟨12, 1, .rw, 0x1⟩, ⟨16, 12, .ro, 0x0⟩, ⟨28, 1, .ro, 0x0⟩, ⟨29, 1, .ro, 0x0⟩, ⟨30, 1, .ro, 0x0⟩]⟩,
  -- PW_TEMP
  ⟨0x10, 0x0, 1, 0x0, 1, [⟨0, 8, .ro, 0x0⟩, ⟨8, 5, .ro, 0x0⟩, ⟨16, 8, .ro, 0x0⟩, ⟨24, 3, .ro, 0x0⟩]⟩,
  -- PW_SUPPLY
  ⟨0x14, 0x0, 1, 0x0, 1, [⟨0, 1, .ro, 0x0⟩, ⟨1, 1, .ro, 0x0⟩, ⟨2, 1, .ro, 0x0⟩, ⟨3, 1, .ro, 0x0⟩]⟩,
  -- PW_LIMITED_MS
  ⟨0x18, 0x0, 1, 0x0, 1, [⟨0, 32, .rw, 0x0⟩]⟩,
  -- PW_THROTTLE_MS
  ⟨0x1C, 0x0, 1, 0x0, 1, [⟨0, 32, .rw, 0x0⟩]⟩,
  -- PW_HBM_HOT_MS
  ⟨0x20, 0x0, 1, 0x0, 1, [⟨0, 32, .rw, 0x0⟩]⟩,
  -- PW_SUPPLY_CNT
  ⟨0x24, 0x0, 1, 0x0, 1, [⟨0, 32, .rw, 0x0⟩]⟩,
  -- PW_ENERGY_0
  ⟨0x28, 0x0, 1, 0x0, 1, [⟨0, 32, .ro, 0x0⟩]⟩,
  -- PW_ENERGY_1
  ⟨0x2C, 0x0, 1, 0x0, 1, [⟨0, 32, .ro, 0x0⟩]⟩,
  -- PW_DOM
  ⟨0x100, 0x4, 4, 0x0, 1, [⟨0, 1, .rw, 0x0⟩, ⟨1, 3, .ro, 0x0⟩, ⟨8, 8, .ro, 0x0⟩, ⟨16, 8, .ro, 0x0⟩]⟩,
  -- PW_RESET
  ⟨0x200, 0x0, 1, 0x0, 1, [⟨0, 2, .wo, 0x0⟩, ⟨2, 10, .wo, 0x0⟩]⟩,
  -- PW_RESET_STATUS
  ⟨0x204, 0x0, 1, 0x0, 1, [⟨0, 1, .ro, 0x0⟩, ⟨1, 1, .ro, 0x0⟩, ⟨2, 2, .ro, 0x0⟩, ⟨4, 10, .ro, 0x0⟩, ⟨16, 4, .ro, 0x0⟩]⟩,
  -- PW_DIE_TEMP
  ⟨0x300, 0x4, 25, 0x0, 1, [⟨0, 8, .ro, 0x0⟩, ⟨8, 8, .rw, 0x0⟩]⟩]

/-- The registers of a EV_ block: Event log. -/
def evRows : List RegRow := [
  -- EV_CTRL
  ⟨0x0, 0x0, 1, 0x0, 1, [⟨0, 2, .rw, 0x0⟩]⟩,
  -- EV_HEAD
  ⟨0x4, 0x0, 1, 0x0, 1, [⟨0, 32, .ro, 0x0⟩]⟩,
  -- EV_TAIL
  ⟨0x8, 0x0, 1, 0x0, 1, [⟨0, 32, .rw, 0x0⟩]⟩,
  -- EV_LOST
  ⟨0xC, 0x0, 1, 0x0, 1, [⟨0, 32, .rw, 0x0⟩]⟩,
  -- EV_ALERT
  ⟨0x10, 0x0, 1, 0x0, 1, [⟨0, 1, .w1c, 0x0⟩, ⟨1, 1, .ro, 0x0⟩, ⟨2, 1, .ro, 0x0⟩, ⟨8, 6, .ro, 0x0⟩]⟩,
  -- EV_FATAL
  ⟨0x14, 0x0, 1, 0x0, 1, [⟨0, 16, .w1c, 0x0⟩]⟩,
  -- EV_CNT
  ⟨0x1000, 0x80, 64, 0x0, 1, [⟨0, 32, .rw, 0x0⟩]⟩,
  -- EV_LOST_CLASS
  ⟨0x1004, 0x80, 64, 0x0, 1, [⟨0, 32, .rw, 0x0⟩]⟩,
  -- EV_PEND
  ⟨0x1008, 0x80, 64, 0x0, 1, [⟨0, 16, .ro, 0x0⟩]⟩,
  -- EV_CAP
  ⟨0x100C, 0x80, 64, 0x0, 1, [⟨0, 1, .w1c, 0x0⟩, ⟨1, 1, .ro, 0x0⟩]⟩,
  -- EV_FIRST
  ⟨0x1020, 0x80, 64, 0x4, 8, [⟨0, 32, .ro, 0x0⟩]⟩,
  -- EV_LAST
  ⟨0x1040, 0x80, 64, 0x4, 8, [⟨0, 32, .ro, 0x0⟩]⟩]

/-- The registers of a CD_ block: Die hub of compute die `n`. -/
def cdRows : List RegRow := [
  -- CD_DIE_INFO
  ⟨0x0, 0x0, 1, 0x0, 1, [⟨0, 4, .ro, 0x0⟩, ⟨4, 2, .ro, 0x0⟩, ⟨8, 7, .ro, 0x0⟩, ⟨16, 4, .ro, 0x0⟩]⟩,
  -- CD_CORE_MAP
  ⟨0x100, 0x4, 64, 0x0, 1, [⟨0, 7, .ro, 0x0⟩, ⟨7, 1, .ro, 0x0⟩, ⟨8, 1, .ro, 0x0⟩]⟩,
  -- CD_CLAIM_ARMING
  ⟨0x1000, 0x10, 64, 0x0, 1, [⟨0, 16, .ro, 0x0⟩, ⟨16, 5, .ro, 0x0⟩]⟩,
  -- CD_CLAIM_PROGRESS
  ⟨0x1004, 0x10, 64, 0x0, 1, [⟨0, 16, .ro, 0x0⟩, ⟨16, 16, .ro, 0x0⟩]⟩,
  -- CD_CLAIM_RECLAIM
  ⟨0x1008, 0x10, 64, 0x0, 1, [⟨0, 16, .ro, 0x0⟩, ⟨16, 16, .ro, 0x0⟩]⟩,
  -- CD_CLAIM_HELD
  ⟨0x100C, 0x10, 64, 0x0, 1, [⟨0, 16, .ro, 0x0⟩]⟩]

/-- The registers of a CO_ block: Core `c`. -/
def coRows : List RegRow := [
  -- CO_ENTRY
  ⟨0x0, 0x0, 1, 0x0, 1, [⟨0, 25, .ro, 0x0⟩]⟩,
  -- CO_ENTRY_WIDE
  ⟨0x4, 0x0, 1, 0x0, 1, [⟨0, 25, .ro, 0x0⟩]⟩,
  -- CO_BTAB
  ⟨0x8, 0x0, 1, 0x0, 1, [⟨0, 25, .ro, 0x0⟩]⟩,
  -- CO_TSTATUS
  ⟨0x10, 0x0, 1, 0x0, 1, [⟨0, 3, .ro, 0x0⟩, ⟨3, 1, .ro, 0x0⟩, ⟨8, 8, .ro, 0x0⟩, ⟨16, 3, .ro, 0x0⟩, ⟨19, 1, .ro, 0x0⟩, ⟨20, 3, .ro, 0x0⟩]⟩,
  -- CO_FAULT_PC
  ⟨0x14, 0x0, 1, 0x0, 1, [⟨0, 25, .ro, 0x0⟩]⟩,
  -- CO_QDEPTH
  ⟨0x18, 0x0, 1, 0x0, 1, [⟨0, 4, .ro, 0x0⟩, ⟨4, 4, .ro, 0x0⟩, ⟨8, 4, .ro, 0x0⟩, ⟨12, 4, .ro, 0x0⟩, ⟨16, 4, .ro, 0x0⟩, ⟨20, 4, .ro, 0x0⟩, ⟨24, 4, .ro, 0x0⟩, ⟨28, 4, .ro, 0x0⟩]⟩,
  -- CO_LASTST_0
  ⟨0x1C, 0x0, 1, 0x0, 1, [⟨0, 8, .ro, 0x0⟩, ⟨8, 8, .ro, 0x0⟩, ⟨16, 8, .ro, 0x0⟩, ⟨24, 8, .ro, 0x0⟩]⟩,
  -- CO_LASTST_1
  ⟨0x20, 0x0, 1, 0x0, 1, [⟨0, 8, .ro, 0x0⟩, ⟨8, 8, .ro, 0x0⟩, ⟨16, 8, .ro, 0x0⟩, ⟨24, 8, .ro, 0x0⟩]⟩,
  -- CO_VCTRL
  ⟨0x100, 0x0, 1, 0x0, 1, [⟨0, 3, .rw, 0x0⟩]⟩,
  -- CO_VFLAGS
  ⟨0x104, 0x0, 1, 0x0, 1, [⟨0, 1, .w1c, 0x0⟩, ⟨1, 1, .w1c, 0x0⟩, ⟨2, 1, .w1c, 0x0⟩, ⟨3, 1, .w1c, 0x0⟩, ⟨4, 1, .w1c, 0x0⟩]⟩,
  -- CO_SR_SEED_0
  ⟨0x108, 0x0, 1, 0x0, 1, [⟨0, 32, .ro, 0x0⟩]⟩,
  -- CO_SR_SEED_1
  ⟨0x10C, 0x0, 1, 0x0, 1, [⟨0, 32, .ro, 0x0⟩]⟩,
  -- CO_CNT_RESERVED
  ⟨0x110, 0x0, 1, 0x0, 1, [⟨0, 32, .rw, 0x0⟩]⟩,
  -- CO_CNT_INTSAT
  ⟨0x114, 0x0, 1, 0x0, 1, [⟨0, 32, .rw, 0x0⟩]⟩,
  -- CO_CNT_REFRAME
  ⟨0x118, 0x0, 1, 0x0, 1, [⟨0, 32, .rw, 0x0⟩]⟩,
  -- CO_CNT_OVERRANGE
  ⟨0x11C, 0x0, 1, 0x0, 1, [⟨0, 32, .rw, 0x0⟩]⟩,
  -- CO_UNIT_BUSY
  ⟨0x120, 0x0, 1, 0x0, 1, [⟨0, 1, .ro, 0x0⟩, ⟨1, 1, .ro, 0x0⟩, ⟨2, 1, .ro, 0x0⟩, ⟨3, 1, .ro, 0x0⟩, ⟨4, 1, .ro, 0x0⟩, ⟨5, 1, .ro, 0x0⟩]⟩,
  -- CO_SLUICE
  ⟨0x140, 0x4, 8, 0x0, 1, [⟨0, 32, .ro, 0x0⟩]⟩,
  -- CO_SND_FAIL
  ⟨0x160, 0x4, 8, 0x0, 1, [⟨0, 32, .ro, 0x0⟩]⟩,
  -- CO_SND_DONE
  ⟨0x180, 0x0, 1, 0x0, 1, [⟨0, 32, .rw, 0x0⟩]⟩,
  -- CO_SND_FAILED
  ⟨0x184, 0x0, 1, 0x0, 1, [⟨0, 32, .rw, 0x0⟩]⟩,
  -- CO_WIDE_POOL
  ⟨0x188, 0x0, 1, 0x0, 1, [⟨0, 16, .ro, 0x0⟩, ⟨16, 16, .ro, 0x0⟩]⟩,
  -- CO_TRK_DROPPED
  ⟨0x18C, 0x0, 1, 0x0, 1, [⟨0, 32, .rw, 0x0⟩]⟩,
  -- CO_LOSS_0
  ⟨0x200, 0x0, 1, 0x0, 1, [⟨0, 32, .rw, 0x0⟩]⟩,
  -- CO_LOSS_1
  ⟨0x204, 0x0, 1, 0x0, 1, [⟨0, 32, .rw, 0x0⟩]⟩,
  -- CO_GN_PART_0
  ⟨0x208, 0x0, 1, 0x0, 1, [⟨0, 32, .rw, 0x0⟩]⟩,
  -- CO_GN_PART_1
  ⟨0x20C, 0x0, 1, 0x0, 1, [⟨0, 32, .rw, 0x0⟩]⟩,
  -- CO_GN_NORM_0
  ⟨0x210, 0x0, 1, 0x0, 1, [⟨0, 32, .ro, 0x0⟩]⟩,
  -- CO_GN_NORM_1
  ⟨0x214, 0x0, 1, 0x0, 1, [⟨0, 32, .ro, 0x0⟩]⟩,
  -- CO_GN_FACT_0
  ⟨0x218, 0x0, 1, 0x0, 1, [⟨0, 32, .ro, 0x0⟩]⟩,
  -- CO_GN_FACT_1
  ⟨0x21C, 0x0, 1, 0x0, 1, [⟨0, 32, .ro, 0x0⟩]⟩,
  -- CO_GN_STATUS
  ⟨0x220, 0x0, 1, 0x0, 1, [⟨0, 1, .ro, 0x0⟩, ⟨1, 1, .ro, 0x0⟩, ⟨2, 1, .ro, 0x0⟩]⟩,
  -- CO_GN_FACT32
  ⟨0x224, 0x0, 1, 0x0, 1, [⟨0, 32, .ro, 0x0⟩]⟩,
  -- CO_NF_CNT
  ⟨0x230, 0x4, 4, 0x0, 1, [⟨0, 32, .rw, 0x0⟩]⟩,
  -- CO_STAT_SSE_0
  ⟨0x1000, 0x20, 64, 0x0, 1, [⟨0, 32, .rw, 0x0⟩]⟩,
  -- CO_STAT_SSE_1
  ⟨0x1004, 0x20, 64, 0x0, 1, [⟨0, 32, .rw, 0x0⟩]⟩,
  -- CO_STAT_COUNT_0
  ⟨0x1008, 0x20, 64, 0x0, 1, [⟨0, 32, .rw, 0x0⟩]⟩,
  -- CO_STAT_COUNT_1
  ⟨0x100C, 0x20, 64, 0x0, 1, [⟨0, 16, .rw, 0x0⟩]⟩,
  -- CO_STAT_SAT_CNT
  ⟨0x1010, 0x20, 64, 0x0, 1, [⟨0, 32, .rw, 0x0⟩]⟩,
  -- CO_STAT_FLUSH_CNT
  ⟨0x1014, 0x20, 64, 0x0, 1, [⟨0, 32, .rw, 0x0⟩]⟩,
  -- CO_STAT_REGAUGE_CNT
  ⟨0x1018, 0x20, 64, 0x0, 1, [⟨0, 32, .rw, 0x0⟩]⟩,
  -- CO_STAT_AMAX
  ⟨0x101C, 0x20, 64, 0x0, 1, [⟨0, 32, .rw, 0x0⟩]⟩,
  -- CO_TRK_CFG
  ⟨0x2000, 0x10, 64, 0x0, 1, [⟨0, 3, .ro, 0x0⟩, ⟨3, 1, .ro, 0x0⟩, ⟨4, 4, .ro, 0x0⟩, ⟨8, 2, .ro, 0x0⟩, ⟨10, 1, .ro, 0x0⟩, ⟨12, 4, .ro, 0x0⟩, ⟨16, 15, .ro, 0x0⟩]⟩,
  -- CO_TRK_REC
  ⟨0x2004, 0x10, 64, 0x0, 1, [⟨0, 12, .ro, 0x0⟩, ⟨12, 12, .ro, 0x0⟩]⟩,
  -- CO_TRK_OBS
  ⟨0x2008, 0x10, 64, 0x0, 1, [⟨0, 11, .ro, 0x0⟩]⟩,
  -- CO_TRK_STATUS
  ⟨0x200C, 0x10, 64, 0x0, 1, [⟨0, 5, .ro, 0x0⟩, ⟨5, 4, .ro, 0x0⟩, ⟨9, 1, .ro, 0x0⟩, ⟨10, 3, .ro, 0x0⟩, ⟨13, 1, .ro, 0x0⟩, ⟨14, 1, .ro, 0x0⟩, ⟨15, 1, .ro, 0x0⟩, ⟨16, 1, .ro, 0x0⟩, ⟨17, 15, .ro, 0x0⟩]⟩,
  -- CO_SND_CFG
  ⟨0x2400, 0x8, 256, 0x0, 1, [⟨0, 4, .ro, 0x0⟩, ⟨4, 1, .ro, 0x0⟩, ⟨5, 1, .ro, 0x0⟩, ⟨6, 2, .ro, 0x0⟩, ⟨8, 13, .ro, 0x0⟩, ⟨21, 11, .ro, 0x0⟩]⟩,
  -- CO_SND_THR
  ⟨0x2404, 0x8, 256, 0x0, 1, [⟨0, 32, .ro, 0x0⟩]⟩,
  -- CO_OBS
  ⟨0x4000, 0x4, 2048, 0x0, 1, [⟨0, 32, .rw, 0x0⟩]⟩,
  -- CO_SRF
  ⟨0x8000, 0x4, 8192, 0x0, 1, [⟨0, 32, .rw, 0x0⟩]⟩]

/-- The registers of a WH_ block: Wharf die `n`. -/
def whRows : List RegRow := [
  -- WH_INTAKE_CFG
  ⟨0x100, 0x20, 2, 0x0, 1, [⟨0, 1, .ro, 0x0⟩, ⟨1, 4, .ro, 0x0⟩, ⟨16, 16, .ro, 0x0⟩]⟩,
  -- WH_INTAKE_POOL
  ⟨0x104, 0x20, 2, 0x0, 1, [⟨0, 18, .ro, 0x0⟩]⟩,
  -- WH_INTAKE_SIZE
  ⟨0x108, 0x20, 2, 0x0, 1, [⟨0, 13, .ro, 0x0⟩]⟩,
  -- WH_INTAKE_STATUS
  ⟨0x10C, 0x20, 2, 0x0, 1, [⟨0, 1, .ro, 0x1⟩, ⟨1, 1, .ro, 0x0⟩, ⟨2, 1, .ro, 0x0⟩, ⟨16, 13, .ro, 0x0⟩]⟩,
  -- WH_INTAKE_ADMIT
  ⟨0x110, 0x20, 2, 0x0, 1, [⟨0, 32, .rw, 0x0⟩]⟩,
  -- WH_INTAKE_BUSY
  ⟨0x114, 0x20, 2, 0x0, 1, [⟨0, 32, .rw, 0x0⟩]⟩,
  -- WH_INTAKE_REFUSED
  ⟨0x118, 0x20, 2, 0x0, 1, [⟨0, 32, .rw, 0x0⟩]⟩,
  -- WH_INTAKE_EXPIRED
  ⟨0x11C, 0x20, 2, 0x0, 1, [⟨0, 32, .rw, 0x0⟩]⟩]

/-- The registers of a HM_ block: HBM controller of stack `n`. -/
def hmRows : List RegRow := [
  -- HM_CFG
  ⟨0x0, 0x0, 1, 0x0, 1, [⟨0, 1, .rwl, 0x0⟩, ⟨1, 1, .rw, 0x0⟩]⟩,
  -- HM_STATUS
  ⟨0x4, 0x0, 1, 0x0, 1, [⟨0, 1, .ro, 0x0⟩, ⟨1, 1, .ro, 0x0⟩, ⟨2, 1, .ro, 0x0⟩, ⟨3, 1, .ro, 0x0⟩, ⟨4, 1, .ro, 0x0⟩, ⟨8, 8, .ro, 0x0⟩, ⟨16, 8, .ro, 0x0⟩]⟩,
  -- HM_REPAIR
  ⟨0x40, 0x4, 16, 0x0, 1, [⟨0, 2, .ro, 0x0⟩, ⟨2, 2, .ro, 0x0⟩, ⟨4, 1, .ro, 0x0⟩, ⟨5, 1, .ro, 0x0⟩]⟩,
  -- HM_CE_CNT
  ⟨0x80, 0x0, 1, 0x0, 1, [⟨0, 32, .rw, 0x0⟩]⟩,
  -- HM_UE_CNT
  ⟨0x84, 0x0, 1, 0x0, 1, [⟨0, 32, .rw, 0x0⟩]⟩,
  -- HM_MAC_FAIL
  ⟨0x88, 0x0, 1, 0x0, 1, [⟨0, 32, .rw, 0x0⟩]⟩,
  -- HM_RMW_CNT
  ⟨0x8C, 0x0, 1, 0x0, 1, [⟨0, 32, .rw, 0x0⟩]⟩,
  -- HM_MSOP_NF
  ⟨0x90, 0x0, 1, 0x0, 1, [⟨0, 32, .rw, 0x0⟩]⟩,
  -- HM_NARROW_CNT
  ⟨0x94, 0x0, 1, 0x0, 1, [⟨0, 32, .rw, 0x0⟩]⟩,
  -- HM_RD_BYTES_0
  ⟨0xA0, 0x0, 1, 0x0, 1, [⟨0, 32, .rw, 0x0⟩]⟩,
  -- HM_RD_BYTES_1
  ⟨0xA4, 0x0, 1, 0x0, 1, [⟨0, 32, .rw, 0x0⟩]⟩,
  -- HM_WR_BYTES_0
  ⟨0xA8, 0x0, 1, 0x0, 1, [⟨0, 32, .rw, 0x0⟩]⟩,
  -- HM_WR_BYTES_1
  ⟨0xAC, 0x0, 1, 0x0, 1, [⟨0, 32, .rw, 0x0⟩]⟩,
  -- HM_SCRUB
  ⟨0xB0, 0x0, 1, 0x0, 1, [⟨0, 16, .rw, 0x18⟩, ⟨16, 8, .ro, 0x0⟩]⟩,
  -- HM_KREG
  ⟨0x100, 0x4, 16, 0x0, 1, [⟨0, 8, .rw, 0x0⟩, ⟨8, 8, .rw, 0x0⟩, ⟨16, 3, .rw, 0x0⟩, ⟨31, 1, .rw, 0x0⟩]⟩]

/-- The registers of a LK_ block: Link port `p`. -/
def lkRows : List RegRow := [
  -- LK_CFG
  ⟨0x0, 0x0, 1, 0x0, 1, [⟨0, 2, .rw, 0x0⟩, ⟨2, 2, .rw, 0x0⟩, ⟨4, 1, .rw, 0x0⟩]⟩,
  -- LK_LANES
  ⟨0x4, 0x0, 1, 0x0, 1, [⟨0, 8, .ro, 0x0⟩, ⟨8, 8, .ro, 0x0⟩]⟩,
  -- LK_LR_BASE
  ⟨0x8, 0x0, 1, 0x0, 1, [⟨0, 18, .rw, 0x0⟩]⟩,
  -- LK_STATE
  ⟨0x100, 0x40, 8, 0x0, 1, [⟨0, 3, .ro, 0x0⟩, ⟨3, 2, .ro, 0x0⟩, ⟨5, 1, .ro, 0x0⟩, ⟨6, 1, .ro, 0x0⟩, ⟨7, 1, .ro, 0x0⟩, ⟨8, 1, .rw, 0x0⟩, ⟨16, 14, .ro, 0x0⟩]⟩,
  -- LK_DELAY
  ⟨0x104, 0x40, 8, 0x0, 1, [⟨0, 32, .ro, 0x0⟩]⟩,
  -- LK_RTT
  ⟨0x108, 0x40, 8, 0x0, 1, [⟨0, 32, .ro, 0x0⟩]⟩,
  -- LK_ASYM
  ⟨0x10C, 0x40, 8, 0x0, 1, [⟨0, 32, .rw, 0x0⟩]⟩,
  -- LK_CTRL
  ⟨0x110, 0x40, 8, 0x0, 1, [⟨0, 1, .wo, 0x0⟩, ⟨1, 1, .wo, 0x0⟩, ⟨2, 1, .wo, 0x0⟩, ⟨3, 1, .wo, 0x0⟩, ⟨4, 1, .wo, 0x0⟩, ⟨5, 4, .wo, 0x0⟩]⟩,
  -- LK_CORR
  ⟨0x114, 0x40, 8, 0x0, 1, [⟨0, 32, .rw, 0x0⟩]⟩,
  -- LK_UNCORR
  ⟨0x118, 0x40, 8, 0x0, 1, [⟨0, 32, .rw, 0x0⟩]⟩,
  -- LK_ICV_FAIL
  ⟨0x11C, 0x40, 8, 0x0, 1, [⟨0, 32, .rw, 0x0⟩]⟩,
  -- LK_RETRY
  ⟨0x120, 0x40, 8, 0x0, 1, [⟨0, 32, .rw, 0x0⟩]⟩,
  -- LK_RETRAIN
  ⟨0x124, 0x40, 8, 0x0, 1, [⟨0, 32, .rw, 0x0⟩]⟩,
  -- LK_C0_LATE
  ⟨0x128, 0x40, 8, 0x0, 1, [⟨0, 32, .rw, 0x0⟩]⟩,
  -- LK_DROP
  ⟨0x12C, 0x40, 8, 0x0, 1, [⟨0, 32, .rw, 0x0⟩]⟩,
  -- LK_KEYCNT_0
  ⟨0x130, 0x40, 8, 0x0, 1, [⟨0, 32, .ro, 0x0⟩]⟩,
  -- LK_KEYCNT_1
  ⟨0x134, 0x40, 8, 0x0, 1, [⟨0, 32, .ro, 0x0⟩]⟩,
  -- LK_ETH_CFG
  ⟨0x400, 0x40, 2, 0x0, 1, [⟨0, 1, .rw, 0x1⟩, ⟨1, 1, .rw, 0x1⟩, ⟨2, 1, .rw, 0x0⟩, ⟨3, 1, .rw, 0x0⟩, ⟨4, 12, .rw, 0x0⟩, ⟨16, 16, .rw, 0x2400⟩]⟩,
  -- LK_ETH_MAC_0
  ⟨0x404, 0x40, 2, 0x0, 1, [⟨0, 32, .ro, 0x0⟩]⟩,
  -- LK_ETH_MAC_1
  ⟨0x408, 0x40, 2, 0x0, 1, [⟨0, 16, .ro, 0x0⟩]⟩,
  -- LK_ETH_IP6
  ⟨0x410, 0x40, 2, 0x4, 4, [⟨0, 32, .rw, 0x0⟩]⟩,
  -- LK_ETH_RX
  ⟨0x420, 0x40, 2, 0x0, 1, [⟨0, 32, .rw, 0x0⟩]⟩,
  -- LK_ETH_DROP
  ⟨0x424, 0x40, 2, 0x0, 1, [⟨0, 32, .rw, 0x0⟩]⟩,
  -- LK_ETH_MSEC_FAIL
  ⟨0x428, 0x40, 2, 0x0, 1, [⟨0, 32, .rw, 0x0⟩]⟩]

/-- The registers of a DM_ block: DMA engine `e`. -/
def dmRows : List RegRow := [
  -- DM_GO
  ⟨0x0, 0x0, 1, 0x0, 1, [⟨0, 25, .wo, 0x0⟩, ⟨25, 7, .wo, 0x0⟩]⟩,
  -- DM_CTRL
  ⟨0x4, 0x0, 1, 0x0, 1, [⟨0, 1, .wo, 0x0⟩, ⟨1, 1, .wo, 0x0⟩]⟩,
  -- DM_STATUS
  ⟨0x8, 0x0, 1, 0x0, 1, [⟨0, 2, .ro, 0x0⟩, ⟨2, 1, .ro, 0x0⟩, ⟨8, 8, .ro, 0x0⟩, ⟨16, 4, .ro, 0x0⟩]⟩,
  -- DM_FAULT_ADDR_0
  ⟨0x10, 0x0, 1, 0x0, 1, [⟨0, 32, .ro, 0x0⟩]⟩,
  -- DM_FAULT_ADDR_1
  ⟨0x14, 0x0, 1, 0x0, 1, [⟨0, 32, .ro, 0x0⟩]⟩,
  -- DM_FAULT_DESC_0
  ⟨0x18, 0x0, 1, 0x0, 1, [⟨0, 32, .ro, 0x0⟩]⟩,
  -- DM_FAULT_DESC_1
  ⟨0x1C, 0x0, 1, 0x0, 1, [⟨0, 32, .ro, 0x0⟩]⟩,
  -- DM_CHAIN_0
  ⟨0x20, 0x0, 1, 0x0, 1, [⟨0, 32, .rw, 0x0⟩]⟩,
  -- DM_CHAIN_1
  ⟨0x24, 0x0, 1, 0x0, 1, [⟨0, 32, .rw, 0x0⟩]⟩,
  -- DM_DONE_CNT
  ⟨0x28, 0x0, 1, 0x0, 1, [⟨0, 32, .rw, 0x0⟩]⟩,
  -- DM_UNACKED
  ⟨0x2C, 0x0, 1, 0x0, 1, [⟨0, 16, .ro, 0x0⟩]⟩]

/-- The registers of a MB_ block: Mailbox channel `x` (4c + m). -/
def mbRows : List RegRow := [
  -- MB_BIND_0
  ⟨0x0, 0x0, 1, 0x0, 1, [⟨0, 12, .rwl, 0x0⟩, ⟨12, 12, .rwl, 0x0⟩, ⟨24, 1, .rwl, 0x0⟩]⟩,
  -- MB_BIND_1
  ⟨0x4, 0x0, 1, 0x0, 1, [⟨0, 14, .rwl, 0x0⟩, ⟨31, 1, .rwl, 0x0⟩]⟩,
  -- MB_STATUS
  ⟨0x8, 0x0, 1, 0x0, 1, [⟨0, 1, .ro, 0x0⟩, ⟨1, 1, .ro, 0x0⟩, ⟨2, 1, .ro, 0x0⟩]⟩,
  -- MB_LOCK
  ⟨0xC, 0x0, 1, 0x0, 1, [⟨0, 32, .rw, 0x0⟩]⟩,
  -- MB_MSG_0
  ⟨0x10, 0x0, 1, 0x0, 1, [⟨0, 32, .wo, 0x0⟩]⟩,
  -- MB_MSG_1
  ⟨0x14, 0x0, 1, 0x0, 1, [⟨0, 32, .wo, 0x0⟩]⟩,
  -- MB_MSG_2
  ⟨0x18, 0x0, 1, 0x0, 1, [⟨0, 32, .wo, 0x0⟩]⟩,
  -- MB_MSG_3
  ⟨0x1C, 0x0, 1, 0x0, 1, [⟨0, 32, .wo, 0x0⟩]⟩,
  -- MB_SENDER
  ⟨0x20, 0x0, 1, 0x0, 1, [⟨0, 26, .ro, 0x0⟩]⟩,
  -- MB_OVERRUN
  ⟨0x24, 0x0, 1, 0x0, 1, [⟨0, 32, .rw, 0x0⟩]⟩,
  -- MB_REFUSED
  ⟨0x28, 0x0, 1, 0x0, 1, [⟨0, 32, .rw, 0x0⟩]⟩,
  -- MB_DISCARD
  ⟨0x2C, 0x0, 1, 0x0, 1, [⟨0, 32, .rw, 0x0⟩]⟩,
  -- MB_NOTES
  ⟨0x100, 0x0, 1, 0x0, 1, [⟨0, 4, .ro, 0x0⟩]⟩,
  -- MB_NOTE_LOST
  ⟨0x104, 0x0, 1, 0x0, 1, [⟨0, 32, .rw, 0x0⟩]⟩]


end Sys2Proof.Machine
end

