-- ==== Sys2Proof/Machine/State.lean ====
section
/-! DEFINITION. The state of a T25: every register of the spec's tables (in one sparse map by address), the memories, and the state the rules give each unit beside its registers; the machine after reset; why a step may stop. -/

namespace Sys2Proof.Machine

/-- Why a step stops with a fault. No command of this model raises one: an error of the T25 is a status, an
event or a halted unit, all of which are state. Safe. -/
inductive Fault where
  /-- Raised by nothing. Safe. -/
  | none
  deriving DecidableEq, Repr

/-- Why a command is refused. -/
inductive Refusal where
  /-- The command has no meaning yet: raised by the arms of `exec` alone. Safe. -/
  | notModelled (mnemonic : String)
  deriving DecidableEq, Repr

/-- A map from numbers in canonical form: keys strictly rising, and no entry equal to what an unlisted key
reads as. -/
abbrev Sparse (α : Type) := List (Nat × α)

/-- The reply to the last access: its status code (R469) and the bytes it returned. -/
structure Resp where
  status : Nat
  data : List Byte
  deriving DecidableEq, Repr

/-- One instance of an event on its way to the Keeper (R473, R475). -/
structure Event where
  time : Nat
  cls : Nat
  sev : Nat
  status : Nat
  source : Nat
  detail : Nat
  deriving DecidableEq, Repr

/-- The low-speed pins that the device drives and holds (true is high), and RESET_N and the straps ADDR_SEL1 and
ADDR_SEL0 as the carrier board drives them (R504). RB_N and ALERT_N follow from the rest of the state (R322, R480). -/
structure Pins where
  thermTripN : Bool
  pwrGood : Bool
  ppsOut : Bool
  resetN : Bool
  addrSel : Nat
  deriving DecidableEq, Repr

/-- What the time unit keeps beside its registers (R54 to R64). -/
structure TimeState where
  /-- The last accepted PPS edge, from which the acceptance windows count (R56, R58); a step of network time moves it, and the other
instants of this record, with the count. -/
  ppsRef : Option Int
  /-- Times of the PPS_IN edges, rising or falling, of the last 100 ms, and of the last edge. -/
  ppsEdges : List Nat
  ppsLast : Nat
  /-- The last instants at which PPS_IN and REF10M_IN met a failure condition, or PPS_IN an edge outside its window. -/
  ppsBadAt : Nat
  refBadAt : Nat
  /-- The last PTP measurement, the last time transfer message, and the error bound that the latter carried. -/
  ptpAt : Nat
  eweAt : Nat
  eweBound : Nat
  /-- For sources 1 to 3: one more than the instant since which each has been qualified, or 0. -/
  since : List Nat
  /-- The last offset measured against the active source, in ns. -/
  offset : Int
  /-- The source has changed and its offset has not been measured yet. -/
  changed : Bool
  /-- The start of the holdover, and the error bound at that instant. -/
  holdSince : Nat
  holdBase : Nat
  /-- The whole second at which PPS_OUT last rose, in ns. -/
  ppsOutAt : Nat
  /-- PTP: the origin and the arrival of the last Sync, and the departure of the Delay_Req that follows it (R376). -/
  ptpT1 : Option Nat
  ptpT2 : Option Nat
  ptpT3 : Option Nat
  /-- How far the time of day last supplied is ahead of network time, in ns, where the count has not taken it (R55). -/
  todAhead : Int
  deriving DecidableEq, Repr

/-- One instruction in a unit queue (R135, R177): its issue number, its queue, its place, its words, the scalar
registers as they stood at issue, and, once it has started, the status it will return; and whether a CONVERT runs on converter 1. -/
structure QEntry where
  seq : Nat
  q : Nat
  pc : Nat
  words : TileWords
  g : List Dword
  started : Bool
  status : Nat
  second : Bool
  deriving DecidableEq, Repr

/-- What a tiller waits for (R173, R202, R205). -/
inductive Stall where
  | none
  | queueFull (e : QEntry)
  /-- A load whose data has not returned; `value` is what the memory gave, once it has given it. -/
  | load (d : Nat) (wide : Bool) (addr : Nat) (value : Option Dword) (status : Nat)
  | waitq (mask : Nat)
  | statq (d q : Nat)
  | msend (d : Nat)
  | mrecv (d a b fn : Nat)
  | wfe (until_ : Nat)
  /-- A CLAIM or FENCE that waits: its words. -/
  | tile (t : TileWords)
  deriving DecidableEq, Repr

/-- What a region key is bound to (R185). -/
structure KeyBind where
  backward : Bool
  cbase : Nat
  m : Nat
  n : Nat
  deriving DecidableEq, Repr

/-- What a core holds beside its registers (R134 to R213). -/
structure Core where
  g : List Dword
  pc : Nat
  seq : Nat
  queue : List QEntry
  stall : Stall
  /-- Accumulator entries (R142, R150). -/
  acc : Sparse (BitVec 128)
  /-- Vector registers (R161). -/
  vreg : Sparse (BitVec 2048)
  /-- Stochastic-rounding streams that have stepped since they were seeded, by 64 t + l (R164). -/
  sr : Sparse Dword
  keys : Sparse KeyBind
  /-- Regions marked by a SOUND: first entry and length (R200). -/
  marks : List (Nat × Nat)
  /-- Queues that were issued an instruction in this pound, one bit each (R173, STATQ). -/
  issued : Nat
  /-- An arrival event or an empty note that no WFE has taken (R337, R340). -/
  wake : Bool
  unacked : Nat
  unackedRemote : Nat
  /-- Stores to other devices that have no acknowledgement yet: number and basin offset of each (R173, R179). -/
  stores : List (Nat × Nat)
  /-- The pound's first fault has been recorded (R179). -/
  faultSeen : Bool
  deriving DecidableEq, Repr

/-- A claim counter's indices (R208): issue numbers, holders (core + 1) and the reclaim list, ascending. -/
structure Claim where
  issue : Sparse Nat
  holder : Sparse Nat
  reclaim : List Nat
  deriving DecidableEq, Repr

/-- A queued DMA chain: address of its first descriptor, descriptors, and the issue number of the tiller's
queue entry when the core's own tiller wrote DM_GO (R324). -/
structure Chain where
  start : Nat
  count : Nat
  entry : Option Nat
  deriving DecidableEq, Repr

/-- What a DMA engine holds beside its registers (R324 to R330). -/
structure Engine where
  chains : List Chain
  /-- Descriptors of the first chain that have completed. -/
  index : Nat
  /-- The four words of the descriptor in progress. -/
  desc : Option (Nat × Nat × Nat × Nat)
  /-- The descriptor's last write has left the engine, with this status. -/
  moved : Option Nat
  /-- The highest-ranked status of the chain's descriptors so far. -/
  worst : Nat
  /-- Writes not acknowledged: to this device, and to others. -/
  unacked : Nat
  remote : Nat
  deriving DecidableEq, Repr

/-- A descriptor in execution (R308, R311): its count, its eight words, whether its command has begun, the epoch
it is bound to (R83), whether the serving path has admitted it (R91), and the wharf engine that carries a COPY. -/
structure RingExec where
  index : Nat
  words : List Nat
  begun : Bool
  epoch : Option Nat
  served : Bool
  engine : Option Nat
  deriving DecidableEq, Repr

/-- A mailbox message on its way (R335): the address it names, and who waits for the reply: a tiller of this
device, or a link request by its sub-port (8 × port + sub) and transaction. -/
structure Send where
  src : Ident
  addr : Nat
  msg : BitVec 128
  tiller : Option Nat
  link : Option (Nat × Head)
  deriving DecidableEq, Repr

/-- A mailbox channel's slot (R334). -/
structure Chan where
  msg : BitVec 128
  deriving DecidableEq, Repr

/-- A transaction on its way out over the links (R350): destination device, traffic class, operation, head flit, the length of
a read (which no field of the head carries), and the bytes of its body flits. -/
structure Tx where
  dev : Nat
  cls : Nat
  op : Nat
  head : Head
  size : Nat
  body : List Byte
  deriving DecidableEq, Repr

/-- A read of another device's memory by a DMA engine or the Keeper, or a write or memory-side operation of an engine there (R51,
R327 to R329, R350): its place and length, the transaction number of the request, the answer of a read once it has come, status and
bytes; and of a write the address of the DMA descriptor that it belongs to, none for a COPY of a ring. -/
structure RemoteReq where
  m : Ident
  addr : Nat
  size : Nat
  tid : Nat
  answer : Option (Nat × List Byte)
  write : Bool
  desc : Option Nat
  deriving DecidableEq, Repr

/-- A request in reassembly at a port's intake (R318). -/
structure Reassembly where
  client : Nat
  clientPort : Nat
  reqId : Nat
  first : Nat
  header : ServeHeader
  frags : List (Nat × List Byte)
  fidx : List Nat
  base : Nat
  size : Nat
  deriving DecidableEq, Repr

/-- A UDP datagram on its way out of an Ethernet port (R317): the port, the client's address and UDP port, its bytes. -/
structure Datagram where
  port : Nat
  addr : Nat
  udp : Nat
  bytes : List Byte
  deriving DecidableEq, Repr

/-- What a port's intake holds beside its registers. -/
structure Intake where
  reasm : List Reassembly
  refused : List (Nat × Nat × Nat × Nat)
  /-- Pool reservations: offset and length. -/
  pool : List (Nat × Nat)
  waited : Nat
  /-- One more than the instant at which the last serving slot began, or 0 (R91). -/
  slotAt : Nat
  /-- The port's line is held low by its ring, its pool or the device RB_N until all of them have recovered (R321). -/
  low : Bool
  deriving DecidableEq, Repr

/-- A sender's replay entry: a codeword as it was sent, its number since the link came UP, and how often it has been
sent again (R357, R358). -/
structure Sent where
  num : Nat
  resent : Nat
  cw : Codeword
  deriving DecidableEq, Repr

/-- What a link sub-port holds beside its registers (chapter 10). -/
structure Sub where
  /-- Codewords sent and received good since the link came UP (R357). -/
  txNum : Nat
  rxNum : Nat
  replay : List Sent
  /-- Flits that wait for a slot, with their class (R352). -/
  queue : List Flit
  /-- The flits that the last good codeword delivered, and whether the last transaction of class 3 that arrived is the Keeper's (R364). -/
  rx : List Flit
  keeperIn : Bool
  /-- The symbols of the last codeword block, by lane (R348). -/
  line : List (List Nat)
  /-- The number of the next codeword to be sent again (R357). -/
  resend : Option Nat
  /-- Credits held and credits to return, by class, and the class whose credits were returned last (R355). -/
  credits : List Nat
  freed : List Nat
  turn : Nat
  /-- What the credits of classes 1 and 2 together must leave: the share of the buffer that they have in common has an end (R355). -/
  floor : Nat
  /-- Slots filled since the last one of class 3 (R352). -/
  sinceMgmt : Nat
  /-- The last class-0 window that had slots here, by its number, and the class-0 flits that found no slot in it (R353). -/
  c0Win : Nat
  c0Left : Nat
  nakDue : Bool
  /-- The keys and salts of the two phases, both directions (R365, R462). -/
  keys : List (Option (BitVec 320))
  /-- KEY_READY has been sent; the peer's has arrived; a codeword has left since that acknowledges the peer's (R364). -/
  readySent : Bool
  readyPeer : Bool
  peerAcked : Bool
  /-- A switch of phase is due; the number of the last codeword sent under the old phase; when it was acknowledged (R366). -/
  switchDue : Bool
  oldNum : Option Nat
  oldAckAt : Option Nat
  /-- The start of the retrain, the state of the link before it, and the instant at which the link went DOWN (R361). -/
  trainAt : Nat
  back : Nat
  downAt : Nat
  /-- The last 16 results: round trip and delay from the peer, in ps; the t1 of the request on its way (R377). -/
  delays : List (Int × Int)
  reqT1 : Option Nat
  ttAt : Nat
  /-- Control flits that arrived during a retrain: type and mask (R373). -/
  latched : List (Nat × Nat)
  /-- The instant at which the sub-port began to enter towpath, and whether at the peer's word; the instant at which it began to
  return to full rate (R369, R370). -/
  towSince : Option Nat
  towPeer : Bool
  /-- TOWPATH_ENTER has been queued (R369). -/
  enterSent : Bool
  fullSince : Option Nat
  /-- Transaction numbers of requests that have left on this link and have no answer, and the heads and classes of those of other devices
that this one forwards (R361). -/
  outstanding : List Nat
  fwd : List Head
  deriving DecidableEq, Repr

/-- A vote as a manager holds it for the coming lock (R72). -/
structure VoteRec where
  dev : Nat
  vote : Vote
  layers : BitVec 256
  ovr : Bool
  causes : Nat
  deriving DecidableEq, Repr

/-- What a configuration change bound to an epoch does (R77). -/
inductive Change where
  | config (entries : List (Nat × Nat))
  | schedule (image : ScheduleImage)
  | routes
  | rekey (sub : Nat)
  | kreg (stack index : Nat) (value : Nat)
  | key (slot : Nat)
  | tenant (k : Nat) (reg value : Nat)
  | image
  | group (index : Nat) (words : List Nat)
  | fleet (index value : Nat)
  | release (dev : Nat)
  /-- The activation lock of a broadcast at the device that sent it. -/
  | castEnd
  deriving DecidableEq, Repr

/-- A change, the epoch it is bound to, and the descriptor that waits for it (ring, index). -/
structure Bound where
  epoch : Nat
  change : Change
  ref : Option (Nat × Nat)
  deriving DecidableEq, Repr

/-- A reset or power request deferred while the lock window is open (R80). -/
inductive Deferred where
  | reset (scope target : Nat)
  | power (part : Nat) (en : Bool)
  deriving DecidableEq, Repr

/-- An epoch that a schedule which has been replaced still retains (R83, R310): its number, its slot, and that schedule's exposed
tensors and retention. -/
structure PastEpoch where
  epoch : Nat
  slot : Nat
  tensors : List Tensor
  keep : Nat
  deriving DecidableEq, Repr

/-- What the lock machinery holds beside the TM_ registers (R65 to R91). -/
structure LockState where
  anchor : Nat
  /-- The instant from which the class-1 windows count, and whether the pound is in the extension of a hold (R253). -/
  origin : Nat
  extended : Bool
  poundStart : Nat
  votes : List VoteRec
  /-- The vote cut-off of the coming lock has passed here (R72), and the causes that stood then (R179). -/
  cut : Bool
  cutCauses : Nat
  /-- The words of the combined vote that a lower manager has last passed up for the coming lock; none yet: empty (R72). -/
  passed : List Nat
  decision : Option Decision
  /-- The instant from which the running lock's 20 µs count. -/
  start : Option Nat
  /-- The commit step of the running lock has been carried out. -/
  committed : Bool
  /-- The lock window of R80 is open. -/
  window : Bool
  /-- Causes of the VETO that the next vote must carry (R266). -/
  causes : Nat
  /-- The overcommit bit of the next vote (R235). -/
  ovr : Bool
  /-- An uncorrectable error was found after the vote cut-off (R75). -/
  lateError : Bool
  /-- The running EMPTY lock has brought EMPTIES to EMPTY_LIMIT (R270). -/
  emptied : Bool
  changes : List Bound
  deferred : List Deferred
  /-- Commits since the schedule became current: the working slot of every tensor is this modulo K + 1. -/
  rot : Nat
  /-- Retained epochs, newest first, and the slot that holds each (R82, R83). -/
  history : List (Nat × Nat)
  past : List PastEpoch
  /-- EV_CNT of each class at the last REPORT after a lock (R481). -/
  reported : Sparse Nat
  poundSeed : Nat
  /-- The core-state image: its committed slot and its working slot (R395). -/
  image : Sparse Word
  imageWork : Sparse Word
  deriving DecidableEq, Repr

/-- A boundary of a partial reset in progress (R432): scope (0 core, 1 cluster, 2 partition), target, and whether its
drain has completed. -/
structure Boundary where
  scope : Nat
  target : Nat
  drained : Bool
  deriving DecidableEq, Repr

/-- The ordering codes (R2). -/
inductive PartCode where
  | t25a
  | t25b
  | t25c
  deriving DecidableEq, Repr

/-- CODE, the maximum arithmetic clock in MHz, and the package power limit in units of 100 W (R2, R5). -/
def PartCode.code : PartCode → Nat
  | .t25a => 1
  | .t25b => 2
  | .t25c => 3
def PartCode.clkMax : PartCode → Nat
  | .t25a => 1000
  | .t25b => 850
  | .t25c => 700
def PartCode.pwrMax : PartCode → Nat
  | .t25a => 48
  | .t25b => 39
  | .t25c => 30

/-- What a wharf die holds of HBM (R301): its last verified units by number, and its cached lines of MACs, most recent first. -/
structure HbmCache where
  units : List Nat
  lines : List Nat
  deriving DecidableEq, Repr

/-- Nothing held. -/
def HbmCache.empty : HbmCache := ⟨[], []⟩

/-- The fuse arrays and the records beside them that no reset clears (R420 to R429, R452, R454, R466): burnt and soft
repair entries, key hashes with their revoke bits, the rollback counter, the serial number, the operator key list, the
slot selector, and the ordering code with its limits (R2, R4): no command changes it. -/
structure Fuses where
  part : PartCode
  fused : List Finding
  soft : List Finding
  keyHash : List (BitVec 256)
  revoked : Nat
  authHash : List (BitVec 256)
  rollback : Nat
  serial : BitVec 128
  operatorKeys : List (BitVec 256)
  selector : Nat
  deriving DecidableEq, Repr

/-- Why the device is held in reset (R417, R491, R499). -/
inductive Hold where
  | none
  | pin
  | kpReset
  /-- A supply shutdown, with its kind (R490). -/
  | supply (kind : Nat)
  | trip
  deriving DecidableEq, Repr

/-- A self-test in progress (R424 to R427). -/
structure SelfTest where
  full : Bool
  parts : Nat
  /-- Slices finished. -/
  ran : Nat
  fails : List Finding
  passed : List Finding
  began : Nat
  deriving DecidableEq, Repr

/-- Start-up, reset and self-test state (chapter 12). -/
structure Boot where
  /-- The start phase of R414 that has ended: 0 held in reset, 1 T0, 2 Keeper rails, 3 resonator, 4 boot ROM, 5 Keeper firmware,
  6 partitions, 7 start-up check, 8 HBM and maps, 9 links, 10 ready. -/
  phase : Nat
  hold : Hold
  /-- Nanoseconds counted since T0. -/
  uptime : Nat
  /-- A Keeper-only reset is in progress (R435). -/
  keeperDown : Bool
  resets : List Boundary
  /-- Partition resets latched until the domain is ON, and EN changes latched by a reset or a test (R440). -/
  latched : List Nat
  enLatched : List (Nat × Bool)
  /-- The disabled set of this start (R420). -/
  disabled : List Finding
  test : Option SelfTest
  /-- Entries that a BURN has still to burn (R429). -/
  burning : List Finding
  deriving DecidableEq, Repr

/-- A token held by the Keeper (R466): operation, argument, and the instant at which it was offered. -/
structure Auth where
  op : Nat
  arg : Nat
  since : Nat
  deriving DecidableEq, Repr

/-- The Keeper's security state (chapter 13). -/
structure Security where
  /-- The operator key of the open session (R467). -/
  session : Option (BitVec 256)
  auth : Option Auth
  /-- The instant at which an ephemeral key was reported (R460). -/
  ephemeral : Option Nat
  /-- The instants of the attestation reports of the last second (R460). -/
  attested : List Nat
  drbgRequests : Nat
  /-- Admission records used (R463). -/
  records : List (BitVec 256)
  i3cAddr : Nat
  deriving DecidableEq, Repr

/-- A member as a manager knows it (chapter 11): the last two loss records, newest first, whether it has been released, and
whether it has last reported that it lacks chunks of the broadcast. -/
structure Member where
  dev : Nat
  role : Nat
  duty : Nat
  failed : Bool
  released : Bool
  missed : Nat
  epoch : Nat
  score : Nat
  losses : List (List Dword)
  lacking : Bool
  deriving DecidableEq, Repr

/-- A broadcast (R390 to R393): the chunks held, by 128 × block + index, whether the image has been verified and a check of it
failed, and at the device that sends it the image's address and length. -/
structure Bcast where
  number : Nat
  blocks : Nat
  stage : Nat
  children : List Nat
  /-- The window's start at the device that sends the image. -/
  windowStart : Nat
  windowEnd : Nat
  deadline : Nat
  activation : Nat
  got : List Nat
  missingAt : Nat
  verified : Bool
  failed : Bool
  source : Option (Nat × Nat)
  deriving DecidableEq, Repr

/-- The training state beside the registers (R256 to R265): the samples that await their evaluation, by channel;
the working MEAN, VAR and N of the two channels; the cores that take part in the pound's reduction, the partials
that have arrived, the device's sum, the result computed here, and whether a result has reached the cores. -/
structure Train where
  samples : List (Nat × Nat)
  mean : List Nat
  var : List Nat
  n : List Nat
  taking : List Nat
  parts : Sparse Nat
  sum : Option Nat
  result : Option (Nat × Nat × Bool)
  delivered : Bool
  deriving DecidableEq, Repr

/-- What a snapshot holds (R400): its epoch, the bytes of every committed tensor, the registers of committed state, the
core-state image, and the SM3 hash of the schedule. -/
structure SnapImage where
  epoch : Nat
  tensors : List (Nat × List Byte)
  regs : Sparse Word
  image : Sparse Word
  digest : BitVec 256
  deriving DecidableEq, Repr

/-- A snapshot target, peer or sink (R399): due; the epoch in transfer and its slot, and what is transferred; the ring
descriptors that wait for the snapshot that is due, and for the one in transfer. -/
structure Snap where
  due : Bool
  running : Option (Nat × Nat)
  image : Option SnapImage
  refs : List (Nat × Nat)
  runRefs : List (Nat × Nat)
  deriving DecidableEq, Repr

/-- A target with nothing due. -/
def Snap.initial : Snap := ⟨false, none, none, [], []⟩

/-- A replacement in progress at a manager (R403): the failed device, its spare, and the descriptor that waits. -/
structure Replacement where
  failed : Nat
  spare : Nat
  ref : Option (Nat × Nat)
  deriving DecidableEq, Repr

/-- Fleet state (chapter 11). -/
structure Fleet where
  members : List Member
  /-- The two route banks: entries by destination (R385). -/
  bank0 : Sparse Nat
  bank1 : Sparse Nat
  bcast : Option Bcast
  /-- Heartbeats that each recovery agent has missed in a row (R405). -/
  beats : List Nat
  adrift : Bool
  /-- Peer and sink; the last complete snapshot; a restored state that no schedule has taken up yet (R401). -/
  snaps : List Snap
  kept : Option SnapImage
  restored : Bool
  /-- COMMIT locks since the last scheduled snapshot (R399). -/
  commits : Nat
  /-- Inputs of the risk score by time (R398): 0 corrected error, 1 retrain, 2 supply event, 3 a junction reading. -/
  risk : List (Nat × Nat × Nat)
  replace : Option Replacement
  /-- A REPAIR is due at this instant, with its ID change; the next decision carries REPAIR, or RERUN (R402, R403). -/
  repairAt : Option (Nat × Option (Nat × Nat))
  repairNext : Option (Nat × Nat)
  rerunNext : Bool
  /-- A spare has taken a failed device's ID and sends no vote until the fleet runs the pound again (R403, R404). -/
  replaying : Bool
  /-- The channel-0 samples of the pound (R404). -/
  losses : List Dword
  /-- Devices sent KEEPER_RESET, with the instant and the descriptor that waits (R406). -/
  asked : List (Nat × Nat × Nat × Nat)
  /-- READMIT and WITHDRAW descriptors that wait for a device, an ADMIT that waits for its link since an instant, a RESTORE:
  OP, device or instant, ring, index. -/
  waits : List (Nat × Nat × Nat × Nat)
  /-- The lease of a standby: the lock instant and pound length it last heard (R409). -/
  lease : Option (Nat × Nat)
  deriving DecidableEq, Repr

/-- Power control state (chapter 15). -/
structure Power where
  /-- The thermal ceiling and the limiter's bound, MHz (R493, R498). -/
  ceiling : Nat
  limiter : Nat
  /-- For the warning kinds 1 to 4: one more than the instant at which the condition was last present (R490). -/
  warned : List Nat
  hbmHot : List Bool
  /-- Nanoseconds with LIMITED, THROTTLED and HBM_HOT set that make no whole millisecond yet, and energy in nJ that makes no whole J (R513). -/
  limitedNs : Nat
  throttledNs : Nat
  hotNs : Nat
  energyNj : Nat
  /-- MOD_3V3, one bit a port (R503). -/
  mod : Nat
  deriving DecidableEq, Repr

/-- Frames that the device itself originates beside the serving intake's (R374, R376). -/
inductive OwnFrame where
  | icmpAnswer
  | delayReq
  deriving DecidableEq, Repr

/-- A frame on its way out: interface 2 × port + i, kind, VLAN ID, and the association and packet number of its MACsec tag. -/
structure EthOut where
  iface : Nat
  kind : OwnFrame
  vlan : Option Nat
  sec : Option (Nat × Nat)
  deriving DecidableEq, Repr

/-- A receive secure channel of an interface: its identifier, and its associations, the newest first, with their highest packet numbers (R375). -/
structure MacChannel where
  iface : Nat
  sci : Nat
  sas : List (Nat × Nat)
  deriving DecidableEq, Repr

/-- What the ports hold beside the sub-ports: changes of MODE and SPLIT that wait for the drain, with the instant at which each began (port,
mode, split, instant; R363); frames on their way out; MACsec's channels, and the association and last packet number of each interface's transmit channel (R375). -/
structure NetState where
  reconf : List (Nat × Nat × Nat × Nat)
  frames : List EthOut
  channels : List MacChannel
  macTx : List (Nat × Nat)
  deriving DecidableEq, Repr

def NetState.reset : NetState := ⟨[], [], [], List.replicate 32 (0, 0)⟩

/-- The state of a T25. -/
structure State where
  pending : List Instr
  /-- The model's own: the core whose program is looked at first when no command waits. -/
  turn : Nat
  regs : Sparse Word
  /-- Captures of wide quantities, by word address (R15). -/
  capture : Sparse Word
  /-- Written buffers of the higher words of wide quantities (R15). -/
  wbuf : List (Nat × Word)
  /-- Basins, HBM, Keeper SRAM and MRAM, by local address (R47). -/
  mem : List Host.Cell
  /-- Stored words that an upset has hit: 1 correctable, 2 uncorrectable (R277, R295). -/
  ecc : Sparse Nat
  /-- The key (slot + 8 × generation) under which a 16-byte block of HBM was written, and the generation of
  each slot (R298, R299). -/
  blockKey : Sparse Nat
  /-- What each wharf die holds of verified units and MAC lines (R301). -/
  hbmCache : List HbmCache
  keyGen : List Nat
  resp : Resp
  pins : Pins
  route : List (Nat × Nat)
  /-- Aqueduct transfers that will fail (R44): the master, and the position of the die that serves its access. -/
  aqFail : List (Ident × (Nat × Nat))
  time : TimeState
  lock : LockState
  sched : Option ScheduleImage
  cores : Sparse Core
  claims : Sparse Claim
  engines : Sparse Engine
  rings : Sparse (List RingExec)
  chans : Sparse Chan
  sends : List Send
  notes : Sparse (List Dword)
  notesOut : List (Ident × Dword)
  interrupts : List (Ident × Dword)
  intake : Sparse Intake
  datagrams : List Datagram
  tx : List Tx
  /-- Requests of DMA engines and the Keeper to other devices' memory: reads that have no answer yet or whose answer has not been
  used, and writes that are not acknowledged (R51, R327). -/
  remotes : List RemoteReq
  subs : Sparse Sub
  net : NetState
  /-- MACsec connectivity association keys, by 2 × port + interface (R467). -/
  caks : Sparse (BitVec 256)
  train : Train
  fleet : Fleet
  boot : Boot
  fuses : Fuses
  sec : Security
  power : Power
  events : List Event
  /-- Network time of the last written ring record of each class, plus one (R476). -/
  lastRec : Sparse Nat
  /-- Fatal slots written since the last device reset, one bit each (R486). -/
  fatalNew : Nat
  /-- The model's own counter of free values. -/
  free : Nat
  deriving DecidableEq, Repr

/-! ## The machine after reset (R417) -/

/-- Reset values of the Keeper-die registers that do not reset to zero, up to the rings (R5, R274, R315). -/
def resetKeeper : Sparse Word :=
  [(KP_TRAIN_CTRL, 0x00000470#32), (KP_NF_ACT, 0x00000055#32), (KP_SPIKE_CFG 0, 0x00000819#32),
   (KP_SPIKE_WARM 0, 0x00000040#32), (KP_SPIKE_THR 0, 0x40C00000#32), (KP_SPIKE_CFG 1, 0x00000819#32), (KP_SPIKE_WARM 1, 0x00000040#32),
   (KP_SPIKE_THR 1, 0x40C00000#32)]

/-- Reset values of ring `r`: 16 slots, owned by control processor 0 (R315, R316). -/
def resetRing (r : Nat) : Sparse Word := [(KP_RING_CFG r, 0x00000008#32), (KP_RING_OWNER r, 0x00000D01#32)]

/-- Fleet, time and power registers (R92, R411, R513). -/
def resetDevice : Sparse Word :=
  [(KP_FLEET_CFG, 0x00000010#32), (KP_RISK_W, 0x0000F844#32), (TM_SRC_STATUS, 0xFFFF0000#32), (TM_SRC_CTRL, 0x00000007#32),
   (TM_LOCK_CTRL, 0x00000108#32)]

/-- The registers whose reset values the ordering code fuses (R5, R513): KP_PART_INFO, the limit, and the requested clock with SS set. -/
def PartCode.info (p : PartCode) : Word := BitVec.ofNat 32 (p.pwrMax * 2 ^ 16 + p.clkMax * 2 ^ 4 + p.code)
def PartCode.limits (p : PartCode) : Sparse Word := [(PW_LIMIT, BitVec.ofNat 32 p.pwrMax), (PW_CLK, BitVec.ofNat 32 (2 ^ 12 + p.clkMax))]

/-- The fused die numbers and partitions (R29). -/
def resetDies : Sparse Word :=
   [(CD_DIE_INFO 1, 0x11#32), (CD_DIE_INFO 2, 0x12#32), (CD_DIE_INFO 3, 0x23#32)] ++
   [(CD_DIE_INFO 4, 0x24#32), (CD_DIE_INFO 5, 0x35#32), (CD_DIE_INFO 6, 0x36#32), (CD_DIE_INFO 7, 0x07#32)] ++
   [(CD_DIE_INFO 8, 0x08#32), (CD_DIE_INFO 9, 0x09#32), (CD_DIE_INFO 10, 0x1A#32), (CD_DIE_INFO 11, 0x1B#32)] ++
   [(CD_DIE_INFO 12, 0x2C#32), (CD_DIE_INFO 13, 0x2D#32), (CD_DIE_INFO 14, 0x3E#32), (CD_DIE_INFO 15, 0x3F#32)]

/-- The patrol period of stack `n`, and the Ethernet configuration of port `p` (R304, R381). -/
def resetScrub (n : Nat) : Sparse Word := [(HM_SCRUB n, 0x00000018#32)]
def resetEth (p : Nat) : Sparse Word := [(LK_ETH_CFG p 0, 0x24000003#32), (LK_ETH_CFG p 1, 0x24000003#32)]

/-- Every register of a part after reset: an unlisted one reads zero. -/
def resetRegs (p : PartCode) : Sparse Word :=
  (KP_PART_INFO, p.info) :: resetKeeper ++ (List.range 16).flatMap resetRing ++ resetDevice ++ p.limits ++ resetDies ++ (List.range 8).flatMap resetScrub
    ++ (List.range 16).flatMap resetEth

def TimeState.reset : TimeState :=
  { ppsRef := none, ppsEdges := [], ppsLast := 0, ppsBadAt := 0, refBadAt := 0, ptpAt := 0, eweAt := 0, eweBound := 0, since := [0, 0, 0],
    offset := 0, changed := false, holdSince := 0, holdBase := 0xFFFF, ppsOutAt := 0, ptpT1 := none, ptpT2 := none, ptpT3 := none, todAhead := 0 }

def LockState.reset : LockState :=
  { anchor := 0, origin := 0, extended := false, poundStart := 0, votes := [], cut := false, cutCauses := 0, passed := [], decision := none,
    start := none, committed := false, window := false, causes := 0, ovr := false, lateError := false, emptied := false, changes := [], deferred := [], rot := 0,
    history := [], past := [], reported := [], poundSeed := 0, image := [], imageWork := [] }

def Train.reset : Train :=
  { samples := [], mean := [0, 0], var := [0, 0], n := [0, 0], taking := [], parts := [], sum := none, result := none, delivered := false }

def Fleet.reset : Fleet :=
  { members := [], bank0 := [], bank1 := [], bcast := none, beats := [0, 0, 0, 0, 0, 0, 0, 0], adrift := false,
    snaps := [.initial, .initial], kept := none, restored := false, commits := 0, risk := [], replace := none, repairAt := none, repairNext := none,
    rerunNext := false, replaying := false, losses := [], asked := [], waits := [], lease := none }

def Boot.reset : Boot :=
  { phase := 0, hold := .none, uptime := 0, keeperDown := false, resets := [], latched := [], enLatched := [], disabled := [], test := none,
    burning := [] }

def Security.reset : Security :=
  { session := none, auth := none, ephemeral := none, attested := [], drbgRequests := 0, records := [], i3cAddr := 0 }

def Power.reset (p : PartCode) : Power :=
  { ceiling := p.clkMax, limiter := p.clkMax, warned := [0, 0, 0, 0], hbmHot := [false, false, false, false, false, false, false, false],
    limitedNs := 0, throttledNs := 0, hotNs := 0, energyNj := 0, mod := 0 }

/-- Fuses and the persistent area of a part on which nothing has been burnt or written beside the fused defaults. -/
def Fuses.blank (p : PartCode) : Fuses :=
  { part := p, fused := [], soft := [], keyHash := [0#256, 0#256, 0#256, 0#256], revoked := 0, authHash := [0#256, 0#256, 0#256, 0#256], rollback := 0,
    serial := 0#128, operatorKeys := [], selector := 0 }

/-- A part with an ordering code right after reset, before T0. -/
def State.resetOf (p : PartCode) : State :=
  { pending := [], turn := 0, regs := resetRegs p, capture := [], wbuf := [], mem := [], ecc := [], blockKey := [], hbmCache := List.replicate 8 HbmCache.empty, keyGen := [0, 0, 0, 0, 0],
    resp := ⟨0, []⟩, pins := ⟨true, false, false, true, 3⟩, route := [], aqFail := [], time := .reset, lock := .reset, sched := none, cores := [],
    claims := [], engines := [], rings := [], chans := [], sends := [], notes := [], notesOut := [], interrupts := [], intake := [], datagrams := [], tx := [],
    remotes := [], subs := [], net := .reset, caks := [], train := .reset, fleet := .reset, boot := .reset, fuses := .blank p, sec := .reset, power := .reset p, events := [],
    lastRec := [], fatalNew := 0, free := 0 }

/-- The machine right after reset: a T25-A, the part that the model starts from (DESIGN CHOICE; the other two codes are
`State.resetOf`). -/
def State.reset : State := State.resetOf .t25a

end Sys2Proof.Machine
end

