-- ==== Sys2Proof/Machine/Ops.lean ====
section
/-! DEFINITION. The named operations that every command is written over: sparse maps, registers and their fields, bytes of memory, network time and the epoch, masters and their rights, events. -/

namespace Sys2Proof.Machine

/-! ## Sparse maps -/

/-- The value at key `i`; an unlisted key reads `d`. -/
def spGet {α : Type} (d : α) : Sparse α → Nat → α
  | [], _ => d
  | (k, v) :: t, i => if i = k then v else spGet d t i

/-- An entry put at its place: in front of the first key that is not below it. -/
def spIns {α : Type} : Sparse α → Nat → α → Sparse α
  | [], i, v => [(i, v)]
  | (k, w) :: t, i, v => if i < k then (i, v) :: (k, w) :: t else if i = k then (i, v) :: t else (k, w) :: spIns t i v

/-- The map with `v` at key `i`, in canonical form: the value that an unlisted key reads as is not listed. -/
def spPut {α : Type} [DecidableEq α] (d : α) (m : Sparse α) (i : Nat) (v : α) : Sparse α :=
  if v = d then m.filter (fun x => x.1 != i) else spIns m i v

/-- Every key is above `lo`, keys rise strictly, and no value is `d`. -/
def spWfFrom {α : Type} [DecidableEq α] (d : α) : Nat → Sparse α → Bool
  | _, [] => true
  | lo, (k, v) :: t => decide (lo ≤ k) && decide (v ≠ d) && spWfFrom d (k + 1) t

/-- The canonical form of a sparse map. -/
def spWf {α : Type} [DecidableEq α] (d : α) (m : Sparse α) : Bool := spWfFrom d 0 m

/-! ## Status codes (R469) -/

def stOK : Nat := 0x00
def stOK_EMPTY : Nat := 0x01
def stSHAPE_OVER : Nat := 0x10
def stBAD_OPCODE : Nat := 0x12
def stALIGN_FAULT : Nat := 0x13
def stBOUNDS_FAULT : Nat := 0x14
def stBUS_FAULT : Nat := 0x20
def stECC_UNCORR : Nat := 0x21
def stINTEGRITY_FAIL : Nat := 0x22
def stSAT_LIMIT : Nat := 0x30
def stNONFINITE : Nat := 0x31
def stCLAIM_STALE : Nat := 0x40
def stTARGET_RESET : Nat := 0x41
def stLOCK_HELD : Nat := 0x60
def stINTERNAL : Nat := 0xFF

/-- The statuses that are not faults where a tiller consumes one (R179). -/
def stInformational (st : Nat) : Bool :=
  [0x00, 0x01, 0x10, 0x30, 0x31, 0x40].contains st

/-- The rank of a status (R129): a higher number ranks higher. -/
def stRank (st : Nat) : Nat :=
  if st = 0xFF then 14 else if st = 0x22 then 13 else if st = 0x21 then 12 else if st = 0x20 then 11
  else if st = 0x41 then 10 else if st = 0x12 then 9 else if st = 0x13 then 8 else if st = 0x14 then 7
  else if st = 0x31 then 6 else if st = 0x30 then 5 else if st = 0x10 then 4 else if st = 0x40 then 3
  else if st = 0x00 then 2 else if st = 0x01 then 1 else 0

/-- The higher-ranked of two statuses (R129). -/
def stWorst (a b : Nat) : Nat := if stRank a < stRank b then b else a

/-! ## Registers -/

/-- The word at a register's address. -/
def State.rd (s : State) (a : Nat) : Nat := (spGet 0#32 s.regs a).toNat

/-- The state with the word at a register's address replaced. -/
def State.wr (s : State) (a v : Nat) : State := { s with regs := spPut 0#32 s.regs a (BitVec.ofNat 32 v) }

/-- A field of a register. -/
def State.rf (s : State) (a : Nat) (f : Fld) : Nat := natBits f.lo f.width (s.rd a)

/-- The state with one field of a register replaced. -/
def State.wf (s : State) (a : Nat) (f : Fld) (v : Nat) : State := s.wr a (natPut f.lo f.width (s.rd a) v)

/-- A one-bit field as a truth value. -/
def State.rb (s : State) (a : Nat) (f : Fld) : Bool := s.rf a f == 1

/-- The state with a one-bit field set to a truth value. -/
def State.wb (s : State) (a : Nat) (f : Fld) (b : Bool) : State := s.wf a f b.toNat

/-- A counter that saturates at 0xFFFF_FFFF rises by `n`. -/
def State.bump (s : State) (a n : Nat) : State := s.wr a (satAdd 0xFFFFFFFF (s.rd a) n)

/-- A field that counts and saturates at its largest value rises by `n`. -/
def State.bumpF (s : State) (a : Nat) (f : Fld) (n : Nat) : State := s.wf a f (satAdd (2 ^ f.width - 1) (s.rf a f) n)

/-- The `n` words of a wide quantity whose lowest word is at `a` (R15). -/
def State.rdWide (s : State) (a : Nat) : Nat → Nat
  | 0 => 0
  | n + 1 => s.rdWide a n + s.rd (a + 4 * n) * 2 ^ (32 * n)

/-- The state with a wide quantity of `n` words replaced. -/
def State.wrWide (s : State) (a : Nat) : Nat → Nat → State
  | 0, _ => s
  | n + 1, v => (s.wrWide a n v).wr (a + 4 * n) (v / 2 ^ (32 * n) % 2 ^ 32)

/-- Registers at addresses from `lo` to `hi - 1` read zero again, and their captures and write buffers are as after reset (R15). -/
def State.clearRegs (s : State) (lo hi : Nat) : State :=
  let out := fun a : Nat => decide (a < lo) || decide (hi ≤ a)
  { s with regs := s.regs.filter (fun r => out r.1), capture := s.capture.filter (fun r => out r.1), wbuf := s.wbuf.filter (fun r => out r.1) }

/-- The captures of the words from `lo` to `hi - 1` hold zero, and their write buffers are unwritten (R15). -/
def State.clearCaptures (s : State) (lo hi : Nat) : State :=
  let out := fun a : Nat => decide (a < lo) || decide (hi ≤ a)
  { s with capture := s.capture.filter (fun r => out r.1), wbuf := s.wbuf.filter (fun r => out r.1) }

/-- The captures of the `n` words from `a` on hold what a reset has just put into the words, and their write buffers are
unwritten (R15). -/
def State.recapture (s : State) (a n : Nat) : State :=
  (List.range n).foldl (fun s i => { s with capture := spPut 0#32 s.capture (a + 4 * i) (BitVec.ofNat 32 (s.rd (a + 4 * i))) })
    (s.clearCaptures a (a + 4 * n))

/-- Register words loaded from a list. -/
def State.loadRegs (s : State) (l : Sparse Word) : State := l.foldl (fun s r => s.wr r.1 r.2.toNat) s

/-! ## Free values -/

/-- A value the manual leaves open, and the state that has used it. -/
def State.draw (s : State) : Nat × State := (Config.freeBits s.free, { s with free := s.free + 1 })

/-! ## Network time, the epoch and the device's own identity -/

/-- Network time in whole nanoseconds (R53). -/
def State.now (s : State) : Nat := s.rdWide TM_NOW_0 3 / 65536

/-- The published epoch (R68, R92). -/
def State.epoch (s : State) : Nat := s.rdWide TM_EPOCH_0 2

/-- The working epoch (R69, R174). -/
def State.epochW (s : State) : Nat := s.epoch + 1

/-- The next lock instant (R92). -/
def State.nextLock (s : State) : Nat := s.rdWide TM_NEXT_LOCK_0 2

/-- The device's own ID (R411). -/
def State.devId (s : State) : Nat := s.rf KP_FLEET_ID KP_FLEET_ID_DEV_ID

/-- Whether the device is a member of a fleet: it has a role other than stand-alone (R382, R383). -/
def State.inFleet (s : State) : Bool := s.rf KP_FLEET_ID KP_FLEET_ID_ROLE != 0

/-- The lock state of R81. -/
def State.lockSt (s : State) : Nat := s.rf TM_LOCK_STATUS TM_LOCK_STATUS_STATE

/-- A schedule is running: the lock state is POUND, VOTED or LOCKING (R61, R81, R310). -/
def State.running (s : State) : Bool := s.lockSt != 0 && s.lockSt != 4

/-- A pound is being worked on: POUND or VOTED. -/
def State.inPound (s : State) : Bool := s.lockSt == 1 || s.lockSt == 2

/-! ## Places of dies (R17, R19, R22) -/

/-- A logic die (R17). -/
inductive Die where
  | compute (n : Nat)
  | wharf (n : Nat)
  | keeper
  deriving DecidableEq, Repr

/-- The grid of dies, row by row (R17). -/
def dieGrid : List (List Die) :=
  [[.wharf 0, .compute 0, .wharf 1, .compute 1, .wharf 2],
   [.compute 7, .compute 8, .compute 9, .compute 10, .compute 2],
   [.wharf 7, .compute 15, .keeper, .compute 11, .wharf 3],
   [.compute 6, .compute 14, .compute 13, .compute 12, .compute 3],
   [.wharf 6, .compute 5, .wharf 5, .compute 4, .wharf 4]]

/-- The die at a position (row, column). -/
def dieAt (p : Nat × Nat) : Option Die := (dieGrid[p.1]?).bind (fun r => r[p.2]?)

/-- The position (row, column) of a die. -/
def Die.pos (d : Die) : Nat × Nat :=
  (((List.range 25).find? (fun i => dieAt (i / 5, i % 5) == some d)).map (fun i => (i / 5, i % 5))).getD (2, 2)

/-- The two dies that aqueduct `k` joins, by position (R37): 0 to 19 along the rows, west to east and row by row; 20 to 39 along
the columns, row by row (DESIGN CHOICE: R37 counts the aqueducts and does not number them). -/
def aqueductEnds (k : Nat) : (Nat × Nat) × (Nat × Nat) :=
  if k < 20 then ((k / 4, k % 4), (k / 4, k % 4 + 1)) else (((k - 20) / 5, (k - 20) % 5), ((k - 20) / 5 + 1, (k - 20) % 5))

/-- Whether a path that leaves `src` crosses aqueduct `k` (R41). -/
def crosses (k : Nat) (src : Nat × Nat) : List (Nat × Nat) → Bool
  | [] => false
  | d :: t => aqueductEnds k == (src, d) || aqueductEnds k == (d, src) || crosses k d t

/-- The partition of each compute die (R19). -/
def diePart (n : Nat) : Nat := [0, 1, 1, 2, 2, 3, 3, 0, 0, 0, 1, 1, 2, 2, 3, 3].getD n 0

/-- The partition of a wharf die (R19). -/
def wharfPart (n : Nat) : Nat := n / 2

/-- The partition of a logical core. -/
def corePart (c : Nat) : Nat := diePart (c / 64)

/-- The cores of a partition. -/
def partCores (k : Nat) : List Nat := (List.range 1024).filter (fun c => corePart c == k)

/-! ## Masters (R306) -/

/-- The kinds of master. -/
inductive Master where
  | keeper
  | control (n : Nat)
  | tiller (c : Nat)
  | engine (e : Nat)
  | intake (p : Nat)
  | agent (n : Nat)
  | reserved
  deriving DecidableEq, Repr

/-- The master a number names (R306). An engine has the number of `EngineId`. -/
def masterOf (num : Nat) : Master :=
  if num < 0x400 then .tiller num
  else if num < 0xC80 then .engine (num - 0x400)
  else if num = 0xD00 then .keeper
  else if 0xD01 ≤ num ∧ num ≤ 0xD04 then .control (num - 0xD01)
  else if 0xD10 ≤ num ∧ num ≤ 0xD1F then .intake (num - 0xD10)
  else if 0xE00 ≤ num ∧ num ≤ 0xE07 then .agent (num - 0xE00)
  else .reserved

/-- The identity packed into one word (R306). -/
def identWord (m : Ident) : Nat := m.dev.toNat * 4096 + m.num.toNat

/-- An identity of this device, by master number. -/
def State.self (s : State) (num : Nat) : Ident := ⟨BitVec.ofNat 14 s.devId, BitVec.ofNat 12 num⟩

/-- Whether an identity is of this device. -/
def State.isLocal (s : State) (m : Ident) : Bool := m.dev.toNat == s.devId

/-- The partition a master of this device belongs to, if any (R448). -/
def Master.part : Master → Option Nat
  | .tiller c => some (corePart c)
  | .engine e => some (if e < 2048 then corePart (e / 2) else wharfPart ((e - 2048) / 16))
  | .intake p => some (wharfPart (p / 2))
  | _ => none

/-! ## The address map (R16, R47, R52) -/

/-- The register blocks of R52, and the doorbell page of R312. -/
inductive Blk where
  | kp
  | tm
  | pw
  | ev
  | doorbell
  | cd (n : Nat)
  | co (c : Nat)
  | wh (n : Nat)
  | hm (n : Nat)
  | lk (p : Nat)
  | dm (e : Nat)
  | mb (x : Nat)
  | cc (c : Nat)
  deriving DecidableEq, Repr

/-- What lies at a local address. -/
inductive Target where
  | basin (c off : Nat)
  | hbm (off : Nat)
  | ksram (off : Nat)
  | mram (off : Nat)
  | reg (b : Blk) (off : Nat)
  | hole
  deriving DecidableEq, Repr

def hbmBase : Nat := 0x001000000000
def ksramBase : Nat := 0x004000000000
def mramBase : Nat := 0x004100000000
def basinSize : Nat := 0x2000000

/-- Offset `a - base` when `a` lies in `[base, base + size)`. -/
def within? (base size a : Nat) : Option Nat := if base ≤ a ∧ a < base + size then some (a - base) else none

/-- The register block at an address, and the offset within it (R52). -/
def regBlock (a : Nat) : Target :=
  match within? kpBase 0x10000 a with
  | some o => .reg .kp o
  | none =>
  match within? tmBase 0x10000 a with
  | some o => .reg .tm o
  | none =>
  match within? pwBase 0x10000 a with
  | some o => .reg .pw o
  | none =>
  match within? evBase 0x10000 a with
  | some o => .reg .ev o
  | none =>
  match within? doorbellBase 0x1000 a with
  | some o => .reg .doorbell o
  | none =>
  match within? (cdBase 0) 0x1000000 a with
  | some o => .reg (.cd (o / 0x100000)) (o % 0x100000)
  | none =>
  match within? (coBase 0) 0x4000000 a with
  | some o => .reg (.co (o / 0x10000)) (o % 0x10000)
  | none =>
  match within? (whBase 0) 0x80000 a with
  | some o => .reg (.wh (o / 0x10000)) (o % 0x10000)
  | none =>
  match within? (hmBase 0) 0x80000 a with
  | some o => .reg (.hm (o / 0x10000)) (o % 0x10000)
  | none =>
  match within? (lkBase 0) 0x100000 a with
  | some o => .reg (.lk (o / 0x10000)) (o % 0x10000)
  | none =>
  match within? 0x008040000000 0x400000 a with
  | some o => .reg (.dm (o / 0x800)) (o % 0x800)
  | none =>
  match within? 0x008041000000 0x80000 a with
  | some o =>
    if o % 0x10000 < 0x8000 then .reg (.dm (2048 + o / 0x10000 * 16 + o % 0x10000 / 0x800)) (o % 0x800) else .hole
  | none =>
  match within? 0x008050000000 0x400000 a with
  | some o => .reg (.mb (o / 0x400)) (o % 0x400)
  | none =>
  match within? 0x008060000000 0x400000 a with
  | some o => .reg (.cc (o / 0x1000)) (o % 0x1000)
  | none => .hole

/-- What lies at a local address (R47). -/
def target (a : Nat) : Target :=
  if a < 0x800000000 then .basin (a / basinSize) (a % basinSize)
  else match within? hbmBase 0x3000000000 a with
  | some o => .hbm o
  | none =>
  match within? ksramBase 0x10000000 a with
  | some o => .ksram o
  | none =>
  match within? mramBase 0x4000000 a with
  | some o => .mram o
  | none => if 0x8000000000 ≤ a then regBlock a else .hole

/-- The local address and the device of an address, or none where it breaks R16. -/
def State.resolve (s : State) (a : Nat) : Option (Nat × Nat) :=
  if natBit 63 a then none
  else if natBit 62 a then some (natBits 48 14 a, natBits 0 48 a)
  else if a < 2 ^ 48 then some (s.devId, a) else none

/-- The stack, channel, pseudo-channel and granule index of an HBM offset (R283): (pseudo, stack, channel, l). -/
def hbmHash (o : Nat) : Nat × Nat × Nat × Nat :=
  let g := o / 256
  let l := g / 256
  let f := (l % 256) ^^^ (l / 256 % 256) ^^^ (l / 65536 % 64)
  let pc := (g % 256) ^^^ f
  (pc % 2, pc / 2 % 8, pc / 16, l)

/-- The home wharf die of an HBM offset (R283). -/
def hbmHome (o : Nat) : Nat := (hbmHash o).2.1

/-- Where an HBM offset lies in its pseudo-channel (R283): the bank by SID, group and number, the row, and the byte within the row. -/
structure DramPlace where
  sid : Nat
  group : Nat
  bank : Nat
  row : Nat
  column : Nat
  deriving DecidableEq, Repr

/-- The place of an HBM offset in its pseudo-channel (R283). -/
def hbmPlace (o : Nat) : DramPlace :=
  let l := o / 2 ^ 16
  ⟨natBits 6 1 l ^^^ natBits 14 1 l, natBits 2 2 l ^^^ natBits 10 2 l, natBits 4 2 l ^^^ natBits 12 2 l, l / 128, natBits 0 2 l * 256 + o % 256⟩

/-- The HBM offset of a byte of granule `l` of a pseudo-channel, numbered as R283 numbers them: the hash the other way round. -/
def hbmOffset (pc l byte : Nat) : Nat := l * 2 ^ 16 + (pc ^^^ (l % 256) ^^^ (l / 256 % 256) ^^^ (l / 65536 % 64)) * 256 + byte

/-- The HBM offset of the MAC of the unit of an offset (R300). -/
def macOffset (o : Nat) : Nat :=
  let h := hbmHash o
  let l := h.2.2.2
  hbmOffset (l / 32 % 2 + 2 * h.2.1 + 16 * h.2.2.1) (0x2F4000 + l / 64) (8 * (l % 32))

/-- The die of this device that serves a local address (R17, R20, R283). -/
def Target.die : Target → Die
  | .basin c _ => .compute (c / 64)
  | .hbm o => .wharf (hbmHome o)
  | .reg (.cd n) _ => .compute n
  | .reg (.co c) _ | .reg (.cc c) _ => .compute (c / 64)
  | .reg (.mb x) _ => .compute (x / 256)
  | .reg (.dm e) _ => if e < 2048 then .compute (e / 128) else .wharf ((e - 2048) / 16)
  | .reg (.wh n) _ | .reg (.hm n) _ => .wharf n
  | .reg (.lk p) _ => .wharf (p / 2)
  | _ => .keeper

/-- The die of a master of this device (R306). -/
def Master.die : Master → Die
  | .tiller c => .compute (c / 64)
  | .engine e => if e < 2048 then .compute (e / 128) else .wharf ((e - 2048) / 16)
  | .intake p => .wharf (p / 2)
  | .agent n => .wharf n
  | _ => .keeper

/-! ## Presence, power and reset (R27, R432, R438) -/

/-- Whether a logical core is present (R30). -/
def State.present (s : State) (c : Nat) : Bool := s.rb (CD_CORE_MAP (c / 64) (c % 64)) CD_CORE_MAP_PRESENT

/-- Whether a partition's domain is ON (R436). -/
def State.domOn (s : State) (k : Nat) : Bool := s.rf (PW_DOM k) PW_DOM_STATE == 2

/-- Whether a boundary's scope covers a core (R430). -/
def Boundary.covers (b : Boundary) (c : Nat) : Bool :=
  if b.scope = 0 then b.target == c else if b.scope = 1 then b.target == c / 16 else b.target == corePart c

/-- Whether a core lies inside a reset in progress. -/
def State.inReset (s : State) (c : Nat) : Bool := s.boot.resets.any (·.covers c)

/-- Whether a partition lies inside a partition reset in progress. -/
def State.partInReset (s : State) (k : Nat) : Bool := s.boot.resets.any (fun b => b.scope == 2 && b.target == k)

/-- Whether a core can be reached: its domain ON and no reset around it. -/
def State.coreUp (s : State) (c : Nat) : Bool := s.domOn (corePart c) && !s.inReset c

/-- Whether a request to a target is absorbed with TARGET_RESET (R432, R438); a mailbox send is decided on arrival
(R336, R340), and the core map of a die hub belongs to the device domain (R20). -/
def State.absorbed (s : State) (t : Target) : Bool :=
  match t with
  | .basin c _ => !s.coreUp c
  | .reg (.co c) _ => !s.coreUp c
  | .reg (.cc c) _ => !s.coreUp c
  | .reg (.mb x) o => !decide (0x10 ≤ o ∧ o < 0x20) && !s.coreUp (x / 4)
  | .reg (.dm e) _ =>
    if e < 2048 then !s.coreUp (e / 2)
    else !s.domOn (wharfPart ((e - 2048) / 16)) || s.partInReset (wharfPart ((e - 2048) / 16))
  | .reg (.wh n) _ => !s.domOn (wharfPart n) || s.partInReset (wharfPart n)
  | .reg (.cd n) o => !decide (0x100 ≤ o ∧ o < 0x200) && (!s.domOn (diePart n) || s.partInReset (diePart n))
  | _ => false

/-- The core whose absence makes a target fail (R27). -/
def Target.core? : Target → Option Nat
  | .basin c _ => some c
  | .reg (.co c) _ => some c
  | .reg (.cc c) _ => some c
  | .reg (.mb x) _ => some (x / 4)
  | .reg (.dm e) _ => if e < 2048 then some (e / 2) else none
  | _ => none

/-! ## Access rights (R446, R448) -/

/-- Whether integrity protection is on: INTEG in HM_CFG of the address's home is the Keeper's, and is written
alike in all controllers (R300, R303). -/
def State.integ (s : State) (n : Nat) : Bool := s.rb (HM_CFG n) HM_CFG_INTEG

/-- The number of the key-region entry that holds a GiB number, and its slot (R299, R305). -/
def State.kregFrom (s : State) (gib : Nat) : List Nat → Option (Nat × Nat)
  | [] => none
  | i :: t =>
    let a := HM_KREG 0 i
    if s.rb a HM_KREG_VALID && decide (s.rf a HM_KREG_BASE ≤ s.rf a HM_KREG_LAST)
        && decide (s.rf a HM_KREG_LAST ≤ 191) && decide (s.rf a HM_KREG_SLOT ≤ 4)
        && decide (s.rf a HM_KREG_BASE ≤ gib) && decide (gib ≤ s.rf a HM_KREG_LAST)
    then some (i, s.rf a HM_KREG_SLOT) else s.kregFrom gib t

/-- The key-region entry of an HBM offset; the metadata range has none (R299). -/
def State.kreg (s : State) (o : Nat) : Option (Nat × Nat) :=
  if s.integ (hbmHome o) && decide (0x2F40000000 ≤ o) then none else s.kregFrom (o / 2 ^ 30) (List.range 16)

/-- The key slot of an HBM offset (R299). -/
def State.slotOf (s : State) (o : Nat) : Nat := ((s.kreg o).map (·.2)).getD 0

/-- Tenant mode is on (R447). -/
def State.tenants (s : State) : Bool := s.rb KP_SEC_CTRL KP_SEC_CTRL_TENANTS

/-- Partition `k` hosts a tenant (R447). -/
def State.tenant (s : State) (k : Nat) : Bool := s.tenants && s.rb (KP_TENANT k) KP_TENANT_EN

/-- Whether a block belongs to the dies and cores of partition `k`. -/
def Blk.ofPart (b : Blk) (k : Nat) : Bool :=
  match b with
  | .cd n => diePart n == k
  | .co c => corePart c == k
  | .cc c => corePart c == k
  | .mb x => corePart (x / 4) == k
  | .dm e => (if e < 2048 then corePart (e / 2) else wharfPart ((e - 2048) / 16)) == k
  | .wh n => wharfPart n == k
  | .lk p => wharfPart (p / 2) == k
  | _ => false

/-- The partition of a block of the fifth row of R448, if it has one. -/
def Blk.part? (b : Blk) : Option Nat :=
  match b with
  | .cd n => some (diePart n)
  | .co c => some (corePart c)
  | .cc c => some (corePart c)
  | .mb x => some (corePart (x / 4))
  | .dm e => some (if e < 2048 then corePart (e / 2) else wharfPart ((e - 2048) / 16))
  | _ => none

/-- Registers that only the Keeper may write (R444), by block and offset. -/
def keeperOnly (b : Blk) (off : Nat) : Bool :=
  match b with
  | .kp => decide (0xC00 ≤ off ∧ off < 0xC04) || decide (0xC40 ≤ off ∧ off < 0xC60)
      || decide (0xD00 ≤ off ∧ off < 0xDE0) || (decide (0xA00 ≤ off ∧ off < 0xA48) && !([0xA0C, 0xA1C, 0xA40].contains (off / 4 * 4)))
  | .hm _ => decide (0x100 ≤ off ∧ off < 0x140)
  | .mb _ => decide (off < 8)
  | _ => false

/-- Whether a register is of a CD_, CO_, DM_, MB_ or EV_ core-slice block. -/
def Blk.coreSide : Blk → Bool
  | .cd _ | .co _ | .dm _ | .mb _ | .cc _ => true
  | _ => false

/-- The rights of a tiller, DMA engine or request intake of this device, tenant mode off (R446, third column). -/
def workerRight (t : Target) (write : Bool) : Bool :=
  match t with
  | .basin _ _ | .hbm _ => true
  | .ksram off => !write && decide (0x2000000 ≤ off)
  | .mram _ => !write
  | .reg .doorbell _ => true
  | .reg b off => if b.coreSide then !(write && keeperOnly b off) else !write
  | .hole => false

/-- The rights of the masters of a partition in tenant mode (R448). -/
def State.tenantRight (s : State) (k : Nat) (t : Target) (write : Bool) : Bool :=
  let dev := !s.tenant k
  match t with
  | .basin c _ => if dev then !s.tenant (corePart c) else corePart c == k
  | .hbm o =>
    match s.kreg o with
    | some (_, 0) => if dev then true
        else if s.rf (KP_TENANT k) KP_TENANT_SHARED = 2 then true
        else if s.rf (KP_TENANT k) KP_TENANT_SHARED = 1 then !write else false
    | some (_, slot) => !dev && slot == k + 1
    | none => dev
  | .reg .doorbell off => workerRight (.reg .doorbell off) write
  | .reg b off =>
    if b.coreSide then
      (if dev then (b.part?.map (fun p => !s.tenant p)).getD false else b.ofPart k) && workerRight (.reg b off) write
    else match b with
      | .wh _ | .lk _ => !write && (dev || b.ofPart k)
      | .kp => if dev then !write else !write && decide (0x10 ≤ off ∧ off < 0x14)
      | .tm => !write
      | _ => dev && !write
  | t => dev && workerRight t write

/-- The tenant that holds a target's resource, if any: basins of its partition, HBM in its slot. -/
def State.tenantOf (s : State) (t : Target) : Option Nat :=
  match t with
  | .basin c _ => if s.tenant (corePart c) then some (corePart c) else none
  | .hbm o => let k := s.slotOf o; if k ≠ 0 ∧ s.tenant (k - 1) then some (k - 1) else none
  | _ => none

/-- Whether a master of another device is the Keeper or a control processor of MGR_ID or of the acting standby
(R446). -/
def State.managerMaster (s : State) (m : Ident) : Bool :=
  (m.dev.toNat == s.rf KP_FLEET_ID KP_FLEET_ID_MGR_ID) && s.inFleet &&
  (match masterOf m.num.toNat with
   | .keeper => true
   | .control _ => true
   | _ => false)

/-- Whether the access rights permit an access (R446 to R448). -/
def State.permits (s : State) (m : Ident) (t : Target) (write : Bool) : Bool :=
  match t with
  | .hole => false
  | .reg .doorbell _ =>
    if !write then true
    else (match masterOf m.num.toNat with
      | .agent _ => false
      | .reserved => false
      | _ => true)
  | t =>
    if s.isLocal m then
      match masterOf m.num.toNat with
      | .keeper => true
      | .control _ =>
        (match t with
         | .ksram off => decide (0x2000000 ≤ off)
         | .mram _ => !write
         | .reg b off => !(write && keeperOnly b off)
         | _ => true)
      | .agent _ =>
        (match t with
         | .reg .kp _ => !write
         | .reg .tm _ => !write
         | _ => false)
      | .reserved => false
      | w =>
        if s.tenants then (match w.part with
          | some k => s.tenantRight k t write
          | none => false)
        else workerRight t write
    else
      match t with
      | .basin _ _ | .hbm _ =>
        (match s.tenantOf t with
         | some k => decide (s.rf (KP_TENANT_PEER k) KP_TENANT_PEER_PEER_LO ≤ m.dev.toNat)
             && decide (m.dev.toNat ≤ s.rf (KP_TENANT_PEER k) KP_TENANT_PEER_PEER_HI)
         | none => true)
      | .reg (.mb _) off => write && decide (0x10 ≤ off ∧ off < 0x20)
      | .reg b off => !b.coreSide && s.managerMaster m && !(write && keeperOnly b off)
      | _ => false

/-! ## Bytes of memory -/

/-- One byte of memory; a byte that nothing has written reads 0. -/
def State.byte (s : State) (a : Nat) : Byte := spGet 0#8 s.mem a

/-- `n` bytes from `a`. -/
def State.bytes (s : State) (a : Nat) : Nat → List Byte
  | 0 => []
  | n + 1 => s.byte a :: s.bytes (a + 1) n

/-- The state with one byte of memory replaced. -/
def State.setByte (s : State) (a : Nat) (b : Byte) : State := { s with mem := spPut 0#8 s.mem a b }

/-- The state with bytes replaced from `a` on. -/
def State.setBytes (s : State) (a : Nat) : List Byte → State
  | [] => s
  | b :: t => (s.setByte a b).setBytes (a + 1) t

/-- A little-endian number of `n` bytes at `a`. -/
def State.load (s : State) (a n : Nat) : Nat := ofBytes (s.bytes a n)

/-- The state with a little-endian number of `n` bytes stored at `a`. -/
def State.store (s : State) (a n v : Nat) : State := s.setBytes a (toBytes n v)

/-- The state without the bytes listed from `lo` to `hi - 1`: they read 0 (R303, R437). -/
def State.clearMem (s : State) (lo hi : Nat) : State :=
  { s with mem := s.mem.filter (fun c => decide (c.1 < lo) || decide (hi ≤ c.1)),
           ecc := s.ecc.filter (fun c => decide (c.1 < lo) || decide (hi ≤ c.1)) }

/-! ## Cores -/

/-- A core after reset: everything zero and nothing queued. -/
def Core.initial : Core :=
  { g := List.replicate 32 0#64, pc := 0, seq := 0, queue := [], stall := .none, acc := [], vreg := [], sr := [],
    keys := [], marks := [], issued := 0, wake := false, unacked := 0, unackedRemote := 0, stores := [],
    faultSeen := false }

/-- Core `c`. -/
def State.core (s : State) (c : Nat) : Core := spGet Core.initial s.cores c

/-- The state with core `c` replaced. -/
def State.setCore (s : State) (c : Nat) (k : Core) : State := { s with cores := spPut Core.initial s.cores c k }

/-- The tiller's state (R212). -/
def State.tstate (s : State) (c : Nat) : Nat := s.rf (CO_TSTATUS c) CO_TSTATUS_STATE

/-! ## Events (R472, R473, R475, R487) -/

/-- The severity a class has unless a rule raises it (R472). -/
def classSev (cls : Nat) : Nat :=
  if 0x30 ≤ cls then 3
  else if [0x02, 0x05, 0x0C, 0x10, 0x11, 0x1B, 0x25].contains cls then 0
  else if [0x00, 0x06, 0x07, 0x08, 0x0A, 0x0B, 0x13, 0x14, 0x17, 0x18, 0x19, 0x24, 0x26, 0x2A, 0x2B].contains cls then 1
  else 2

/-- An input of the risk score: 0 a corrected error, 1 a retrain, 2 a supply event, 3 a junction reading (R398). -/
def State.riskInput (s : State) (kind v : Nat) : State := { s with fleet := { s.fleet with risk := s.fleet.risk ++ [(s.now, kind, v)] } }

/-- An instance of an event reaches its source's report (R473). -/
def State.postSev (s : State) (cls sev status source detail : Nat) : State :=
  let s := { s with events := s.events ++ [⟨s.now, cls, sev, status, source % 2 ^ 26, detail % 2 ^ 64⟩] }
  let s := if cls = 0x02 ∨ cls = 0x1B then s.riskInput 0 1 else s
  match masterOf (source % 4096) with
  | .tiller c => if cls < 0x30 then s.bump (EV_CCNT c cls) 1 else s
  | .engine e => if e < 2048 ∧ cls < 0x30 then s.bump (EV_CCNT (e / 2) cls) 1 else s
  | _ => s

/-- An instance with its class's own severity. -/
def State.post (s : State) (cls status source detail : Nat) : State := s.postSev cls (classSev cls) status source detail

/-- SOURCE of a unit that is no master (R475), or of a master of this device: device ID and number. -/
def State.src (s : State) (num : Nat) : Nat := s.devId * 4096 + num

/-- A register-access event (class 0x00): SOURCE is the master whose access was ignored. -/
def State.regEvent (s : State) (m : Ident) (a : Nat) : State := s.post 0x00 stOK (identWord m) a

/-- A denied access (R446): counted, recorded and posted. -/
def State.deny (s : State) (m : Ident) (a : Nat) : State :=
  ((s.bump KP_RIGHTS_VIOL 1).wr KP_RIGHTS_LAST (identWord m)).post 0x24 stBOUNDS_FAULT (identWord m) a

/-- The device's vote for the pound must be VETO with these causes (R70, R266, R75). -/
def State.veto (s : State) (causes : Nat) : State :=
  { s with lock := { s.lock with causes := s.lock.causes ||| causes } }

/-- The vote lead in ns (R92). -/
def State.voteLead (s : State) : Nat := s.rf TM_SCHED_1 TM_SCHED_1_VOTE_LEAD * 100

/-- An uncorrectable error in the pound's state (R75, R482): found before the cut-off it makes the vote a VETO;
found later, up to the end of the drain, it bars the device from the decided lock, and after that it vetoes the next one. -/
def State.uncorrectable (s : State) : State :=
  if s.now + s.voteLead < s.nextLock then s.veto 2
  else { s with lock := { s.lock with lateError := true } }

/-- The reply to the sender of the access. -/
def State.reply (s : State) (status : Nat) (data : List Byte) : State := { s with resp := ⟨status, data⟩ }

end Sys2Proof.Machine
end

