-- ==== Sys2Proof/Machine/Operands.lean ====
section
/-! DEFINITION. The operand forms of the arrays, converters and vector unit: narrow formats and their packing, barges and their CRC, plain elements, the forward and backward internal forms (R93 to R127). -/

namespace Sys2Proof.Machine

/-! ## Formats by code: 1 tf4, 2 ti4, 3 tt2, 4 e4m3, 5 e5m2, 6 ti8 (R105); 8 bfloat16, 9 FP16, 10 FP32 (R193) -/

/-- Whether a code is a barge format (R105). -/
def isBargeFmt (c : Nat) : Bool := decide (1 ≤ c ∧ c ≤ 6)

/-- Whether a code is an integer format, tt2 among them. -/
def isIntFmt (c : Nat) : Bool := c == 2 || c == 3 || c == 6

/-- Exponent and fraction widths of a floating format (R95, R99, R101). -/
def fmtF (c : Nat) : FFmt :=
  if c = 1 then ⟨2, 1⟩ else if c = 4 then ⟨4, 3⟩ else if c = 5 then ⟨5, 2⟩ else if c = 8 then bf16F
  else if c = 9 then fp16F else fp32F

/-- Elements of one barge (R103). -/
def fmtCount (c : Nat) : Nat := if c = 1 ∨ c = 2 then 128 else if c = 3 then 256 else 64

/-- Bytes of a plain element. -/
def plainSize (c : Nat) : Nat := if c = 10 then 4 else 2

/-- The largest magnitude a format holds for a sign: significand and exponent (R95 to R101). -/
def fmtMax (c : Nat) (neg : Bool) : Nat × Int :=
  if c = 1 then (3, 1) else if c = 2 then (if neg then 8 else 7, 0) else if c = 3 then (1, 0)
  else if c = 4 then (14, 5) else if c = 5 then (7, 13) else if c = 6 then (if neg then 128 else 127, 0)
  else if c = 8 then (255, 120) else if c = 9 then (2047, 5) else (2 ^ 24 - 1, 104)

/-- The exponent of a format's step at a magnitude: the last place, or the subnormal step (R165). -/
def fmtStep (c : Nat) (m : Nat) (e : Int) : Int :=
  if isIntFmt c then 0 else max (e + bitLen m - 1 - (fmtF c).mb) ((fmtF c).emin - (fmtF c).mb)

/-- The value an element code stands for, without its scales (R95 to R101). -/
def decodeElem (c x : Nat) : FV :=
  if c = 1 then
    let ex := natBits 1 2 x
    .fin ⟨natBit 3 x, (if ex = 0 then x % 2 else 2 + x % 2), (if ex = 0 then -1 else (ex : Int) - 2)⟩
  else if c = 2 then .fin (Dy.ofInt false (sext 4 x) 0)
  else if c = 3 then
    (if x % 4 = 1 then .fin ⟨false, 1, 0⟩ else if x % 4 = 3 then .fin ⟨true, 1, 0⟩ else .fin ⟨false, 0, 0⟩)
  else if c = 6 then .fin (Dy.ofInt false (sext 8 x) 0)
  else if c = 4 then
    (if x % 128 = 127 then .nan false true 0
     else
       let ex := natBits 3 4 x
       .fin ⟨natBit 7 x, (if ex = 0 then x % 8 else 8 + x % 8), (if ex = 0 then -9 else (ex : Int) - 10)⟩)
  else (fmtF c).decode x

/-- The pattern of `n` units of `2^q`, a magnitude the format holds. -/
def encodeUnits (c : Nat) (neg : Bool) (n : Nat) (q : Int) : Nat :=
  if c = 2 then ((if neg then -(n : Int) else n) % 16).toNat
  else if c = 3 then (if n = 0 then 0 else if neg then 3 else 1)
  else if c = 6 then ((if neg then -(n : Int) else n) % 256).toNat
  else
    let f := fmtF c
    if n < 2 ^ f.mb then f.sign neg + n
    else
      let up := decide (2 ^ (f.mb + 1) ≤ n)
      let n := if up then n / 2 else n
      let q := if up then q + 1 else q
      f.sign neg + (q + f.mb + f.bias).toNat * 2 ^ f.mb + (n - 2 ^ f.mb)

/-- Whether `n` units of `2^q` exceed the largest magnitude of the format (R125). -/
def overUnits (c : Nat) (neg : Bool) (n : Nat) (q : Int) : Bool :=
  Dy.magLt ⟨false, (fmtMax c neg).1, (fmtMax c neg).2⟩ ⟨false, n, q⟩

/-- The canonical NaN of a format, and 0 where it has none (R100, R102, R125). -/
def fmtNan (c : Nat) : Nat :=
  if c = 4 then 0x7F else if c = 5 then 0x7E else if c = 8 then 0x7FC0 else if c = 9 then 0x7E00
  else if c = 10 then 0x7FC00000 else 0

/-- The pattern of the largest finite value (or integer limit) of a sign. -/
def fmtMaxP (c : Nat) (neg : Bool) : Nat := encodeUnits c neg (fmtMax c neg).1 (fmtMax c neg).2

/-- The pattern of an infinity. -/
def fmtInf (c : Nat) (neg : Bool) : Nat := (fmtF c).infP neg

/-- An input to a pack: a value, or an accumulator that is over range, of a sign (R156). -/
inductive PackIn where
  | val (x : FV)
  | ovr (neg : Bool)
  deriving DecidableEq, Repr

/-- What packing one element gives: its pattern, and what it counts as (R125, R127). -/
structure Packed where
  bits : Nat
  clamped : Bool
  nonfinite : Bool
  /-- Under PROP, a finite overflow written as an infinity or a NaN. -/
  propOver : Bool
  flushed : Bool
  deriving DecidableEq, Repr

/-- A finite overflow or an infinity of a sign, as the mode writes it (R125). -/
def packLimit (c sat : Nat) (neg isInf : Bool) : Packed :=
  if sat = 1 ∧ (c = 5 ∨ 8 ≤ c) then ⟨fmtInf c neg, false, isInf, !isInf, false⟩
  else if sat = 1 ∧ c = 4 then ⟨0x7F, false, isInf, !isInf, false⟩
  else ⟨fmtMaxP c neg, true, isInf, false, false⟩

/-- An already scaled input packed as one element (R125). A tt2 input is rounded to a whole number, and one above 1 in magnitude is a finite
overflow (DESIGN CHOICE: R125 rounds tt2 to the nearest of −1, 0 and +1, which nothing can exceed, and yet lists its overflow). -/
def packElem (c sat : Nat) (rm : Rnd) (x : PackIn) : Packed :=
  match x with
  | .ovr neg => packLimit c 0 neg false
  | .val (.nan _ _ _) => ⟨fmtNan c, false, true, false, false⟩
  | .val (.inf neg) => packLimit c sat neg true
  | .val (.fin y) =>
    let q := fmtStep c y.m y.e
    let n := (roundUnits rm y.neg y.m y.e q false).1
    if overUnits c y.neg n q then packLimit c sat y.neg false
    else ⟨encodeUnits c y.neg n q, false, false, false, n == 0 && y.m != 0⟩

/-! ## Barges (R103 to R115) -/

/-- A barge: 64 payload bytes and its sidecar word. -/
structure Barge where
  payload : List Byte
  side : Nat
  deriving DecidableEq, Repr

def Barge.bscale (b : Barge) : Nat := natBits 0 8 b.side
def Barge.sub (b : Barge) (j : Nat) : Nat := natBits (8 + 4 * j) 4 b.side
def Barge.fmt (b : Barge) : Nat := natBits 24 4 b.side
def Barge.crc (b : Barge) : Nat := natBits 32 24 b.side
def Barge.epoch (b : Barge) : Nat := natBits 56 8 b.side

/-- An invalid barge (R107). -/
def Barge.invalid (b : Barge) : Bool := b.bscale == 0xFF || !isBargeFmt b.fmt

/-- One bit of the CRC-24 register (R108). -/
def crcStep (r : Nat) : Nat := if 2 * r < 2 ^ 24 then 2 * r else (2 * r) ^^^ 0x1864CFB

/-- One byte of the CRC-24, most significant bit first. -/
def crcByte (r : Nat) (b : Byte) : Nat :=
  crcStep (crcStep (crcStep (crcStep (crcStep (crcStep (crcStep (crcStep (r ^^^ (b.toNat * 65536)))))))))

/-- The CRC-24 of R108 over bytes in order. -/
def crc24 (bs : List Byte) : Nat := bs.foldl crcByte 0xB704CE

/-- The CRC of a barge's payload and sidecar bits [31:0]. -/
def Barge.goodCrc (b : Barge) : Nat := crc24 (b.payload ++ toBytes 4 b.side)

/-- Address of the payload, and of the sidecar, of barge `i` of the array at `a` (R114). -/
def bargePayload (a i : Nat) : Nat := a + 576 * (i / 8) + 64 * (i % 8)
def bargeSide (a i : Nat) : Nat := a + 576 * (i / 8) + 512 + 8 * (i % 8)

/-- Barge `i` of the array at `a`. -/
def State.barge (s : State) (a i : Nat) : Barge := ⟨s.bytes (bargePayload a i) 64, s.load (bargeSide a i) 8⟩

/-- Element code `k` of a payload (R103). -/
def elemCode (c : Nat) (p : List Byte) (k : Nat) : Nat :=
  if c = 1 ∨ c = 2 then natBits (4 * (k % 2)) 4 (p.getD (k / 2) 0).toNat
  else if c = 3 then natBits (2 * (k % 4)) 2 (p.getD (k / 4) 0).toNat
  else (p.getD k 0).toNat

/-- The quarter of element `k` (R103). -/
def quarter (c k : Nat) : Nat := k / (fmtCount c / 4)

/-- Element `k` of a valid barge with its quarter's offset, and without the block scale (R118). -/
def Barge.elem (b : Barge) (k : Nat) : FV :=
  match decodeElem b.fmt (elemCode b.fmt b.payload k) with
  | .fin x => .fin (x.scale (-(b.sub (quarter b.fmt k) : Int)))
  | x => x

/-- Element `k` with every scale applied; NaN in an invalid barge (R106, R107). -/
def Barge.value (b : Barge) (k : Nat) : FV :=
  if b.invalid then .nan false true 0
  else match b.elem k with
    | .fin x => .fin (x.scale ((b.bscale : Int) - 127))
    | x => x

/-- Whether a tt2 barge holds the reserved code (R98). -/
def Barge.reservedTt2 (b : Barge) : Bool :=
  !b.invalid && b.fmt == 3 && (List.range 256).any (fun k => elemCode 3 b.payload k == 2)

/-- The bytes that element codes pack into (R103). -/
def packCodes (c : Nat) (codes : List Nat) : List Byte :=
  if c = 1 ∨ c = 2 then (List.range 64).map (fun i => BitVec.ofNat 8 (codes.getD (2 * i) 0 + 16 * codes.getD (2 * i + 1) 0))
  else if c = 3 then (List.range 64).map (fun i => BitVec.ofNat 8 (codes.getD (4 * i) 0 + 4 * codes.getD (4 * i + 1) 0
    + 16 * codes.getD (4 * i + 2) 0 + 64 * codes.getD (4 * i + 3) 0))
  else (List.range 64).map (fun i => BitVec.ofNat 8 (codes.getD i 0))

/-- A sidecar with its CRC (R104, R108). -/
def mkBarge (payload : List Byte) (bscale : Nat) (subs : List Nat) (fmt : Nat) (sat nonfin sound : Bool) (epoch : Nat) : Barge :=
  let lo := bscale % 256 + subs.getD 0 0 * 2 ^ 8 + subs.getD 1 0 * 2 ^ 12 + subs.getD 2 0 * 2 ^ 16 + subs.getD 3 0 * 2 ^ 20
    + fmt * 2 ^ 24 + sat.toNat * 2 ^ 28 + nonfin.toNat * 2 ^ 29 + sound.toNat * 2 ^ 30
  ⟨payload, lo + crc24 (payload ++ toBytes 4 lo) * 2 ^ 32 + epoch % 256 * 2 ^ 56⟩

/-- The state with a barge stored. -/
def State.putBarge (s : State) (a i : Nat) (b : Barge) : State :=
  (s.setBytes (bargePayload a i) b.payload).store (bargeSide a i) 8 b.side

/-- The largest SUB from `s` down for which nothing overflows, or 0 (R155). -/
def subFrom (c : Nat) (b : Int) (ys : List Dy) : Nat → Nat
  | 0 => 0
  | s + 1 =>
    if ys.all (fun y =>
        let z := y.scale ((s + 1 : Nat) - b)
        let q := fmtStep c z.m z.e
        !overUnits c z.neg (roundUnits .tiesEven z.neg z.m z.e q false).1 q)
    then s + 1 else subFrom c b ys s

/-- SUBj of a quarter's finite elements (R155). -/
def subOf (c : Nat) (b : Int) (ys : List Dy) : Nat := if ys.all (fun y => y.m == 0) then 0 else subFrom c b ys 15

/-! ## Plain elements and internal forms -/

/-- The plain element of format `c` at an address. -/
def State.plain (s : State) (c a : Nat) : FV := (fmtF c).decode (s.load a (plainSize c))

/-- The backward internal form: binary32 with 10 fraction bits (R121). -/
def backF : FFmt := ⟨8, 10⟩

/-- A decoded operand in the backward internal form, and whether it was clamped (R122). -/
def toBackward (sat : Nat) (x : FV) : FV × Bool :=
  match x with
  | .fin y =>
    let r := backF.round .tiesEven y false
    if natBit 2 r.2 then
      (if sat = 1 then (.inf y.neg, false) else (backF.decode (backF.maxP y.neg), true))
    else (backF.decode r.1, false)
  | .nan _ _ _ => (.nan false true 0x200, false)
  | x => (x, false)

end Sys2Proof.Machine
end

