-- ==== Sys2Proof/Machine/Memory.lean ====
section
/-! DEFINITION. Basins, HBM, Keeper SRAM and MRAM: how an access is checked, corrected, encrypted and verified; memory-side operations, patrols, refresh, and transfers over the aqueducts (R26 to R51, R275 to R305, R482 to R484). -/

namespace Sys2Proof.Machine

/-! ## Stored upsets -/

/-- Keys of the marked words of `g` bytes that overlap `[lo, lo + n)`, at level `lvl`. -/
def State.marked (s : State) (g lvl lo n : Nat) : List Nat :=
  (s.ecc.filter (fun c => c.2 == lvl && decide (lo < c.1 + g) && decide (c.1 < lo + n))).map (·.1)

/-- An upset hits the word of `g` bytes at `a` (R277, R295). -/
def State.addUpset (s : State) (g a : Nat) (u : Upset) : State :=
  let k := a / g * g
  let old := spGet 0 s.ecc k
  match u with
  | .none => s
  | .single => { s with ecc := spPut 0 s.ecc k (if old = 0 then 1 else 2) }
  | .double => { s with ecc := spPut 0 s.ecc k 2 }

/-- The marks of `[lo, lo + n)` are gone: the words have been written whole. -/
def State.clearMarks (s : State) (g lo n : Nat) : State :=
  { s with ecc := s.ecc.filter (fun c => !(decide (lo < c.1 + g) && decide (c.1 < lo + n))) }

/-! ## Committed tensors (R82, R484) -/

/-- Whether an address lies in a committed slot of a committed tensor of the schedule (R484). -/
def State.inCommitted (s : State) (a : Nat) : Bool :=
  match s.sched with
  | none => false
  | some im => im.tensors.any (fun t => s.lock.history.any (fun h =>
      match t.slots[h.2 % (t.slots.length)]? with
      | some b => decide (b ≤ a) && decide (a < b + t.size)
      | none => false))

/-- STATE_DAMAGED, when the failing address lies in a committed slot (R484). -/
def State.damaged (s : State) (st src a : Nat) : State := if s.inCommitted a then s.post 0x29 st src a else s

/-! ## Basins (R275 to R280) -/

/-- A read of `n` bytes of a basin: corrected errors are counted, an uncorrectable one ends the read (R277). The
caller takes the data from `bytes`. -/
def State.basinRd (s : State) (a n : Nat) : Nat × State :=
  let src := s.src (a / basinSize)
  let s := (s.marked 8 1 a n).foldl (fun s k => s.post 0x02 stOK src k) s
  match s.marked 8 2 a n with
  | [] => (stOK, s)
  | k :: _ => (stECC_UNCORR, (s.post 0x03 stECC_UNCORR src k).damaged stECC_UNCORR src k)

/-- Whether the word at `k` is written only in part by a write of `n` bytes at `a`. -/
def partWord (g k a n : Nat) : Bool := !(decide (a ≤ k) && decide (k + g ≤ a + n))

/-- A write to a basin: a word written in part is read, merged and written (R278). -/
def State.basinWr (s : State) (a : Nat) (bs : List Byte) : Nat × State :=
  let n := bs.length
  let src := s.src (a / basinSize)
  match (s.marked 8 2 a n).filter (fun k => partWord 8 k a n) with
  | k :: _ => (stECC_UNCORR, (s.post 0x03 stECC_UNCORR src k).damaged stECC_UNCORR src k)
  | [] =>
    let s := ((s.marked 8 1 a n).filter (fun k => partWord 8 k a n)).foldl (fun s k => s.post 0x02 stOK src k) s
    (stOK, (s.clearMarks 8 a n).setBytes a bs)

/-! ## HBM (R283 to R304) -/

/-- The key under which an HBM offset is written now: slot + 8 × generation (R299). -/
def State.keyTag (s : State) (o : Nat) : Nat := s.slotOf o + 8 * s.keyGen.getD (s.slotOf o) 0

/-- Whether the 16-byte block of an offset was written under the key in force (R298, R299). -/
def State.keyed (s : State) (o : Nat) : Bool := spGet 0 s.blockKey (o / 16) == s.keyTag o

/-- Whether every block that overlaps `[o, o + n)` was written under the key in force. -/
def State.allKeyed (s : State) (o n : Nat) : Bool :=
  (List.range ((o + n + 15) / 16 - o / 16)).all (fun i => s.keyed ((o / 16 + i) * 16))

/-- A byte of HBM as it reads under the key in force: a block that was written under another key decrypts to an unrelated one, the same
at every read (R298, R299). -/
def State.plainByte (s : State) (o : Nat) : Byte :=
  if s.keyed o then s.byte (hbmBase + o)
  else BitVec.ofNat 8 (Config.xtsAcross (spGet 0 s.blockKey (o / 16)) (s.keyTag o) (o / 512) (o % 512 / 16)
    (ofBytes (s.bytes (hbmBase + o / 16 * 16) 16)) / 256 ^ (o % 16))

/-- Bytes of HBM from offset `o`. -/
def State.plainBytes (s : State) (o n : Nat) : List Byte := (List.range n).map (fun i => s.plainByte (o + i))

/-- The span that an access to `[o, o + n)` reads: its whole units with integrity on, its sectors otherwise. -/
def hbmSpan (integ : Bool) (o n : Nat) : Nat × Nat :=
  let g := if integ then 512 else 32
  (o / g * g, (o + n + g - 1) / g * g - o / g * g)

/-- The data units that a span covers. -/
def unitsOf (sp : Nat × Nat) : List Nat := (List.range (sp.2 / 512)).map (fun i => sp.1 / 512 + i)

/-- The line that holds a unit's MAC. R301 gives no size of a line: 64 bytes, one main-path access (DESIGN CHOICE). -/
def macLine (u : Nat) : Nat := macOffset (512 * u) / 64

/-- What a wharf die holds of the units it has verified and of the lines of MACs (R301). -/
def State.cacheOf (s : State) (h : Nat) : HbmCache := s.hbmCache.getD h HbmCache.empty

/-- `x` is the most recent of at most `n`. -/
def recent (n x : Nat) (l : List Nat) : List Nat := (x :: l.erase x).take n

/-- Units have been verified: the last 64 of them, and 256 KiB of MAC lines, stay in the die (R301); which line makes way is stated
nowhere, and here it is the least recent (DESIGN CHOICE). -/
def State.cacheUnits (s : State) (h : Nat) (us : List Nat) : State :=
  let k := us.foldl (fun k u => ⟨recent 64 u k.units, recent 4096 (macLine u) k.lines⟩) (s.cacheOf h)
  { s with hbmCache := s.hbmCache.set h k }

/-- Nothing verified stays in any die. -/
def State.dropCaches (s : State) : State := { s with hbmCache := List.replicate 8 HbmCache.empty }

/-- The sectors with an upset of a level that a read of a span meets: its own, and with integrity on those of the MACs whose lines are
not cached. -/
def State.upsets (s : State) (integ : Bool) (h lvl : Nat) (sp : Nat × Nat) : List Nat :=
  s.marked 32 lvl (hbmBase + sp.1) sp.2
    ++ (if integ then (unitsOf sp).flatMap (fun u => if (s.cacheOf h).lines.contains (macLine u) then [] else s.marked 32 lvl (hbmBase + macOffset (512 * u)) 8)
        else [])

/-- The integrity and ECC checks of a span (R295, R301, R302): a unit that its die holds as verified is not read again. -/
def State.hbmCheck (s : State) (o n : Nat) : Nat × State :=
  let h := hbmHome o
  let src := s.src (0xF00 + h)
  let integ := s.integ h
  let sp := hbmSpan integ o n
  if integ && (unitsOf sp).all (fun u => (s.cacheOf h).units.contains u) then (stOK, s)
  else if integ && !s.allKeyed sp.1 sp.2 then
    (stINTEGRITY_FAIL, ((s.bump (HM_MAC_FAIL h) 1).post 0x1D stINTEGRITY_FAIL src (hbmBase + o)).damaged stINTEGRITY_FAIL src (hbmBase + o))
  else
    let bad := s.upsets integ h 2 sp
    let s := (s.upsets integ h 1 sp).foldl (fun s k => (s.bump (HM_CE_CNT h) 1).post 0x1B stOK src k) s
    match bad with
    | [] => (stOK, if integ then s.cacheUnits h (unitsOf sp) else s)
    | k :: _ => (stECC_UNCORR, ((s.bump (HM_UE_CNT h) 1).post 0x1C stECC_UNCORR src k).damaged stECC_UNCORR src k)

/-- The blocks of `[o, o + n)` are under the key in force. -/
def State.setKeys (s : State) (o : Nat) : Nat → State
  | 0 => s
  | n + 1 => ({ s with blockKey := spPut 0 s.blockKey (o / 16) (s.keyTag o) }).setKeys (o + 16) n

/-- A read of HBM: status and data (R286, R295, R301, R302). -/
def State.hbmRd (s : State) (o n : Nat) : Nat × List Byte × State :=
  let (st, s) := s.hbmCheck o n
  if st ≠ stOK then (st, [], s)
  else
    let bs := s.plainBytes o n
    let h := hbmHome o
    (stOK, bs, s.wrWide (HM_RD_BYTES_0 h) 2 (satAdd (2 ^ 64 - 1) (s.rdWide (HM_RD_BYTES_0 h) 2) n))

/-- Whether a write of `n` bytes at `o` is carried out as read, merge and write (R286, R301). -/
def State.hbmMerges (s : State) (o n : Nat) : Bool :=
  let sp := hbmSpan (s.integ (hbmHome o)) o n
  !(sp.1 == o && sp.2 == n)

/-- The bytes of a span that were under another key are, as they read, under the key in force. -/
def State.rekeySpan (s : State) (o n : Nat) : State :=
  if s.allKeyed o n then s
  else (s.setBytes (hbmBase + o) (s.plainBytes o n)).setKeys (o / 16 * 16) ((o + n + 15) / 16 - o / 16)

/-- The end of a write of HBM at `o`, in a span that has been read where it is merged: the bytes, their keys and the count of bytes. -/
def State.hbmPut (s : State) (o : Nat) (sp : Nat × Nat) (bs : List Byte) : State :=
  let n := bs.length
  let s := (s.clearMarks 32 (hbmBase + sp.1) sp.2).setBytes (hbmBase + o) bs
  let s := s.setKeys (o / 16 * 16) ((o + n + 15) / 16 - o / 16)
  s.wrWide (HM_WR_BYTES_0 (hbmHome o)) 2 (satAdd (2 ^ 64 - 1) (s.rdWide (HM_WR_BYTES_0 (hbmHome o)) 2) n)

/-- A write of HBM (R286, R298, R301, R302); one that is part of a write of its whole unit merges nothing. -/
def State.hbmWr (s : State) (o : Nat) (bs : List Byte) (whole : Bool) : Nat × State :=
  let n := bs.length
  let h := hbmHome o
  let integ := s.integ h
  let merges := !whole && s.hbmMerges o n
  let sp := if whole then (o, n) else hbmSpan integ o n
  let s := if integ && merges then s.bump (HM_RMW_CNT h) 1 else s
  let (st, s) := if merges then s.hbmCheck o n else (stOK, s)
  if st ≠ stOK then (st, s)
  else
    let s := if merges then s.rekeySpan sp.1 sp.2 else s
    (stOK, s.hbmPut o sp bs)

/-! ## Checks of an access (R16, R27, R48, R49, R432) -/

/-- Whether `[a, a + n)` lies in the metadata range with integrity on (R48). The spec gives one INTEG to each controller and does not
say which one decides where they differ: stack 0's does (DESIGN CHOICE). -/
def State.metadata (s : State) (a n : Nat) : Bool := s.integ 0 && decide (0x003F40000000 < a + n) && decide (a < 0x004000000000)

/-- Whether the next transfer between a master and the die of an address is one that will fail (R44). -/
def State.aqFails (s : State) (m : Ident) (a : Nat) : Bool := s.aqFail.contains (m, (target a).die.pos)

/-- The failure has happened. -/
def State.aqFailed (s : State) (m : Ident) (a : Nat) : State := { s with aqFail := s.aqFail.erase (m, (target a).die.pos) }

/-- The check of a local range by a master: OK, BOUNDS_FAULT or TARGET_RESET, with the denial counted (R446), or the BUS_FAULT of
a transfer that an aqueduct has failed (R44). -/
def State.checkLocal (s : State) (m : Ident) (a n : Nat) (write : Bool) : Nat × State :=
  let t := target a
  let t2 := target (a + n - 1)
  if t = .hole ∨ t2 = .hole then (stBOUNDS_FAULT, s)
  else if (t.core?.map (fun c => !s.present c)).getD false ∨ (t2.core?.map (fun c => !s.present c)).getD false then (stBOUNDS_FAULT, s)
  else if s.metadata a n then (stBOUNDS_FAULT, s)
  else if !s.permits m t write ∨ !s.permits m t2 write then (stBOUNDS_FAULT, s.deny m a)
  else if s.absorbed t ∨ s.absorbed t2 then (stTARGET_RESET, s)
  else if s.aqFails m a then (stBUS_FAULT, s.aqFailed m a)
  else (stOK, s)

/-- A power of two up to 64 (R275). -/
def okSize (n : Nat) : Bool := [1, 2, 4, 8, 16, 32, 64].contains n

/-- The alignment rule of a memory access: a size of R275, naturally aligned (R275, R286). -/
def aligned (a n : Nat) : Bool := okSize n && a % n == 0

/-- Whether a master's error counts as one in the pound's state (R482). -/
def State.poundMaster (s : State) (m : Ident) : Bool :=
  s.isLocal m && s.running && (match masterOf m.num.toNat with
    | .tiller _ => true
    | .engine _ => true
    | _ => false)

/-- The consequence of a failed access for the pound (R482, R483). -/
def State.poundError (s : State) (m : Ident) (st : Nat) : State :=
  if (st = stECC_UNCORR ∨ st = stINTEGRITY_FAIL) ∧ s.poundMaster m then s.uncorrectable else s

/-- An access to HBM of 32 bytes or fewer that is served has taken the narrow path (R285, R304). -/
def State.countNarrow (s : State) (o n st : Nat) : State := if n ≤ 32 ∧ st = stOK then s.bump (HM_NARROW_CNT (hbmHome o)) 1 else s

/-- A read of memory (not of a register) at a local address, already checked. -/
def State.memRd (s : State) (a n : Nat) : Nat × List Byte × State :=
  match target a with
  | .basin _ _ =>
    let (st, s) := s.basinRd a n
    (st, (if st = stOK then s.bytes a n else []), s)
  | .hbm o =>
    let (st, bs, s) := s.hbmRd o n
    (st, bs, s.countNarrow o n st)
  | .ksram _ | .mram _ => (stOK, s.bytes a n, s)
  | _ => (stBOUNDS_FAULT, [], s)

/-- A read of `n` bytes at a local address by an engine or the Keeper: the doorbell page reads zero, a register takes 32 bits
alone (R10, R312). -/
def State.localGet (s : State) (m : Ident) (a n : Nat) : Nat × List Byte × State :=
  match target a with
  | .reg .doorbell _ => (stOK, List.replicate n 0#8, s)
  | .reg _ _ => (stALIGN_FAULT, [], s)
  | _ =>
    let (st, s) := s.checkLocal m a n false
    if st ≠ stOK then (st, [], s)
    else
      let (st, bs, s) := s.memRd a n
      (st, bs, s.poundError m st)

/-- A write of memory at a local address, already checked, that may be part of a write of a whole data unit of HBM (R301). -/
def State.memWrIn (s : State) (a : Nat) (bs : List Byte) (whole : Bool) : Nat × State :=
  match target a with
  | .basin _ _ => s.basinWr a bs
  | .hbm o =>
    let (st, s) := s.hbmWr o bs whole
    (st, s.countNarrow o bs.length st)
  | .ksram _ | .mram _ => (stOK, s.setBytes a bs)
  | _ => (stBOUNDS_FAULT, s)

/-- A write of memory at a local address, already checked, of its own. -/
def State.memWr (s : State) (a : Nat) (bs : List Byte) : Nat × State := s.memWrIn a bs false


/-- Operation numbers of outgoing messages: the transactions of R350 and the fleet messages of R389. -/
def txRead : Nat := 0x01
def txWrite : Nat := 0x02
def txMsop : Nat := 0x03
def txDoorbell : Nat := 0x04
def txMailbox : Nat := 0x05
def txResponse : Nat := 0x06
def txAck : Nat := 0x07
def txVote : Nat := 0x08
def txDecision : Nat := 0x09
def txFleetCmd : Nat := 0x20
def txReport : Nat := 0x21
def txChunk : Nat := 0x22
def txMissing : Nat := 0x23
def txLease : Nat := 0x24
def txLeaseAck : Nat := 0x25
def txAdrift : Nat := 0x26
/-- Numbers of the model's own, for messages to which R350 and R389 give none: an empty note (R338), a sum of the
global norm and its result (R257), and a control flit of a link (R351) by its type. -/
def txNote : Nat := 0x101
def txGnSum : Nat := 0x102
def txGnResult : Nat := 0x103
def txControl : Nat := 0x200

/-- Body flits of so many bytes (R350). -/
def flitsFor (n : Nat) : Nat := (n + 63) / 64

/-- A message of unit `num` to a device that is no memory request: a vote, a decision, a fleet message (R350): its words are eight bytes
each, little-endian. -/
def State.sendAs (s : State) (num dev cls op : Nat) (words : List Nat) : State :=
  let body := words.flatMap (fun w => toBytes 8 w)
  { s with tx := s.tx ++ [⟨dev, cls, op, ⟨BitVec.ofNat 64 (dev * 2 ^ 48), s.self num, BitVec.ofNat 8 (if op < 256 then op else 0), 0#8, flitsFor body.length, 0#32, 0#48,
    0#8, 0#8, true⟩, 0, body⟩] }

/-- A message of the Keeper. -/
def State.send (s : State) (dev cls op : Nat) (words : List Nat) : State := s.sendAs 0xD00 dev cls op words

/-- A response or an acknowledgement to a master of another device, by the transaction number of its request. -/
def State.sendResponse (s : State) (h : Head) (cls op st : Nat) (data : List Byte) : State :=
  { s with tx := s.tx ++ [⟨h.src.dev.toNat, cls, op, ⟨BitVec.ofNat 64 (h.src.dev.toNat * 2 ^ 48), h.src, BitVec.ofNat 8 op, BitVec.ofNat 8 st,
    flitsFor data.length, h.tid, 0#48, 0#8, 0#8, true⟩, 0, data⟩] }

/-- The port and sub-port of the active route to a device (R385). -/
def State.egress (s : State) (dev : Nat) : Option (Nat × Nat) :=
  let e := spGet 0 (if s.rb KP_ROUTE KP_ROUTE_BANK then s.fleet.bank1 else s.fleet.bank0) dev
  if natBit 7 e then some (natBits 0 4 e, natBits 4 3 e) else none

/-- The state code of a link (R380). -/
def State.linkSt (s : State) (p b : Nat) : Nat := s.rf (LK_STATE p b) LK_STATE_STATE

/-- How a request of a class to another device fares at its egress: it leaves, or it completes at its master with a
status (R361, R368, R386). -/
def State.egressStatus (s : State) (dev cls : Nat) : Nat :=
  match s.egress dev with
  | none => stBUS_FAULT
  | some (p, b) =>
    let st := s.linkSt p b
    if st = 3 ∨ st = 5 then stOK
    else if st = 4 then (if cls = 1 ∨ cls = 2 then stTARGET_RESET else stOK)
    else stBUS_FAULT

/-- The transaction number that a master of this device gives its requests. -/
def tidOf (m : Ident) : Nat := m.num.toNat

/-- A request to another device: OK when it has left. -/
def State.sendReq (s : State) (dev cls op addr size : Nat) (m : Ident) (tid msop : Nat) (body : List Byte) : Nat × State :=
  let st := s.egressStatus dev cls
  (st, if st = stOK then { s with tx := s.tx ++ [⟨dev, cls, op, ⟨BitVec.ofNat 64 addr, m, BitVec.ofNat 8 op, 0#8, flitsFor body.length,
    BitVec.ofNat 32 tid, 0#48, 0#8, BitVec.ofNat 8 msop, true⟩, size, body⟩] } else s)

/-! ## Reads of another device's memory (R47, R51, R327) -/

/-- A master's read of `n` bytes at an address of another device. -/
def State.remoteRead (s : State) (m : Ident) (a n : Nat) : Option RemoteReq := s.remotes.find? (fun r => !r.write && r.m == m && r.addr == a && r.size == n)

/-- Its answer, once it has come. -/
def State.remoteGot (s : State) (m : Ident) (a n : Nat) : Option (Nat × List Byte) := (s.remoteRead m a n).bind (fun r => r.answer)

/-- The transaction number of a read by a master that has `k` reads outstanding (DESIGN CHOICE: R350 leaves the number to the master). -/
def readTid (m : Ident) (k : Nat) : Nat := 0x10000 * (1 + k % 0x7FFF) + m.num.toNat

/-- The last transaction queued is bound to an epoch, if there is one (R83, R350). -/
def State.bindTx (s : State) (ep : Option Nat) : State :=
  match ep, s.tx.getLast? with
  | some e, some x => { s with tx := s.tx.dropLast ++ [{ x with head := { x.head with epoch := BitVec.ofNat 48 e, flags := 1#8 } }] }
  | _, _ => s

/-- A master asks for `n` bytes at an address of another device, as a reader bound to an epoch if it is one, unless it has asked
already: a read that finds nothing mapped at its address, or that has no way out, is answered at once (R47, R361, R386). -/
def State.remoteAsk (s : State) (m : Ident) (cls a n : Nat) (ep : Option Nat) : State :=
  if (s.remoteRead m a n).isSome then s
  else
    let tid := readTid m (s.remotes.filter (fun r => r.m == m)).length
    let add := fun (s : State) (x : Option (Nat × List Byte)) => { s with remotes := s.remotes ++ [⟨m, a, n, tid, x, false, none⟩] }
    match s.resolve a with
    | none => add s (some (stBOUNDS_FAULT, []))
    | some (dev, l) =>
      if target l = .hole ∨ target (l + n - 1) = .hole then add s (some (stBOUNDS_FAULT, []))
      else
        let (st, s) := s.sendReq dev cls txRead a n m tid 0 []
        add (if st = stOK then s.bindTx ep else s) (if st = stOK then none else some (st, []))

/-- The answer to a read arrives. A read that nobody waits for any more is forgotten. -/
def State.remoteAnswer (s : State) (tid st : Nat) (data : List Byte) : State :=
  match s.remotes.find? (fun r => !r.write && r.tid == tid && r.answer.isNone) with
  | some r => { s with remotes := s.remotes.map (fun x => if x = r then { x with answer := some (st, data.take x.size) } else x) }
  | none => s

/-- A master has used, or given up, its reads. -/
def State.remoteDrop (s : State) (m : Ident) : State := { s with remotes := s.remotes.filter (fun r => r.write || r.m != m) }

/-- The reads of a list of places have been used. -/
def State.remoteForget (s : State) (m : Ident) (l : List (Nat × Nat)) : State :=
  { s with remotes := s.remotes.filter (fun r => r.write || r.m != m || !l.contains (r.addr, r.size)) }

/-- Whether an address names another device. -/
def State.isRemote (s : State) (a : Nat) : Bool :=
  match s.resolve a with
  | some (dev, _) => dev != s.devId
  | none => false

/-- A master asks for every remote place in a list of places and lengths. -/
def State.askAll (s : State) (m : Ident) (cls : Nat) (ep : Option Nat) (l : List (Nat × Nat)) : State :=
  (l.filter (fun x => s.isRemote x.1)).foldl (fun s x => s.remoteAsk m cls x.1 x.2 ep) s

/-- Every remote place of a list has been answered. -/
def State.allGot (s : State) (m : Ident) (l : List (Nat × Nat)) : Bool :=
  l.all (fun x => !s.isRemote x.1 || (s.remoteGot m x.1 x.2).isSome)

/-- What a master reads at a place of another device that it has asked for. -/
def State.remoteTake (s : State) (m : Ident) (a n : Nat) : Nat × List Byte := (s.remoteGot m a n).getD (stBUS_FAULT, [])

/-! ## Commands -/

/-- BASIN_PATROL_SCRUB (R280): a single-bit error is corrected and written back. -/
def execBasinPatrolScrub (core : CoreId) (word : BitVec 22) (upset : Upset) (s : State) : Host.Outcome State Fault Refusal :=
  if s.present core && s.coreUp core then
    let a := core.val * basinSize + 8 * word.toNat
    let s := s.addUpset 8 a upset
    .next (if spGet 0 s.ecc a = 1 then { s with ecc := spPut 0 s.ecc a 0 } else s)
  else .next s

/-! ### Memory-side operations (R287 to R289) -/

/-- Operations: 0 ADD, 1 MIN, 2 MAX, 3 XOR; types: 0 FP64, 1 FP32, 2 bfloat16, 3 INT64, 4 INT32, 5 untyped (R325). -/
def msopOk (mtype mop : Nat) : Bool := if mop = 3 then mtype == 5 else decide (mtype ≤ 4)

/-- The format of a floating type. -/
def msopF (mtype : Nat) : FFmt := if mtype = 0 then fp64F else if mtype = 1 then fp32F else bf16F

/-- One element of a memory-side operation: NaN results are the positive quiet NaN (R289). -/
def msopElem (mtype mop x y : Nat) : Nat :=
  if mtype = 3 ∨ mtype = 4 then
    let w := if mtype = 3 then 64 else 32
    if mop = 0 then (x + y) % 2 ^ w
    else if mop = 1 then (if sext w y < sext w x then y else x)
    else (if sext w x < sext w y then y else x)
  else
    let f := msopF mtype
    let a := f.decode x
    let b := f.decode y
    if a.isNan || b.isNan then f.qnan
    else if mop = 0 then (f.add .tiesEven a b).1
    else if mop = 1 then (f.min a b).1
    else (f.max a b).1

/-- Element width in bits. -/
def msopWidth (mtype : Nat) : Nat := if mtype = 0 ∨ mtype = 3 then 64 else if mtype = 2 then 16 else 32

/-- A memory-side operation on 64-byte numbers, element by element. -/
def msopAll (mtype mop x y : Nat) : Nat :=
  if mop = 3 then x ^^^ y
  else
    let w := msopWidth mtype
    (List.range (512 / w)).foldl (fun r i =>
      r + msopElem mtype mop (natBits (w * i) w x) (natBits (w * i) w y) * 2 ^ (w * i)) 0

/-- Elements of a result that are infinite or NaN (R289). -/
def msopNf (mtype mop x : Nat) : Nat :=
  if mop = 3 ∨ mtype = 3 ∨ mtype = 4 then 0
  else
    let w := msopWidth mtype
    ((List.range (512 / w)).filter (fun i =>
      match (msopF mtype).decode (natBits (w * i) w x) with
      | .fin _ => false
      | _ => true)).length

/-- A memory-side operation at a local HBM offset, checked: it reads, computes and writes the 64 bytes, and returns
no data (R288, R301). -/
def State.msopAt (s : State) (o mtype mop operand : Nat) : Nat × State :=
  let h := hbmHome o
  let sp := hbmSpan (s.integ h) o 64
  let s := if s.integ h then s.bump (HM_RMW_CNT h) 1 else s
  let (st, s) := s.hbmCheck o 64
  if st ≠ stOK then (st, s)
  else
    let s := s.rekeySpan sp.1 sp.2
    let r := msopAll mtype mop (ofBytes (s.bytes (hbmBase + o) 64)) operand
    (stOK, (s.hbmPut o sp (toBytes 64 r)).bump (HM_MSOP_NF h) (msopNf mtype mop r))

/-- A memory-side operation by a master at an address (R287, R301, R302; both a read and a write, R448). -/
def State.msop (s : State) (m : Ident) (addr mtype mop operand : Nat) : Nat × State :=
  match s.resolve addr with
  | none => (stBOUNDS_FAULT, s)
  | some (_, a) =>
    if !msopOk mtype mop then (stBAD_OPCODE, s)
    else if a % 64 ≠ 0 then (stALIGN_FAULT, s)
    else match target a with
      | .hbm o =>
        let (st, s) := s.checkLocal m a 64 true
        if st ≠ stOK then (st, s)
        else
          let (st, s) := s.checkLocal m a 64 false
          if st ≠ stOK then (st, s)
          else
            let (st, s) := s.msopAt o mtype mop operand
            (st, s.poundError m st)
      | _ => (stBOUNDS_FAULT, s)

/-- A memory-side command: served here, or carried to the device that the address names. -/
def State.msopCmd (s : State) (m : Ident) (addr mtype mop operand : Nat) : State :=
  match s.resolve addr with
  | none => s.reply stBOUNDS_FAULT []
  | some (dev, _) =>
    if dev ≠ s.devId then
      let (st, s) := s.sendReq dev 2 txMsop addr 64 m (tidOf m) (mtype + 8 * mop) (toBytes 64 operand)
      if st ≠ stOK then s.reply st [] else s
    else
      let (st, s) := s.msop m addr mtype mop operand
      s.reply st []

/-- MSOP_ADD (R289). -/
def execMsopAdd (m : Ident) (addr : Dword) (mtype : BitVec 3) (operand : BitVec 512) (s : State) : Host.Outcome State Fault Refusal :=
  .next (s.msopCmd m addr.toNat mtype.toNat 0 operand.toNat)

/-- MSOP_MIN (R289). -/
def execMsopMin (m : Ident) (addr : Dword) (mtype : BitVec 3) (operand : BitVec 512) (s : State) : Host.Outcome State Fault Refusal :=
  .next (s.msopCmd m addr.toNat mtype.toNat 1 operand.toNat)

/-- MSOP_MAX (R289). -/
def execMsopMax (m : Ident) (addr : Dword) (mtype : BitVec 3) (operand : BitVec 512) (s : State) : Host.Outcome State Fault Refusal :=
  .next (s.msopCmd m addr.toNat mtype.toNat 2 operand.toNat)

/-- MSOP_XOR (R289). -/
def execMsopXor (m : Ident) (addr : Dword) (mtype : BitVec 3) (operand : BitVec 512) (s : State) : Host.Outcome State Fault Refusal :=
  .next (s.msopCmd m addr.toNat mtype.toNat 3 operand.toNat)

/-! ### Patrol and refresh -/

/-- HBM_PATROL (R296): corrected data is written back; an uncorrectable sector is recorded, and no access fails. -/
def execHbmPatrol (stack : WharfId) (addr : Dword) (upset : Upset) (s : State) : Host.Outcome State Fault Refusal :=
  match target addr.toNat with
  | .hbm o =>
    if s.rf (HM_SCRUB stack) HM_SCRUB_PERIOD = 0 ∨ hbmHome o ≠ stack.val then .next s
    else
      let k := addr.toNat / 32 * 32
      let src := s.src (0xF00 + stack.val)
      let s := s.addUpset 32 k upset
      let s := s.wf (HM_SCRUB stack) HM_SCRUB_DONE_PCT (o * 100 / 0x3000000000)
      if spGet 0 s.ecc k = 1 then
        .next ((({ s with ecc := spPut 0 s.ecc k 0 }).bump (HM_CE_CNT stack) 1).post 0x1B stOK src k)
      else if spGet 0 s.ecc k = 2 then .next ((s.post 0x1C stECC_UNCORR src k).damaged stECC_UNCORR src k)
      else .next s
  | _ => .next s

/-- The hottest of the stacks' readings, and its stack (R513): the lowest-numbered of equals. -/
def State.hottestStack (s : State) : Nat × Nat :=
  (List.range 8).foldl (fun b n => let t := s.rf (HM_STATUS n) HM_STATUS_TEMP; if b.1 < t then (t, n) else b)
    (s.rf (HM_STATUS 0) HM_STATUS_TEMP, 0)

/-- A stack's sensor reads `temp` (R497, R513). -/
def State.stackTemp (s : State) (n temp : Nat) : State :=
  let s := s.wf (HM_STATUS n) HM_STATUS_TEMP temp
  let h := s.hottestStack
  (s.wf PW_TEMP PW_TEMP_HMAX h.1).wf PW_TEMP PW_TEMP_HSTACK h.2

/-- The refresh rate of a stack follows its sensor and REF2X: double above 85 °C, or by REF2X; single at 83 °C or below (R292, R304). -/
def State.syncRefresh (s : State) (n : Nat) : State :=
  let temp := s.rf (HM_STATUS n) HM_STATUS_TEMP
  if s.rb (HM_CFG n) HM_CFG_REF2X || decide (85 < temp) then s.wb (HM_STATUS n) HM_STATUS_REFRESH_2X true
  else if temp ≤ 83 then s.wb (HM_STATUS n) HM_STATUS_REFRESH_2X false
  else s

/-- REFRESH_RATE_CHANGE (R292): the stack's sensor reads `temp`. -/
def execRefreshRateChange (stack : WharfId) (temp : Byte) (s : State) : Host.Outcome State Fault Refusal :=
  .next ((s.stackTemp stack temp.toNat).syncRefresh stack)

/-- HBM_HOT_THROTTLE (R292, R498): the stack's sensor reads `temp`; half rate above 95 °C, until 92 °C or below. -/
def execHbmHotThrottle (stack : WharfId) (temp : Byte) (s : State) : Host.Outcome State Fault Refusal :=
  let s := (s.stackTemp stack temp.toNat).syncRefresh stack
  let old := s.power.hbmHot.getD stack false
  let hot := if 95 < temp.toNat then true else if temp.toNat ≤ 92 then false else old
  let s := { s with power := { s.power with hbmHot := s.power.hbmHot.set stack hot } }
  .next (s.wb PW_SUPPLY PW_SUPPLY_HBM_HOT (s.power.hbmHot.any id))

/-! ### Aqueducts (R37 to R44) -/

/-- The numbers after `a`, up to and including `b`, in order from `a` towards `b`. -/
def towards (a b : Nat) : List Nat :=
  if a ≤ b then (List.range (b - a)).map (fun i => a + 1 + i) else (List.range (a - b)).map (fun i => a - 1 - i)

def rowPath (r a b : Nat) : List (Nat × Nat) := (towards a b).map (fun x => (r, x))
def colPath (c a b : Nat) : List (Nat × Nat) := (towards a b).map (fun y => (y, c))

/-- Whether the Keeper die lies on a path other than as its destination. -/
def transitsKeeper (path : List (Nat × Nat)) : Bool := path.dropLast.contains (2, 2)

/-- The route between two dies by their positions (R41). -/
def dieRoute (src dst : Nat × Nat) : List (Nat × Nat) :=
  let p := rowPath src.1 src.2 dst.2 ++ colPath dst.2 src.1 dst.1
  if !transitsKeeper p then p
  else
    let p := colPath src.2 src.1 dst.1 ++ rowPath dst.1 src.2 dst.2
    if !transitsKeeper p then p
    else if src.1 = 2 then [(1, src.2)] ++ rowPath 1 src.2 dst.2 ++ [(2, dst.2)]
    else [(src.1, 1)] ++ colPath 1 src.1 dst.1 ++ [(dst.1, 2)]

/-- The end of a transfer that is not the die of the master itself. -/
def farEnd (m : Ident) (src dst : Nat × Nat) : Nat × Nat := if dst = (masterOf m.num.toNat).die.pos then src else dst

/-- AQUEDUCT_TRANSFER (R41, R44): the transfer takes its route; one that still fails after the retries, at an aqueduct of that
route, completes with BUS_FAULT and is recorded, and the access of the master that it carries, its next one that the far die
serves, completes so. An aqueduct has no source code: the event's SOURCE is the master (DESIGN CHOICE). -/
def execAqueductTransfer (m : Ident) (src dst : Fin 5 × Fin 5) (failedAt : Option (Fin 40)) (s : State) :
    Host.Outcome State Fault Refusal :=
  let a := (src.1.val, src.2.val)
  let b := (dst.1.val, dst.2.val)
  let s := { s with route := dieRoute a b }
  match failedAt with
  | none => .next (s.reply stOK [])
  | some k =>
    if crosses k.val a s.route then
      .next (({ s with aqFail := s.aqFail ++ [(m, farEnd m a b)] }.post 0x23 stBUS_FAULT (identWord m) k.val).reply stBUS_FAULT [])
    else .next (s.reply stOK [])

end Sys2Proof.Machine
end

