-- ==== Sys2Proof/Machine/Codeword.lean ====
section
/-! DEFINITION. Codewords as bits: the header and the tags of flits, CRC-64 and the SM4-GCM tag, the scrambler, the Reed-Solomon code, and the heads of transactions (R348 to R350, R364, R365). -/

namespace Sys2Proof.Machine

/-! ## Header and flits (R349) -/

/-- The code of a kind of flit. -/
def kindCode : FlitKind → Nat
  | .idle => 0
  | .head => 1
  | .body => 2
  | .control => 3

/-- A flit's tag: class and kind. -/
def flitTag (f : Flit) : Nat := f.cls.toNat + 4 * kindCode f.kind

/-- The 96 bits of a codeword's header. -/
def cwHeader (c : Codeword) : Nat :=
  c.seq.toNat + c.ack.toNat * 2 ^ 20 + ((List.range 10).map (fun n => (c.flits[n]?.map flitTag).getD 0 * 2 ^ (40 + 4 * n))).sum
    + c.nak.toNat * 2 ^ 80 + c.kph.toNat * 2 ^ 81 + c.cclass.toNat * 2 ^ 82 + c.credit.toNat * 2 ^ 84

/-- Header bytes 0 to 11, which the integrity check value covers beside the flits. -/
def cwAad (c : Codeword) : List Byte := toBytes 12 (cwHeader c)

/-- The 640 flit bytes. -/
def cwPlain (c : Codeword) : List Byte := c.flits.flatMap (fun f => toBytes 64 f.data.toNat)

/-! ## The integrity check value (R364, R365) -/

/-- One bit of the CRC-64 of R364, most significant bit first as in the barge's CRC (DEDUCED: R364 gives no bit order). -/
def crc64Step (r : Nat) : Nat := if 2 * r < 2 ^ 64 then 2 * r else (2 * r) ^^^ 0x142F0E1EBA9EA3693

/-- One byte. -/
def crc64Byte (r : Nat) (b : Byte) : Nat := (List.range 8).foldl (fun r _ => crc64Step r) (r ^^^ (b.toNat * 2 ^ 56))

/-- CRC-64 with polynomial 0x42F0_E1EB_A9EA_3693 and initial value zero. -/
def crc64 (bs : List Byte) : Nat := bs.foldl crc64Byte 0

/-- The key and the salt of one direction out of the material of a phase: 0 what this end sends, 1 what it receives. -/
def phaseKey (m : BitVec 320) (dir : Nat) : Nat := natBits (160 * dir) 128 m.toNat
def phaseSalt (m : BitVec 320) (dir : Nat) : Nat := natBits (160 * dir + 128) 32 m.toNat

/-- The IV of the codeword that is number `n` of its direction: salt || C (R365). -/
def gcmIv (m : BitVec 320) (dir n : Nat) : Nat := phaseSalt m dir * 2 ^ 64 + n % 2 ^ 64

/-- The SM4-GCM tag of a codeword that is number `n` of its direction: its first 64 bits. -/
def cwTag (c : Codeword) (m : BitVec 320) (dir n : Nat) : BitVec 64 := Config.gcmTag (phaseKey m dir) (gcmIv m dir n) (cwAad c) (cwPlain c)

/-- The integrity check value of a codeword: the CRC-64 on an OPEN link, with no key, and the tag under a key. -/
def cwIcv (c : Codeword) (key : Option (BitVec 320)) (dir n : Nat) : BitVec 64 :=
  match key with
  | none => BitVec.ofNat 64 (crc64 (cwAad c ++ cwPlain c))
  | some m => cwTag c m dir n

/-- The codeword's flit bytes as they cross the lane. -/
def cwText (c : Codeword) (key : Option (BitVec 320)) (n : Nat) : List Byte :=
  match key with
  | none => cwPlain c
  | some m => Config.gcmText (phaseKey m 0) (gcmIv m 0 n) (cwPlain c)

/-! ## The lane (R348) -/

/-- `x` times the root of the field polynomial x^10 + x^3 + 1. -/
def gf10Double (x : Nat) : Nat := if 2 * x < 1024 then 2 * x else (2 * x) ^^^ 0x409

/-- The product of two symbols in GF(2^10). -/
def gf10Mul (x y : Nat) : Nat := (List.range 10).foldl (fun r i => gf10Double r ^^^ (if natBit (9 - i) y then x else 0)) 0

/-- A power of the root. -/
def gf10Pow (i : Nat) : Nat := (List.range i).foldl (fun r _ => gf10Double r) 1

/-- The generator polynomial (x − α^0) … (x − α^31), the highest coefficient first and left out. -/
def laneGen : List Nat :=
  ((List.range 32).foldl (fun g i => List.zipWith (· ^^^ ·) (g ++ [0]) (0 :: g.map (gf10Mul (gf10Pow i)))) [1]).drop 1

/-- The 32 parity symbols of data symbols, the first of which is the highest coefficient. -/
def laneParity (data : List Nat) : List Nat :=
  data.foldl (fun r d => List.zipWith (· ^^^ ·) (r.drop 1 ++ [0]) (laneGen.map (gf10Mul (d ^^^ r.headD 0)))) (List.replicate 32 0)

/-- `n` bits through the scrambler x^58 + x^39 + 1 in state `st`: each bit leaves as its sum with the bits that left 39 and 58 before
it. R348 gives the polynomial and the seed; that the scrambler is the self-synchronising one, and how SEQ fills it, are DESIGN CHOICES. -/
def scramble (x st i : Nat) : Nat → List Bool
  | 0 => []
  | n + 1 =>
    let b := natBit i x != (natBit 38 st != natBit 57 st)
    b :: scramble x ((2 * st + b.toNat) % 2 ^ 58) (i + 1) n

/-- Bits, ten to a symbol, the first the least significant. -/
def symbolsOf (l : List Bool) (n : Nat) : List Nat :=
  (List.range n).map (fun i => (List.range 10).foldl (fun r j => r + ((l.drop (10 * i + j)).headD false).toNat * 2 ^ j) 0)

/-- The 560 symbols of a codeword on its lane: 528 of header, check value and flits, scrambled from SEQ, and 32 of parity. The order of
bits within symbols and of symbols on the lane is stated nowhere (DESIGN CHOICE). -/
def cwSymbols (c : Codeword) (text : List Byte) : List Nat :=
  let data := symbolsOf (scramble (ofBytes (cwAad c ++ toBytes 8 c.icv.toNat ++ text)) c.seq.toNat 0 5280) 528
  data ++ laneParity data

/-! ## Transactions as flits (R350) -/

/-- The 64 bytes of a head flit (R350). -/
def headBits (h : Head) : Nat :=
  h.addr.toNat + identWord h.src * 2 ^ 64 + h.op.toNat * 2 ^ 96 + h.status.toNat * 2 ^ 104 + h.body % 2 ^ 16 * 2 ^ 112 + h.tid.toNat * 2 ^ 128
    + h.epoch.toNat * 2 ^ 160 + h.flags.toNat * 2 ^ 208 + h.msop.toNat * 2 ^ 216

/-- A transaction as flits: the head, then the body. -/
def txFlits (t : Tx) : List Flit :=
  let c := BitVec.ofNat 2 t.cls
  ⟨c, .head, BitVec.ofNat 512 (headBits t.head)⟩
    :: (List.range (flitsFor t.body.length)).map (fun i => ⟨c, .body, BitVec.ofNat 512 (ofBytes ((t.body.drop (64 * i)).take 64))⟩)

/-- Whether an operation is a request that its master waits for. -/
def isRequest (op : Nat) : Bool := decide (1 ≤ op ∧ op ≤ 5)

/-- Fields of a head flit: operation, body flits, transaction number. -/
def flitOp (f : Flit) : Nat := natBits 96 8 f.data.toNat
def flitBody (f : Flit) : Nat := natBits 112 16 f.data.toNat
def flitTid (f : Flit) : Nat := natBits 128 32 f.data.toNat

/-- The head of an empty note to a master, as it crosses links (R338). DESIGN CHOICE: R350 gives a note no operation and no layout; it
is one head flit, OP zero and no body, its value in TID and its addressee in EPOCH. -/
def noteHead (src m : Ident) (v : Dword) : Head :=
  ⟨BitVec.ofNat 64 (m.dev.toNat * 2 ^ 48), src, 0#8, 0#8, 0, BitVec.ofNat 32 v.toNat, BitVec.ofNat 48 (identWord m), 0#8, 0#8, true⟩

/-- The empty note that a flit of class 0 carries: its addressee and its value. -/
def flitNote (f : Flit) : Option (Ident × Dword) :=
  if f.kind == .head && f.cls == 0#2 && flitOp f == 0 && flitBody f == 0 then
    some (⟨BitVec.ofNat 14 (natBits 172 14 f.data.toNat), BitVec.ofNat 12 (natBits 160 12 f.data.toNat)⟩, BitVec.ofNat 64 (flitTid f))
  else none

/-- A transaction of the Keeper, by its source number and its address: from one, or addressed to one (R364). -/
def keeperTouches (num addr : Nat) : Bool :=
  masterOf num == .keeper || (match target (natBits 0 48 addr) with
    | .ksram _ => true
    | .reg .kp _ => true
    | _ => false)

/-- A transaction of the Keeper: from one, or addressed to this device's (R364). -/
def headKeeper (h : Head) : Bool := keeperTouches h.src.num.toNat h.addr.toNat

/-- A flit that an OPEN link carries, where `own` says whether the transaction of class 3 in progress is the Keeper's: such a
transaction's flits, DELAY_REQ and DELAY_RESP, and KEY_READY, which R364 has both ends send there. -/
def openAccepts (own : Bool) (f : Flit) : Bool :=
  match f.kind with
  | .idle => true
  | .head => f.cls == 3#2 && keeperTouches (natBits 64 12 f.data.toNat) (natBits 0 64 f.data.toNat)
  | .body => f.cls == 3#2 && own
  | .control => [1, 2, 7].contains (natBits 0 8 f.data.toNat)

/-- Flits in order, each with whether an OPEN link carries it, and whether the last transaction of class 3 is the Keeper's. -/
def openMarks (own : Bool) : List Flit → List (Flit × Bool) × Bool
  | [] => ([], own)
  | f :: t =>
    let ok := openAccepts own f
    let r := openMarks (if f.kind = .head ∧ f.cls = 3#2 then ok else own) t
    ((f, ok) :: r.1, r.2)

/-- Flits without the requests whose heads are among them, and those heads: `skip` counts the body flits still to drop. -/
def dropRequests (c : Nat) (skip : Nat) : List Flit → List Flit × List Flit
  | [] => ([], [])
  | f :: t =>
    if f.cls.toNat ≠ c then let r := dropRequests c skip t; (f :: r.1, r.2)
    else if f.kind = .head ∧ isRequest (flitOp f) then let r := dropRequests c (flitBody f) t; (r.1, f :: r.2)
    else if f.kind = .body ∧ 0 < skip then dropRequests c (skip - 1) t
    else let r := dropRequests c 0 t; (f :: r.1, r.2)

end Sys2Proof.Machine
end

