-- ==== Sys2Proof/Machine/Tile.lean ====
section
/-! DEFINITION. The tiller's queues: issue, the order of start, completion, faults, and the checks that every tile instruction shares (R135, R136, R170 to R179, R183, R189, R190). -/

namespace Sys2Proof

/-! ## Fields of tile words (R176, R180) -/

def TileWords.f0 (t : TileWords) (lo w : Nat) : Nat := natBits lo w t.w0.toNat

def TileWords.f1 (t : TileWords) (lo w : Nat) : Nat := natBits lo w t.w1.toNat

def TileWords.f2 (t : TileWords) (lo w : Nat) : Nat := natBits lo w t.w2.toNat

def TileWords.f3 (t : TileWords) (lo w : Nat) : Nat := natBits lo w t.w3.toNat

/-- The class of a tile instruction (R175). -/
def TileWords.cls (t : TileWords) : Nat := t.f0 26 6

/-- WAITM (R176). -/
def TileWords.waitm (t : TileWords) : Nat := t.f3 24 8

/-- The words with word 0 bits `[lo + w - 1 : lo]` replaced. -/
def TileWords.put0 (t : TileWords) (lo w v : Nat) : TileWords := { t with w0 := BitVec.ofNat 32 (natPut lo w t.w0.toNat v) }

/-- The largest M, N and K of a GEMM's word 1 (R180). -/
def TileWords.mMax (t : TileWords) : Nat := t.f1 0 8 + 1

def TileWords.nMax (t : TileWords) : Nat := t.f1 8 7 + 1

def TileWords.kMax (t : TileWords) : Nat := (t.f1 15 6 + 1) * 32

def TileWords.dyn (t : TileWords) : Bool := natBit 21 t.w1.toNat

/-- Whether a GEMM or SOUND works in backward layout (R150, R180). -/
def TileWords.backward (t : TileWords) : Bool := t.f0 24 2 != 0 || natBit 23 t.w0.toNat

end Sys2Proof

namespace Sys2Proof.Machine

/-! ## Scalar registers (R172) -/

/-- g[r]; g0 reads zero. -/
def Core.rg (k : Core) (r : Nat) : Nat := if r = 0 then 0 else (k.g.getD r 0#64).toNat

/-- g[r] written; a write of g0 is discarded. -/
def Core.wg (k : Core) (r v : Nat) : Core := if r = 0 then k else { k with g := k.g.set r (BitVec.ofNat 64 v) }

/-- A register as a queued instruction latched it. -/
def QEntry.rg (e : QEntry) (r : Nat) : Nat := if r = 0 then 0 else (e.g.getD r 0#64).toNat

/-- The state with core `c` changed by a function. -/
def State.modCore (s : State) (c : Nat) (f : Core → Core) : State := s.setCore c (f (s.core c))

/-! ## Queues (R135): 0 F, 1 Bd, 2 Bw, 3 CV, 4 VU, 5 DMA0, 6 DMA1, 7 MBX -/

/-- Entries of queue `q`. -/
def Core.inQ (k : Core) (q : Nat) : List QEntry := k.queue.filter (fun e => e.q == q)

/-- Whether every queue of a mask is empty. -/
def Core.emptyQs (k : Core) (mask : Nat) : Bool := k.queue.all (fun e => !natBit e.q mask)

/-- CO_QDEPTH and CO_UNIT_BUSY follow the queues (R169, R212). -/
def State.syncQueues (s : State) (c : Nat) : State :=
  let k := s.core c
  let depth := (List.range 8).foldl (fun r q => r + (k.inQ q).length * 16 ^ q) 0
  let run := fun q => (k.inQ q).filter (fun e => e.started)
  let busy := ((run 0).length != 0).toNat + ((run 1).length != 0).toNat * 2 + ((run 2).length != 0).toNat * 4
    + ((run 3).any (fun e => !e.second)).toNat * 8 + ((run 3).any (fun e => e.second)).toNat * 16 + ((run 4).length != 0).toNat * 32
  (s.wr (CO_QDEPTH c) depth).wr (CO_UNIT_BUSY c) busy

/-- The last completed status of queue `q` (R212). -/
def State.lastSt (s : State) (c q : Nat) : Nat :=
  if q < 4 then s.rf (CO_LASTST_0 c) (CO_LASTST_0_ST q) else s.rf (CO_LASTST_1 c) (CO_LASTST_1_ST (q - 4))

def State.setLastSt (s : State) (c q st : Nat) : State :=
  if q < 4 then s.wf (CO_LASTST_0 c) (CO_LASTST_0_ST q) st else s.wf (CO_LASTST_1 c) (CO_LASTST_1_ST (q - 4)) st

/-- The tiller of a core may issue: it is running and waits for nothing (R173). -/
def State.canIssue (s : State) (c : Nat) : Bool := s.tstate c == 1 && (s.core c).stall == .none

/-! ## Faults (R179, R203) -/

/-- A fault status reaches the tiller: from queue `q`, or from the tiller itself. Only the first of a pound is
recorded. STATE of a tiller that an EMPTY lock stopped stays IDLE until the next pound (R267). -/
def State.tillerFault (s : State) (c : Nat) (q : Option Nat) (pc st : Nat) : State :=
  let k := s.core c
  let keep := fun e : QEntry => e.started || (match q with
    | some n => e.q != n
    | none => true)
  let s := (s.setCore c { k with stall := .none, queue := k.queue.filter keep, faultSeen := true }).syncQueues c
  let s := if s.tstate c = 0 then s else s.wf (CO_TSTATUS c) CO_TSTATUS_STATE 3
  if k.faultSeen then s
  else
    let s := s.wf (CO_TSTATUS c) CO_TSTATUS_FAULT st
    let s := s.wf (CO_TSTATUS c) CO_TSTATUS_FAULT_Q (q.getD 0)
    let s := s.wb (CO_TSTATUS c) CO_TSTATUS_FAULT_T q.isNone
    let s := s.wf (CO_FAULT_PC c) CO_FAULT_PC_PC pc
    (s.veto 1).post 0x01 st (s.src c) (pc % 2 ^ 25 + (q.getD 0) * 2 ^ 32 + q.isNone.toNat * 2 ^ 35)

/-- The tiller of `c` stops itself with a fault at its program counter. -/
def State.selfFault (s : State) (c st : Nat) : State := s.tillerFault c none (s.core c).pc st

/-! ## Starts and completions (R135, R136, R176, R177) -/

/-- What an instruction reads and writes of the core's private state (R136): ranges as (first, length). -/
structure Foot where
  accR : List (Nat × Nat)
  accW : List (Nat × Nat)
  srfR : List (Nat × Nat)
  srfW : List (Nat × Nat)
  sr : Option Nat
  stat : Option Nat
  deriving DecidableEq, Repr

def Foot.none : Foot := ⟨[], [], [], [], .none, .none⟩

/-- Whether two lists of ranges meet. -/
def meets (a b : List (Nat × Nat)) : Bool :=
  a.any (fun x => b.any (fun y => decide (x.1 < y.1 + y.2) && decide (y.1 < x.1 + x.2)))

/-- Whether a later instruction must wait for an earlier one (R136, R157, R166). -/
def Foot.waitsFor (later earlier : Foot) : Bool :=
  meets later.accR earlier.accW || meets later.accW earlier.accW || meets later.accW earlier.accR
  || meets later.srfR earlier.srfW || meets later.srfW earlier.srfW || meets later.srfW earlier.srfR
  || (later.sr.isSome && later.sr == earlier.sr) || (later.stat.isSome && later.stat == earlier.stat)

/-- The entries of a region of `rows` rows (R150). -/
def regionLen (backward : Bool) (rows : Nat) : Nat := if backward then 32 * rows else 128 * rows

/-- The private state an instruction touches (R136). -/
def footOf (t : TileWords) : Foot :=
  let all := [(0, 32768)]
  if t.cls = 0x30 ∨ t.cls = 0x35 then
    let r := if natBit 19 t.w0.toNat then all else [(t.f2 0 15, regionLen t.backward t.mMax)]
    if t.cls = 0x30 then { Foot.none with accR := r, accW := r } else { Foot.none with accR := r }
  else if t.cls = 0x31 then
    { Foot.none with
      accR := [(t.f2 0 15, regionLen (natBit 25 t.w0.toNat) t.mMax)],
      srfR := [(t.f3 0 13, if natBit 24 t.w0.toNat then 2 * t.nMax else 2)],
      srfW := [(t.f3 0 13, if natBit 24 t.w0.toNat then 2 * t.nMax else 2)],
      sr := if natBit 22 t.w0.toNat then some (t.f0 17 3) else .none,
      stat := some (t.f0 5 6) }
  else if t.cls = 0x32 then
    let vop := t.f0 18 8
    let sr := if t.f0 12 3 = 5 then some (t.f0 8 3) else .none
    if vop = 0x23 then { Foot.none with srfR := [(2 * t.f2 6 13, 2)], srfW := [(2 * t.f2 6 13, 2)], sr := sr, stat := some (t.f3 0 6) }
    else if vop = 0x28 then { Foot.none with srfW := [(t.f2 0 13, 64 * (t.f1 25 5 + 1))], sr := sr }
    else { Foot.none with sr := sr }
  else if t.cls = 0x33 then
    let kind := t.f0 23 3
    let n := t.f1 0 16
    let en := t.f2 0 15
    if kind = 0 then { Foot.none with accR := [(en, n * (if natBit 22 t.w0.toNat then 16 else 32))] }
    else if kind = 1 then { Foot.none with accW := [(en, n * 16)] }
    else if kind = 3 then { Foot.none with srfW := [(en, n)] }
    else if kind = 4 then { Foot.none with srfR := [(en, n)] }
    else if kind = 5 then { Foot.none with accW := [(en, regionLen (natBit 22 t.w0.toNat) n)] }
    else Foot.none
  else Foot.none

/-- How many instructions of a queue may execute at once: two converters serve the CV queue (R135). -/
def queueWidth (q : Nat) : Nat := if q = 3 then 2 else 1

/-- Whether every earlier-issued instruction on the queues of a mask has completed (R176). -/
def Core.waitmOk (k : Core) (seq mask : Nat) : Bool :=
  k.queue.all (fun e => !(decide (e.seq < seq) && natBit e.q mask))

/-- Whether a queued instruction may start, but for the records a SOUND reads (R135, R136, R176). -/
def Core.canStart (k : Core) (e : QEntry) : Bool :=
  !e.started && decide (e.q < 5)
  && (k.inQ e.q).all (fun x => decide (e.seq ≤ x.seq) || x.started)
  && decide (((k.inQ e.q).filter (fun x => x.started)).length < queueWidth e.q)
  && k.waitmOk e.seq e.words.waitm
  && k.queue.all (fun x => !(decide (x.seq < e.seq) && (footOf e.words).waitsFor (footOf x.words)))

/-- The queue with one instruction started, with the status it will return; on the second converter where `conv` says so. -/
def startQ (seq st : Nat) (conv : Bool) : List QEntry → List QEntry
  | [] => []
  | e :: t => if e.seq = seq then { e with started := true, status := st, second := conv } :: t else e :: startQ seq st conv t

/-- Converter 0 is executing: a CONVERT that starts takes converter 1 (R135). -/
def Core.cv0Busy (k : Core) : Bool := (k.inQ 3).any (fun x => x.started && !x.second)

/-- The queue of an instruction by its class (R175, R180): none for CLAIM and FENCE. -/
def queueOf (t : TileWords) : Nat :=
  if t.cls = 0x30 then (if t.f0 24 2 = 3 then 0 else t.f0 24 2) else if t.cls = 0x31 then 3 else 4

/-! ## Checks of basin operands (R178, R183) -/

/-- Whether every byte of `[a, a + n)` lies in basins of the compute die of core `c` that are present. -/
def State.ownDie (s : State) (c a n : Nat) : Bool :=
  let lo := c / 64 * 64 * basinSize
  decide (n = 0) || (decide (lo ≤ a) && decide (a + n ≤ lo + 64 * basinSize)
    && s.present (a / basinSize) && s.present ((a + n - 1) / basinSize))

/-- The status of an own-die range that a unit is about to use: absorbed in a reset, or OK. -/
def State.basinReach (s : State) (a n : Nat) : Nat :=
  if n = 0 then stOK
  else if s.coreUp (a / basinSize) && s.coreUp ((a + n - 1) / basinSize) then stOK else stTARGET_RESET

/-- A unit of core `c` reads `n` bytes of its die's basins: OK, TARGET_RESET or ECC_UNCORR (R277, R482). -/
def State.unitRd (s : State) (a n : Nat) : Nat × State :=
  if s.basinReach a n ≠ stOK then (stTARGET_RESET, s)
  else
    let (st, s) := s.basinRd a n
    (st, if st = stECC_UNCORR ∧ s.running then s.uncorrectable else s)

/-- A unit of core `c` writes bytes to its die's basins. -/
def State.unitWr (s : State) (a : Nat) (bs : List Byte) : Nat × State :=
  if s.basinReach a bs.length ≠ stOK then (stTARGET_RESET, s)
  else
    let (st, s) := s.basinWr a bs
    (st, if st = stECC_UNCORR ∧ s.running then s.uncorrectable else s)

/-! ## Run-time shapes (R189, R190) -/

/-- The eight entries of one set of a bucket table at basin offset `off` of core `c`. -/
def State.bucketSet (s : State) (c off : Nat) : List Nat := (List.range 8).map (fun i => s.load (c * basinSize + off + 2 * i) 2)

/-- The non-zero entries of a set. -/
def setUsed (l : List Nat) : List Nat := l.takeWhile (fun x => x != 0)

/-- Strictly rising. -/
def rising : List Nat → Bool
  | a :: b :: t => decide (a < b) && rising (b :: t)
  | _ => true

/-- Whether a set obeys R189 for a largest value. -/
def setOk (l : List Nat) (top : Nat) : Bool :=
  (l.dropWhile (fun x => x != 0)).all (fun x => x == 0) && rising (setUsed l) && (setUsed l).getLast? == some top

/-- What selecting a bucket gives. -/
inductive Sel where
  | zero
  | ovr
  | at_ (b : Nat)
  deriving DecidableEq, Repr

/-- select of R190. -/
def selectBucket (v : Nat) (l : List Nat) : Sel :=
  if v = 0 then .zero else match (setUsed l).find? (fun b => decide (v ≤ b)) with
    | some b => .at_ b
    | none => .ovr

/-- The bucket table of an instruction: its address in the core's basin (R189). -/
def State.btabAt (s : State) (c : Nat) (t : TileWords) : Nat := s.rf (CO_BTAB c) CO_BTAB_OFFSET + 64 * t.f1 27 5

/-- Whether an instruction's bucket table is well formed (R189); a CONVERT reads M and N alone (R193). -/
def State.btabOk (s : State) (c : Nat) (t : TileWords) (useK : Bool) : Bool :=
  let b := s.btabAt c t
  setOk (s.bucketSet c b) t.mMax && setOk (s.bucketSet c (b + 16)) t.nMax
  && (!useK || (setOk (s.bucketSet c (b + 32)) t.kMax && (setUsed (s.bucketSet c (b + 32))).all (fun x => x % 32 == 0)
    && (List.range 16).all (fun i => s.byte (c * basinSize + b + 48 + i) == 0#8)))

/-- The run-time shape (m, n, k) of an instruction (R190). -/
def QEntry.shape (e : QEntry) (t : TileWords) : Nat × Nat × Nat :=
  if t.dyn then
    let v := e.rg (t.f1 22 5)
    (natBits 0 16 v, natBits 16 16 v, natBits 32 16 v)
  else (t.mMax, t.nMax, t.kMax)

/-- SHAPE_OVER, OK_EMPTY or OK by the buckets (R190). -/
def State.shapeStatus (s : State) (c : Nat) (e : QEntry) (t : TileWords) (useK : Bool) : Nat :=
  if !t.dyn then stOK
  else
    let b := s.btabAt c t
    let (m, n, k) := e.shape t
    let sel := [selectBucket m (s.bucketSet c b), selectBucket n (s.bucketSet c (b + 16))]
      ++ (if useK then [selectBucket k (s.bucketSet c (b + 32))] else [])
    if sel.contains .ovr then stSHAPE_OVER else if sel.contains .zero then stOK_EMPTY else stOK

end Sys2Proof.Machine
end

