-- ==== Sys2Proof/Machine/Gemm.lean ====
section
/-! DEFINITION. The arrays and the accumulator buffer: forward, backward and heritage GEMM, pointer lists, region keys (R138 to R152, R167, R168, R180 to R192). -/

namespace Sys2Proof.Machine

/-! ## Accumulator entries (R142, R150, R151) -/

/-- A forward entry: FRAME and the 119-bit integer N. -/
structure FEntry where
  frame : Nat
  n : Int
  deriving DecidableEq, Repr

def frCLEAR : Nat := 509
def frNONFIN : Nat := 510
def frOVER : Nat := 511

/-- The fields of a forward entry (R142). -/
def fentry (x : BitVec 128) : FEntry := ⟨natBits 119 9 x.toNat, sext 119 x.toNat⟩

/-- A forward entry as its 128 bits. -/
def FEntry.bits (e : FEntry) : BitVec 128 := BitVec.ofNat 128 ((e.n % (2 ^ 119 : Nat)).toNat + e.frame * 2 ^ 119)

/-- The cleared state of an entry (R151). -/
def clearedEntry (backward : Bool) : BitVec 128 := if backward then 0#128 else FEntry.bits ⟨frCLEAR, 0⟩

/-- Entry `i` of a buffer. -/
def accGet (a : Sparse (BitVec 128)) (i : Nat) : BitVec 128 := spGet 0#128 a i
def accPut (a : Sparse (BitVec 128)) (i : Nat) (v : BitVec 128) : Sparse (BitVec 128) := spPut 0#128 a i v

/-- The entries of a range put to one value, but for those in ranges already dealt with (R188). -/
def accFill (v : BitVec 128) (lo n : Nat) (but : List (Nat × Nat)) (a : Sparse (BitVec 128)) : Sparse (BitVec 128) :=
  (List.range n).foldl (fun a i => if meets [(lo + i, 1)] but then a else accPut a (lo + i) v) a

/-- The FP32 value (i, j) of a backward region at `base` (R150). -/
def accB (a : Sparse (BitVec 128)) (base i j : Nat) : Nat := natBits (32 * (j % 4)) 32 (accGet a (base + 32 * i + j / 4)).toNat
def accBPut (a : Sparse (BitVec 128)) (base i j v : Nat) : Sparse (BitVec 128) :=
  accPut a (base + 32 * i + j / 4) (BitVec.ofNat 128 (natPut (32 * (j % 4)) 32 (accGet a (base + 32 * i + j / 4)).toNat v))

/-- A forward entry as a value (R142, R152). -/
inductive AccVal where
  | val (x : FV)
  | ovr (neg : Bool)
  deriving DecidableEq, Repr

def FEntry.value (e : FEntry) : AccVal :=
  if e.frame = frCLEAR then .val (.fin ⟨false, 0, 0⟩)
  else if e.frame = frNONFIN then .val (.nan false true 0)
  else if e.frame = frOVER then .ovr (decide (e.n < 0))
  else .val (.fin (Dy.ofInt false e.n ((e.frame : Int) - 316)))

/-! ## Promotion (R143) -/

/-- What a GEMM gathers as it runs: the buffer, counts, and the first clamp and the first non-finite value under
TRAP, by address. -/
structure Run where
  acc : Sparse (BitVec 128)
  reframes : Nat
  overs : Nat
  clamped : Bool
  nonfinite : Bool
  first : Option Nat
  deriving DecidableEq, Repr

/-- The first address at which a value was clamped or met a non-finite input (R128). -/
def Run.note (r : Run) (addr : Nat) : Run := { r with first := some (r.first.getD addr) }

/-- One group sum promoted into entry `i` (R143); `marked` is the first barge that gives it a non-finite element, if one does, and `addr`
its barge of A, which the trap event names when the entry becomes OVER (DESIGN CHOICE: R128 names the barge that was clamped, and here
an accumulator is). -/
def Run.promote (r : Run) (i : Nat) (g beta : Int) (marked : Option Nat) (addr : Nat) : Run :=
  let e := fentry (accGet r.acc i)
  let r := match marked with
    | some a => { r with nonfinite := true }.note a
    | none => r
  if e.frame = frNONFIN then r
  else if marked.isSome then { r with acc := accPut r.acc i (FEntry.bits ⟨frNONFIN, 0⟩) }
  else if e.frame = frOVER then r
  else
    let f0 : Int := if e.frame = frCLEAR then beta else (e.frame : Int) - 254
    let down := decide (beta < f0)
    let f := if down then beta else f0
    let n := (if down then e.n * 2 ^ (f0 - beta).toNat else e.n) + g * 2 ^ (beta - f).toNat
    let r := if down then { r with reframes := r.reframes + 1 } else r
    if n < -(2 ^ 118 : Nat) ∨ (2 ^ 118 : Nat) - 1 < n then
      { r with acc := accPut r.acc i (FEntry.bits ⟨frOVER, if n < 0 then -(2 ^ 118 : Nat) else (2 ^ 118 : Nat) - 1⟩),
               overs := r.overs + 1, clamped := true }.note addr
    else { r with acc := accPut r.acc i (FEntry.bits ⟨(f + 254).toNat, n⟩) }

/-! ## Operands (R181, R182) -/

/-- An operand: base, kind (R181), and the largest K, on which it is laid out. -/
structure Opnd where
  base : Nat
  kind : Nat
  kMax : Nat
  deriving DecidableEq, Repr

/-- Elements per barge of a kind (R181). -/
def kindW (kind : Nat) : Nat := if kind = 1 then 128 else if kind = 2 then 256 else 64

def isBargeKind (kind : Nat) : Bool := decide (1 ≤ kind ∧ kind ≤ 3)

/-- Whether a format stands in the row of a kind (R181). -/
def inKind (kind fmt : Nat) : Bool :=
  if kind = 1 then fmt == 1 || fmt == 2 else if kind = 2 then fmt == 3 else decide (4 ≤ fmt ∧ fmt ≤ 6)

/-- Barges per run: ceil(Kmax / W). -/
def Opnd.bpr (o : Opnd) : Nat := ceilDiv o.kMax (kindW o.kind)

/-- The bytes an operand of `rows` runs occupies, whole groups of barges (R114, R182). -/
def Opnd.size (o : Opnd) (rows : Nat) : Nat :=
  if isBargeKind o.kind then 576 * ceilDiv (rows * o.bpr) 8 else rows * o.kMax * plainSize o.kind

/-- The alignment of an operand's base (R94, R115). -/
def Opnd.alignment (o : Opnd) : Nat := if isBargeKind o.kind then 64 else plainSize o.kind

/-- The barge that holds value `k` of run `i`. -/
def Opnd.bargeIx (o : Opnd) (i k : Nat) : Nat := i * o.bpr + k / kindW o.kind

/-- The address that an event names for value `k` of run `i`: its barge, or its plain element. -/
def Opnd.addr (o : Opnd) (i k : Nat) : Nat :=
  if isBargeKind o.kind then bargePayload o.base (o.bargeIx i k) else o.base + (i * o.kMax + k) * plainSize o.kind

/-- Value `k` of run `i`, with every scale applied. -/
def State.opVal (s : State) (o : Opnd) (i k : Nat) : FV :=
  if isBargeKind o.kind then (s.barge o.base (o.bargeIx i k)).value (k % kindW o.kind)
  else s.plain o.kind (o.base + (i * o.kMax + k) * plainSize o.kind)

/-- The barge indexes that runs 0 to `rows - 1` read for a run-time K of `k` (R191). -/
def Opnd.read (o : Opnd) (rows k : Nat) : List Nat :=
  (List.range rows).flatMap (fun i => (List.range (ceilDiv k (kindW o.kind))).map (fun b => i * o.bpr + b))

/-- The checks of one barge on decode: reach and ECC, CRC, format, epoch (R111, R112, R184, R277), its reserved
codes counted (R98). `fmts` are the formats the consumer accepts. -/
def State.checkBarge (s : State) (c : Nat) (a i : Nat) (accepts : Nat → Bool) (echk : Bool) : Nat × State :=
  let (st1, s) := s.unitRd (bargePayload a i) 64
  let (st2, s) := s.unitRd (bargeSide a i) 8
  let st := stWorst st1 st2
  if st ≠ stOK then (st, s)
  else
    let b := s.barge a i
    let src := s.src c
    let fail := fun (s : State) (d : Nat) =>
      (stINTEGRITY_FAIL, (if s.running then s.uncorrectable else s).post 0x04 stINTEGRITY_FAIL src d)
    if b.crc ≠ b.goodCrc then fail s (bargePayload a i)
    else if echk && b.epoch != s.epochW % 256 then fail s (bargePayload a i + 2 ^ 63)
    else if !b.invalid && !accepts b.fmt then (stBAD_OPCODE, s)
    else if b.reservedTt2 then (stOK, (s.bump (CO_CNT_RESERVED c) 1).post 0x06 stOK src (bargePayload a i))
    else (stOK, s)

/-- The checks of the barges of an operand; the highest-ranked status stands (R129). Every barge of both operands is looked at, those
after a failing one too, and each that fails posts its event (DESIGN CHOICE: R111 stops the instruction and does not say when its
decoding ends). -/
def State.checkBarges (s : State) (c a : Nat) (accepts : Nat → Bool) (echk : Bool) (ix : List Nat) : Nat × State :=
  ix.foldl (fun r i =>
    let (st, s) := r.2.checkBarge c a i accepts echk
    (if st = stOK then r.1 else stWorst r.1 st, s)) (stOK, s)

/-- The checks of an operand as it is read: barges, or the ECC of plain elements. -/
def State.checkOpnd (s : State) (c : Nat) (o : Opnd) (rows k : Nat) (accepts : Nat → Bool) (echk : Bool) : Nat × State :=
  if isBargeKind o.kind then s.checkBarges c o.base accepts echk (o.read rows k)
  else
    (List.range rows).foldl (fun r i =>
      let (st, s) := r.2.unitRd (o.base + i * o.kMax * plainSize o.kind) (k * plainSize o.kind)
      (if st = stOK then r.1 else stWorst r.1 st, s)) (stOK, s)

/-! ## Forward tiles (R138 to R145) -/

/-- The 32 products of group `g` of output (i, j), in units of 2^-62, masked at `k`; and the first barge with a non-finite element that
feeds it: in ascending K, A's before B's (R120, R128, R140, R191). -/
def State.groupSum (s : State) (a b : Opnd) (i j g k : Nat) : Int × Option Nat :=
  let ba := s.barge a.base (a.bargeIx i (32 * g))
  let bb := s.barge b.base (b.bargeIx j (32 * g))
  (List.range 32).foldl (fun r t =>
    let kk := 32 * g + t
    if k ≤ kk then r
    else
      let x := if ba.invalid then FV.nan false true 0 else ba.elem (kk % kindW a.kind)
      let y := if bb.invalid then FV.nan false true 0 else bb.elem (kk % kindW b.kind)
      match x, y with
      | .fin x, .fin y => (r.1 + x.at_ (-31) * y.at_ (-31), r.2)
      | .fin _, _ => (r.1, some (r.2.getD (b.addr j kk)))
      | _, _ => (r.1, some (r.2.getD (a.addr i kk)))) (0, none)

/-- The block exponent sum of a group (R138). -/
def State.beta (s : State) (a b : Opnd) (i j g : Nat) : Int :=
  ((s.barge a.base (a.bargeIx i (32 * g))).bscale : Int) - 127 + ((s.barge b.base (b.bargeIx j (32 * g))).bscale : Int) - 127

/-- A forward tile: groups in ascending K, and rows in ascending order within a group of B (R145). -/
def State.forwardTile (s : State) (a b : Opnd) (base m n k : Nat) (r : Run) : Run :=
  (List.range (ceilDiv k 32)).foldl (fun r g =>
    (List.range m).foldl (fun r i =>
      (List.range n).foldl (fun r j =>
        let (v, marked) := s.groupSum a b i j g k
        r.promote (base + 128 * i + j) v (s.beta a b i j g) marked (a.addr i (32 * g))) r) r) r

/-! ## Backward tiles (R146 to R149) -/

/-- The product of two decoded operands (R146, R149). -/
def fvMul (x y : FV) : FV :=
  match x, y with
  | .fin a, .fin b => .fin (a.mul b)
  | .inf a, .inf b => .inf (a != b)
  | .inf a, .fin b => if b.m = 0 then .nan false true 0 else .inf (a != b.neg)
  | .fin a, .inf b => if a.m = 0 then .nan false true 0 else .inf (a.neg != b)
  | _, _ => .nan false true 0

/-- The non-finite sum of a group, if it has one (R149). -/
def groupSpecial (ps : List FV) : Option FV :=
  if ps.any FV.isNan || (ps.contains (.inf false) && ps.contains (.inf true)) then some (.nan false true 0)
  else if ps.contains (.inf false) then some (.inf false)
  else if ps.contains (.inf true) then some (.inf true)
  else none

/-- The finite products of a group. -/
def finProducts (ps : List FV) : List Dy := ps.filterMap (fun p => match p with
  | .fin x => some x
  | _ => none)

/-- The exact sum of values. -/
def dySum (xs : List Dy) : Dy :=
  let neg := xs.all (fun x => x.m == 0 && x.neg)
  let r := xs.foldl (fun r x => Dy.add false r x) ⟨xs.all (fun x => x.neg), 0, 0⟩
  if r.m = 0 then { r with neg := neg } else r

/-- A group of 16: the exact sum rounded once to a multiple of 2^(T - 34) (R147). -/
def group16 (ps : List FV) : FV :=
  match groupSpecial ps with
  | some x => x
  | none =>
    let xs := finProducts ps
    let s := dySum xs
    match (xs.filter (fun x => x.m != 0)).map (fun x => x.e + 21) with
    | [] => .fin s
    | t :: ts =>
      let q := ts.foldl max t - 34
      let n := (roundUnits .tiesEven s.neg s.m s.e q false).1
      if s.m = 0 then .fin s else .fin ⟨s.neg && n != 0, n, q⟩

/-- acc + g rounded once to FP32, overflow by mode: the pattern, and whether it was clamped (R148, R149). -/
def promote32 (sat acc : Nat) (g : FV) : Nat × Bool :=
  let x := fp32F.decode acc
  if x.isNan || g.isNan then (0x7FC00000, false)
  else
    let r := fp32F.add .tiesEven x g
    if natBit 0 r.2 then (0x7FC00000, false)
    else if natBit 2 r.2 then
      (if sat = 1 then (r.1, false) else (fp32F.maxP (natBit 31 r.1), true))
    else (r.1, false)

/-- Decoded operands `k` of run `i` for a B-array; masked ones are +0. -/
def State.backOp (s : State) (o : Opnd) (sat i kk k : Nat) : FV × Bool :=
  if k ≤ kk then (.fin ⟨false, 0, 0⟩, false) else toBackward sat (s.opVal o i kk)

/-- One group of 16 of output (i, j), with the clamps and non-finite operands it meets; the trap event names A's barge or element of the
group when the accumulator overflows (DESIGN CHOICE: R128 names what was clamped, and here an accumulator is). -/
def State.backGroup (s : State) (a b : Opnd) (sat base i j g k : Nat) (r : Run) : Run :=
  let ks := (List.range 16).map (fun t => 16 * g + t)
  let r := ks.foldl (fun r kk =>
    let x := s.backOp a sat i kk k
    let y := s.backOp b sat j kk k
    let bad := fun v : FV => match v with
      | .fin _ => false
      | _ => true
    let r := if x.2 then { r with clamped := true }.note (a.addr i kk) else r
    let r := if y.2 then { r with clamped := true }.note (b.addr j kk) else r
    let r := if bad x.1 then { r with nonfinite := true }.note (a.addr i kk) else r
    if bad y.1 then { r with nonfinite := true }.note (b.addr j kk) else r) r
  let g' := group16 (ks.map (fun kk => fvMul (s.backOp a sat i kk k).1 (s.backOp b sat j kk k).1))
  let p := promote32 sat (accB r.acc base i j) g'
  let r := { r with acc := accBPut r.acc base i j p.1 }
  if p.2 then { r with clamped := true }.note (a.addr i (16 * g)) else r

def State.backTile (s : State) (a b : Opnd) (sat base m n k : Nat) (r : Run) : Run :=
  (List.range (ceilDiv k 16)).foldl (fun r g =>
    (List.range m).foldl (fun r i => (List.range n).foldl (fun r j => s.backGroup a b sat base i j g k r) r) r) r

/-! ## Heritage tiles (R167, R168) -/

/-- A pattern rounded to FP32 with subnormals flushed and overflow by mode. -/
def flush32 (sat : Nat) (x : FV) : Nat × Bool :=
  match x with
  | .nan _ _ _ => (0x7FC00000, false)
  | .inf neg => (fp32F.infP neg, false)
  | .fin y =>
    let r := fp32F.round .tiesEven y false
    if natBit 2 r.2 then (if sat = 1 then (r.1, false) else (fp32F.maxP y.neg, true))
    else if natBits 23 8 r.1 = 0 then (fp32F.sign y.neg, false)
    else (r.1, false)

/-- One group of 8 of output (i, j). -/
def State.heritageGroup (s : State) (a b : Opnd) (sat base i j g k : Nat) (r : Run) : Run :=
  let ks := (List.range 8).map (fun t => 8 * g + t)
  let val := fun (o : Opnd) (i kk : Nat) => if k ≤ kk then FV.fin ⟨false, 0, 0⟩ else s.opVal o i kk
  let bad := fun v : FV => match v with
    | .fin _ => false
    | _ => true
  let r := ks.foldl (fun r kk =>
    let r := if bad (val a i kk) then { r with nonfinite := true }.note (a.addr i kk) else r
    if bad (val b j kk) then { r with nonfinite := true }.note (b.addr j kk) else r) r
  let ps := ks.map (fun kk => fvMul (val a i kk) (val b j kk))
  let t := flush32 sat (match groupSpecial ps with
    | some x => x
    | none => .fin (dySum (finProducts ps)))
  let p := promote32 sat (accB r.acc base i j) (fp32F.decode t.1)
  let v := if natBits 23 8 p.1 = 0 then fp32F.sign (natBit 31 p.1) else p.1
  let r := { r with acc := accBPut r.acc base i j v }
  if t.2 || p.2 then { r with clamped := true }.note (a.addr i (8 * g)) else r

def State.heritageTile (s : State) (a b : Opnd) (sat base m n k : Nat) (r : Run) : Run :=
  (List.range (ceilDiv k 8)).foldl (fun r g =>
    (List.range m).foldl (fun r i => (List.range n).foldl (fun r j => s.heritageGroup a b sat base i j g k r) r) r) r

/-! ## One tile: checks and work (R178, R180 to R191) -/

/-- Whether a unit accepts an operand kind (R168, R181). -/
def kindOk (unit : Nat) (her : Bool) (kind : Nat) : Bool :=
  if unit = 0 then (if her then kind == 3 else decide (1 ≤ kind ∧ kind ≤ 3))
  else kind == 3 || kind == 8 || kind == 9 || (kind == 10 && !her)

/-- Whether a unit accepts the format of a barge (R93, R112, R181). -/
def fmtOk (unit kind fmt : Nat) : Bool := inKind kind fmt && (unit == 0 || fmt == 5)

/-- The encoding checks of a GEMM or SOUND: reserved fields, kinds, saturation mode (R176, R180, R181, R124). -/
def gemmEncOk (t : TileWords) : Bool :=
  t.f0 24 2 != 3 && t.f0 20 2 != 3 && t.f0 16 2 == 0 && t.f0 0 1 == 0 && t.f3 16 8 == 0
  && decide (t.f2 15 9 ≤ 255) && (!natBit 19 t.w0.toNat || t.f0 6 5 == 0)
  && kindOk (t.f0 24 2) (natBit 23 t.w0.toNat) (t.f2 24 4) && kindOk (t.f0 24 2) (natBit 23 t.w0.toNat) (t.f2 28 4)

/-- Whether a key's binding, if any, agrees with a use (R185). -/
def Core.keyOk (k : Core) (key : Nat) (b : KeyBind) (zero : Bool) : Bool :=
  key == 0 || (match spGet (⟨false, 0, 0, 0⟩ : KeyBind) k.keys key with
    | old => old.m == 0 || (old == b && !zero))

/-- The key bound (R185). -/
def Core.bindKey (k : Core) (key : Nat) (b : KeyBind) : Core :=
  if key = 0 then k else { k with keys := spPut ⟨false, 0, 0, 0⟩ k.keys key b }

/-- The bucket table of an instruction lies outside the core's basin. -/
def State.btabOut (s : State) (c : Nat) (t : TileWords) : Bool := t.dyn && decide (basinSize < s.btabAt c t + 64)

/-- Alignment and bounds of the bucket table, the operands and the region of one tile (R94, R115, R150, R178, R183). -/
def State.tileBounds (s : State) (c : Nat) (t : TileWords) (a b : Opnd) (cbase : Nat) : Nat :=
  if a.base % a.alignment ≠ 0 ∨ b.base % b.alignment ≠ 0 ∨ cbase % (if t.backward then 32 else 128) ≠ 0 then stALIGN_FAULT
  else if s.btabOut c t || !s.ownDie c a.base (a.size t.mMax) || !s.ownDie c b.base (b.size t.nMax)
      || decide (32768 < cbase + regionLen t.backward t.mMax) then stBOUNDS_FAULT
  else stOK

/-- Free values in the entries of a stopped tile's output rows (R113). -/
def State.loseRows (s : State) (c base n : Nat) : State :=
  let s' := s.modCore c (fun k => { k with acc := (List.range n).foldl (fun a i =>
    accPut a (base + i) (BitVec.ofNat 128 (Config.freeBits (s.free + i)))) k.acc })
  { s' with free := s.free + n }

/-- The run-time shape (m, n, k), and the selected buckets (R190). -/
def State.selected (s : State) (c : Nat) (e : QEntry) (t : TileWords) : (Nat × Nat × Nat) × (Nat × Nat × Nat) :=
  let sh := e.shape t
  if !t.dyn then (sh, sh)
  else
    let b := s.btabAt c t
    let pick := fun v off => match selectBucket v (s.bucketSet c (b + off)) with
      | .at_ x => x
      | _ => 0
    (sh, (pick sh.1 0, pick sh.2.1 16, pick sh.2.2 32))

/-- Whether a heritage instruction meets a barge of a format that its array does not take in heritage: a barge that is valid and whose CRC
is good says another format (R168). -/
def State.heritageBad (s : State) (t : TileWords) (a b : Opnd) (m n k : Nat) : Bool :=
  let bad := fun (o : Opnd) (rows : Nat) => isBargeKind o.kind && (o.read rows k).any (fun i =>
    let x := s.barge o.base i
    x.crc == x.goodCrc && !x.invalid && !fmtOk (t.f0 24 2) o.kind x.fmt)
  natBit 23 t.w0.toNat && (bad a m || bad b n)

/-- The same for the run-time shape of a tile. -/
def State.tileBad (s : State) (c : Nat) (e : QEntry) (t : TileWords) (a b : Opnd) : Bool :=
  let ((_, _, k), (sm, sn, _)) := s.selected c e t
  s.heritageBad t a b sm sn k

/-- The trap event of an instruction, once: at the first barge or plain element that was clamped or met a non-finite input (R128). -/
def State.trapEvent (s : State) (c : Nat) (first : Option Nat) (st : Nat) : State :=
  match first with
  | some a => s.post 0x05 st (s.src c) a
  | none => s

/-- One tile's work, after its checks: decode checks, products, and the counters; the status, what its trap event names, and the state. -/
def State.tileWork (s : State) (c : Nat) (e : QEntry) (t : TileWords) (a b : Opnd) (cbase : Nat) : Nat × Option Nat × State :=
  let ((m, n, k), (sm, sn, _)) := s.selected c e t
  let unit := t.f0 24 2
  let sat := t.f0 20 2
  let echk := natBit 18 t.w0.toNat
  let (st1, s) := s.checkOpnd c a sm k (fmtOk unit a.kind) echk
  let (st2, s) := s.checkOpnd c b sn k (fmtOk unit b.kind) echk
  let st := if st1 = stOK then st2 else if st2 = stOK then st1 else stWorst st1 st2
  if st ≠ stOK then (st, none, s.loseRows c cbase (regionLen t.backward m))
  else
    let r0 : Run := ⟨(s.core c).acc, 0, 0, false, false, none⟩
    let r := if natBit 23 t.w0.toNat then s.heritageTile a b sat cbase m n k r0
      else if unit = 0 then s.forwardTile a b cbase m n k r0
      else s.backTile a b sat cbase m n k r0
    let s := s.modCore c (fun x => { x with acc := r.acc })
    let s := (s.bump (CO_CNT_REFRAME c) r.reframes).bump (CO_CNT_OVERRANGE c) r.overs
    if sat = 2 then (if r.nonfinite then stNONFINITE else if r.clamped then stSAT_LIMIT else stOK, r.first, s) else (stOK, none, s)

/-! ## GEMM (R180, R187, R188, R190 to R192) -/

/-- The key a tile binds or must match. -/
def keyOf (t : TileWords) (cbase : Nat) : KeyBind := ⟨t.backward, cbase, t.mMax, t.nMax⟩

/-- A GEMM without a pointer list. -/
def State.gemmOne (s : State) (c : Nat) (e : QEntry) : Nat × State :=
  let t := e.words
  let a : Opnd := ⟨e.rg (t.f0 11 5), t.f2 24 4, t.kMax⟩
  let b : Opnd := ⟨e.rg (t.f0 6 5), t.f2 28 4, t.kMax⟩
  let cbase := t.f2 0 15
  let zero := natBit 22 t.w0.toNat
  let kb := keyOf t cbase
  if !(s.core c).keyOk (t.f3 8 8) kb zero then (stBAD_OPCODE, s)
  else
    let st := s.tileBounds c t a b cbase
    if st ≠ stOK then (st, s)
    else
      let st := s.shapeStatus c e t true
      if st = stSHAPE_OVER then (st, s)
      else if st = stOK ∧ s.tileBad c e t a b then (stBAD_OPCODE, s)
      else
        let s := s.modCore c (fun k =>
          let k := k.bindKey (t.f3 8 8) kb
          if zero then { k with acc := accFill (clearedEntry t.backward) cbase (regionLen t.backward t.mMax) [] k.acc } else k)
        if st = stOK_EMPTY then (st, s)
        else
          let (st, first, s) := s.tileWork c e t a b cbase
          (st, s.trapEvent c first st)

/-- The entries of a pointer list from number `i` on: `left` of them to take; `done` are the regions that earlier
entries have cleared or written (R188), and `first` what the instruction's one trap event names (R128). -/
def State.gemmList (s : State) (c : Nat) (e : QEntry) (st0 : Nat) (first : Option Nat) (empty : Bool) (i : Nat) (done : List (Nat × Nat)) :
    Nat → Nat × State
  | 0 => (st0, s.trapEvent c first st0)
  | left + 1 =>
    let t := e.words
    let p := e.rg (t.f0 11 5) + 16 * i
    let (rd, s) := s.unitRd p 16
    if rd ≠ stOK then (rd, s)
    else
      let w := s.load (p + 12) 2
      if natBit 15 w then s.gemmList c e st0 first empty (i + 1) done left
      else
        let a : Opnd := ⟨s.load p 6, t.f2 24 4, t.kMax⟩
        let b : Opnd := ⟨s.load (p + 6) 6, t.f2 28 4, t.kMax⟩
        let cbase := natBits 0 15 w
        let zero := natBit 22 t.w0.toNat
        let kb := keyOf t cbase
        let fresh := (spGet (⟨false, 0, 0, 0⟩ : KeyBind) (s.core c).keys (t.f3 8 8)).m == 0
        if s.load (p + 14) 2 ≠ 0 ∨ !(s.core c).keyOk (t.f3 8 8) kb (zero && fresh) then (stBAD_OPCODE, s)
        else
          let st := s.tileBounds c t a b cbase
          if st ≠ stOK then (st, s)
          else if !empty && s.tileBad c e t a b then (stBAD_OPCODE, s)
          else
            let reg := (cbase, regionLen t.backward t.mMax)
            let s := s.modCore c (fun k =>
              let k := k.bindKey (t.f3 8 8) kb
              if zero then { k with acc := accFill (clearedEntry t.backward) reg.1 reg.2 done k.acc } else k)
            if empty then s.gemmList c e st0 first empty (i + 1) (reg :: done) left
            else
              let (st, clamp, s) := s.tileWork c e t a b cbase
              if !stInformational st then (st, s)
              else s.gemmList c e (stWorst st0 st) (first.orElse (fun _ => clamp)) empty (i + 1) (reg :: done) left

/-- A GEMM with a pointer list (R187, R188, R192). -/
def State.gemmPl (s : State) (c : Nat) (e : QEntry) : Nat × State :=
  let t := e.words
  let p := e.rg (t.f0 11 5)
  let top := t.f2 15 9 + 1
  let zero := natBit 22 t.w0.toNat
  let bound := (spGet (⟨false, 0, 0, 0⟩ : KeyBind) (s.core c).keys (t.f3 8 8)).m != 0
  if t.f3 8 8 ≠ 0 ∧ bound ∧ zero then (stBAD_OPCODE, s)
  else if p % 16 ≠ 0 then (stALIGN_FAULT, s)
  else if p < c * basinSize ∨ (c + 1) * basinSize < p + 16 * top ∨ s.btabOut c t then (stBOUNDS_FAULT, s)
  else
    let count := if t.dyn then natBits 48 16 (e.rg (t.f1 22 5)) else top
    let st := s.shapeStatus c e t true
    if st = stSHAPE_OVER ∨ top < count then (stSHAPE_OVER, s)
    else if count = 0 then (stOK_EMPTY, s)
    else if st = stOK_EMPTY then s.gemmList c e stOK_EMPTY none true 0 [] count
    else s.gemmList c e stOK none false 0 [] count

/-- The bucket table is read, and is well formed, when DYN asks for it (R189): a CONVERT reads the M and N sets alone (R193). A table
outside the basin is found with the other bounds (R178). -/
def State.readBtab (s : State) (c : Nat) (t : TileWords) (useK : Bool) : Nat × State :=
  if !t.dyn || s.btabOut c t then (stOK, s)
  else
    let (st, s) := s.unitRd (c * basinSize + s.btabAt c t) (if useK then 64 else 32)
    if st ≠ stOK then (st, s) else if s.btabOk c t useK then (stOK, s) else (stBAD_OPCODE, s)

/-- GEMM runs (R180). -/
def State.runGemm (s : State) (c : Nat) (e : QEntry) : Nat × State :=
  let t := e.words
  if !gemmEncOk t then (stBAD_OPCODE, s)
  else
    let (st, s) := s.readBtab c t true
    if st ≠ stOK then (st, s)
    else if natBit 19 t.w0.toNat then s.gemmPl c e else s.gemmOne c e

end Sys2Proof.Machine
end

