-- ==== Sys2Proof/Machine/Convert.lean ====
section
/-! DEFINITION. The converters: packing, sub-scales, statistics, re-gauging, integer rescale, stochastic streams, and the scale trackers they feed (R153 to R160, R164 to R166, R193, R194, R214 to R225, R260, R261). -/

namespace Sys2Proof.Machine

/-! ## Stochastic streams (R164) -/

/-- mix of R164. -/
def mix64 (z : Nat) : Nat :=
  let z := (z + 0x9E3779B97F4A7C15) % 2 ^ 64
  let z := (z ^^^ (z / 2 ^ 30)) * 0xBF58476D1CE4E5B9 % 2 ^ 64
  let z := (z ^^^ (z / 2 ^ 27)) * 0x94D049BB133111EB % 2 ^ 64
  z ^^^ (z / 2 ^ 31)

/-- The state a stream is seeded with. -/
def srSeed (poundSeed c t l : Nat) : Nat :=
  let x := mix64 (poundSeed ^^^ (c * 65536) ^^^ (t * 256) ^^^ l)
  if x = 0 then 1 else x

/-- One step of a stream. -/
def srStep (x : Nat) : Nat :=
  let x := x ^^^ (x * 2 ^ 13 % 2 ^ 64)
  let x := x ^^^ (x / 2 ^ 7)
  x ^^^ (x * 2 ^ 17 % 2 ^ 64)

/-- The streams of one core, with what seeds the ones that have not stepped yet. -/
structure Streams where
  core : Nat
  seed : Nat
  sr : Sparse Dword
  deriving DecidableEq, Repr

/-- next(t, l): the 16-bit draw, and the streams after it. -/
def Streams.next (z : Streams) (t l : Nat) : Nat × Streams :=
  let old := (spGet 0#64 z.sr (64 * t + l)).toNat
  let x := srStep (if old = 0 then srSeed z.seed z.core t l else old)
  (x / 2 ^ 48, { z with sr := spPut 0#64 z.sr (64 * t + l) (BitVec.ofNat 64 x) })

/-- The streams of core `c`. -/
def State.streams (s : State) (c : Nat) : Streams := ⟨c, s.lock.poundSeed, (s.core c).sr⟩

/-- The state with the streams of a core after draws. -/
def State.setStreams (s : State) (z : Streams) : State := s.modCore z.core (fun k => { k with sr := z.sr })

/-! ## Scale records (R159) -/

/-- A record as a converter uses it: its number, its multiplier, and its block exponent b. -/
structure Rec where
  q : Nat
  c : Dy
  b : Int
  deriving DecidableEq, Repr

/-- An entry of the scale register file. -/
def State.srf (s : State) (c i : Nat) : Nat := s.rd (CO_SRF c i)

/-- The record at entry `e`, or none where R159 stops the instruction. -/
def State.record (s : State) (c e : Nat) (ir : Bool) : Option Rec :=
  if ir then some ⟨e / 2, Dy.ofInt false (sext 32 (s.srf c e)) (-(natBits 0 6 (s.srf c (e + 1)) : Int)), 0⟩
  else
    let bexp := natBits 0 8 (s.srf c (e + 1))
    match fp32F.decode (s.srf c e) with
    | .fin x => if bexp = 255 then none else some ⟨e / 2, x, (bexp : Int) - 127⟩
    | _ => none

/-- The records of columns 0 to `n - 1`. -/
def State.recordsFrom (s : State) (c srec : Nat) (percol ir : Bool) (j : Nat) : Nat → Option (List Rec)
  | 0 => some []
  | n + 1 =>
    match s.record c (if percol then srec + 2 * j else srec) ir, s.recordsFrom c srec percol ir (j + 1) n with
    | some r, some rs => some (r :: rs)
    | _, _ => none

/-- BEXP of record `q` written; the rest of the entry stands (R220). -/
def State.setBexp (s : State) (c q b : Nat) : State := s.wr (CO_SRF c (2 * q + 1)) (natPut 0 8 (s.srf c (2 * q + 1)) b)

/-! ## One tile's inputs (R154, R156) -/

/-- A conversion: run-time and largest shape, target, mode, order, records. -/
structure CvTile where
  m : Nat
  n : Nat
  mMax : Nat
  nMax : Nat
  fmt : Nat
  sat : Nat
  tr : Bool
  /-- Integer rescale: BSCALE 127 and every SUB 0 (R224). -/
  fixed : Bool
  recs : List Rec
  deriving DecidableEq, Repr

/-- The record of column `j`. -/
def CvTile.rec_ (t : CvTile) (j : Nat) : Rec := t.recs.getD j ⟨0, ⟨false, 0, 0⟩, 0⟩

/-- y = v × c, exactly; an entry in state CLEAR gives +0, one in OVER has no exact value. -/
def Core.yOf (k : Core) (lay : Bool) (base i j : Nat) (c : Dy) : PackIn :=
  if lay then
    match fp32F.decode (accB k.acc base i j) with
    | .fin x => .val (.fin (x.mul c))
    | .inf neg => .val (fvMul (.inf neg) (.fin c))
    | x => .val x
  else
    let e := fentry (accGet k.acc (base + 128 * i + j))
    if e.frame = frCLEAR then .val (.fin ⟨false, 0, 0⟩)
    else match e.value with
      | .val (.fin x) => .val (.fin (x.mul c))
      | .val x => .val x
      | .ovr neg => .ovr neg

/-- The inputs of a tile, in row-major order. -/
def Core.ys (k : Core) (lay : Bool) (base : Nat) (t : CvTile) : List PackIn :=
  (List.range t.m).flatMap (fun i => (List.range t.n).map (fun j => k.yOf lay base i j (t.rec_ j).c))

/-- Input (i, j). -/
def CvTile.y (t : CvTile) (ys : List PackIn) (i j : Nat) : PackIn := ys.getD (i * t.n + j) (.ovr false)

/-- Elements per barge of a format (R103), as the layout of R194 counts them. -/
def cvW (fmt : Nat) : Nat := fmtCount fmt

/-- Runs, the run's largest and run-time lengths (R194). -/
def CvTile.runs (t : CvTile) : Nat := if t.tr then t.n else t.m
def CvTile.runsMax (t : CvTile) : Nat := if t.tr then t.nMax else t.mMax
def CvTile.len (t : CvTile) : Nat := if t.tr then t.m else t.n
def CvTile.lenMax (t : CvTile) : Nat := if t.tr then t.mMax else t.nMax

/-- The output (i, j) at position `p` of run `r`, and back. -/
def CvTile.cell (t : CvTile) (r p : Nat) : Nat × Nat := if t.tr then (p, r) else (r, p)

/-- Barges per run (R194). -/
def CvTile.bpr (t : CvTile) : Nat := ceilDiv t.lenMax (cvW t.fmt)

/-! ## Block exponents and sub-scales (R154, R155) -/

/-- The columns and inputs of barge `bi` of run `r` that lie within the run-time shape. -/
def CvTile.bargeCells (t : CvTile) (r bi : Nat) : List (Nat × Nat × Nat) :=
  (List.range (cvW t.fmt)).filterMap (fun k =>
    if bi * cvW t.fmt + k < t.len then some (k, t.cell r (bi * cvW t.fmt + k)) else none)

/-- The block exponent of a barge: the largest among the records of its columns. -/
def CvTile.bargeB (t : CvTile) (r bi : Nat) : Int :=
  if t.fixed then 0
  else match (t.bargeCells r bi).map (fun x => (t.rec_ x.2.2).b) with
    | [] => 0
    | b :: bs => bs.foldl max b

/-- SUB0 to SUB3 of a barge. -/
def CvTile.bargeSubs (t : CvTile) (ys : List PackIn) (r bi : Nat) (b : Int) : List Nat :=
  if t.fixed then [0, 0, 0, 0]
  else (List.range 4).map (fun j => subOf t.fmt b ((t.bargeCells r bi).filterMap (fun x =>
    if quarter t.fmt x.1 = j then (match t.y ys x.2.1 x.2.2 with
      | .val (.fin y) => some y
      | _ => none) else none)))

/-- What a pass writes a barge with: b and the sub-scale offsets, run by run. -/
def CvTile.plan (t : CvTile) (ys : List PackIn) : List (Int × List Nat) :=
  if !isBargeFmt t.fmt then []
  else (List.range t.runs).flatMap (fun r => (List.range (ceilDiv t.len (cvW t.fmt))).map (fun bi =>
    let b := t.bargeB r bi
    (b, t.bargeSubs ys r bi b)))

/-- The block exponent and the offset of output (i, j) (b and SUB). -/
def CvTile.scaleAt (t : CvTile) (plan : List (Int × List Nat)) (i j : Nat) : Int × Nat :=
  if !isBargeFmt t.fmt then ((t.rec_ j).b, 0)
  else
    let rp := if t.tr then (j, i) else (i, j)
    let e := plan.getD (rp.1 * ceilDiv t.len (cvW t.fmt) + rp.2 / cvW t.fmt) (0, [])
    (e.1, e.2.getD (quarter t.fmt (rp.2 % cvW t.fmt)) 0)

/-! ## A pass (R153, R157, R222) -/

/-- What a pass gathers. `codes` are the patterns in row-major order, with the SAT and NONFIN of each. -/
structure Pass where
  codes : List (Nat × Bool × Bool)
  streams : Streams
  count : Nat
  partial_ : Nat
  satCnt : Nat
  flush : Nat
  amax : Option Dy
  nonfin : Nat
  /-- The three counts of R222: inputs, clamped finite inputs, non-zero inputs. -/
  n1 : Nat
  s1 : Nat
  nz : Nat
  /-- The first element clamped or non-finite (R128). -/
  first : Option (Nat × Nat)
  deriving DecidableEq, Repr

/-- The larger magnitude. -/
def magMax (a : Option Dy) (y : Dy) : Option Dy :=
  match a with
  | none => some { y with neg := false }
  | some x => if x.magLt y then some { y with neg := false } else some x

/-- d² added to a partial sum of squares: d = round(dec - y), then a fused multiply-add (R157). -/
def addSquare (part : Nat) (dec : FV) (y : Dy) : Nat :=
  let d := match dec with
    | .fin x => fp64F.decode (fp64F.rne (Dy.add false x { y with neg := !y.neg }))
    | x => x
  (fp64F.fma .tiesEven d d (fp64F.decode part)).1

/-- A barge target packs with every plain element's scale left out; this applies the block exponent and offset. -/
def rescale (x : FV) (k : Int) : FV :=
  match x with
  | .fin y => .fin (y.scale k)
  | x => x

/-- The pattern of an element of the target. -/
def decodeTarget (fmt x : Nat) : FV := decodeElem fmt x

/-- One element: `slot` is the stochastic slot, if any. -/
def CvTile.step (t : CvTile) (plan : List (Int × List Nat)) (ys : List PackIn) (slot : Option Nat) (p : Pass) (i j : Nat) : Pass :=
  let sc := t.scaleAt plan i j
  let k : Int := if isBargeFmt t.fmt then (sc.2 : Int) - sc.1 else 0
  let y := t.y ys i j
  match y with
  | .val (.fin v) =>
    let (rm, z) := match slot with
      | some l =>
        let d := p.streams.next l (j % 64)
        (Rnd.draw d.1, d.2)
      | none => (Rnd.tiesEven, p.streams)
    let o := packElem t.fmt t.sat rm (.val (.fin (v.scale k)))
    let dec := rescale (decodeTarget t.fmt o.bits) (-k)
    { p with
      codes := p.codes ++ [(o.bits, o.clamped, o.propOver)], streams := z, count := p.count + 1,
      partial_ := addSquare p.partial_ dec v, satCnt := p.satCnt + o.clamped.toNat, flush := p.flush + o.flushed.toNat,
      amax := magMax p.amax (v.scale (-sc.1)), n1 := p.n1 + 1, s1 := p.s1 + o.clamped.toNat,
      nz := p.nz + (decide (v.m ≠ 0)).toNat,
      first := if o.clamped then some (p.first.getD (i, j)) else p.first }
  | .ovr neg =>
    let o := packElem t.fmt t.sat .tiesEven (.ovr neg)
    { p with
      codes := p.codes ++ [(o.bits, o.clamped, o.propOver)], satCnt := p.satCnt + 1, n1 := p.n1 + 1, s1 := p.s1 + 1,
      nz := p.nz + 1, first := some (p.first.getD (i, j)) }
  | .val v =>
    let o := packElem t.fmt t.sat .tiesEven (.val v)
    { p with
      codes := p.codes ++ [(o.bits, o.clamped, true)], satCnt := p.satCnt + o.clamped.toNat, nonfin := p.nonfin + 1,
      first := some (p.first.getD (i, j)) }

/-- A whole pass, in row-major order. -/
def CvTile.pass (t : CvTile) (ys : List PackIn) (slot : Option Nat) (z : Streams) : Pass :=
  let plan := t.plan ys
  (List.range t.m).foldl (fun p i => (List.range t.n).foldl (fun p j => t.step plan ys slot p i j) p)
    ⟨[], z, 0, 0, 0, 0, none, 0, 0, 0, 0, none⟩

/-! ## Trackers (R214 to R221, R223) -/

/-- fmax of R216, as a significand and an exponent. -/
def fmax (fmt : Nat) : Dy := ⟨false, (fmtMax fmt false).1, (fmtMax fmt false).2⟩

/-- The smallest b with a × h × 2^(-b) ≤ f: exact, for a > 0 (R216). -/
def smallestB (a f : Dy) : Int :=
  let b : Int := (a.e + bitLen a.m) - (f.e + bitLen f.m)
  if f.magLt (a.scale (-b)) then b + 1 else if f.magLt (a.scale (-(b - 1))) then b else b - 1

/-- bexp_for of R216, with headroom 2^head. -/
def bexpFor (a : Dy) (head fmt : Nat) : Nat :=
  let b := smallestB (a.scale head) (fmax fmt)
  (127 + min (max b (-127)) 127).toNat

/-- FP32 rounded toward positive, at most the largest finite value (R218). -/
def up32 (x : Dy) : Nat :=
  let r := (fp32F.round .up { x with neg := false } false).1
  if r = fp32F.infP false then fp32F.maxP false else r

/-- An observation word as a tracker takes it (R241). -/
def obsVal (w : Nat) : Dy :=
  match fp32F.decode w with
  | .fin x => if x.neg then ⟨false, 0, 0⟩ else x
  | .inf false => ⟨false, 2 ^ 24 - 1, 104⟩
  | _ => ⟨false, 0, 0⟩

/-- Observation word `k` of tracker `t`. -/
def State.obs (s : State) (c t k : Nat) : Nat := s.rd (CO_OBS c (s.rf (CO_TRK_OBS c t) CO_TRK_OBS_OBS_BASE + k))

def State.setObs (s : State) (c t k v : Nat) : State := s.wr (CO_OBS c (s.rf (CO_TRK_OBS c t) CO_TRK_OBS_OBS_BASE + k)) v

/-- An observation word raised to a figure. -/
def State.raiseObs (s : State) (c t k : Nat) (a : Dy) : State :=
  if (obsVal (s.obs c t k)).magLt (obsVal (up32 a)) then s.setObs c t k (up32 a) else s

/-- The largest finite |y| per record number, over the tile's inputs (R214). -/
def CvTile.figures (t : CvTile) (ys : List PackIn) : List (Nat × Dy) :=
  let qs := ((List.range t.n).map (fun j => (t.rec_ j).q)).eraseDups
  qs.filterMap (fun q =>
    let col := (List.range t.n).filter (fun j => (t.rec_ j).q == q)
    let best := (List.range t.m).foldl (fun b i => col.foldl (fun b j => match t.y ys i j with
      | .val (.fin y) => magMax b y
      | _ => b) b) none
    best.map (fun y => (q, y)))

/-- Channel maxima of a WEIGHT tracker raised; a record outside its range is dropped and counted (R221). -/
def State.raiseChannels (s : State) (c t : Nat) (fs : List (Nat × Dy)) : State :=
  let base := s.rf (CO_TRK_REC c t) CO_TRK_REC_REC_BASE
  let cnt := s.rf (CO_TRK_REC c t) CO_TRK_REC_REC_CNT_M1
  fs.foldl (fun s f =>
    if base ≤ f.1 ∧ f.1 ≤ base + cnt then s.raiseObs c t (f.1 - base) f.2 else s.bump (CO_TRK_DROPPED c) 1) s

/-- Whether a tracker is in gauge phase (R219). -/
def State.inGauge (s : State) (c t : Nat) : Bool :=
  s.rf (CO_TRK_CFG c t) CO_TRK_CFG_KIND == 1 && !s.rb (CO_TRK_STATUS c t) CO_TRK_STATUS_PACK

/-- A gauge instruction completes (R219). -/
def State.gauge (s : State) (c t : Nat) (fs : List (Nat × Dy)) : State :=
  let s := s.raiseChannels c t fs
  let s := s.bumpF (CO_TRK_STATUS c t) CO_TRK_STATUS_GAUGED 1
  if s.rf (CO_TRK_STATUS c t) CO_TRK_STATUS_GAUGED < s.rf (CO_TRK_CFG c t) CO_TRK_CFG_GAUGE_N then s
  else
    let base := s.rf (CO_TRK_REC c t) CO_TRK_REC_REC_BASE
    let s := (List.range (s.rf (CO_TRK_REC c t) CO_TRK_REC_REC_CNT_M1 + 1)).foldl (fun s i =>
      let a := obsVal (s.obs c t i)
      if a.m = 0 then s else s.setBexp c (base + i) (bexpFor a 0 (s.rf (CO_TRK_CFG c t) CO_TRK_CFG_TFMT))) s
    s.wb (CO_TRK_STATUS c t) CO_TRK_STATUS_PACK true

/-- An observed instruction's figures and flags (R214, R217, R223). -/
def State.observe (s : State) (c t : Nat) (fs : List (Nat × Dy)) (regauged satFired clampLeft : Bool) : State :=
  let kind := s.rf (CO_TRK_CFG c t) CO_TRK_CFG_KIND
  let s := if kind = 1 then s.raiseChannels c t fs
    else if kind = 2 ∨ kind = 3 then fs.foldl (fun s f => s.raiseObs c t 16 f.2) s else s
  let a := CO_TRK_STATUS c t
  let s := if regauged then
      (s.wb a CO_TRK_STATUS_RG true).wb a (if satFired then CO_TRK_STATUS_SAT_SEEN else CO_TRK_STATUS_FLUSH_RG) true
    else s
  if clampLeft then s.wb a CO_TRK_STATUS_SAT_SEEN true else s

/-! ### The fold at a COMMIT lock (R217, R218) -/

/-- The largest history value of a tracker: its history is the last FILL words before HPTR, of at most HIST_M1 + 1; the 16 history words
are one ring whatever HIST_M1 says, so that a history outlives a change of it (DESIGN CHOICE: R240 does not say where HPTR wraps). -/
def State.histMax (s : State) (c t : Nat) : Dy :=
  let n := s.rf (CO_TRK_CFG c t) CO_TRK_CFG_HIST_M1 + 1
  let fill := s.rf (CO_TRK_STATUS c t) CO_TRK_STATUS_FILL
  let h := s.rf (CO_TRK_STATUS c t) CO_TRK_STATUS_HPTR
  (List.range (min fill n)).foldl (fun b i =>
    let v := obsVal (s.obs c t ((h + 15 - i) % 16))
    if b.magLt v then v else b) ⟨false, 0, 0⟩

/-- A tracker's records take the block exponent of an amax. -/
def State.setRecords (s : State) (c t : Nat) (a : Dy) : State :=
  let b := bexpFor a (s.rf (CO_TRK_CFG c t) CO_TRK_CFG_HEAD) (s.rf (CO_TRK_CFG c t) CO_TRK_CFG_TFMT)
  let base := s.rf (CO_TRK_REC c t) CO_TRK_REC_REC_BASE
  (List.range (s.rf (CO_TRK_REC c t) CO_TRK_REC_REC_CNT_M1 + 1)).foldl (fun s i => s.setBexp c (base + i) b) s

/-- CUR pushed into the history. -/
def State.pushHist (s : State) (c t : Nat) (cur : Dy) (drop : Bool) : State :=
  let n := s.rf (CO_TRK_CFG c t) CO_TRK_CFG_HIST_M1 + 1
  let a := CO_TRK_STATUS c t
  let s := if drop then s.wf a CO_TRK_STATUS_FILL 0 else s
  let h := s.rf a CO_TRK_STATUS_HPTR % 16
  let s := s.setObs c t h (up32 cur)
  (s.wf a CO_TRK_STATUS_HPTR ((h + 1) % 16)).wf a CO_TRK_STATUS_FILL (min (s.rf a CO_TRK_STATUS_FILL + 1) n)

/-- Tracker `t` of core `c` at a COMMIT lock. -/
def State.foldTracker (s : State) (c t : Nat) : State :=
  let kind := s.rf (CO_TRK_CFG c t) CO_TRK_CFG_KIND
  if kind ≠ 2 ∧ kind ≠ 3 then s
  else
    let a := CO_TRK_STATUS c t
    let fell := s.rb (CO_TRK_CFG c t) CO_TRK_CFG_MODE || s.rb a CO_TRK_STATUS_FELL_BACK
    let cur := obsVal (s.obs c t 16)
    let sat := s.rb a CO_TRK_STATUS_SAT_SEEN
    let s :=
      if cur.m = 0 then s
      else if !fell then
        let s := s.pushHist c t cur (s.rb a CO_TRK_STATUS_FLUSH_RG && !sat)
        s.setRecords c t (s.histMax c t)
      else
        let est := obsVal (s.obs c t 17)
        let e := if sat then up32 ((if cur.magLt est then est else cur).scale 1)
          else
            let d : Dy := ⟨false, est.m * 15, est.e - 4⟩
            up32 (if cur.magLt d then d else cur)
        (s.setObs c t 17 e).setRecords c t (obsVal e)
    let run := if s.rb a CO_TRK_STATUS_RG then min (s.rf a CO_TRK_STATUS_RG_RUN + 1) 7 else 0
    let s := s.wf a CO_TRK_STATUS_RG_RUN run
    if !fell && decide (4 ≤ run) then
      ((s.wb a CO_TRK_STATUS_FELL_BACK true).setObs c t 17 (up32 (s.histMax c t))).post 0x08 stOK (s.src c) t
    else s

/-- The working part of a tracker cleared (R217, R219). -/
def State.clearTracker (s : State) (c t : Nat) : State :=
  let kind := s.rf (CO_TRK_CFG c t) CO_TRK_CFG_KIND
  let a := CO_TRK_STATUS c t
  let s := ((s.wb a CO_TRK_STATUS_RG false).wb a CO_TRK_STATUS_SAT_SEEN false).wb a CO_TRK_STATUS_FLUSH_RG false
  let s := (s.wb a CO_TRK_STATUS_PACK false).wf a CO_TRK_STATUS_GAUGED 0
  if kind = 2 ∨ kind = 3 then s.setObs c t 16 0
  else if kind = 1 then
    (List.range (s.rf (CO_TRK_REC c t) CO_TRK_REC_REC_CNT_M1 + 1)).foldl (fun s i => s.setObs c t i 0) s
  else s

/-- The slot of a tracker with CLR set is cleared: all but AMAX (R225). -/
def State.clearSlot (s : State) (c t : Nat) : State :=
  if s.rb (CO_TRK_CFG c t) CO_TRK_CFG_CLR then
    ((((s.wrWide (CO_STAT_SSE_0 c t) 2 0).wrWide (CO_STAT_COUNT_0 c t) 2 0).wr (CO_STAT_SAT_CNT c t) 0).wr
      (CO_STAT_FLUSH_CNT c t) 0).wr (CO_STAT_REGAUGE_CNT c t) 0
  else s

/-! ## Non-finite counters (R260, R261) -/

/-- `n` non-finite values of class `k` on core `c`. -/
def State.nonfinite (s : State) (c k n : Nat) : State :=
  if n = 0 then s
  else
    let was := s.rd (KP_NF_POUND k)
    let s := (s.bump (CO_NF_CNT c k) n).bump (KP_NF_POUND k) n
    let act := s.rf KP_NF_ACT (KP_NF_ACT_ACT k)
    if was ≠ 0 ∨ act = 0 then s
    else
      let s := s.post 0x18 stOK (s.src c) k
      if act = 2 then s.veto 16 else s

/-- The tensor class of a statistics slot: the KIND of its tracker (R260). -/
def State.nfClass (s : State) (c t : Nat) : Nat := s.rf (CO_TRK_CFG c t) CO_TRK_CFG_KIND % 4

/-! ## Re-gauging (R222, R223) -/

/-- What the re-gauge rule decides: the tile with corrected exponents, and whether saturation fired it. -/
def CvTile.regauge (t : CvTile) (ys : List PackIn) (p : Pass) : Option (CvTile × Bool) :=
  let fs := (t.figures ys).filter (fun f => f.2.m != 0)
  let tq := fs.map (fun f => (f.1, (bexpFor f.2 0 t.fmt : Int) - 127))
  let bq := fun q => ((t.recs.find? (fun r => r.q == q)).map (fun r => r.b)).getD 0
  let sFire := decide (p.n1 < 4096 * p.s1)
  let fire := sFire || decide (p.nz < 16 * p.flush) || tq.any (fun x => decide (8 ≤ (bq x.1 - x.2).natAbs))
  if fire then
    some ({ t with recs := t.recs.map (fun r => { r with b := ((tq.find? (fun x => x.1 == r.q)).map (fun x => x.2)).getD r.b }) },
      sFire || tq.any (fun x => decide (bq x.1 < x.2)))
  else none

/-! ## What a pass writes (R104, R109, R115, R194) -/

/-- Barge `bi` of run `r` as the pass packed it. -/
def CvTile.mkBarge (t : CvTile) (ys : List PackIn) (p : Pass) (sound : Bool) (epoch r bi : Nat) : Barge :=
  let cells := t.bargeCells r bi
  let b := t.bargeB r bi
  let at_ := fun x : Nat × Nat × Nat => p.codes.getD (x.2.1 * t.n + x.2.2) (0, false, false)
  let codes := (List.range (cvW t.fmt)).map (fun k => match cells.find? (fun x => x.1 == k) with
    | some x => (at_ x).1
    | none => 0)
  Machine.mkBarge (packCodes t.fmt codes) (b + 127).toNat (t.bargeSubs ys r bi b) t.fmt
    (cells.any (fun x => (at_ x).2.1)) (cells.any (fun x => (at_ x).2.2)) sound epoch

/-- The padding barge of R115. -/
def padBarge (fmt epoch : Nat) : Barge := Machine.mkBarge (List.replicate 64 0#8) 255 [0, 0, 0, 0] fmt false false false epoch

/-- A unit stores a barge: its payload, then its sidecar. -/
def State.unitBarge (s : State) (a i : Nat) (b : Barge) : Nat × State :=
  let (s1, s) := s.unitWr (bargePayload a i) b.payload
  let (s2, s) := s.unitWr (bargeSide a i) (toBytes 8 b.side)
  (stWorst s1 s2, s)

/-- Bytes of a list of plain patterns. -/
def packPlain (size : Nat) (xs : List Nat) : List Byte := xs.flatMap (fun x => toBytes size x)

/-- The barges of a pass written to their destination. -/
def State.putBarges (s : State) (t : CvTile) (ys : List PackIn) (p : Pass) (sound : Bool) (dest : Nat) : Nat × State :=
  (List.range t.runs).foldl (fun r i => (List.range (ceilDiv t.len (cvW t.fmt))).foldl (fun r bi =>
    let (st, s) := r.2.unitBarge dest (i * t.bpr + bi) (t.mkBarge ys p sound (s.epochW % 256) i bi)
    (stWorst r.1 st, s)) r) (stOK, s)

/-- The pass's result written to its destination, with the padding of the last group. -/
def State.putTile (s : State) (t : CvTile) (ys : List PackIn) (p : Pass) (sound : Bool) (dest : Nat) : Nat × State :=
  if isBargeFmt t.fmt then
    let tot := t.runsMax * t.bpr
    (List.range (ceilDiv tot 8 * 8 - tot)).foldl (fun r i =>
      let (st, s') := r.2.unitBarge dest (tot + i) (padBarge t.fmt (s.epochW % 256))
      (stWorst r.1 st, s')) (s.putBarges t ys p sound dest)
  else
    let size := plainSize t.fmt
    (List.range t.runs).foldl (fun r i =>
      let xs := (List.range t.len).map (fun q => (p.codes.getD ((t.cell i q).1 * t.n + (t.cell i q).2) (0, false, false)).1)
      let (st, s) := r.2.unitWr (dest + i * t.lenMax * size) (packPlain size xs)
      (stWorst r.1 st, s)) (stOK, s)

/-- The address of output (i, j) in the destination, as an event names it (R128). -/
def CvTile.addrOf (t : CvTile) (dest : Nat) (ij : Nat × Nat) : Nat :=
  let rp := if t.tr then (ij.2, ij.1) else ij
  if isBargeFmt t.fmt then bargePayload dest (rp.1 * t.bpr + rp.2 / cvW t.fmt)
  else dest + (rp.1 * t.lenMax + rp.2) * plainSize t.fmt

/-! ## The statistics slot (R157) -/

def State.addStats (s : State) (c t : Nat) (p : Pass) (regauged : Bool) : State :=
  let sse := (fp64F.add .tiesEven (fp64F.decode (s.rdWide (CO_STAT_SSE_0 c t) 2)) (fp64F.decode p.partial_)).1
  let s := s.wrWide (CO_STAT_SSE_0 c t) 2 sse
  let s := s.wrWide (CO_STAT_COUNT_0 c t) 2 ((s.rdWide (CO_STAT_COUNT_0 c t) 2 + p.count) % 2 ^ 48)
  let s := ((s.bump (CO_STAT_SAT_CNT c t) p.satCnt).bump (CO_STAT_FLUSH_CNT c t) p.flush).bump (CO_STAT_REGAUGE_CNT c t) regauged.toNat
  s.wr (CO_STAT_AMAX c t) ((p.amax.map (fun y => (fp32F.round .up y false).1)).getD 0)

/-- The status of a conversion under its mode, and the trap event (R128). -/
def State.trapStatus (s : State) (c sat : Nat) (p : Pass) (addr : Nat × Nat → Nat) : Nat × State :=
  if sat ≠ 2 then (stOK, s)
  else
    let st := if p.nonfin ≠ 0 then stNONFINITE else if p.satCnt ≠ 0 then stSAT_LIMIT else stOK
    match p.first with
    | some ij => (st, s.post 0x05 st (s.src c) (addr ij))
    | none => (st, s)

/-! ## CONVERT (R178, R193, R194, R219, R222, R224) -/

/-- A packed tile with its second pass where the rule fires: tile, pass, re-gauged, saturation fired. -/
def CvTile.pack (t : CvTile) (ys : List PackIn) (slot : Option Nat) (z : Streams) : CvTile × Pass × Bool × Bool :=
  let p := t.pass ys slot z
  if t.fixed || !isBargeFmt t.fmt then (t, p, false, false)
  else match t.regauge ys p with
    | some (t', sat) => (t', t'.pass ys slot p.streams, true, sat)
    | none => (t, p, false, false)

/-- The encoding checks of a CONVERT. -/
def convertEncOk (t : TileWords) : Bool :=
  let f := t.f2 24 4
  t.f0 20 2 != 3 && t.f0 0 5 == 0 && t.f1 15 6 == 0 && t.f2 15 9 == 0 && t.f2 28 4 == 0 && t.f3 13 11 == 0
  && t.f3 0 1 == 0 && (isBargeFmt f || decide (8 ≤ f ∧ f ≤ 10))
  && (!natBit 23 t.w0.toNat || f == 2 || f == 6)

/-- The kind of operand that a target is laid out as (R194). -/
def targetKind (f : Nat) : Nat := if f ≤ 2 then 1 else if f = 3 then 2 else if f ≤ 6 then 3 else f

/-- The destination as an operand. -/
def cvDest (t : TileWords) (base : Nat) : Opnd := ⟨base, targetKind (t.f2 24 4), if natBit 16 t.w0.toNat then t.mMax else t.nMax⟩

/-- Alignment and bounds of a CONVERT. -/
def State.convertBounds (s : State) (c : Nat) (t : TileWords) (dest : Nat) : Nat :=
  let d := cvDest t dest
  let lay := natBit 25 t.w0.toNat
  let rows := if natBit 16 t.w0.toNat then t.nMax else t.mMax
  let last := if natBit 24 t.w0.toNat then t.f3 0 13 + 2 * t.nMax - 1 else t.f3 0 13 + 1
  if dest % d.alignment ≠ 0 ∨ t.f2 0 15 % (if lay then 32 else 128) ≠ 0 then stALIGN_FAULT
  else if s.btabOut c t || !s.ownDie c dest (d.size rows) || decide (32768 < t.f2 0 15 + regionLen lay t.mMax) || decide (8191 < last) then
    stBOUNDS_FAULT
  else stOK

/-- The entries that a conversion reads. -/
def cvReads (lay : Bool) (base m n : Nat) : List (Nat × Nat) :=
  (List.range m).map (fun i => if lay then (base + 32 * i, (n + 3) / 4) else (base + 128 * i, n))

/-- Whether a tile reads an entry of a marked region, and the marks cleared (R200). -/
def State.takeMarks (s : State) (c : Nat) (rs : List (Nat × Nat)) : Bool × State :=
  let k := s.core c
  (k.marks.any (fun x => meets [x] rs), s.setCore c { k with marks := k.marks.filter (fun x => !meets [x] rs) })

/-- A CONVERT's work after its checks. -/
def State.convertWork (s : State) (c : Nat) (e : QEntry) (m n : Nat) (recs : List Rec) : Nat × State :=
  let t := e.words
  let ir := natBit 23 t.w0.toNat
  let lay := natBit 25 t.w0.toNat
  let stat := t.f0 5 6
  let dest := e.rg (t.f0 11 5)
  let tile : CvTile := ⟨m, n, t.mMax, t.nMax, t.f2 24 4, t.f0 20 2, natBit 16 t.w0.toNat, ir, recs⟩
  let ys := (s.core c).ys lay (t.f2 0 15) tile
  let (sound, s) := s.takeMarks c (cvReads lay (t.f2 0 15) m n)
  if !ir && s.inGauge c stat then (stOK, s.gauge c stat (tile.figures ys))
  else
    let slot := if natBit 22 t.w0.toNat then some (t.f0 17 3) else none
    let (tile', p, rg, sat) := tile.pack ys slot (s.streams c)
    let s := s.setStreams p.streams
    let (wst, s) := s.putTile tile' ys p sound dest
    let s := s.addStats c stat p rg
    let s := if ir then s else s.observe c stat (tile.figures ys) rg sat (decide (p.s1 ≠ 0))
    let s := s.nonfinite c (s.nfClass c stat) p.nonfin
    let (st, s) := s.trapStatus c tile.sat p (tile.addrOf dest)
    (if wst = stOK then st else wst, s)

/-- CONVERT runs (R193). -/
def State.runConvert (s : State) (c : Nat) (e : QEntry) : Nat × State :=
  let t := e.words
  if !convertEncOk t then (stBAD_OPCODE, s)
  else
    let (st, s) := s.readBtab c t false
    if st ≠ stOK then (st, s)
    else
      let st := s.convertBounds c t (e.rg (t.f0 11 5))
      if st ≠ stOK then (st, s)
      else
        let st := s.shapeStatus c e t false
        if st ≠ stOK then (st, s)
        else
          let sh := e.shape t
          match s.recordsFrom c (t.f3 0 13) (natBit 24 t.w0.toNat) (natBit 23 t.w0.toNat) 0 sh.2.1 with
          | none => (stBAD_OPCODE, s)
          | some recs => s.convertWork c e sh.1 sh.2.1 recs

end Sys2Proof.Machine
end

