-- ==== Sys2Proof/Machine/Sound.lean ====
section
/-! DEFINITION. Soundings and the device's sluice state as a sounding changes it (R200, R226 to R235). -/

namespace Sys2Proof.Machine

/-! ## The sluice masks (R233 to R235) -/

/-- Bit `l` of a mask held in eight registers from `a`. -/
def State.maskBit (s : State) (a l : Nat) : Bool := natBit (l % 32) (s.rd (a + 4 * (l / 32)))

/-- The state with bit `l` of such a mask replaced. -/
def State.setMaskBit (s : State) (a l : Nat) (b : Bool) : State :=
  s.wr (a + 4 * (l / 32)) (natPut (l % 32) 1 (s.rd (a + 4 * (l / 32))) b.toNat)

/-- The layers of a mask. -/
def State.maskLayers (s : State) (a : Nat) : List Nat := (List.range 256).filter (fun l => s.maskBit a l)

/-- demand(c, S) (R234). -/
def State.demand (s : State) (c : Nat) (ls : List Nat) : Nat := ls.foldl (fun r l => r + s.rf (CO_SND_CFG c l) CO_SND_CFG_DEMAND) 0

/-- The layers of the sluice set or the pending mask. -/
def State.setOrPend (s : State) : List Nat :=
  (List.range 256).filter (fun l => s.maskBit (KP_SLUICE_SET 0) l || s.maskBit (KP_SLUICE_PEND 0) l)

/-- DEMAND in CO_WIDE_POOL of every core that has a demand or had one (R243). -/
def State.syncDemand (s : State) : State :=
  let ls := s.setOrPend
  (List.range 1024).foldl (fun s c =>
    let d := min 0xFFFF (s.demand c ls)
    if s.rf (CO_WIDE_POOL c) CO_WIDE_POOL_DEMAND = d then s else s.wf (CO_WIDE_POOL c) CO_WIDE_POOL_DEMAND d) s

/-- The first core whose demand over some layers exceeds its pool. -/
def State.overCore (s : State) (ls : List Nat) : Option Nat :=
  (List.range 1024).find? (fun c => decide (s.rf (CO_WIDE_POOL c) CO_WIDE_POOL_POOL < s.demand c ls))

/-- Layer `l` joins the device's pending mask, and the Keeper checks the pools (R233, R235). -/
def State.pend (s : State) (l : Nat) : State :=
  if s.maskBit (KP_SLUICE_PEND 0) l then s
  else
    let s := (s.setMaskBit (KP_SLUICE_PEND 0) l true).syncDemand
    match s.overCore s.setOrPend with
    | none => s
    | some c =>
      let s := s.post 0x17 0x50 (s.src 0xD00) (c + min 0xFFFF (s.demand c s.setOrPend) * 2 ^ 16 + s.rf (CO_WIDE_POOL c) CO_WIDE_POOL_POOL * 2 ^ 32)
      let s := (s.wb KP_SLUICE_CTRL KP_SLUICE_CTRL_OVER true).bump KP_SLUICE_OVERCOMMITS 1
      { s with lock := { s.lock with ovr := true } }

/-! ## Selection (R226, R227) -/

/-- selected(l, tile). -/
def soundSelected (poundSeed layer tile : Nat) : Bool :=
  let seed := mix64 (poundSeed ^^^ 0xD1B54A32D192ED03)
  (tile % 65536 + mix64 (seed ^^^ layer) % 256) % 256 == 0

/-- Whether a selected tile is sounded. -/
def State.sounded (s : State) (c : Nat) (t : TileWords) : Bool :=
  t.f0 24 2 == 0 && !natBit 23 t.w0.toNat && natBit 22 t.w0.toNat &&
  (match fp32F.decode (s.rd (CO_SND_THR c (t.f3 0 8))) with
   | .fin x => !x.neg && x.m != 0
   | .inf neg => !neg
   | _ => false)

/-! ## The comparison (R228, R229) -/

/-- A decoded operand rounded once to binary32; none when it is not finite. -/
def ref32 (x : FV) : Option FV :=
  match x with
  | .fin y => some (fp32F.decode (fp32F.rne y))
  | _ => none

/-- The reference r of output (i, j). -/
def State.reference (s : State) (a b : Opnd) (i j k : Nat) : FV :=
  (List.range k).foldl (fun r kk =>
    match ref32 (s.opVal a i kk), ref32 (s.opVal b j kk) with
    | some x, some y => fp32F.decode (fp32F.fma .tiesEven x y r).1
    | _, _ => .nan false true 0) (.fin ⟨false, 0, 0⟩)

/-- The sums num and den, and whether something sets ρ to +∞. -/
structure Rho where
  num : Nat
  den : Nat
  bad : Bool
  deriving DecidableEq, Repr

/-- One output's share of ρ. -/
def Rho.add (z : Rho) (r yh : FV) (c : Dy) (entryBad : Bool) : Rho :=
  match entryBad, r, yh with
  | false, .fin x, .fin y =>
    let yr := fp64F.decode (fp64F.rne (x.mul c))
    let d := fp64F.decode (fp64F.sub .tiesEven (fp64F.decode (fp64F.rne y)) yr).1
    { z with num := (fp64F.fma .tiesEven d d (fp64F.decode z.num)).1, den := (fp64F.fma .tiesEven yr yr (fp64F.decode z.den)).1 }
  | _, _, _ => { z with bad := true }

/-- ρ as an FP64 pattern. -/
def Rho.value (z : Rho) : Nat :=
  if z.bad then fp64F.infP false
  else if z.den = 0 then (if z.num = 0 then 0 else fp64F.infP false)
  else (fp64F.sqrt .tiesEven (fp64F.decode (fp64F.div .tiesEven (fp64F.decode z.num) (fp64F.decode z.den)).1)).1

/-- Whether a tile with ρ fails its threshold. -/
def rhoFails (rho thr : Nat) : Bool :=
  match fp64F.decode rho, fp32F.decode thr with
  | _, .inf _ => false
  | .nan _ _ _, _ => true
  | .inf _, _ => true
  | .fin x, .fin y => y.lt x
  | _, _ => false

/-- The trial pack of a region and ρ; none where a scale record stops it (R159, R229). -/
def State.rhoOf (s : State) (c : Nat) (a b : Opnd) (layer cbase m n k : Nat) (t : TileWords) : Option Nat :=
  let cfg := s.rd (CO_SND_CFG c layer)
  match s.recordsFrom c (natBits 8 13 cfg) (natBit 5 cfg) false 0 n with
  | none => none
  | some recs =>
    let tile : CvTile := ⟨m, n, t.mMax, t.nMax, natBits 0 4 cfg, natBits 6 2 cfg, natBit 4 cfg, false, recs⟩
    let ys := (s.core c).ys false cbase tile
    let (tile', p, _, _) := tile.pack ys none (s.streams c)
    let plan := tile'.plan ys
    some ((List.range m).foldl (fun z i => (List.range n).foldl (fun z j =>
      let e := fentry (accGet (s.core c).acc (cbase + 128 * i + j))
      let sc := tile'.scaleAt plan i j
      let kk : Int := if isBargeFmt tile.fmt then (sc.2 : Int) - sc.1 else 0
      let yh := rescale (decodeTarget tile.fmt (p.codes.getD (i * n + j) (0, false, false)).1) (-kk)
      Rho.add z (s.reference a b i j k) yh (tile.rec_ j).c (e.frame == frNONFIN || e.frame == frOVER)) z)
      (⟨0, 0, false⟩ : Rho)).value

/-! ## SOUND (R200, R227, R231) -/

/-- A sounded tile's counters, event and mark. -/
def State.soundEnd (s : State) (c layer tile rho : Nat) (region : Nat × Nat) : State :=
  let s := s.bump (CO_SND_DONE c) 1
  let s := s.modCore c (fun k => { k with marks := region :: k.marks })
  if rhoFails rho (s.rd (CO_SND_THR c layer)) then
    let rho32 := match fp64F.decode rho with
      | .fin x => fp32F.rne x
      | .inf n => fp32F.infP n
      | _ => fp32F.qnan
    let s := (s.bump (CO_SND_FAILED c) 1).setMaskBit (CO_SND_FAIL c 0) layer true
    (s.post 0x07 stOK (s.src c) (layer + tile * 2 ^ 8 + rho32 * 2 ^ 32)).pend layer
  else s

/-- One tile of a SOUND, after its checks. -/
def State.soundTile (s : State) (c : Nat) (e : QEntry) (a b : Opnd) (cbase tile : Nat) : Nat × State :=
  let t := e.words
  let layer := t.f3 0 8
  if !soundSelected s.lock.poundSeed layer tile || !s.sounded c t then (stOK_EMPTY, s)
  else
    let ((m, n, k), (sm, sn, _)) := s.selected c e t
    let (st1, s) := s.checkOpnd c a sm k (fmtOk 0 a.kind) (natBit 18 t.w0.toNat)
    let (st2, s) := s.checkOpnd c b sn k (fmtOk 0 b.kind) (natBit 18 t.w0.toNat)
    let st := if st1 = stOK then st2 else if st2 = stOK then st1 else stWorst st1 st2
    if st ≠ stOK then (st, s)
    else match s.rhoOf c a b layer cbase m n k t with
      | none => (stBAD_OPCODE, s)
      | some rho => (stOK, s.soundEnd c layer (tile % 65536) rho (cbase, regionLen false t.mMax))

/-- Entry `i` of a SOUND's pointer list: OK_EMPTY where nothing is carried out for it. -/
def State.soundEntry (s : State) (c : Nat) (e : QEntry) (empty : Bool) (i : Nat) : Nat × State :=
  let t := e.words
  let p := e.rg (t.f0 11 5) + 16 * i
  let (rd, s) := s.unitRd p 16
  if rd ≠ stOK then (rd, s)
  else
    let w := s.load (p + 12) 2
    if natBit 15 w then (stOK_EMPTY, s)
    else
      let a : Opnd := ⟨s.load p 6, t.f2 24 4, t.kMax⟩
      let b : Opnd := ⟨s.load (p + 6) 6, t.f2 28 4, t.kMax⟩
      let cbase := natBits 0 15 w
      if s.load (p + 14) 2 ≠ 0 then (stBAD_OPCODE, s)
      else
        let st := s.tileBounds c t a b cbase
        if st ≠ stOK then (st, s)
        else if empty then (stOK_EMPTY, s)
        else s.soundTile c e a b cbase (natBits 0 16 (e.rg (t.f0 1 5)) + i)

/-- The entries of a SOUND's pointer list, as far as the first that fails. -/
def State.soundList (s : State) (c : Nat) (e : QEntry) (st0 : Nat) (empty : Bool) (i : Nat) : Nat → Nat × State
  | 0 => (st0, s)
  | left + 1 =>
    let (st, s) := s.soundEntry c e empty i
    if !stInformational st then (st, s) else s.soundList c e (stWorst st0 st) empty (i + 1) left

/-- SOUND runs (R200). -/
def State.runSound (s : State) (c : Nat) (e : QEntry) : Nat × State :=
  let t := e.words
  if !gemmEncOk t then (stBAD_OPCODE, s)
  else
    let (st, s) := s.readBtab c t true
    if st ≠ stOK then (st, s)
    else if natBit 19 t.w0.toNat then
      let p := e.rg (t.f0 11 5)
      let top := t.f2 15 9 + 1
      if p % 16 ≠ 0 then (stALIGN_FAULT, s)
      else if p < c * basinSize ∨ (c + 1) * basinSize < p + 16 * top ∨ s.btabOut c t then (stBOUNDS_FAULT, s)
      else
        let count := if t.dyn then natBits 48 16 (e.rg (t.f1 22 5)) else top
        let st := s.shapeStatus c e t true
        if st = stSHAPE_OVER ∨ top < count then (stSHAPE_OVER, s)
        else s.soundList c e stOK_EMPTY (st == stOK_EMPTY) 0 count
    else
      let a : Opnd := ⟨e.rg (t.f0 11 5), t.f2 24 4, t.kMax⟩
      let b : Opnd := ⟨e.rg (t.f0 6 5), t.f2 28 4, t.kMax⟩
      let st := s.tileBounds c t a b (t.f2 0 15)
      if st ≠ stOK then (st, s)
      else
        let st := s.shapeStatus c e t true
        if st ≠ stOK then (st, s) else s.soundTile c e a b (t.f2 0 15) (natBits 0 16 (e.rg (t.f0 1 5)))

end Sys2Proof.Machine
end

