-- ==== Sys2Proof/Machine/Vector.lean ====
section
/-! DEFINITION. The vector unit: lane operations, conversions, reductions, loads and stores, and MOVE (R130 to R133, R152, R161, R163, R196 to R199). -/

namespace Sys2Proof.Machine

/-! ## Vector registers (R161) -/

def Core.vr (k : Core) (r : Nat) : Nat := (spGet 0#2048 k.vreg r).toNat
def Core.setVr (k : Core) (r v : Nat) : Core := { k with vreg := spPut 0#2048 k.vreg r (BitVec.ofNat 2048 v) }

/-- Element `i` of a register of `w`-bit elements. -/
def laneOf (w x i : Nat) : Nat := natBits (w * i) w x

/-- A register of `w`-bit elements. -/
def packLanes (w : Nat) (xs : List Nat) : Nat := xs.foldr (fun x r => x % 2 ^ w + 2 ^ w * r) 0

/-- Elements of a register. -/
def laneCount (w : Nat) : Nat := 2048 / w

/-- What a vector instruction gathers: flags, saturated elements, streams. -/
structure VAcc where
  flags : Nat
  sats : Nat
  z : Streams
  deriving DecidableEq, Repr

/-- The rounding of element `i`: the direction, or a draw for a finite result (R164, R165). -/
def VAcc.rnd (v : VAcc) (sel : Option Rnd) (slot i : Nat) (finite : Bool) : Rnd × VAcc :=
  match sel with
  | some rm => (rm, v)
  | none =>
    if finite then
      let d := v.z.next slot (i % 64)
      (.draw d.1, { v with z := d.2 })
    else (.tiesEven, v)

def VAcc.note (v : VAcc) (flags sats : Nat) : VAcc := { v with flags := v.flags ||| flags, sats := v.sats + sats }

/-! ## Lane operations (R130 to R133, R197) -/

/-- All ones or zero. -/
def maskOf (w : Nat) (b : Bool) : Nat := if b then 2 ^ w - 1 else 0

/-- A floating-point operation on one lane. -/
def fpLane (f : FFmt) (vop : Nat) (rm : Rnd) (a b c : Nat) : Nat × Nat :=
  let x := f.decode a
  let y := f.decode b
  if vop = 0 then f.add rm x y
  else if vop = 1 then f.sub rm x y
  else if vop = 2 then f.mul rm x y
  else if vop = 3 then f.fma rm x y (f.decode c)
  else if vop = 4 then f.div rm x y
  else if vop = 5 then f.sqrt rm x
  else if vop = 6 then f.rem x y
  else if vop = 7 then f.min x y
  else if vop = 8 then f.max x y
  else if vop = 9 then (maskOf f.width (fvEq x y).1, (fvEq x y).2)
  else if vop = 10 then (maskOf f.width (fvLt x y).1, (fvLt x y).2)
  else if vop = 11 then (maskOf f.width (fvLe x y).1, (fvLe x y).2)
  else if vop = 13 then ((a + 2 ^ (f.width - 1)) % 2 ^ f.width, 0)
  else (a % 2 ^ (f.width - 1), 0)

/-- An integer operation on one lane: pattern and saturated elements. -/
def intLane (w : Nat) (sg sw : Bool) (vop a b : Nat) : Nat × Nat :=
  let x := intVal w sg a
  let y := intVal w sg b
  if vop = 0 then intResult w sg sw (x + y)
  else if vop = 1 then intResult w sg sw (x - y)
  else if vop = 2 then intResult w sg sw (x * y)
  else if vop = 7 then ((if y < x then b else a), 0)
  else if vop = 8 then ((if x < y then b else a), 0)
  else if vop = 9 then (maskOf w (x == y), 0)
  else if vop = 10 then (maskOf w (decide (x < y)), 0)
  else if vop = 11 then (maskOf w (decide (x ≤ y)), 0)
  else if vop = 13 then intResult w sg sw (-x)
  else if vop = 14 then intResult w sg sw (x.natAbs : Int)
  else if vop = 0x10 then (a &&& b, 0)
  else if vop = 0x11 then (a ||| b, 0)
  else if vop = 0x12 then (a ^^^ b, 0)
  else if vop = 0x13 then intResult w sg sw (x * (2 ^ min b (2 * w) : Nat))
  else ((x / (2 ^ min b w : Nat) % (2 ^ w : Nat)).toNat, 0)

/-- Whether a value is finite. -/
def FV.isFin : FV → Bool
  | .fin _ => true
  | _ => false

/-- One lane of an operation, with its rounding. -/
def VAcc.lane (v : VAcc) (ty : VType) (sw : Bool) (sel : Option Rnd) (slot vop i a b c : Nat) : Nat × VAcc :=
  match ty with
  | .int w sg =>
    let r := intLane w sg sw vop a b
    (r.1, v.note 0 r.2)
  | .fp f =>
    let (rm, v) := v.rnd sel slot i (decide (vop ≤ 5) && (f.decode (fpLane f vop .zero a b c).1).isFin)
    let r := fpLane f vop rm a b c
    (r.1, v.note r.2 0)

/-- A NaN carried to another format, quieted; the payload is kept from its most significant bit. -/
def nanTo (f g : FFmt) (neg : Bool) (p : Nat) : Nat :=
  let q := if f.mb ≤ g.mb then p * 2 ^ (g.mb - f.mb) else p / 2 ^ (f.mb - g.mb)
  g.sign neg + g.expAll * 2 ^ g.mb + q % 2 ^ (g.mb - 1) + 2 ^ (g.mb - 1)

/-- CVT of one lane (R130 to R132): between integer types SW applies to a narrowing conversion alone. -/
def VAcc.cvt (v : VAcc) (src dst : VType) (sw : Bool) (sel : Option Rnd) (slot i a : Nat) : Nat × VAcc :=
  match src, dst with
  | .int w sg, .int w' sg' =>
    let r := intResult w' sg' (sw && decide (w' < w)) (intVal w sg a)
    (r.1, v.note 0 r.2)
  | .int w sg, .fp g =>
    let (rm, v) := v.rnd sel slot i true
    let r := g.round rm (Dy.ofInt false (intVal w sg a) 0) false
    (r.1, v.note r.2 0)
  | .fp f, .int w' sg' =>
    let x := f.decode a
    let (rm, v) := v.rnd sel slot i x.isFin
    let r := fvToInt rm w' sg' sw x
    (r.1, v.note r.2.1 r.2.2)
  | .fp f, .fp g =>
    match f.decode a with
    | .nan neg q p => (nanTo f g neg p, v.note (if q then 0 else flNV) 0)
    | .inf neg => (g.infP neg, v)
    | .fin x =>
      let (rm, v) := v.rnd sel slot i true
      let r := g.round rm x false
      (r.1, v.note r.2 0)

/-! ## Register operations -/

/-- The lanes of one register operation, in ascending order. -/
def lanesFrom (op : VAcc → Nat → Nat × VAcc) (v : VAcc) (n : Nat) : List Nat × VAcc :=
  (List.range n).foldl (fun r i =>
    let (x, v) := op r.2 i
    (r.1 ++ [x], v)) ([], v)

/-- One level of the reduction tree: pairs (2i, 2i + 1). -/
def pairUp (op : VAcc → Nat → Nat → Nat → Nat × VAcc) (i : Nat) (v : VAcc) : List Nat → List Nat × VAcc
  | a :: b :: t =>
    let (x, v) := op v i a b
    let (xs, v) := pairUp op (i + 1) v t
    (x :: xs, v)
  | xs => (xs, v)

/-- The reduction tree (R198). -/
def treeOf (op : VAcc → Nat → Nat → Nat → Nat × VAcc) (v : VAcc) : Nat → List Nat → Nat × VAcc
  | 0, xs => (xs.headD 0, v)
  | n + 1, xs => if xs.length ≤ 1 then (xs.headD 0, v) else
    let (ys, v) := pairUp op 0 v xs
    treeOf op v n ys

/-! ## The instruction's fields (R196) -/

/-- A decoded VECTOR instruction. -/
structure VInstr where
  vop : Nat
  type : Nat
  sw : Bool
  slot : Nat
  vd : Nat
  va : Nat
  vb : Nat
  vc : Nat
  nreg : Nat
  imm : Nat
  stat : Nat
  /-- g[GA] + IMM. -/
  addr : Nat
  sel : Option Rnd
  deriving DecidableEq, Repr

/-- The rounding that RND selects, or none where it is reserved (R163, R196); stochastic is `some none`. -/
def State.rndOf (s : State) (c rnd : Nat) : Option (Option Rnd) :=
  let dir := fun n => [Rnd.tiesEven, .tiesAway, .up, .down, .zero][n]?
  if rnd = 5 then some none
  else if rnd = 7 then (dir (s.rf (CO_VCTRL c) CO_VCTRL_RM)).map some
  else (dir rnd).map some

/-- Whether a VOP exists and applies to a TYPE (R197). -/
def vopOk (vop type imm : Nat) : Bool :=
  let fp := decide (type ≤ 3)
  if vop ≤ 2 then true
  else if vop ≤ 6 then fp
  else if vop ≤ 14 then true
  else if 0x10 ≤ vop ∧ vop ≤ 0x14 then !fp
  else if vop = 0x18 ∨ vop = 0x19 ∨ vop = 0x20 ∨ vop = 0x21 then true
  else if vop = 0x22 then type == 0
  else if vop = 0x23 then type == 0 && isBargeFmt (natBits 0 4 imm) && natBits 4 2 imm != 3
  else if vop = 0x28 then type == 0 || type == 4 || type == 6
  else false

def State.vinstr (s : State) (c : Nat) (e : QEntry) : Option VInstr :=
  let t := e.words
  match s.rndOf c (t.f0 12 3) with
  | none => none
  | some sel =>
    if t.f0 0 8 ≠ 0 ∨ t.f1 30 2 ≠ 0 ∨ t.f3 6 18 ≠ 0 ∨ !vopOk (t.f0 18 8) (t.f0 15 3) (t.f2 0 32) then none
    else some ⟨t.f0 18 8, t.f0 15 3, natBit 11 t.w0.toNat, t.f0 8 3, t.f1 0 5, t.f1 5 5, t.f1 10 5, t.f1 15 5,
      t.f1 25 5 + 1, t.f2 0 32, t.f3 0 6, e.rg (t.f1 20 5) + t.f2 0 32, sel⟩

/-- Registers per barge of a format (R161). -/
def bargeRegs (fmt : Nat) : Nat := fmtCount fmt / 64

/-- The element alignment and the bytes of a memory operand. -/
def VInstr.mem? (i : VInstr) : Option (Nat × Nat) :=
  if i.vop = 0x20 ∨ i.vop = 0x21 then some ((vtype i.type).width / 8, 256 * i.nreg)
  else if i.vop = 0x22 ∨ i.vop = 0x23 then some (64, 576 * ceilDiv i.nreg 8)
  else none

/-- The highest register an instruction names. -/
def VInstr.top (i : VInstr) : Nat :=
  let n := i.nreg - 1
  if i.vop = 0x18 ∨ i.vop = 0x19 then max i.vd (i.va + n)
  else if i.vop = 0x20 ∨ i.vop = 0x22 then i.vd + n
  else if i.vop = 0x21 ∨ i.vop = 0x28 then i.va + n
  else if i.vop = 0x23 then i.va + i.nreg * bargeRegs (natBits 0 4 i.imm) - 1
  else if i.vop = 5 ∨ i.vop = 12 ∨ i.vop = 13 ∨ i.vop = 14 then max (i.vd + n) (i.va + n)
  else if i.vop = 3 then max (max (i.vd + n) (i.va + n)) (max (i.vb + n) (i.vc + n))
  else max (i.vd + n) (max (i.va + n) (i.vb + n))

/-- Alignment and bounds (R94, R115, R178, R183, R197). -/
def State.vectorBounds (s : State) (c : Nat) (i : VInstr) : Nat :=
  let al := match i.mem? with
    | some m => i.addr % m.1 != 0
    | none => false
  if al then stALIGN_FAULT
  else
    let inDie := match i.mem? with
      | some m => s.ownDie c i.addr m.2
      | none => true
    let srf := if i.vop = 0x23 then 2 * natBits 6 13 i.imm + 1 else if i.vop = 0x28 then natBits 0 13 i.imm + 64 * i.nreg - 1 else 0
    if decide (31 < i.top) || !inDie || decide (8191 < srf) then stBOUNDS_FAULT else stOK

/-! ## Meanings -/

/-- An operation register by register: `n` registers from number `r` on. -/
def Core.vecRegs (i : VInstr) (op : VAcc → Nat → Nat → Nat × VAcc) (w : Nat) (r : Nat) (k : Core) (v : VAcc) : Nat → Core × VAcc
  | 0 => (k, v)
  | n + 1 =>
    let (xs, v) := lanesFrom (fun v l => op v r l) v (laneCount w)
    Core.vecRegs i op w (r + 1) (k.setVr (i.vd + r) (packLanes w xs)) v n

/-- Flags, saturation count and streams into the state. -/
def State.endVector (s : State) (c : Nat) (v : VAcc) : State :=
  let s := s.wr (CO_VFLAGS c) (s.rd (CO_VFLAGS c) ||| v.flags)
  (s.bump (CO_CNT_INTSAT c) v.sats).setStreams v.z

/-- Lane-by-lane operations other than CVT: one register at a time. -/
def Core.vecOp (i : VInstr) (r : Nat) (k : Core) (v : VAcc) : Nat → Core × VAcc
  | 0 => (k, v)
  | n + 1 =>
    let ty := vtype i.type
    let w := ty.width
    let (xs, v) := lanesFrom (fun v l => v.lane ty i.sw i.sel i.slot i.vop (r * laneCount w + l)
      (laneOf w (k.vr (i.va + r)) l) (laneOf w (k.vr (i.vb + r)) l) (laneOf w (k.vr (i.vc + r)) l)) v (laneCount w)
    Core.vecOp i (r + 1) (k.setVr (i.vd + r) (packLanes w xs)) v n

/-- CVT: lane n to lane n; a lane without a source takes bits of a free value. -/
def Core.vecCvt (i : VInstr) (free r : Nat) (k : Core) (v : VAcc) : Nat → Core × VAcc
  | 0 => (k, v)
  | n + 1 =>
    let src := vtype i.type
    let dst := vtype (i.imm % 8)
    let x := k.vr (i.va + r)
    let (xs, v) := lanesFrom (fun v l =>
      if l < laneCount src.width then v.cvt src dst i.sw i.sel i.slot (r * laneCount src.width + l) (laneOf src.width x l)
      else (laneOf dst.width (Config.freeBits (free + r)) l, v)) v (laneCount dst.width)
    Core.vecCvt i free (r + 1) (k.setVr (i.vd + r) (packLanes dst.width xs)) v n

/-- REDSUM and REDMAX (R198). -/
def State.vecReduce (s : State) (c : Nat) (i : VInstr) (v : VAcc) : State :=
  let ty := vtype i.type
  let w := ty.width
  let k := s.core c
  let op := fun (v : VAcc) (n a b : Nat) => v.lane ty i.sw i.sel i.slot (if i.vop = 0x18 then 0 else 8) n a b 0
  let (xs, v) := (List.range i.nreg).foldl (fun r n =>
    let (x, v) := treeOf op r.2 8 ((List.range (laneCount w)).map (fun l => laneOf w (k.vr (i.va + n)) l))
    (r.1 ++ [x], v)) ([], v)
  let (x, v) := treeOf op v 6 xs
  (s.setCore c (k.setVr i.vd (x % 2 ^ w))).endVector c v

/-- LD (R197). -/
def State.vecLd (s : State) (c : Nat) (i : VInstr) : Nat × State :=
  let (st, s) := s.unitRd i.addr (256 * i.nreg)
  if st ≠ stOK then (st, s)
  else (stOK, s.modCore c (fun k => (List.range i.nreg).foldl (fun k r => k.setVr (i.vd + r) (s.load (i.addr + 256 * r) 256)) k))

/-- ST: infinite and NaN lanes count as OTHER (R260). -/
def State.vecSt (s : State) (c : Nat) (i : VInstr) : Nat × State :=
  let ty := vtype i.type
  let w := ty.width
  let k := s.core c
  let regs := (List.range i.nreg).map (fun r => k.vr (i.va + r))
  let nf := match ty with
    | .fp f => regs.foldl (fun n x => n + ((List.range (laneCount w)).filter (fun l => !(f.decode (laneOf w x l)).isFin)).length) 0
    | .int _ _ => 0
  let (st, s) := s.unitWr i.addr (regs.flatMap (fun x => toBytes 256 x))
  if st ≠ stOK then (st, s) else (stOK, s.nonfinite c 0 nf)

/-- Elements of a barge as FP32, under the instruction's rounding. A NaN element, and every element of an invalid barge, is the positive
quiet NaN with zero payload and raises no flag (DESIGN CHOICE: R93 and R107 give no pattern). -/
def VAcc.loadBarge (v : VAcc) (i : VInstr) (b : Barge) (base : Nat) : List Nat × VAcc :=
  lanesFrom (fun v l =>
    match b.value l with
    | .fin x =>
      let (rm, v) := v.rnd i.sel i.slot (base + l) true
      let r := fp32F.round rm x false
      (r.1, v.note r.2 0)
    | .inf n => (fp32F.infP n, v)
    | _ => (fp32F.qnan, v)) v (fmtCount b.fmt)

/-- LDB: `n` barges from number `j` on, into the registers from `r` on. An invalid barge whose FMT is a reserved code takes one register, as
64 elements (DESIGN CHOICE: R107 makes every element NaN and R103 gives a reserved code no count). -/
def State.vecLdb (s : State) (c : Nat) (i : VInstr) (j r : Nat) (v : VAcc) : Nat → Nat × State × VAcc
  | 0 => (stOK, s, v)
  | n + 1 =>
    let b := s.barge i.addr j
    let (xs, v) := v.loadBarge i b (64 * r)
    let m := bargeRegs b.fmt
    if 32 < i.vd + r + m then (stBOUNDS_FAULT, s, v)
    else
      let s := s.modCore c (fun k => (List.range m).foldl (fun k q => k.setVr (i.vd + r + q) (packLanes 32 ((xs.drop (64 * q)).take 64))) k)
      s.vecLdb c i (j + 1) (r + m) v n

/-- STB: packs NREG barges with one record (R197, R214, R219). It writes those barges alone: the unused slots of the last group keep what
they held (DESIGN CHOICE: R115 asks software and converters to fill them, and R93 says only that STB packs as a converter does). -/
def State.vecStb (s : State) (c : Nat) (i : VInstr) (v : VAcc) : Nat × State :=
  let fmt := natBits 0 4 i.imm
  match s.record c (2 * natBits 6 13 i.imm) false with
  | none => (stBAD_OPCODE, s)
  | some rc =>
    let w := fmtCount fmt
    let tile : CvTile := ⟨i.nreg, w, i.nreg, w, fmt, natBits 4 2 i.imm, false, false, List.replicate w rc⟩
    let k := s.core c
    let ys := (List.range (i.nreg * w)).map (fun n =>
      match fp32F.decode (laneOf 32 (k.vr (i.va + n / 64)) (n % 64)) with
      | .fin x => PackIn.val (.fin (x.mul rc.c))
      | .inf neg => .val (fvMul (.inf neg) (.fin rc.c))
      | x => .val x)
    if s.inGauge c i.stat then (stOK, s.gauge c i.stat (tile.figures ys))
    else
      let p := tile.pass ys (if i.sel.isNone then some i.slot else none) v.z
      let s := s.setStreams p.streams
      let (wst, s) := s.putBarges tile ys p false i.addr
      let s := s.addStats c i.stat p false
      let s := s.observe c i.stat (tile.figures ys) false false (decide (p.s1 ≠ 0))
      let s := s.nonfinite c (s.nfClass c i.stat) p.nonfin
      let (st, s) := s.trapStatus c tile.sat p (tile.addrOf i.addr)
      (if wst = stOK then st else wst, s)

/-- SRFW: lanes of VA into the scale register file. -/
def State.vecSrfw (s : State) (c : Nat) (i : VInstr) : State :=
  let k := s.core c
  (List.range (64 * i.nreg)).foldl (fun s n => s.wr (CO_SRF c (natBits 0 13 i.imm + n)) (laneOf 32 (k.vr (i.va + n / 64)) (n % 64))) s

/-- VECTOR runs (R196, R197). -/
def State.runVector (s : State) (c : Nat) (e : QEntry) : Nat × State :=
  match s.vinstr c e with
  | none => (stBAD_OPCODE, s)
  | some i =>
    let st := s.vectorBounds c i
    if st ≠ stOK then (st, s)
    else
      let v : VAcc := ⟨0, 0, s.streams c⟩
      if i.vop = 0x20 then s.vecLd c i
      else if i.vop = 0x21 then s.vecSt c i
      else if i.vop = 0x22 then
        let (st, s) := s.checkBarges c i.addr isBargeFmt false (List.range i.nreg)
        if st ≠ stOK then (st, s)
        else
          let (st, s', v) := s.vecLdb c i 0 0 v i.nreg
          if st ≠ stOK then (st, s) else (stOK, s'.endVector c v)
      else if i.vop = 0x23 then s.vecStb c i v
      else if i.vop = 0x28 then (stOK, s.vecSrfw c i)
      else if i.vop = 0x18 ∨ i.vop = 0x19 then (stOK, s.vecReduce c i v)
      else if i.vop = 12 then
        let (k, v) := Core.vecCvt i s.free 0 (s.core c) v i.nreg
        (stOK, ({ s with free := s.free + i.nreg }.setCore c k).endVector c v)
      else
        let (k, v) := Core.vecOp i 0 (s.core c) v i.nreg
        (stOK, (s.setCore c k).endVector c v)

/-! ## MOVE (R152, R199) -/

/-- A forward entry as FP64 (R152). -/
def entry64 (x : BitVec 128) : Nat :=
  match (fentry x).value with
  | .val (.fin y) => fp64F.rne y
  | .val (.inf n) => fp64F.infP n
  | .val _ => fp64F.qnan
  | .ovr n => fp64F.infP n

/-- The largest SIZE of a KIND. -/
def moveMax (kind : Nat) : Nat := if kind ≤ 1 then 32 else if kind = 2 then 65535 else if kind ≤ 4 then 8192 else 256

/-- Accumulator entries per register of a MOVE. -/
def movePer (kind : Nat) (lay : Bool) : Nat := if kind = 0 && !lay then 32 else 16

/-- Alignment and bounds of a MOVE. -/
def State.moveBounds (s : State) (c : Nat) (e : QEntry) : Nat :=
  let t := e.words
  let kind := t.f0 23 3
  let lay := natBit 22 t.w0.toNat
  let n := t.f1 0 16
  let en := t.f2 0 15
  let ra := e.rg (t.f0 11 5)
  let rb := e.rg (t.f0 6 5)
  if kind ≤ 1 then
    (if 32 < t.f1 16 5 + n ∨ 32768 < en + n * movePer kind lay then stBOUNDS_FAULT else stOK)
  else if kind = 2 then
    (if ra % 64 ≠ 0 ∨ rb % 64 ≠ 0 then stALIGN_FAULT
     else if !s.ownDie c ra (64 * n) || !s.ownDie c rb (64 * n) then stBOUNDS_FAULT else stOK)
  else if kind ≤ 4 then
    let a := if kind = 3 then ra else rb
    (if a % 4 ≠ 0 then stALIGN_FAULT else if !s.ownDie c a (4 * n) || (n != 0 && decide (8192 < en + n)) then stBOUNDS_FAULT else stOK)
  else
    (if en % (if lay then 32 else 128) ≠ 0 then stALIGN_FAULT
     else if 32768 < en + regionLen lay n then stBOUNDS_FAULT else stOK)

/-- KIND 0: accumulator entries into registers. -/
def Core.moveAccToReg (k : Core) (lay : Bool) (n en vr : Nat) : Core :=
  (List.range n).foldl (fun k' r =>
    k'.setVr (vr + r) (if lay then packLanes 128 ((List.range 16).map (fun i => (accGet k.acc (en + 16 * r + i)).toNat))
      else packLanes 64 ((List.range 32).map (fun i => entry64 (accGet k.acc (en + 32 * r + i)))))) k

/-- KIND 1: registers into backward-layout entries. -/
def Core.moveRegToAcc (k : Core) (n en vr : Nat) : Core :=
  { k with acc := (List.range (16 * n)).foldl (fun a i =>
      accPut a (en + i) (BitVec.ofNat 128 (laneOf 128 (k.vr (vr + i / 16)) (i % 16)))) k.acc }

/-- MOVE runs (R199). -/
def State.runMove (s : State) (c : Nat) (e : QEntry) : Nat × State :=
  let t := e.words
  let kind := t.f0 23 3
  let lay := natBit 22 t.w0.toNat
  let n := t.f1 0 16
  let en := t.f2 0 15
  let vr := t.f1 16 5
  let ra := e.rg (t.f0 11 5)
  let rb := e.rg (t.f0 6 5)
  if 5 < kind ∨ t.f0 16 6 ≠ 0 ∨ t.f0 0 6 ≠ 0 ∨ t.f1 21 11 ≠ 0 ∨ t.f2 15 17 ≠ 0 ∨ t.f3 0 24 ≠ 0 ∨ moveMax kind < n then (stBAD_OPCODE, s)
  else
    let st := s.moveBounds c e
    if st ≠ stOK then (st, s)
    else if n = 0 then (stOK_EMPTY, s)
    else if kind = 0 then (stOK, s.modCore c (fun k => k.moveAccToReg lay n en vr))
    else if kind = 1 then (stOK, s.modCore c (fun k => k.moveRegToAcc n en vr))
    else if kind = 2 then
      let (st, s) := s.unitRd ra (64 * n)
      if st ≠ stOK then (st, s) else s.unitWr rb (s.bytes ra (64 * n))
    else if kind = 3 then
      let (st, s) := s.unitRd ra (4 * n)
      if st ≠ stOK then (st, s)
      else (stOK, (List.range n).foldl (fun s i => s.wr (CO_SRF c (en + i)) (s.load (ra + 4 * i) 4)) s)
    else if kind = 4 then s.unitWr rb ((List.range n).flatMap (fun i => toBytes 4 (s.srf c (en + i))))
    else (stOK, s.modCore c (fun k => { k with acc := accFill (clearedEntry lay) en (regionLen lay n) [] k.acc }))

end Sys2Proof.Machine
end

