-- ==== Sys2Proof/Machine/Units.lean ====
section
/-! DEFINITION. The unit queues at work: start and completion of queued instructions, CLAIM and FENCE on the tiller itself, claim counters, and what ends a tiller's wait (R135, R136, R173, R176 to R179, R201 to R208). -/

namespace Sys2Proof.Machine

/-! ## Starting queued instructions -/

/-- A queued instruction's work, by its class (R175). -/
def State.runEntry (s : State) (c : Nat) (e : QEntry) : Nat × State :=
  let cls := e.words.cls
  if cls = 0x30 then s.runGemm c e
  else if cls = 0x31 then s.runConvert c e
  else if cls = 0x32 then s.runVector c e
  else if cls = 0x33 then s.runMove c e
  else if cls = 0x35 then s.runSound c e
  else (stBAD_OPCODE, s)

/-- An entry starts, with what it does, and holds the status it will return. -/
def State.startEntry (s : State) (c : Nat) (e : QEntry) : State :=
  let (st, s) := s.runEntry c e
  s.modCore c (fun k => { k with queue := startQ e.seq st (e.q == 3 && k.cv0Busy) k.queue })

/-- The scale records a SOUND reads as it starts: those its layer's trial pack names (R136, R229). -/
def State.soundRecords (s : State) (c : Nat) (t : TileWords) : List (Nat × Nat) :=
  let cfg := s.rd (CO_SND_CFG c (t.f3 0 8))
  if t.cls = 0x35 then [(natBits 8 13 cfg, if natBit 5 cfg then 2 * t.nMax else 2)] else []

/-- The records that an observed instruction writes where its weight tracker is in gauge phase: all of the tracker's range (R219). -/
def State.gaugeRecords (s : State) (c : Nat) (t : TileWords) : List (Nat × Nat) :=
  let own := fun k : Nat => if s.inGauge c k then
    [(2 * s.rf (CO_TRK_REC c k) CO_TRK_REC_REC_BASE, 2 * (s.rf (CO_TRK_REC c k) CO_TRK_REC_REC_CNT_M1 + 1))] else []
  if t.cls = 0x31 ∧ !natBit 23 t.w0.toNat then own (t.f0 5 6) else if t.cls = 0x32 ∧ t.f0 18 8 = 0x23 then own (t.f3 0 6) else []

/-- The records that an instruction reads, and those that it writes, as it starts now (R136). -/
def State.recordsRead (s : State) (c : Nat) (t : TileWords) : List (Nat × Nat) := (footOf t).srfR ++ s.soundRecords c t
def State.recordsWritten (s : State) (c : Nat) (t : TileWords) : List (Nat × Nat) := (footOf t).srfW ++ s.gaugeRecords c t

/-- Whether a queued instruction may start, the records of soundings and of gauge sweeps counted (R135, R136, R176). -/
def State.mayStart (s : State) (c : Nat) (e : QEntry) : Bool :=
  (s.core c).canStart e && (s.core c).queue.all (fun x => !(decide (x.seq < e.seq) &&
    (meets (s.recordsRead c e.words) (s.recordsWritten c x.words) || meets (s.recordsWritten c e.words) (s.recordsRead c x.words)
      || meets (s.recordsWritten c e.words) (s.recordsWritten c x.words))))

/-- Every entry that may start does, in issue order. -/
def State.kickFrom (s : State) (c : Nat) : Nat → State
  | 0 => s
  | n + 1 =>
    match (s.core c).queue.find? (fun e => s.mayStart c e) with
    | some e => (s.startEntry c e).kickFrom c n
    | none => s

def State.kick (s : State) (c : Nat) : State := (s.kickFrom c (s.core c).queue.length).syncQueues c

/-! ## Claim counters (R205 to R208, R213) -/

/-- The registers of a counter: word `k` of its four. -/
def claimReg (dev : Bool) (die ctr k : Nat) : Nat := (if dev then KP_CLAIM_ARMING ctr else CD_CLAIM_ARMING die ctr) + 4 * k

/-- The key of a counter's indices. -/
def claimKey (dev : Bool) (die ctr : Nat) : Nat := if dev then 1024 + ctr else 64 * die + ctr

def State.claim (s : State) (key : Nat) : Claim := spGet ⟨[], [], []⟩ s.claims key
def State.setClaim (s : State) (key : Nat) (k : Claim) : State := { s with claims := spPut ⟨[], [], []⟩ s.claims key k }

/-- The counts of a counter in its registers. -/
def State.claimLimit (s : State) (dev : Bool) (die ctr : Nat) : Nat := s.rf (claimReg dev die ctr 0) KP_CLAIM_ARMING_LIMIT
def State.claimArm (s : State) (dev : Bool) (die ctr : Nat) : Nat := s.rf (claimReg dev die ctr 0) KP_CLAIM_ARMING_ARM
def State.claimOut (s : State) (dev : Bool) (die ctr : Nat) : Nat := s.rf (claimReg dev die ctr 3) KP_CLAIM_HELD_OUTSTANDING

/-- RECLAIM follows the reclaim list. -/
def State.syncReclaim (s : State) (dev : Bool) (die ctr : Nat) : State :=
  s.wf (claimReg dev die ctr 2) KP_CLAIM_RECLAIM_RECLAIM (s.claim (claimKey dev die ctr)).reclaim.length

/-- A token (R206). -/
def mkToken (index issue ctr : Nat) (dev : Bool) (arm epoch : Nat) : Nat :=
  index % 2 ^ 16 + issue % 16 * 2 ^ 16 + ctr % 64 * 2 ^ 20 + dev.toNat * 2 ^ 26 + arm % 32 * 2 ^ 27 + epoch % 2 ^ 24 * 2 ^ 32

/-- The value for "no token". -/
def noToken : Nat := 2 ^ 64 - 1

/-- What a TAKE meets. -/
inductive Take where
  | fault
  | wait
  | noToken
  | reissue (i : Nat)
  | fresh (i : Nat)
  deriving DecidableEq, Repr

/-- take of R208, up to its choice. -/
def State.takeChoice (s : State) (c : Nat) (dev : Bool) (die ctr : Nat) : Take :=
  let k := s.claim (claimKey dev die ctr)
  if s.claimLimit dev die ctr = 0 ∨ s.rf (CO_TSTATUS c) CO_TSTATUS_TOKENS = 4 then .fault
  else match k.reclaim with
    | i :: _ => .reissue i
    | [] =>
      let next := s.rf (claimReg dev die ctr 1) KP_CLAIM_PROGRESS_NEXT
      if next < s.claimLimit dev die ctr then .fresh next
      else if k.holder.any (fun h => h.2 == c + 1) || s.claimOut dev die ctr == 0 then .noToken
      else .wait

/-- An index issued to a core: the token and the state. -/
def State.issueIndex (s : State) (c : Nat) (dev : Bool) (die ctr i : Nat) : Nat × State :=
  let key := claimKey dev die ctr
  let k := s.claim key
  let n := (spGet 0 k.issue i + 1) % 16
  let s := s.setClaim key { k with issue := spPut 0 k.issue i n, holder := spPut 0 k.holder i (c + 1) }
  let s := s.bumpF (claimReg dev die ctr 3) KP_CLAIM_HELD_OUTSTANDING 1
  let s := s.bumpF (CO_TSTATUS c) CO_TSTATUS_TOKENS 1
  (mkToken i n ctr dev (s.claimArm dev die ctr) s.epochW, s)

/-- take of R208: the token and the state, or none while it waits. -/
def State.takeIndex (s : State) (c : Nat) (dev : Bool) (die ctr : Nat) : Option (Nat × State) :=
  match s.takeChoice c dev die ctr with
  | .reissue i =>
    let key := claimKey dev die ctr
    let k := s.claim key
    let s := (s.setClaim key { k with reclaim := k.reclaim.drop 1 }).syncReclaim dev die ctr
    some ((s.bumpF (claimReg dev die ctr 2) KP_CLAIM_RECLAIM_REISSUED 1).issueIndex c dev die ctr i)
  | .fresh i => some ((s.wf (claimReg dev die ctr 1) KP_CLAIM_PROGRESS_NEXT (i + 1)).issueIndex c dev die ctr i)
  | .noToken => some (noToken, s)
  | _ => none

/-- done of R208: the status and the state. -/
def State.claimDone (s : State) (c t : Nat) (dev : Bool) (die ctr : Nat) : Nat × State :=
  let key := claimKey dev die ctr
  let k := s.claim key
  let i := natBits 0 16 t
  if natBits 56 8 t ≠ 0 ∨ natBit 26 t ≠ dev ∨ natBits 20 6 t ≠ ctr ∨ s.claimLimit dev die ctr ≤ i
      ∨ natBits 32 24 t ≠ s.epochW % 2 ^ 24 ∨ natBits 27 5 t ≠ s.claimArm dev die ctr
      ∨ natBits 16 4 t ≠ spGet 0 k.issue i ∨ spGet 0 k.holder i ≠ c + 1 then (stCLAIM_STALE, s)
  else
    let s := s.setClaim key { k with holder := spPut 0 k.holder i 0 }
    let s := s.bumpF (claimReg dev die ctr 1) KP_CLAIM_PROGRESS_DONE 1
    let s := s.wf (claimReg dev die ctr 3) KP_CLAIM_HELD_OUTSTANDING (s.claimOut dev die ctr - 1)
    (stOK, s.wf (CO_TSTATUS c) CO_TSTATUS_TOKENS (s.rf (CO_TSTATUS c) CO_TSTATUS_TOKENS - 1))

/-- Ascending insertion. -/
def insertAsc (i : Nat) : List Nat → List Nat
  | [] => [i]
  | a :: t => if i < a then i :: a :: t else if i = a then a :: t else a :: insertAsc i t

/-- on_reset of R208 at one counter. -/
def State.reclaimAt (s : State) (c : Nat) (dev : Bool) (die ctr : Nat) : State :=
  let key := claimKey dev die ctr
  let k := s.claim key
  let held := (k.holder.filter (fun h => h.2 == c + 1)).map (fun h => h.1)
  if held.isEmpty then s
  else
    let s := s.setClaim key { k with holder := k.holder.filter (fun h => h.2 != c + 1), reclaim := held.foldl (fun r i => insertAsc i r) k.reclaim }
    let s := s.wf (claimReg dev die ctr 3) KP_CLAIM_HELD_OUTSTANDING (s.claimOut dev die ctr - held.length)
    s.syncReclaim dev die ctr

/-- Every counter: device-wide or not, die, number. -/
def allCounters : List (Bool × Nat × Nat) :=
  (List.range 16).map (fun n => (true, 0, n)) ++ (List.range 16).flatMap (fun d => (List.range 64).map (fun n => (false, d, n)))

/-- The counters that the state lists indices for. -/
def State.liveCounters (s : State) : List (Bool × Nat × Nat) :=
  s.claims.map (fun c => if 1024 ≤ c.1 then (true, 0, c.1 - 1024) else (false, c.1 / 64, c.1 % 64))

/-- on_reset of R208: the tokens of a core that was reset go to the reclaim lists. -/
def State.reclaimTokens (s : State) (c : Nat) : State :=
  let s := s.liveCounters.foldl (fun s x => s.reclaimAt c x.1 x.2.1 x.2.2) s
  s.wf (CO_TSTATUS c) CO_TSTATUS_TOKENS 0

/-! ## CLAIM and FENCE, on the tiller itself (R202, R203, R205) -/

/-- The tiller goes on past an instruction of `n` bytes. -/
def State.advance (s : State) (c n : Nat) : State := s.modCore c (fun k => { k with pc := k.pc + n, stall := .none })

/-- A register result, and the tiller goes on. -/
def State.result (s : State) (c d v n : Nat) : State := (s.modCore c (fun k => k.wg d v)).advance c n

/-- A DMA engine at rest. -/
def Engine.initial : Engine := ⟨[], 0, none, none, stOK_EMPTY, 0, 0⟩

/-- Engine `e`. -/
def State.engine (s : State) (e : Nat) : Engine := spGet Engine.initial s.engines e

/-- The state with an engine replaced; DM_UNACKED and PENDING follow it (R328, R333). -/
def State.setEngine (s : State) (e : Nat) (g : Engine) : State :=
  let s := { s with engines := spPut Engine.initial s.engines e g }
  (s.wf (DM_UNACKED e) DM_UNACKED_COUNT (min 0xFFFF (g.unacked + g.remote))).wf (DM_STATUS e) DM_STATUS_PENDING g.chains.length

/-- Whether a fence of a kind is satisfied (R202). -/
def State.fenceMet (s : State) (c kind mask : Nat) : Bool :=
  let k := s.core c
  if kind = 0 then k.emptyQs mask
  else
    let a := s.engine (2 * c)
    let b := s.engine (2 * c + 1)
    k.queue.isEmpty && k.unacked == 0 && a.chains.isEmpty && b.chains.isEmpty && a.unacked == 0 && b.unacked == 0
    && (kind == 1 || (k.unackedRemote == 0 && a.remote == 0 && b.remote == 0))

/-- A FENCE: what it does now, or none while it waits; it starts, and makes its checks, once WAITM is met (R176, R178). -/
def State.runFence (s : State) (c : Nat) (t : TileWords) : Option State :=
  let kind := t.f0 24 2
  if !(s.core c).emptyQs t.waitm then none
  else if t.f0 0 16 ≠ 0 ∨ t.w1 ≠ 0#32 ∨ t.w2 ≠ 0#32 ∨ t.f3 0 24 ≠ 0 then some (s.selfFault c stBAD_OPCODE)
  else if kind = 3 ∧ s.rf (CO_TSTATUS c) CO_TSTATUS_TOKENS ≠ 0 then some (s.selfFault c stBAD_OPCODE)
  else if !s.fenceMet c kind (t.f0 16 8) then none
  else
    let s := s.advance c 16
    some (if kind = 3 then s.wf (CO_TSTATUS c) CO_TSTATUS_STATE 2 else s)

/-- A CLAIM: what it does now, or none while it waits; it starts as a FENCE does. -/
def State.runClaim (s : State) (c : Nat) (t : TileWords) : Option State :=
  let kind := t.f0 24 2
  let dev := natBit 23 t.w0.toNat
  let ctr := t.f0 17 6
  let die := c / 64
  if !(s.core c).emptyQs t.waitm then none
  else if 1 < kind ∨ t.f0 16 1 ≠ 0 ∨ t.f0 0 6 ≠ 0 ∨ t.w1 ≠ 0#32 ∨ t.w2 ≠ 0#32 ∨ t.f3 0 24 ≠ 0 ∨ (dev ∧ 16 ≤ ctr)
      ∨ s.claimLimit dev die ctr = 0 then some (s.selfFault c stBAD_OPCODE)
  else if kind = 0 then
    (if s.takeChoice c dev die ctr = .fault then some (s.selfFault c stBAD_OPCODE)
     else (s.takeIndex c dev die ctr).map (fun r => r.2.result c (t.f0 11 5) r.1 16))
  else if !s.fenceMet c 1 0 then none
  else
    let r := s.claimDone c ((s.core c).rg (t.f0 6 5)) dev die ctr
    some (r.2.result c (t.f0 11 5) r.1 16)

/-- A CLAIM or FENCE by its class. -/
def State.runOwn (s : State) (c : Nat) (t : TileWords) : Option State :=
  if t.cls = 0x34 then s.runClaim c t else s.runFence c t

/-! ## What ends a wait (R173, R202, R205) -/

/-- The tiller looks again at what it waits for; loads, sends, receipts and full queues end by their own commands. -/
def State.retry (s : State) (c : Nat) : State :=
  if s.tstate c ≠ 1 then s
  else
    let k := s.core c
    match k.stall with
    | .waitq mask => if k.emptyQs mask then s.advance c 4 else s
    | .statq d q => if (k.inQ q).isEmpty then s.result c d (s.lastSt c q) 4 else s
    | .wfe _ => if k.wake then (s.modCore c (fun k => { k with wake := false })).advance c 4 else s
    | .tile t => (s.runOwn c t).getD s
    | _ => s

/-- The oldest of some entries. -/
def oldest : List QEntry → Option QEntry
  | [] => none
  | e :: t => match oldest t with
    | some x => if x.seq < e.seq then some x else some e
    | none => some e

/-- A queue's entry completes with a status: the next may start, and waits may end (R177, R179). -/
def State.completeEntry (s : State) (c : Nat) (e : QEntry) (st : Nat) : State :=
  let s := s.modCore c (fun k => { k with queue := k.queue.filter (fun x => x.seq != e.seq) })
  let s := s.setLastSt c e.q st
  let s := if stInformational st then s else s.tillerFault c (some e.q) e.pc st
  (s.kick c).retry c

/-- INSTRUCTION_COMPLETE (R135, R177): the executing instruction of a unit's queue ends; of the CV queue, that of converter 0 or 1. -/
def execInstructionComplete (core : CoreId) (queue : UnitSlot) (s : State) : Host.Outcome State Fault Refusal :=
  match oldest (((s.core core).inQ queue.q).filter (fun e => e.started && e.second == queue.second)) with
  | some e => .next (s.completeEntry core e e.status)
  | none => .next s

/-! ## Issue (R135) -/

/-- An entry joins its queue. -/
def State.enqueue (s : State) (c : Nat) (e : QEntry) (n : Nat) : State :=
  let s := s.modCore c (fun k => { k with queue := k.queue ++ [e], seq := k.seq + 1, issued := k.issued ||| 2 ^ e.q })
  (s.advance c n).kick c

/-- An instruction of `n` bytes is issued by the tiller, if it may issue and its program counter is good (R170, R172). -/
def State.issue (s : State) (c n : Nat) (f : State → State) : State :=
  if !s.canIssue c then s
  else
    let pc := (s.core c).pc
    if pc % 4 ≠ 0 then s.selfFault c stALIGN_FAULT
    else if basinSize < pc + n then s.selfFault c stBOUNDS_FAULT
    else f s

/-- A queued tile instruction is issued, or the tiller stalls on a full queue. -/
def State.issueTile (s : State) (c : Nat) (t : TileWords) : State :=
  s.issue c 16 (fun s =>
    let k := s.core c
    let e : QEntry := ⟨k.seq, queueOf t, k.pc, t, k.g, false, 0, false⟩
    if (k.inQ e.q).length < 8 then s.enqueue c e 16 else s.modCore c (fun k => { k with stall := .queueFull e }))

/-- A CLAIM or FENCE is issued: it acts, or the tiller waits. -/
def State.issueOwn (s : State) (c : Nat) (t : TileWords) : State :=
  s.issue c 16 (fun s => (s.runOwn c t).getD (s.modCore c (fun k => { k with stall := .tile t })))

/-- ISSUE_RESUME (R135): the queue has room again. -/
def execIssueResume (core : CoreId) (s : State) : Host.Outcome State Fault Refusal :=
  let k := s.core core
  match k.stall with
  | .queueFull e =>
    if s.tstate core = 1 ∧ (k.inQ e.q).length < 8 then .next (s.enqueue core { e with seq := k.seq } (if e.q < 5 then 16 else 4)) else .next s
  | _ => .next s

end Sys2Proof.Machine
end

