-- ==== Sys2Proof/Machine/TileCmds.lean ====
section
/-! DEFINITION. The tile instructions: each command forces its own class and operation code into the words and is issued (R175, R180, R193, R196, R199, R200, R202, R205). -/

namespace Sys2Proof

/-- The words with the class field replaced. -/
def TileWords.asClass (t : TileWords) (cls : Nat) : TileWords := t.put0 26 6 cls

/-- The words of a VECTOR instruction with a VOP (R197). -/
def TileWords.asVector (t : TileWords) (vop : Nat) : TileWords := (t.asClass 0x32).put0 18 8 vop

/-- The words of a MOVE with a KIND (R199). -/
def TileWords.asMove (t : TileWords) (kind : Nat) : TileWords := (t.asClass 0x33).put0 23 3 kind

/-- The words of a CLAIM or FENCE with a KIND (R202, R205). -/
def TileWords.asOwn (t : TileWords) (cls kind : Nat) : TileWords := (t.asClass cls).put0 24 2 kind

end Sys2Proof

namespace Sys2Proof.Machine

/-- GEMM (R180). -/
def execGemm (core : CoreId) (t : TileWords) (s : State) : Host.Outcome State Fault Refusal :=
  .next (s.issueTile core (t.asClass 0x30))

/-- CONVERT (R193). -/
def execConvert (core : CoreId) (t : TileWords) (s : State) : Host.Outcome State Fault Refusal :=
  .next (s.issueTile core (t.asClass 0x31))

/-- SOUND (R200). -/
def execSound (core : CoreId) (t : TileWords) (s : State) : Host.Outcome State Fault Refusal :=
  .next (s.issueTile core (t.asClass 0x35))

/-- VECTOR ADD (R197). -/
def execVectorAdd (core : CoreId) (t : TileWords) (s : State) : Host.Outcome State Fault Refusal :=
  .next (s.issueTile core (t.asVector 0x00))

/-- VECTOR SUB (R197). -/
def execVectorSub (core : CoreId) (t : TileWords) (s : State) : Host.Outcome State Fault Refusal :=
  .next (s.issueTile core (t.asVector 0x01))

/-- VECTOR MUL (R197). -/
def execVectorMul (core : CoreId) (t : TileWords) (s : State) : Host.Outcome State Fault Refusal :=
  .next (s.issueTile core (t.asVector 0x02))

/-- VECTOR FMA (R197). -/
def execVectorFma (core : CoreId) (t : TileWords) (s : State) : Host.Outcome State Fault Refusal :=
  .next (s.issueTile core (t.asVector 0x03))

/-- VECTOR DIV (R197). -/
def execVectorDiv (core : CoreId) (t : TileWords) (s : State) : Host.Outcome State Fault Refusal :=
  .next (s.issueTile core (t.asVector 0x04))

/-- VECTOR SQRT (R197). -/
def execVectorSqrt (core : CoreId) (t : TileWords) (s : State) : Host.Outcome State Fault Refusal :=
  .next (s.issueTile core (t.asVector 0x05))

/-- VECTOR REM (R197). -/
def execVectorRem (core : CoreId) (t : TileWords) (s : State) : Host.Outcome State Fault Refusal :=
  .next (s.issueTile core (t.asVector 0x06))

/-- VECTOR MIN (R197). -/
def execVectorMin (core : CoreId) (t : TileWords) (s : State) : Host.Outcome State Fault Refusal :=
  .next (s.issueTile core (t.asVector 0x07))

/-- VECTOR MAX (R197). -/
def execVectorMax (core : CoreId) (t : TileWords) (s : State) : Host.Outcome State Fault Refusal :=
  .next (s.issueTile core (t.asVector 0x08))

/-- VECTOR CMPEQ (R197). -/
def execCmpeq (core : CoreId) (t : TileWords) (s : State) : Host.Outcome State Fault Refusal :=
  .next (s.issueTile core (t.asVector 0x09))

/-- VECTOR CMPLT (R197). -/
def execCmplt (core : CoreId) (t : TileWords) (s : State) : Host.Outcome State Fault Refusal :=
  .next (s.issueTile core (t.asVector 0x0A))

/-- VECTOR CMPLE (R197). -/
def execCmple (core : CoreId) (t : TileWords) (s : State) : Host.Outcome State Fault Refusal :=
  .next (s.issueTile core (t.asVector 0x0B))

/-- VECTOR CVT (R197). -/
def execCvt (core : CoreId) (t : TileWords) (s : State) : Host.Outcome State Fault Refusal :=
  .next (s.issueTile core (t.asVector 0x0C))

/-- VECTOR NEG (R197). -/
def execNeg (core : CoreId) (t : TileWords) (s : State) : Host.Outcome State Fault Refusal :=
  .next (s.issueTile core (t.asVector 0x0D))

/-- VECTOR ABS (R197). -/
def execAbs (core : CoreId) (t : TileWords) (s : State) : Host.Outcome State Fault Refusal :=
  .next (s.issueTile core (t.asVector 0x0E))

/-- VECTOR AND (R197). -/
def execVectorAnd (core : CoreId) (t : TileWords) (s : State) : Host.Outcome State Fault Refusal :=
  .next (s.issueTile core (t.asVector 0x10))

/-- VECTOR OR (R197). -/
def execVectorOr (core : CoreId) (t : TileWords) (s : State) : Host.Outcome State Fault Refusal :=
  .next (s.issueTile core (t.asVector 0x11))

/-- VECTOR XOR (R197). -/
def execVectorXor (core : CoreId) (t : TileWords) (s : State) : Host.Outcome State Fault Refusal :=
  .next (s.issueTile core (t.asVector 0x12))

/-- VECTOR SHL (R197). -/
def execShl (core : CoreId) (t : TileWords) (s : State) : Host.Outcome State Fault Refusal :=
  .next (s.issueTile core (t.asVector 0x13))

/-- VECTOR SHR (R197). -/
def execShr (core : CoreId) (t : TileWords) (s : State) : Host.Outcome State Fault Refusal :=
  .next (s.issueTile core (t.asVector 0x14))

/-- VECTOR REDSUM (R197). -/
def execRedsum (core : CoreId) (t : TileWords) (s : State) : Host.Outcome State Fault Refusal :=
  .next (s.issueTile core (t.asVector 0x18))

/-- VECTOR REDMAX (R197). -/
def execRedmax (core : CoreId) (t : TileWords) (s : State) : Host.Outcome State Fault Refusal :=
  .next (s.issueTile core (t.asVector 0x19))

/-- VECTOR LD (R197). -/
def execVectorLd (core : CoreId) (t : TileWords) (s : State) : Host.Outcome State Fault Refusal :=
  .next (s.issueTile core (t.asVector 0x20))

/-- VECTOR ST (R197). -/
def execVectorSt (core : CoreId) (t : TileWords) (s : State) : Host.Outcome State Fault Refusal :=
  .next (s.issueTile core (t.asVector 0x21))

/-- VECTOR LDB (R197). -/
def execLdb (core : CoreId) (t : TileWords) (s : State) : Host.Outcome State Fault Refusal :=
  .next (s.issueTile core (t.asVector 0x22))

/-- VECTOR STB (R197). -/
def execStb (core : CoreId) (t : TileWords) (s : State) : Host.Outcome State Fault Refusal :=
  .next (s.issueTile core (t.asVector 0x23))

/-- VECTOR SRFW (R197). -/
def execSrfw (core : CoreId) (t : TileWords) (s : State) : Host.Outcome State Fault Refusal :=
  .next (s.issueTile core (t.asVector 0x28))

/-- MOVE of KIND 0 (R199). -/
def execMoveAccToReg (core : CoreId) (t : TileWords) (s : State) : Host.Outcome State Fault Refusal :=
  .next (s.issueTile core (t.asMove 0))

/-- MOVE of KIND 1 (R199). -/
def execMoveRegToAcc (core : CoreId) (t : TileWords) (s : State) : Host.Outcome State Fault Refusal :=
  .next (s.issueTile core (t.asMove 1))

/-- MOVE of KIND 2 (R199). -/
def execMoveBasinCopy (core : CoreId) (t : TileWords) (s : State) : Host.Outcome State Fault Refusal :=
  .next (s.issueTile core (t.asMove 2))

/-- MOVE of KIND 3 (R199). -/
def execMoveBasinToSrf (core : CoreId) (t : TileWords) (s : State) : Host.Outcome State Fault Refusal :=
  .next (s.issueTile core (t.asMove 3))

/-- MOVE of KIND 4 (R199). -/
def execMoveSrfToBasin (core : CoreId) (t : TileWords) (s : State) : Host.Outcome State Fault Refusal :=
  .next (s.issueTile core (t.asMove 4))

/-- MOVE of KIND 5 (R199). -/
def execMoveClearRows (core : CoreId) (t : TileWords) (s : State) : Host.Outcome State Fault Refusal :=
  .next (s.issueTile core (t.asMove 5))

/-- FENCE of KIND 0 (R202, R203). -/
def execFenceQueue (core : CoreId) (t : TileWords) (s : State) : Host.Outcome State Fault Refusal :=
  .next (s.issueOwn core (t.asOwn 0x36 0))

/-- FENCE of KIND 1 (R202, R203). -/
def execFenceVisible (core : CoreId) (t : TileWords) (s : State) : Host.Outcome State Fault Refusal :=
  .next (s.issueOwn core (t.asOwn 0x36 1))

/-- FENCE of KIND 2 (R202, R203). -/
def execFenceGlobal (core : CoreId) (t : TileWords) (s : State) : Host.Outcome State Fault Refusal :=
  .next (s.issueOwn core (t.asOwn 0x36 2))

/-- FENCE of KIND 3 (R202, R203). -/
def execFenceEop (core : CoreId) (t : TileWords) (s : State) : Host.Outcome State Fault Refusal :=
  .next (s.issueOwn core (t.asOwn 0x36 3))

/-- CLAIM TAKE (R205, R208). -/
def execClaimTake (core : CoreId) (t : TileWords) (s : State) : Host.Outcome State Fault Refusal :=
  .next (s.issueOwn core (t.asOwn 0x34 0))

/-- CLAIM DONE (R205, R208). -/
def execClaimDone (core : CoreId) (t : TileWords) (s : State) : Host.Outcome State Fault Refusal :=
  .next (s.issueOwn core (t.asOwn 0x34 1))

/-- CLAIM_TAKE_RESUME (R208): a waiting TAKE looks again at its counter. -/
def execClaimTakeResume (core : CoreId) (s : State) : Host.Outcome State Fault Refusal :=
  match (s.core core).stall with
  | .tile t => if t.cls = 0x34 ∧ t.f0 24 2 = 0 then .next (s.retry core) else .next s
  | _ => .next s

end Sys2Proof.Machine
end

