-- ==== Sys2Proof/Machine/Rings.lean ====
section
/-! DEFINITION. Command rings and the doorbell page; the busy conditions of the intake ports and the device's RB_N and ALERT_N; a power domain asked to be ON (R307 to R316, R321, R322, R436, R438, R480). -/

namespace Sys2Proof.Machine

/-! ## Power domains asked for (R436, R438) -/

/-- EN of partition `k` becomes 1. -/
def State.enableDom (s : State) (k : Nat) : State :=
  let st := s.rf (PW_DOM k) PW_DOM_STATE
  let s := s.wb (PW_DOM k) PW_DOM_EN true
  if st = 0 then (s.wf (PW_DOM k) PW_DOM_STATE 1).bumpF (PW_DOM k) PW_DOM_WAKES 1
  else if st = 3 then s.wf (PW_DOM k) PW_DOM_STATE 4
  else if st = 5 then s.wf (PW_DOM k) PW_DOM_STATE 1
  else s

/-- A wake request for partition `k`: deferred while the lock window is open (R80, R440). -/
def State.wakeDom (s : State) (k : Nat) : State :=
  if s.lock.window then { s with lock := { s.lock with deferred := s.lock.deferred ++ [.power k true] } }
  else s.enableDom k

/-! ## Intake ports as rings see them (R315, R321, R323) -/

/-- Slots of a ring: SIZE_LOG2 outside 4 to 16 counts as 4 (R315). -/
def State.ringSlots (s : State) (r : Nat) : Nat :=
  let z := s.rf (KP_RING_CFG r) KP_RING_CFG_SIZE_LOG2
  2 ^ (if 4 ≤ z ∧ z ≤ 16 then z else 4)

/-- Descriptors announced and not fetched. -/
def State.ringAhead (s : State) (r : Nat) : Nat := (s.rd (KP_RING_PROD r) + 2 ^ 32 - s.rd (KP_RING_CONS r)) % 2 ^ 32

/-- The descriptors of a ring that have been fetched and have not completed. -/
def State.ring (s : State) (r : Nat) : List RingExec := spGet [] s.rings r
def State.setRing (s : State) (r : Nat) (l : List RingExec) : State := { s with rings := spPut [] s.rings r l }

/-- Free slots of a ring: a slot is free again once its descriptor has completed (R311). -/
def State.ringFree (s : State) (r : Nat) : Nat := s.ringSlots r - (s.ringAhead r + (s.ring r).length)

def Intake.initial : Intake := ⟨[], [], [], 0, 0, false⟩
def State.port (s : State) (p : Nat) : Intake := spGet Intake.initial s.intake p
def State.setPort (s : State) (p : Nat) (k : Intake) : State := { s with intake := spPut Intake.initial s.intake p k }

/-- Free bytes of a port's pool. -/
def State.poolFree (s : State) (p : Nat) : Nat :=
  s.rf (WH_INTAKE_SIZE (p / 2) (p % 2)) WH_INTAKE_SIZE_SIZE_MIB * 2 ^ 20 - (s.port p).pool.foldl (fun n x => n + x.2) 0

/-- The conditions of R322 that no port gives. -/
def State.deviceLow (s : State) : Bool :=
  s.rf KP_BOOT_STATUS KP_BOOT_STATUS_STAGE != 7 || s.lockSt == 0 || s.lockSt == 4 || s.fleet.adrift || (List.range 4).all (fun k => !s.domOn k)

/-- RING_LOW, POOL_LOW and FREE_MIB of a port, each condition with its own hysteresis, and the port's line, which is released once
none of them holds it: at least 4 MiB and 32 slots free, and the device RB_N released (R321). -/
def State.syncPort (s : State) (p : Nat) : State :=
  let n := p / 2
  let h := p % 2
  if !s.rb (WH_INTAKE_CFG n h) WH_INTAKE_CFG_EN then s
  else
    let a := WH_INTAKE_STATUS n h
    let free := s.poolFree p
    let slots := s.ringFree (s.rf (WH_INTAKE_CFG n h) WH_INTAKE_CFG_RING)
    let rl := if slots < 16 then true else if 32 ≤ slots then false else s.rb a WH_INTAKE_STATUS_RING_LOW
    let pl := if free < 2 ^ 21 then true else if 2 ^ 22 ≤ free then false else s.rb a WH_INTAKE_STATUS_POOL_LOW
    let k := s.port p
    let well := decide (32 ≤ slots) && decide (2 ^ 22 ≤ free)
    let low := decide (slots < 16) || decide (free < 2 ^ 21) || ((k.low || s.deviceLow) && !well)
    (((s.setPort p { k with low := low }).wf a WH_INTAKE_STATUS_FREE_MIB (free / 2 ^ 20)).wb a WH_INTAKE_STATUS_RING_LOW rl).wb a WH_INTAKE_STATUS_POOL_LOW pl

/-- Every port. -/
def State.syncPorts (s : State) : State := (List.range 16).foldl (fun s p => s.syncPort p) s

/-- The ports whose intake ring is `r`. -/
def State.syncRing (s : State) (r : Nat) : State :=
  (List.range 16).foldl (fun s p =>
    if s.rb (WH_INTAKE_CFG (p / 2) (p % 2)) WH_INTAKE_CFG_EN && s.rf (WH_INTAKE_CFG (p / 2) (p % 2)) WH_INTAKE_CFG_RING == r
    then s.syncPort p else s) s

/-- A port in Ethernet mode. -/
def State.ethPort (s : State) (p : Nat) : Bool := s.rf (LK_CFG p) LK_CFG_MODE == 1

/-- A port that takes serving requests. -/
def State.intakeOn (s : State) (p : Nat) : Bool := s.ethPort p && s.rb (WH_INTAKE_CFG (p / 2) (p % 2)) WH_INTAKE_CFG_EN

/-- Whether a port is busy by its own ring and pool, or because its partition domain is not ON (R321). -/
def State.portLow (s : State) (p : Nat) : Bool := (s.port p).low || !s.domOn (wharfPart (p / 2))

/-- Whether the device RB_N is driven low (R322). -/
def State.rbLow (s : State) : Bool :=
  s.deviceLow || ((List.range 16).any (fun p => s.intakeOn p) && (List.range 16).all (fun p => !s.intakeOn p || s.portLow p))

/-- Whether the RB_N line of a port is driven low (R321). -/
def State.portRbLow (s : State) (p : Nat) : Bool :=
  if !s.domOn (wharfPart (p / 2)) then s.ethPort p || s.rbLow
  else if s.intakeOn p then s.portLow p || s.rbLow
  else s.rbLow

/-- Whether ALERT_N is driven low (R480). -/
def State.alertLow (s : State) : Bool :=
  s.rb EV_ALERT EV_ALERT_ALERT_PEND || s.rb EV_ALERT EV_ALERT_FATAL_PEND || s.fleet.adrift
  || s.rf KP_BOOT_STATUS KP_BOOT_STATUS_STAGE == 15

/-! ## Rings (R307 to R315) -/

/-- The address of descriptor `i`. -/
def State.ringAddr (s : State) (r i : Nat) : Nat := s.rdWide (KP_RING_BASE_0 r) 2 / 4096 * 4096 + 64 * (i % s.ringSlots r)

/-- A ring halts (R314). -/
def State.ringHalt (s : State) (r st : Nat) : State :=
  let s := (s.wf (KP_RING_STATUS r) KP_RING_STATUS_STATE 2).wf (KP_RING_STATUS r) KP_RING_STATUS_CODE st
  s.post 0x1E st (s.src 0xD00) (r + s.rd (KP_RING_CONS r) * 2 ^ 32)

/-- A write of the doorbell page: its status and the state (R312, R313). -/
def State.doorbell (s : State) (m : Ident) (off size value : Nat) : Nat × State :=
  if size ≠ 8 ∨ off % 8 ≠ 0 then (stALIGN_FAULT, s)
  else if 0x80 ≤ off then (stBOUNDS_FAULT, s)
  else
    let r := off / 8
    let new := natBits 0 32 value
    let ahead := (new + 2 ^ 32 - s.rd (KP_RING_CONS r)) % 2 ^ 32
    if s.rf (KP_RING_OWNER r) KP_RING_OWNER_OWNER ≠ identWord m ∨ !s.rb (KP_RING_CFG r) KP_RING_CFG_EN ∨ ahead < s.ringAhead r then
      (stOK, s.bumpF (KP_RING_STATUS r) KP_RING_STATUS_IGNORED 1)
    else
      let s := (s.wr (KP_RING_PROD r) new).syncRing r
      (stOK, if s.ringSlots r < ahead then s.ringHalt r stBOUNDS_FAULT else s)

/-- Eight bytes written by the Keeper, here or on another device: word 7 and notifications (R308). -/
def State.keeperWrite (s : State) (addr n v : Nat) : State :=
  match s.resolve addr with
  | none => s
  | some (dev, a) =>
    let m := s.self 0xD00
    if dev ≠ s.devId then (s.sendReq dev 3 txWrite addr n m (tidOf m) 0 (toBytes n v)).2
    else
      match target a with
      | .reg .doorbell o => (s.doorbell m o n v).2
      | _ =>
        let (st, s) := s.checkLocal m a n true
        if st ≠ stOK ∨ a % n ≠ 0 then s else (s.memWr a (toBytes n v)).2

/-- A descriptor ends: word 7, then its notification (R308). -/
def State.ringEnd (s : State) (r : Nat) (d : RingExec) (st : Nat) : State :=
  let w7 := st + 2 ^ 8 + s.epoch * 2 ^ 16
  let s := (s.setRing r ((s.ring r).filter (fun x => x.index != d.index))).syncRing r
  let s := s.keeperWrite (s.ringAddr r d.index + 56) 8 w7
  if natBit 8 (d.words.getD 0 0) then s.keeperWrite (d.words.getD 6 0) 8 w7 else s

/-- OP, FB and EB of a descriptor, and its epoch. -/
def RingExec.op (d : RingExec) : Nat := natBits 0 8 (d.words.getD 0 0)
def RingExec.fb (d : RingExec) : Bool := natBit 9 (d.words.getD 0 0)
def RingExec.eb (d : RingExec) : Bool := natBit 10 (d.words.getD 0 0)
def RingExec.target (d : RingExec) : Nat := natBits 0 48 (d.words.getD 1 0)
def RingExec.word (d : RingExec) (n : Nat) : Nat := d.words.getD n 0

/-- The OPs of R309; OPs 0x1C to 0x1F complete with BAD_OPCODE on every device (R388). -/
def ringOpOk (op : Nat) : Bool := decide (op ≤ 4) || decide (0x10 ≤ op ∧ op ≤ 0x1B)

/-- The eight words of a descriptor's 64 bytes. -/
def descWords (v : Nat) : List Nat := (List.range 8).map (fun i => natBits (64 * i) 64 v)

/-- Whether a descriptor may start: the earlier ones of its ring have begun, or completed where FB asks (R311). -/
def descMay (l : List RingExec) (d : RingExec) : Bool :=
  let before := l.takeWhile (fun x => x.index != d.index)
  !d.begun && before.all (fun x => x.begun) && (!d.fb || before.isEmpty)

/-- Descriptors whose OP R309 does not list complete with BAD_OPCODE once they may start, up to `n` of them (R309, R311). -/
def State.ringSweep (s : State) (r : Nat) : Nat → State
  | 0 => s
  | n + 1 =>
    match (s.ring r).find? (fun d => !ringOpOk d.op && descMay (s.ring r) d) with
    | some d => (s.ringEnd r d stBAD_OPCODE).ringSweep r n
    | none => s

/-- A descriptor completes (R308), and with it those behind it that can do nothing but fail. -/
def State.ringComplete (s : State) (r : Nat) (d : RingExec) (st : Nat) : State := (s.ringEnd r d st).ringSweep r 16

/-- A descriptor has been fetched: CONS counts it; an OP that R309 does not list completes when its turn comes. -/
def State.ringTake (s : State) (r v : Nat) : State :=
  let i := s.rd (KP_RING_CONS r)
  let d : RingExec := ⟨i, descWords v, false, none, false, none⟩
  let s := ((s.wr (KP_RING_CONS r) ((i + 1) % 2 ^ 32)).setRing r (s.ring r ++ [d])).syncRing r
  if ringOpOk d.op then s else s.ringSweep r 16

/-- The descriptor of a command, when it may start: earlier ones have begun, or completed where FB asks (R311). -/
def State.ringBegin (s : State) (r i op : Nat) : Option RingExec :=
  match (s.ring r).find? (fun d => d.index == i && d.op == op && !d.begun) with
  | none => none
  | some d =>
    let before := (s.ring r).takeWhile (fun x => x.index != i)
    if before.all (fun x => x.begun) && (!d.fb || before.isEmpty) then some d else none

/-- The descriptors behind one that has begun. -/
def State.ringBegun (s : State) (r : Nat) : State := s.ringSweep r 16

/-- A descriptor changed in its ring. -/
def State.ringSet (s : State) (r : Nat) (d : RingExec) : State :=
  s.setRing r ((s.ring r).map (fun x => if x.index = d.index then d else x))

/-- A descriptor marked as begun. -/
def State.ringStart (s : State) (r : Nat) (d : RingExec) : State := (s.ringSet r { d with begun := true }).ringBegun r

/-- A ring that may fetch: running, with a descriptor announced and room in execution (R311). -/
def State.ringReady (s : State) (r : Nat) : Bool :=
  s.rf (KP_RING_STATUS r) KP_RING_STATUS_STATE == 1 && s.rd (KP_RING_PROD r) != s.rd (KP_RING_CONS r)
  && decide ((s.ring r).length < 16)

/-- RING_FETCH of a ring on another device (R311): a read of class 3 leaves; once its answer has come, or is the command's operand,
the descriptor is taken. -/
def State.ringFar (s : State) (r a : Nat) (remote : Option (Byte × BitVec 512)) : State :=
  let m := s.self 0xD00
  match remote.map (fun x => (x.1.toNat, x.2.toNat)) <|> (s.remoteGot m a 64).map (fun x => (x.1, ofBytes x.2)) with
  | none => s.remoteAsk m 3 a 64 none
  | some (st, v) =>
    let s := s.remoteForget m [(a, 64)]
    if st ≠ stOK then s.ringHalt r st else s.ringTake r v

/-- RING_FETCH (R307, R311, R314): from the device's own memory, or from another device's. -/
def execRingFetch (ring : Fin 16) (remote : Option (Byte × BitVec 512)) (s : State) : Host.Outcome State Fault Refusal :=
  if !s.ringReady ring then .next (s.ringSweep ring 16)
  else
    match s.resolve (s.ringAddr ring (s.rd (KP_RING_CONS ring))), remote with
    | none, _ => .next (s.ringHalt ring stBOUNDS_FAULT)
    | some (dev, a), r =>
      if dev = s.devId then
        let (st, bs, s) := s.localGet (s.self 0xD00) a 64
        .next (if st ≠ stOK then s.ringHalt ring st else s.ringTake ring (ofBytes bs))
      else .next (s.ringFar ring (s.ringAddr ring (s.rd (KP_RING_CONS ring))) r)

/-- A write of KP_RING_CTRL (R314). -/
def State.ringCtrl (s : State) (r v : Nat) : State :=
  if natBit 0 v && s.rf (KP_RING_STATUS r) KP_RING_STATUS_STATE == 2 then s.wf (KP_RING_STATUS r) KP_RING_STATUS_STATE 1 else s

/-- A write of KP_RING_CFG: SIZE_LOG2 stands while EN is 1, and any write of it then is an event; STATE follows EN (R315). -/
def State.ringCfg (s : State) (m : Ident) (r v : Nat) : State :=
  let a := KP_RING_CFG r
  let s := if s.rb a KP_RING_CFG_EN then
      s.regEvent m a
    else s.wf a KP_RING_CFG_SIZE_LOG2 (natBits 1 5 v)
  let s := s.wf a KP_RING_CFG_EN (natBits 0 1 v)
  let st := s.rf (KP_RING_STATUS r) KP_RING_STATUS_STATE
  let s := s.wf (KP_RING_STATUS r) KP_RING_STATUS_STATE (if natBit 0 v then (if st = 0 then 1 else st) else 0)
  s.syncRing r

end Sys2Proof.Machine
end

