-- ==== Sys2Proof/Machine/Dma.lean ====
section
/-! DEFINITION. The DMA engines: chains, descriptor fetch and checks, the five operations, halts, and the end of a halt (R324 to R333, R515). -/

namespace Sys2Proof.Machine

/-! ## Descriptors (R325) -/

/-- A descriptor's four words. -/
abbrev DmaDesc := Nat × Nat × Nat × Nat

def dSrc (d : DmaDesc) : Nat := d.1
def dDst (d : DmaDesc) : Nat := d.2.1
def dLen (d : DmaDesc) : Nat := natBits 0 24 d.2.2.1
def dRows (d : DmaDesc) : Nat := natBits 24 16 d.2.2.1 + 1
def dOp (d : DmaDesc) : Nat := natBits 40 4 d.2.2.1
def dMtype (d : DmaDesc) : Nat := natBits 44 3 d.2.2.1
def dMop (d : DmaDesc) : Nat := natBits 47 2 d.2.2.1
def dNarrow (d : DmaDesc) : Bool := natBit 49 d.2.2.1
def dCrc (d : DmaDesc) : Bool := natBit 50 d.2.2.1
def dCls (d : DmaDesc) : Nat := if natBit 51 d.2.2.1 then 1 else 2
def dFence (d : DmaDesc) : Bool := natBit 52 d.2.2.1
def dSStride (d : DmaDesc) : Nat := natBits 0 32 d.2.2.2
def dDStride (d : DmaDesc) : Nat := natBits 32 32 d.2.2.2

/-- Bytes per row. -/
def dBytes (d : DmaDesc) : Nat := if dOp d = 3 then 576 * dLen d else dLen d
/-- Row `n` of source and destination. -/
def dSrcRow (d : DmaDesc) (n : Nat) : Nat := dSrc d + n * dSStride d
def dDstRow (d : DmaDesc) (n : Nat) : Nat := dDst d + n * dDStride d

/-- The core of a core engine. -/
def engineCore (e : Nat) : Option Nat := if e < 2048 then some (e / 2) else none

/-- The identity of an engine of this device (R306). -/
def State.engineId (s : State) (e : Nat) : Ident := s.self (0x400 + e)

/-! ## Chains (R324) -/

/-- A chain joins the engine. -/
def State.addChain (s : State) (e : Nat) (k : Chain) : State :=
  let g := s.engine e
  let s := s.setEngine e { g with chains := g.chains ++ [k] }
  if s.rf (DM_STATUS e) DM_STATUS_STATE = 0 then s.wf (DM_STATUS e) DM_STATUS_STATE 1 else s

/-- A write of DM_GO, past the rights of the access. -/
def State.dmGo (s : State) (m : Ident) (e v : Nat) : State :=
  if 8 ≤ (s.engine e).chains.length then s.regEvent m (DM_GO e)
  else
    match engineCore e with
    | none => s.addChain e ⟨s.rdWide (DM_CHAIN_0 e) 2, natBits 0 16 v + 1, none⟩
    | some c =>
      let start := c * basinSize + natBits 0 25 v
      let n := natBits 25 7 v + 1
      let own := s.isLocal m && m.num.toNat == c
      let ctl := s.isLocal m && (match masterOf m.num.toNat with
        | .keeper => true
        | .control _ => true
        | _ => false)
      if own then
        let k := s.core c
        let x : QEntry := ⟨k.seq, 5 + e % 2, k.pc, ⟨0#32, 0#32, 0#32, 0#32⟩, [], false, 0, false⟩
        let s := s.setCore c { k with queue := k.queue ++ [x], seq := k.seq + 1, issued := k.issued ||| 2 ^ (5 + e % 2) }
        (s.syncQueues c).addChain e ⟨start, n, some k.seq⟩
      else if ctl && s.tstate c != 1 then s.addChain e ⟨start, n, none⟩
      else s.regEvent m (DM_GO e)

/-! ## Halts (R329, R330) -/

/-- The chains that a halted engine holds: those it has, and in front of them, where a write of an earlier descriptor has failed,
that descriptor, for RESUME to carry out again (R329, R330). -/
def Engine.haltChains (g : Engine) (desc : Nat) : Engine :=
  match g.chains with
  | [] => { g with chains := [⟨desc, 1, none⟩], index := 0 }
  | k :: t =>
    if desc = k.start + 32 * g.index then g
    else { g with chains := ⟨desc, 1, none⟩ :: ⟨k.start + 32 * g.index, k.count - g.index, k.entry⟩ :: t, index := 0 }

/-- The engine halts. -/
def State.dmaHalt (s : State) (e st : Nat) (dir : Bool) (addr desc : Nat) : State :=
  let g := (s.engine e).haltChains desc
  let s := s.setEngine e { g with desc := none, moved := none }
  let s := (s.wrWide (DM_FAULT_ADDR_0 e) 2 addr).wrWide (DM_FAULT_DESC_0 e) 2 desc
  let s := ((s.wf (DM_STATUS e) DM_STATUS_STATE 2).wb (DM_STATUS e) DM_STATUS_DIR dir).wf (DM_STATUS e) DM_STATUS_CODE st
  s.post 0x09 st (identWord (s.engineId e)) addr

/-- The address of the descriptor in turn. -/
def Engine.descAddr (g : Engine) : Nat := match g.chains with
  | k :: _ => k.start + 32 * g.index
  | [] => 0

/-- A tiller's queue entry for a chain completes with a status. -/
def State.endChainEntry (s : State) (e st : Nat) (k : Chain) : State :=
  match k.entry, engineCore e with
  | some q, some c =>
    (match (s.core c).queue.find? (fun x => x.seq == q) with
     | some x => s.completeEntry c x st
     | none => s)
  | _, some c => s.retry c
  | _, none => s

/-- ABORT: every chain goes (R330). -/
def State.dmaAbortAll (s : State) (e : Nat) : State :=
  let g := s.engine e
  let st := s.rf (DM_STATUS e) DM_STATUS_CODE
  let s := ((s.remoteDrop (s.engineId e)).setEngine e { Engine.initial with unacked := g.unacked, remote := g.remote }).wf (DM_STATUS e) DM_STATUS_STATE 0
  g.chains.foldl (fun s k => s.endChainEntry e st k) s

/-- A write of DM_CTRL (R330, R333). -/
def State.dmCtrl (s : State) (m : Ident) (e v : Nat) : State :=
  if !natBit 0 v && !natBit 1 v then s
  else if s.rf (DM_STATUS e) DM_STATUS_STATE ≠ 2 then s.regEvent m (DM_CTRL e)
  else if natBit 1 v then s.dmaAbortAll e
  else s.wf (DM_STATUS e) DM_STATUS_STATE 1

/-! ## Checks (R326) -/

/-- Whether an address lies in HBM of some device. -/
def State.inHbm (s : State) (a : Nat) : Bool :=
  match s.resolve a with
  | some (_, l) => (match target l with
    | .hbm _ => true
    | _ => false)
  | none => false

/-- The encoding row of R326's table. -/
def State.dmaEncOk (s : State) (d : DmaDesc) : Bool :=
  decide (dOp d ≤ 4) && decide (dMtype d ≤ 5) && natBits 53 11 d.2.2.1 == 0
  && (!dCrc d || dOp d == 3) && (!dNarrow d || dOp d == 0)
  && (!dNarrow d || s.inHbm (dSrc d) || s.inHbm (dDst d))
  && (dOp d != 2 || msopOk (dMtype d) (dMop d))

/-- The alignment row. -/
def State.dmaAlignOk (s : State) (d : DmaDesc) : Bool :=
  if dOp d = 4 then
    dDst d % 8 == 0 && (match s.resolve (dDst d) with
      | some (_, a) => (match target a with
        | .reg .doorbell _ => true
        | .reg _ _ => false
        | _ => true)
      | none => true)
  else
    let n := if dNarrow d then 32 else 64
    (dOp d == 1 || dSrc d % n == 0) && dDst d % n == 0 && dSStride d % n == 0 && dDStride d % n == 0 && (dOp d == 3 || dLen d % n == 0)

/-- The basins' boundaries inside `[a, a + n)`; the other regions of R47, and the regions that rights name, begin and end at such
addresses too. -/
def rangePoints (a n : Nat) : List Nat :=
  ((List.range (n / basinSize + 1)).map (fun i => (a / basinSize + 1 + i) * basinSize)).filter (fun x => decide (x < a + n))

/-- Whether every end of `[a, a + n)` and every boundary inside it is mapped (R47). -/
def mapped (a n : Nat) : Bool := (a :: (a + n - 1) :: rangePoints a n).all (fun x => target x != .hole)

/-- Whether a master may touch `[a, a + n)`, by R16, R47, R49; the rights in a range of another device are checked there. -/
def State.dmaRangeOk (s : State) (m : Ident) (a n : Nat) (write : Bool) : Bool :=
  match s.resolve a with
  | none => false
  | some (dev, l) =>
    let ok := fun x k : Nat => (s.checkLocal m x k write).1 == stOK || (s.checkLocal m x k write).1 == stTARGET_RESET
    if dev ≠ s.devId then mapped l n else ok l n && (rangePoints l n).all (fun x => ok x 1)

/-- The first row whose addresses fail, from row `i` on. -/
def State.dmaBadRow (s : State) (m : Ident) (d : DmaDesc) (i : Nat) : Nat → Option Nat
  | 0 => none
  | n + 1 =>
    if (dOp d == 1 || s.dmaRangeOk m (dSrcRow d i) (dBytes d) false) && s.dmaRangeOk m (dDstRow d i) (dBytes d) true
        && (dOp d != 2 || s.inHbm (dDstRow d i)) then s.dmaBadRow m d (i + 1) n
    else some i

/-- The check of a descriptor: its status, and the row that fails. -/
def State.dmaCheck (s : State) (e : Nat) (d : DmaDesc) : Nat × Nat :=
  if !s.dmaEncOk d then (stBAD_OPCODE, 0)
  else if !s.dmaAlignOk d then (stALIGN_FAULT, 0)
  else if dOp d = 4 then
    (if s.dmaRangeOk (s.engineId e) (dDst d) 8 true then (stOK, 0) else (stBOUNDS_FAULT, 0))
  else if dLen d = 0 then (stOK, 0)
  else match s.dmaBadRow (s.engineId e) d 0 (dRows d) with
    | some i => (stBOUNDS_FAULT, i)
    | none => (stOK, 0)

/-- The fetch of the 32 bytes at `a`: status and bytes (R515); those of another device have been asked for. -/
def State.dmaFetch (s : State) (e a : Nat) : Nat × Nat × State :=
  let m := s.engineId e
  if a % 32 ≠ 0 then (stALIGN_FAULT, 0, s)
  else
    let own := match engineCore e with
      | some c => decide (a + 32 ≤ (c + 1) * basinSize)
      | none => true
    if !own then (stBOUNDS_FAULT, 0, s)
    else match s.resolve a with
      | none => (stBOUNDS_FAULT, 0, s)
      | some (dev, l) =>
        if dev ≠ s.devId then
          let r := s.remoteTake m a 32
          (r.1, ofBytes r.2, s.remoteForget m [(a, 32)])
        else
          let (st, bs, s) := s.localGet m l 32
          (st, ofBytes bs, s)

/-- DMA_DESCRIPTOR_FETCH (R76, R326, R515): the next descriptor of a running engine; no chain is begun while a lock runs. A wharf
engine reads a descriptor of another device over the links first. -/
def execDmaDescriptorFetch (engine : EngineId) (s : State) : Host.Outcome State Fault Refusal :=
  let e := engine.val
  let g := s.engine e
  if s.rf (DM_STATUS e) DM_STATUS_STATE ≠ 1 ∨ g.chains.isEmpty ∨ g.desc.isSome ∨ (g.index = 0 ∧ s.lockSt = 3) then .next s
  else if (engineCore e).isNone && g.descAddr % 32 == 0 && !s.allGot (s.engineId e) [(g.descAddr, 32)] then
    .next (s.askAll (s.engineId e) 2 none [(g.descAddr, 32)])
  else
    let a := g.descAddr
    let (st, v, s) := s.dmaFetch e a
    if st ≠ stOK then .next (s.dmaHalt e st false a a)
    else
      let d : DmaDesc := (natBits 0 64 v, natBits 64 64 v, natBits 128 64 v, natBits 192 64 v)
      let c := s.dmaCheck e d
      if c.1 ≠ stOK then .next (s.dmaHalt e c.1 true (dDstRow d c.2) a)
      else .next (s.setEngine e { s.engine e with desc := some d })

/-! ## Accesses (R275, R327) -/

/-- What a piece of a descriptor's work ends with: done, or a halt (status, write, address). -/
inductive Piece where
  | ok
  | fail (st : Nat) (dir : Bool) (addr : Nat)
  deriving DecidableEq, Repr

/-- A read of `n` bytes of source data; those of another device have been asked for. -/
def State.dmaRd (s : State) (e a n : Nat) : Nat × List Byte × State :=
  let m := s.engineId e
  match s.resolve a with
  | none => (stBOUNDS_FAULT, [], s)
  | some (dev, l) =>
    if dev ≠ s.devId then
      let r := s.remoteTake m a n
      (r.1, r.2, s)
    else s.localGet m l n

/-- A write counted as not acknowledged. -/
def State.dmaUnack (s : State) (e : Nat) (remote : Bool) : State :=
  let g := s.engine e
  s.setEngine e (if remote then { g with remote := g.remote + 1 } else { g with unacked := g.unacked + 1 })

/-- A write or a memory-side operation of an engine leaves for another device, for the descriptor at `desc`; it waits for its answer. -/
def State.engineSend (s : State) (e dev cls op a msop : Nat) (desc : Option Nat) (bs : List Byte) : Nat × State :=
  let m := s.engineId e
  let tid := readTid m (s.remotes.filter (fun r => r.m == m)).length
  let (st, s) := s.sendReq dev cls op a bs.length m tid msop bs
  let r : RemoteReq := ⟨m, a, bs.length, tid, none, true, desc⟩
  (st, if st = stOK then { s with remotes := s.remotes ++ [r] }.dmaUnack e true else s)

/-- Whether the data unit of an address lies in the range `row` that a transfer writes from end to end: the home die then writes the whole
unit (R301), out of the transfer's accesses of 64 bytes (DESIGN CHOICE: R286 has no longer access). -/
def inWhole (row : Nat × Nat) (a : Nat) : Bool := decide (row.1 ≤ a / 512 * 512) && decide (a / 512 * 512 + 512 ≤ row.1 + row.2)

/-- A write of bytes, for the descriptor at `desc`, in a transfer to the range `row`. -/
def State.dmaWr (s : State) (e cls a : Nat) (desc : Option Nat) (row : Nat × Nat) (bs : List Byte) : Nat × State :=
  let m := s.engineId e
  let n := bs.length
  match s.resolve a with
  | none => (stBOUNDS_FAULT, s)
  | some (dev, l) =>
    if dev ≠ s.devId then s.engineSend e dev cls txWrite a 0 desc bs
    else match target l with
      | .reg _ _ => (stALIGN_FAULT, s)
      | _ =>
        let (st, s) := s.checkLocal m l n true
        if st ≠ stOK then (st, s)
        else
          let (st, s) := s.memWrIn l bs (inWhole row a)
          if st ≠ stOK then (st, s.poundError m st) else (stOK, s.dmaUnack e false)

/-- `k` pieces of `n` bytes copied. -/
def State.copyPieces (s : State) (e cls src dst n : Nat) (desc : Option Nat) (row : Nat × Nat) : Nat → Piece × State
  | 0 => (.ok, s)
  | k + 1 =>
    let (st, bs, s) := s.dmaRd e src n
    if st ≠ stOK then (.fail st false src, s)
    else
      let (st, s) := s.dmaWr e cls dst desc row bs
      if st ≠ stOK then (.fail st true dst, s) else s.copyPieces e cls (src + n) (dst + n) n desc row k

/-- `k` pieces of 64 bytes filled with an 8-byte value. -/
def State.fillPieces (s : State) (e cls v dst : Nat) (desc : Option Nat) (row : Nat × Nat) : Nat → Piece × State
  | 0 => (.ok, s)
  | k + 1 =>
    let (st, s) := s.dmaWr e cls dst desc row ((List.replicate 8 (toBytes 8 v)).flatten)
    if st ≠ stOK then (.fail st true dst, s) else s.fillPieces e cls v (dst + 64) desc row k

/-- One 64-byte operand sent to be combined at its destination. -/
def State.msopPiece (s : State) (e cls mtype mop dst : Nat) (desc : Option Nat) (bs : List Byte) : Nat × State :=
  match s.resolve dst with
  | some (dev, _) =>
    if dev ≠ s.devId then s.engineSend e dev cls txMsop dst (mtype + 8 * mop) desc bs
    else
      let (st, s) := s.msop (s.engineId e) dst mtype mop (ofBytes bs)
      (st, if st = stOK then s.dmaUnack e false else s)
  | none => (stBOUNDS_FAULT, s)

/-- `k` pieces of 64 bytes issued as memory-side operations. -/
def State.msopPieces (s : State) (e cls mtype mop src dst : Nat) (desc : Option Nat) : Nat → Piece × State
  | 0 => (.ok, s)
  | k + 1 =>
    let (st, bs, s) := s.dmaRd e src 64
    if st ≠ stOK then (.fail st false src, s)
    else
      let (st, s) := s.msopPiece e cls mtype mop dst desc bs
      if st ≠ stOK then (.fail st true dst, s) else s.msopPieces e cls mtype mop (src + 64) (dst + 64) desc k

/-- Nine 64-byte reads of one barge group. -/
def State.readGroup (s : State) (e src : Nat) : Nat → Piece × List Byte × State
  | 0 => (.ok, [], s)
  | k + 1 =>
    let (st, bs, s) := s.dmaRd e src 64
    if st ≠ stOK then (.fail st false src, [], s)
    else
      let (r, cs, s) := s.readGroup e (src + 64) k
      (r, bs ++ cs, s)

/-- The first barge of a group whose CRC fails. -/
def badBarge (bs : List Byte) : Option Nat :=
  (List.range 8).find? (fun i =>
    let b : Barge := ⟨(bs.drop (64 * i)).take 64, ofBytes ((bs.drop (512 + 8 * i)).take 8)⟩
    b.crc != b.goodCrc)

/-- Nine 64-byte writes. -/
def State.writePieces (s : State) (e cls dst : Nat) (desc : Option Nat) (row : Nat × Nat) (bs : List Byte) : Nat → Piece × State
  | 0 => (.ok, s)
  | k + 1 =>
    let (st, s) := s.dmaWr e cls dst desc row (bs.take 64)
    if st ≠ stOK then (.fail st true dst, s) else s.writePieces e cls (dst + 64) desc row (bs.drop 64) k

/-- One barge group read: nine 64-byte reads, or one transaction for a group on another device (R116, R350). -/
def State.getGroup (s : State) (e src : Nat) : Piece × List Byte × State :=
  if s.isRemote src then
    let (st, bs, s) := s.dmaRd e src 576
    (if st = stOK then .ok else .fail st false src, bs, s)
  else s.readGroup e src 9

/-- One barge group written: nine 64-byte writes, or one transaction of nine body flits to another device (R116, R350). -/
def State.putGroup (s : State) (e cls dst : Nat) (desc : Option Nat) (row : Nat × Nat) (bs : List Byte) : Piece × State :=
  if s.isRemote dst then
    let (st, s) := s.dmaWr e cls dst desc row bs
    (if st = stOK then .ok else .fail st true dst, s)
  else s.writePieces e cls dst desc row bs 9

/-- `k` barge groups moved. -/
def State.bargeGroups (s : State) (e cls : Nat) (chk : Bool) (src dst : Nat) (desc : Option Nat) (row : Nat × Nat) : Nat → Piece × State
  | 0 => (.ok, s)
  | k + 1 =>
    let (r, bs, s) := s.getGroup e src
    if r ≠ .ok then (r, s)
    else
      match (if chk then badBarge bs else none) with
      | some i =>
        let a := src + 64 * i
        let s := if s.running then s.uncorrectable else s
        (.fail stINTEGRITY_FAIL false a, s.post 0x04 stINTEGRITY_FAIL (identWord (s.engineId e)) (a % 2 ^ 48))
      | none =>
        match s.putGroup e cls dst desc row bs with
        | (.ok, s) => s.bargeGroups e cls chk (src + 576) (dst + 576) desc row k
        | r => r

/-- One row of a descriptor. -/
def State.dmaRow (s : State) (e : Nat) (d : DmaDesc) (i : Nat) : Piece × State :=
  let src := dSrcRow d i
  let dst := dDstRow d i
  let n := if dNarrow d then 32 else 64
  let desc := some (s.engine e).descAddr
  let row := (dst, dBytes d)
  if dOp d = 0 then s.copyPieces e (dCls d) src dst n desc row (dLen d / n)
  else if dOp d = 1 then s.fillPieces e (dCls d) (dSrc d) dst desc row (dLen d / 64)
  else if dOp d = 2 then s.msopPieces e (dCls d) (dMtype d) (dMop d) src dst desc (dLen d / 64)
  else s.bargeGroups e (dCls d) (dCrc d) src dst desc row (dLen d)

/-- The rows of a descriptor from row `i` on. -/
def State.dmaRows (s : State) (e : Nat) (d : DmaDesc) (i : Nat) : Nat → Piece × State
  | 0 => (.ok, s)
  | n + 1 =>
    match s.dmaRow e d i with
    | (.ok, s) => s.dmaRows e d (i + 1) n
    | r => r

/-- The one write of a SIGNAL. -/
def State.dmaSignalWr (s : State) (e : Nat) (d : DmaDesc) : Piece × State :=
  let m := s.engineId e
  match s.resolve (dDst d) with
  | none => (.fail stBOUNDS_FAULT true (dDst d), s)
  | some (dev, l) =>
    match target l with
    | .reg .doorbell o =>
      if dev ≠ s.devId then
        let (st, s) := s.engineSend e dev 3 txDoorbell (dDst d) 0 (some (s.engine e).descAddr) (toBytes 8 (dSrc d))
        (if st = stOK then .ok else .fail st true (dDst d), s)
      else
        let (st, s) := s.doorbell m o 8 (dSrc d)
        (if st = stOK then .ok else .fail st true (dDst d), s)
    | _ =>
      let (st, s) := s.dmaWr e (dCls d) (dDst d) (some (s.engine e).descAddr) (dDst d, 8) (toBytes 8 (dSrc d))
      (if st = stOK then .ok else .fail st true (dDst d), s)

/-- Whether an engine may carry out its descriptor of an OP now: fetched, not yet moved, and its fence satisfied. -/
def State.dmaMay (s : State) (e op : Nat) : Option DmaDesc :=
  let g := s.engine e
  match g.desc with
  | some d =>
    if s.rf (DM_STATUS e) DM_STATUS_STATE = 1 ∧ g.moved = none ∧ dOp d = op
        ∧ ((dFence d = false ∧ op ≠ 4) ∨ (g.unacked = 0 ∧ g.remote = 0)) then some d else none
  | none => none

/-- The pieces of one row's source: whole barge groups, 32 bytes on the narrow path, 64 otherwise. -/
def rowPieces (d : DmaDesc) (i : Nat) : List (Nat × Nat) :=
  let n := if dOp d = 3 then 576 else if dNarrow d then 32 else 64
  (List.range (dBytes d / n)).map (fun k => (dSrcRow d i + n * k, n))

/-- The pieces of source data that lie in another device's memory (R327). -/
def State.dmaRemote (s : State) (d : DmaDesc) : List (Nat × Nat) :=
  if dOp d = 1 ∨ dOp d = 4 ∨ dLen d = 0 then []
  else ((List.range (dRows d)).filter (fun i => s.isRemote (dSrcRow d i))).flatMap (fun i => rowPieces d i)

/-- The descriptor of an OP carried out: its last write leaves, or the engine halts. Source data of another device is read over the
links first. -/
def State.dmaRun (s : State) (e op : Nat) : State :=
  match s.dmaMay e op with
  | none => s
  | some d =>
    let far := s.dmaRemote d
    if !s.allGot (s.engineId e) far then s.askAll (s.engineId e) (dCls d) none far
    else
    let empty := op != 4 && dLen d == 0
    let r := if empty then (Piece.ok, s) else if op = 4 then s.dmaSignalWr e d else s.dmaRows e d 0 (dRows d)
    let r := if far.isEmpty then r else (r.1, r.2.remoteForget (s.engineId e) far)
    match r.1 with
    | .ok => r.2.setEngine e { r.2.engine e with moved := some (if empty then stOK_EMPTY else stOK) }
    | .fail st dir a => r.2.dmaHalt e st dir a (s.engine e).descAddr

/-- DMA_COPY (R327). -/
def execDmaCopy (engine : EngineId) (s : State) : Host.Outcome State Fault Refusal := .next (s.dmaRun engine 0)
/-- DMA_FILL (R327). -/
def execDmaFill (engine : EngineId) (s : State) : Host.Outcome State Fault Refusal := .next (s.dmaRun engine 1)
/-- DMA_MSOP (R327). -/
def execDmaMsop (engine : EngineId) (s : State) : Host.Outcome State Fault Refusal := .next (s.dmaRun engine 2)
/-- DMA_BARGE (R327). -/
def execDmaBarge (engine : EngineId) (s : State) : Host.Outcome State Fault Refusal := .next (s.dmaRun engine 3)
/-- DMA_SIGNAL (R327). -/
def execDmaSignal (engine : EngineId) (s : State) : Host.Outcome State Fault Refusal := .next (s.dmaRun engine 4)

/-- DMA_DESCRIPTOR_COMPLETE (R328): the count rises; the last descriptor completes its chain. -/
def execDmaDescriptorComplete (engine : EngineId) (s : State) : Host.Outcome State Fault Refusal :=
  let e := engine.val
  let g := s.engine e
  match g.moved, g.chains with
  | some st, k :: rest =>
    let s := s.bump (DM_DONE_CNT e) 1
    let worst := stWorst g.worst st
    if g.index + 1 < k.count then
      .next (s.setEngine e { g with index := g.index + 1, desc := none, moved := none, worst := worst })
    else
      let s := s.setEngine e { g with chains := rest, index := 0, desc := none, moved := none, worst := stOK_EMPTY }
      let s := if rest.isEmpty then s.wf (DM_STATUS e) DM_STATUS_STATE 0 else s
      .next (s.endChainEntry e worst k)
  | _, _ => .next s

/-! ## Acknowledgements (R202, R328) -/

/-- WRITE_ACKNOWLEDGED (R202): a write of a tiller or an engine has been acknowledged; waits may end. -/
def execWriteAcknowledged (m : Ident) (remote : Bool) (s : State) : Host.Outcome State Fault Refusal :=
  if !s.isLocal m then .next s
  else match masterOf m.num.toNat with
    | .tiller c =>
      let k := s.core c
      let s := s.setCore c (if remote then { k with unackedRemote := k.unackedRemote - 1 } else { k with unacked := k.unacked - 1 })
      .next (s.retry c)
    | .engine e =>
      let g := s.engine e
      let s := s.setEngine e (if remote then { g with remote := g.remote - 1 } else { g with unacked := g.unacked - 1 })
      .next (match engineCore e with
        | some c => s.retry c
        | none => s)
    | _ => .next s

end Sys2Proof.Machine
end

