-- ==== Sys2Proof/Machine/Mailbox.lean ====
section
/-! DEFINITION. Mailboxes: sends and their replies, delivery in every power and reset state, receipt, empty notes, lock registers (R334 to R342). -/

namespace Sys2Proof.Machine

/-! ## Channels -/

def State.chan (s : State) (x : Nat) : BitVec 128 := (spGet ⟨0#128⟩ s.chans x).msg
def State.setChan (s : State) (x : Nat) (v : BitVec 128) : State := { s with chans := spPut ⟨0#128⟩ s.chans x ⟨v⟩ }

/-- Channel `x` holds a message. -/
def State.full (s : State) (x : Nat) : Bool := s.rb (MB_STATUS x) MB_STATUS_FULL

/-- A send from an identity matches the binding of channel `x` (R334). -/
def State.bound (s : State) (x : Nat) (m : Ident) : Bool :=
  s.rb (MB_BIND_0 x) MB_BIND_0_VALID && m.dev.toNat == s.rf (MB_BIND_1 x) MB_BIND_1_SDEV
  && (m.num.toNat &&& s.rf (MB_BIND_0 x) MB_BIND_0_SMASK) == (s.rf (MB_BIND_0 x) MB_BIND_0_SMID &&& s.rf (MB_BIND_0 x) MB_BIND_0_SMASK)

/-! ## Receipt (R337, R338) -/

/-- The value of an empty note for channel `x` (R338). -/
def State.noteOf (s : State) (x : Nat) : Dword := BitVec.ofNat 64 (s.devId * 4096 + x)

/-- The slot of channel `x` empties, and its note leaves for the message's sender. -/
def State.emptySlot (s : State) (x : Nat) : State :=
  let id := s.rf (MB_SENDER x) MB_SENDER_ID
  let m : Ident := ⟨BitVec.ofNat 14 (id / 4096), BitVec.ofNat 12 id⟩
  let s := (s.setChan x 0#128).wr (MB_SENDER x) 0
  let s := (s.wb (MB_STATUS x) MB_STATUS_FULL false).wb (MB_STATUS x) MB_STATUS_WAITING false
  { s with notesOut := s.notesOut ++ [(m, s.noteOf x)] }

/-- The empty notes that core `c` holds. -/
def State.notesOf (s : State) (c : Nat) : List Dword := spGet [] s.notes c

/-- The notes of a core replaced, with their count in MB_NOTES. -/
def State.setNotes (s : State) (c : Nat) (l : List Dword) : State :=
  ({ s with notes := spPut [] s.notes c l }).wf (MB_NOTES (4 * c)) MB_NOTES_COUNT l.length

/-- The three results of a receipt, and the tiller goes on. -/
def State.received (s : State) (c d a b vd va st : Nat) : State :=
  (s.modCore c (fun k => ((k.wg d vd).wg a va).wg b st)).advance c 4

/-- MRECV: what it does now, or none while there is nothing to read. -/
def State.tryRecv (s : State) (c d a b fn : Nat) : Option State :=
  if natBit 3 fn then
    match s.notesOf c with
    | n :: t => some ((s.setNotes c t).received c d a b n.toNat 0 stOK)
    | [] => none
  else
    let x := 4 * c + fn % 4
    if s.full x && !s.rb (MB_STATUS x) MB_STATUS_WAITING then
      let v := (s.chan x).toNat
      some ((s.emptySlot x).received c d a b (v % 2 ^ 64) (v / 2 ^ 64) stOK)
    else none

/-- Something has arrived at core `c`: a WFE or a waiting MRECV ends (R337). -/
def State.arrive (s : State) (c : Nat) : State :=
  let s := s.modCore c (fun k => { k with wake := true })
  if s.tstate c ≠ 1 then s
  else match (s.core c).stall with
    | .mrecv d a b fn => (s.tryRecv c d a b fn).getD s
    | _ => s.retry c

/-! ## Sends (R335, R336, R340) -/

/-- The reply to a send reaches its sender. -/
def State.sendReply (s : State) (x : Send) (st : Nat) : State :=
  match x.tiller, x.link with
  | some c, _ =>
    let k := s.core c
    let s := ((s.setCore c { k with queue := k.queue.filter (fun e => e.q != 7) }).setLastSt c 7 st).syncQueues c
    (match k.stall with
     | .msend d => (s.result c d st 4).kick c
     | _ => s)
  | none, some (_, h) => s.sendResponse h 0 txAck st []
  | none, none =>
    let s := s.reply st []
    if !s.isLocal x.src ∨ stInformational st then s
    else (match masterOf x.src.num.toNat with
      | .tiller c => s.selfFault c st
      | _ => s)

/-- A send that is not delivered: its event, and its reply. -/
def State.sendRefused (s : State) (x : Send) (chan st die : Nat) : State :=
  (s.post 0x0A st (s.src (0xF30 + die)) (identWord x.src + chan % 4 * 2 ^ 32)).sendReply x st

/-- The message is placed in its slot (R340). -/
def State.deliver (s : State) (x : Nat) (d : Send) : State :=
  let c := x / 4
  let k := corePart c
  let s := ((s.setChan x d.msg).wr (MB_SENDER x) (identWord d.src)).wb (MB_STATUS x) MB_STATUS_FULL true
  let s := if s.domOn k then s.arrive c else (s.wb (MB_STATUS x) MB_STATUS_WAITING true).wakeDom k
  s.sendReply d stOK

/-- A send reaches its channel. -/
def State.arriveSend (s : State) (d : Send) : State :=
  match target d.addr with
  | .reg (.mb x) 0 =>
    let c := x / 4
    if !s.present c ∨ !s.permits d.src (.reg (.mb x) 0x10) true then s.sendRefused d x stBOUNDS_FAULT (c / 64)
    else if s.inReset c then s.sendRefused d x stTARGET_RESET (c / 64)
    else if !s.bound x d.src then (s.bump (MB_REFUSED x) 1).sendRefused d x stBOUNDS_FAULT (c / 64)
    else if s.full x then (s.bump (MB_OVERRUN x) 1).sendRefused d x stBOUNDS_FAULT (c / 64)
    else s.deliver x d
  | _ => s.sendRefused d 0 stBOUNDS_FAULT 0

/-- MAILBOX_ARRIVAL (R336, R340): the send that has waited longest reaches its channel. -/
def execMailboxArrival (s : State) : Host.Outcome State Fault Refusal :=
  match s.sends with
  | d :: t => .next ({ s with sends := t }.arriveSend d)
  | [] => .next s

/-- The sends of a master that are still on their way to the die that serves an address (R43). -/
def State.sendsTo (s : State) (m : Ident) (a : Nat) : List Send := s.sends.filter (fun d => d.src == m && (target d.addr).die == (target a).die)

/-- They arrive, in the order issued: a later access of the master to the same die does not overtake them (R43). -/
def State.flushSends (s : State) (m : Ident) (a : Nat) : State :=
  if (s.sendsTo m a).isEmpty then s
  else (s.sendsTo m a).foldl (fun s d => s.arriveSend d)
    { s with sends := s.sends.filter (fun d => !(d.src == m && (target d.addr).die == (target a).die)) }

/-- A write of MB_MSG_0, past the rights of the access: the message leaves (R335). -/
def State.mbSend (s : State) (m : Ident) (x : Nat) : State :=
  { s with sends := s.sends ++ [⟨m, mbBase x, BitVec.ofNat 128 (s.rdWide (MB_MSG_0 x) 4),
      none, none⟩] }

/-- MSEND (R335). -/
def execMsend (core : CoreId) (d a b : BitVec 5) (fn : BitVec 11) (s : State) : Host.Outcome State Fault Refusal :=
  .next (s.issue core 4 (fun s =>
    if fn ≠ 0#11 then s.selfFault core stBAD_OPCODE
    else
      let k := s.core core
      let addr := k.rg d.toNat
      let msg := k.rg a.toNat + k.rg b.toNat * 2 ^ 64
      let x : QEntry := ⟨k.seq, 7, k.pc, ⟨0#32, 0#32, 0#32, 0#32⟩, [], false, 0, false⟩
      let s := (s.setCore core { k with queue := k.queue ++ [x], seq := k.seq + 1, issued := k.issued ||| 128, stall := .msend d.toNat }).syncQueues core
      let m := s.self core
      let here := fun (s : State) (l : Nat) => { s with sends := s.sends ++ [⟨m, l, BitVec.ofNat 128 msg, some core.val, none⟩] }
      match s.resolve addr with
      | some (dev, l) =>
        if dev ≠ s.devId then
          let (st, s) := s.sendReq dev 0 txMailbox addr 16 m (0x1000 + core.val) 0 (toBytes 16 msg)
          if st ≠ stOK then s.sendReply ⟨m, l, BitVec.ofNat 128 msg, some core.val, none⟩ st else s
        else here s l
      | none => here s (2 ^ 63)))

/-- MRECV (R337). -/
def execMrecv (core : CoreId) (d a b : BitVec 5) (fn : BitVec 11) (s : State) : Host.Outcome State Fault Refusal :=
  .next (s.issue core 4 (fun s =>
    if 16 ≤ fn.toNat then s.selfFault core stBAD_OPCODE
    else match s.tryRecv core d.toNat a.toNat b.toNat fn.toNat with
      | some s => s
      | none =>
        if natBit 2 fn.toNat then s.modCore core (fun k => { k with stall := .mrecv d.toNat a.toNat b.toNat fn.toNat })
        else s.received core d.toNat a.toNat b.toNat 0 0 stOK_EMPTY))

/-- An empty note leaves for a master of another device. -/
def State.sendNote (s : State) (m : Ident) (v : Dword) : State :=
  { s with tx := s.tx ++ [⟨m.dev.toNat, 0, txNote, noteHead (s.self 0xD00) m v, 0, []⟩] }

/-- An empty note reaches the sender that it names: a core, the Keeper or a control processor of this device, or over the links
those of another (R338). -/
def State.takeNote (s : State) (m : Ident) (v : Dword) : State :=
  if !s.isLocal m then s.sendNote m v
  else match masterOf m.num.toNat with
    | .tiller c =>
      if 8 ≤ (s.notesOf c).length then s.bump (MB_NOTE_LOST (4 * c)) 1 else (s.setNotes c (s.notesOf c ++ [v])).arrive c
    | .keeper => { s with interrupts := s.interrupts ++ [(m, v)] }
    | .control _ => { s with interrupts := s.interrupts ++ [(m, v)] }
    | _ => s

/-! ## Lock registers (R339) -/

/-- A read of MB_LOCK: its value and the state. -/
def State.lockRead (s : State) (m : Ident) (x : Nat) : Nat × State :=
  let own := 0x80000000 + identWord m
  let v := s.rd (MB_LOCK x)
  if v = 0 then (0, (s.wr (MB_LOCK x) own).wb (MB_STATUS x) MB_STATUS_HELD true)
  else if v = own then (0, s)
  else (v, s)

/-- A write of MB_LOCK. -/
def State.lockWrite (s : State) (m : Ident) (x v : Nat) : State :=
  if v = 0 ∧ s.rd (MB_LOCK x) = 0x80000000 + identWord m then
    (s.wr (MB_LOCK x) 0).wb (MB_STATUS x) MB_STATUS_HELD false
  else s

/-- The locks that masters of this device hold, by a test of the master number, are released (R339). -/
def State.releaseLocks (s : State) (p : Nat → Bool) : State :=
  (List.range 4096).foldl (fun s x =>
    let v := s.rd (MB_LOCK x)
    if v ≠ 0 ∧ v / 4096 % 2 ^ 14 = s.devId ∧ p (v % 4096) then (s.wr (MB_LOCK x) 0).wb (MB_STATUS x) MB_STATUS_HELD false
    else s) s

/-- The slots of core `c` at its reset boundary: messages are discarded and counted, notes leave (R340). -/
def State.discardSlots (s : State) (c : Nat) : State :=
  (List.range 4).foldl (fun s m =>
    let x := 4 * c + m
    if s.full x then
      ((s.bump (MB_DISCARD x) 1).post 0x0B stOK (s.src (0xF30 + c / 64)) (s.rf (MB_SENDER x) MB_SENDER_ID + m * 2 ^ 32)).emptySlot x
    else s) s

/-- The messages held for core `c` are delivered: its domain is ON (R340). -/
def State.raiseHeld (s : State) (c : Nat) : State :=
  (List.range 4).foldl (fun s m =>
    let x := 4 * c + m
    if s.rb (MB_STATUS x) MB_STATUS_WAITING then (s.wb (MB_STATUS x) MB_STATUS_WAITING false).arrive c else s) s

end Sys2Proof.Machine
end

