-- ==== Sys2Proof/Machine/Training.lean ====
section
/-! DEFINITION. Training: the global norm and the clip factor, the spike watch, and what locks and resets do to them (R241, R256 to R270). -/

namespace Sys2Proof.Machine

/-! ## Arithmetic in FP64, rounded to nearest even (R257, R264) -/

def f64Add (a b : Nat) : Nat := (fp64F.add .tiesEven (fp64F.decode a) (fp64F.decode b)).1
def f64Sub (a b : Nat) : Nat := (fp64F.sub .tiesEven (fp64F.decode a) (fp64F.decode b)).1
def f64Mul (a b : Nat) : Nat := (fp64F.mul .tiesEven (fp64F.decode a) (fp64F.decode b)).1
def f64Div (a b : Nat) : Nat := (fp64F.div .tiesEven (fp64F.decode a) (fp64F.decode b)).1
def f64Sqrt (a : Nat) : Nat := (fp64F.sqrt .tiesEven (fp64F.decode a)).1
/-- `a > b`. -/
def f64Gt (a b : Nat) : Bool := (fvLt (fp64F.decode b) (fp64F.decode a)).1
/-- `a ≤ b`. -/
def f64Le (a b : Nat) : Bool := (fvLe (fp64F.decode a) (fp64F.decode b)).1
/-- A whole number, exactly (below 2^53). -/
def f64Nat (n : Nat) : Nat := fp64F.rne ⟨false, n, 0⟩

def f64Finite (x : Nat) : Bool :=
  match fp64F.decode x with
  | .fin _ => true
  | _ => false

/-- An FP64 value rounded to FP32, to nearest even. -/
def f64To32 (x : Nat) : Nat :=
  match fp64F.decode x with
  | .fin y => fp32F.rne y
  | .inf neg => fp32F.infP neg
  | _ => fp32F.qnan

/-- An FP32 value widened exactly. -/
def f32To64 (x : Nat) : Nat :=
  match fp32F.decode x with
  | .fin y => fp64F.rne y
  | .inf neg => fp64F.infP neg
  | _ => fp64F.qnan

/-! ## The global norm (R256 to R258) -/

/-- The schedule asks for a reduction. -/
def State.gnEn (s : State) : Bool := s.rb KP_TRAIN_CTRL KP_TRAIN_CTRL_GN_EN

/-- A write of CO_GN_PART_0 has been taken: the first of a pound sends the partial (R256). -/
def State.gnPartWrite (s : State) (m : Ident) (c : Nat) : State :=
  if !s.gnEn || !s.train.taking.contains c then s
  else if s.rb (CO_GN_STATUS c) CO_GN_STATUS_SENT then s.regEvent m (CO_GN_PART_0 c)
  else
    let s := s.wb (CO_GN_STATUS c) CO_GN_STATUS_SENT true
    { s with train := { s.train with parts := spPut 0 s.train.parts c (s.rdWide (CO_GN_PART_0 c) 2) } }

/-- A taking-part core is reset before it has sent: its hub counts +0 and the pound is vetoed (R258). -/
def State.gnReset (s : State) (c : Nat) : State :=
  if s.gnEn && s.train.taking.contains c && !s.rb (CO_GN_STATUS c) CO_GN_STATUS_SENT then
    ({ s with train := { s.train with taking := s.train.taking.filter (fun x => x != c) } }).veto 32
  else s

/-- The partials of every taking-part core have arrived. -/
def State.gnReady (s : State) : Bool := s.train.taking.all (fun c => s.rb (CO_GN_STATUS c) CO_GN_STATUS_SENT)

/-- die_sum[n] of R257. -/
def State.dieSum (s : State) (n : Nat) : Nat :=
  (List.range 64).foldl (fun r i =>
    if s.train.taking.contains (64 * n + i) then f64Add r (spGet 0 s.train.parts (64 * n + i)) else r) 0

/-- dev_sum of R257. -/
def State.devSum (s : State) : Nat := (List.range 16).foldl (fun r n => f64Add r (s.dieSum n)) 0

/-- A device of role worker or lower manager sends its sum to its manager. -/
def State.manager (s : State) : Nat := s.rf KP_FLEET_ID KP_FLEET_ID_MGR_ID
def State.role (s : State) : Nat := s.rf KP_FLEET_ID KP_FLEET_ID_ROLE

/-- The devices that a manager governs: it sends the norm to each, and adds the sum of each that sends one. -/
def State.workers (s : State) : List Nat := (s.fleet.members.filter (fun m => !m.released)).map (fun m => m.dev)

/-- Those among them that compute, whose sums a manager waits for; a failed one's sum stays missing until it is replaced (R258, R402). -/
def State.summed (s : State) : List Nat := (s.fleet.members.filter (fun m => !m.released && m.duty == 0)).map (fun m => m.dev)

/-- GN_DEVICE_SUM (R257): every partial has arrived; the device's sum is formed, and a worker sends it up. -/
def execGnDeviceSum (s : State) : Host.Outcome State Fault Refusal :=
  if !s.gnEn || !s.inPound || s.train.sum.isSome || !s.gnReady then .next s
  else
    let d := s.devSum
    let s := { s with train := { s.train with sum := some d } }.wrWide KP_GN_SUM_0 2 d
    .next (if s.role = 1 then s.send s.manager 1 txGnSum [s.devId, d] else s)

/-- The workers' sums in ascending device ID, added to the device's own (R257). -/
def State.mgrSum (s : State) (d : Nat) (sums : List (BitVec 14 × Dword)) : Nat :=
  (s.workers.mergeSort (· ≤ ·)).foldl (fun r w =>
    match sums.find? (fun x => x.1.toNat == w) with
    | some x => f64Add r x.2.toNat
    | none => r) d

/-- NORM, FACT and NF of a total (R257). -/
def gnResult (total maxNorm : Nat) : Nat × Nat × Bool :=
  let norm := f64Sqrt total
  if !f64Finite norm then (norm, 0, true)
  else if f64Le maxNorm 0 || f64Le norm maxNorm then (norm, f64Nat 1, false)
  else (norm, f64Div maxNorm norm, false)

/-- NORM, FACT and NF leave for every device that a manager governs. -/
def State.gnSendDown (s : State) (r : Nat × Nat × Bool) : State :=
  s.workers.foldl (fun s w => s.send w 1 txGnResult [r.1, r.2.1, r.2.2.toNat]) s

/-- GN_NORM (R257): the sums of all workers have arrived. A lower manager sends its sum up; the top manager and a
stand-alone device compute the norm and the factor and send them down. -/
def execGnNorm (sums : List (BitVec 14 × Dword)) (s : State) : Host.Outcome State Fault Refusal :=
  match s.train.sum, s.train.result with
  | some d, none =>
    let r := s.role
    if r = 1 ∨ !s.inPound ∨ (r ≠ 0 ∧ !(s.summed.all (fun w => sums.any (fun x => x.1.toNat == w)))) then .next s
    else
      let total := if r = 0 then d else s.mgrSum d sums
      if r = 2 then .next (s.send s.manager 1 txGnSum [s.devId, total])
      else
        let z := gnResult total (s.rdWide KP_GN_MAX_0 2)
        let s := { s with train := { s.train with result := some z } }
        .next (if r = 3 then s.gnSendDown z else s)
  | _, _ => .next s

/-- A sample reaches a channel of the spike watch (R262); those of channel 0 make the loss record (R404). -/
def State.sample (s : State) (ch x : Nat) : State :=
  if s.rf (KP_SPIKE_CFG ch) KP_SPIKE_CFG_ACT = 0 then s
  else
    let s : State := { s with train := { s.train with samples := s.train.samples ++ [(ch, x)] } }
    if ch = 0 ∧ s.fleet.losses.length < 256 then { s with fleet := { s.fleet with losses := s.fleet.losses ++ [BitVec.ofNat 64 x] } } else s

/-- NORM, FACT, FACT32, NF and, last, DONE of a taking-part core. -/
def State.gnDeliver (s : State) (c : Nat) (r : Nat × Nat × Bool) : State :=
  let s := (s.wrWide (CO_GN_NORM_0 c) 2 r.1).wrWide (CO_GN_FACT_0 c) 2 r.2.1
  let s := s.wr (CO_GN_FACT32 c) (f64To32 r.2.1)
  (s.wb (CO_GN_STATUS c) CO_GN_STATUS_NF r.2.2).wb (CO_GN_STATUS c) CO_GN_STATUS_DONE true

/-- GN_DONE (R257, R262): the result has reached the device. Where the device has computed it itself, its own
result stands. -/
def execGnDone (norm fact : Dword) (nf : Bool) (s : State) : Host.Outcome State Fault Refusal :=
  if !s.gnEn || !s.inPound || s.train.delivered || s.train.sum.isNone || ((s.role == 0 || s.role == 3) && s.train.result.isNone) then .next s
  else
    let r := s.train.result.getD (norm.toNat, fact.toNat, nf)
    let s := s.train.taking.foldl (fun s c => s.gnDeliver c r) s
    let s : State := { s with train := { s.train with delivered := true } }
    let s := if s.role = 2 then s.gnSendDown r else s
    .next (s.sample 1 r.1)

/-! ## The spike watch (R262 to R265) -/

/-- A write of CO_LOSS_0 has been taken: a sample, when the loss core wrote its own register (R262). -/
def State.lossWritten (s : State) (m : Ident) (c : Nat) : State :=
  if s.isLocal m && m.num.toNat == c && c == s.rf (KP_SPIKE_CFG 0) KP_SPIKE_CFG_LOSS_CORE then s.sample 0 (s.rdWide (CO_LOSS_0 c) 2)
  else s

/-- The working part of a channel. -/
def State.setWork (s : State) (ch mean var n : Nat) : State :=
  { s with train := { s.train with mean := s.train.mean.set ch mean, var := s.train.var.set ch var, n := s.train.n.set ch n } }

/-- Whether a sample fires (R264). -/
def State.fires (s : State) (ch x : Nat) : Bool :=
  let mean := s.train.mean.getD ch 0
  let k := f32To64 (s.rd (KP_SPIKE_THR ch))
  if !f64Finite x then true
  else if s.rf (KP_SPIKE_WARM ch) KP_SPIKE_WARM_WARMUP ≤ s.train.n.getD ch 0 ∧ f64Gt x mean then
    let d := f64Sub x mean
    f64Gt (f64Mul d d) (f64Mul (f64Mul k k) (s.train.var.getD ch 0))
  else false

/-- The DETAIL of SPIKE and SPIKE_REBASE. -/
def spikeDetail (ch x : Nat) : Nat := ch + f64To32 x * 2 ^ 32

/-- A sample is evaluated (R264, R265). -/
def State.evaluate (s : State) (ch x : Nat) : State :=
  let a := KP_SPIKE_STATUS ch
  let run := s.rf a KP_SPIKE_STATUS_RUN
  let limit := s.rf (KP_SPIKE_CFG ch) KP_SPIKE_CFG_LIMIT
  if s.fires ch x then
    if limit ≠ 0 ∧ limit ≤ run then
      ((s.setWork ch x 0 1).wf a KP_SPIKE_STATUS_RUN 0).post 0x1A stOK (s.src 0xD00) (spikeDetail ch x)
    else
      let s := (s.bumpF a KP_SPIKE_STATUS_RUN 1).wb a KP_SPIKE_STATUS_FIRED true
      let act := s.rf (KP_SPIKE_CFG ch) KP_SPIKE_CFG_ACT
      let s := if act = 1 ∨ act = 2 then s.post 0x19 stOK (s.src 0xD00) (spikeDetail ch x) else s
      if act = 2 then s.veto (if ch = 0 then 4 else 8) else s
  else
    let n := satAdd 65535 (s.train.n.getD ch 0) 1
    let al := (fp64F.max (fp64F.decode (fp64F.rne ⟨false, 1, -(s.rf (KP_SPIKE_CFG ch) KP_SPIKE_CFG_ALPHA_SH : Int)⟩))
      (fp64F.decode (f64Div (f64Nat 1) (f64Nat n)))).1
    let d := f64Sub x (s.train.mean.getD ch 0)
    let mean := f64Add (s.train.mean.getD ch 0) (f64Mul al d)
    let var := f64Mul (f64Sub (f64Nat 1) al) (f64Add (s.train.var.getD ch 0) (f64Mul al (f64Mul d d)))
    (s.setWork ch mean var n).wf a KP_SPIKE_STATUS_RUN 0

/-- SPIKE_SAMPLE (R264, R265): the Keeper evaluates the sample that has waited longest. -/
def execSpikeSample (s : State) : Host.Outcome State Fault Refusal :=
  match s.train.samples with
  | (ch, x) :: t => .next ({ s with train := { s.train with samples := t } }.evaluate ch x)
  | [] => .next s

/-! ## Pounds, locks and restarts (R171, R263, R268, R270, R273) -/

/-- Working copies of the committed parts. -/
def State.spikeLoad (s : State) : State :=
  { s with train := { s.train with
      mean := (List.range 2).map (fun c => s.rdWide (KP_SPIKE_MEAN_0 c) 2)
      var := (List.range 2).map (fun c => s.rdWide (KP_SPIKE_VAR_0 c) 2)
      n := (List.range 2).map (fun c => s.rf (KP_SPIKE_STATUS c) KP_SPIKE_STATUS_N) } }

/-- The reduction begins anew over some cores; CO_GN_STATUS is cleared (R273). -/
def State.gnStart (s : State) (taking : List Nat) : State :=
  let s := (List.range 1024).foldl (fun s c => s.wr (CO_GN_STATUS c) 0) s
  { s with train := { s.train with taking := taking, parts := [], sum := none, result := none, delivered := false } }

/-- A pound starts with some cores running. -/
def State.trainStart (s : State) (taking : List Nat) : State :=
  let s := (s.spikeLoad.gnStart taking).wb (KP_SPIKE_STATUS 0) KP_SPIKE_STATUS_FIRED false
  s.wb (KP_SPIKE_STATUS 1) KP_SPIKE_STATUS_FIRED false

/-- KP_NF_POUND is cleared (R260). -/
def State.nfClear (s : State) : State := (List.range 4).foldl (fun s k => s.wr (KP_NF_POUND k) 0) s

/-- A restart within a lock (R171, R263): samples not yet evaluated go with the working part. -/
def State.trainRestart (s : State) (taking : List Nat) : State :=
  ({ s with train := { s.train with samples := [] }, fleet := { s.fleet with losses := [] } }.nfClear).trainStart taking

/-- The committed part becomes the working part. -/
def State.spikeCommit (s : State) : State :=
  (List.range 2).foldl (fun s c =>
    let s := (s.wrWide (KP_SPIKE_MEAN_0 c) 2 (s.train.mean.getD c 0)).wrWide (KP_SPIKE_VAR_0 c) 2 (s.train.var.getD c 0)
    s.wf (KP_SPIKE_STATUS c) KP_SPIKE_STATUS_N (s.train.n.getD c 0)) s

/-- A 48-bit count rises by 1. -/
def State.count48 (s : State) (a : Nat) : State := s.wrWide a 2 ((s.rdWide a 2 + 1) % 2 ^ 48)

/-- The training part of a COMMIT lock. -/
def State.trainCommit (s : State) : State :=
  let s := s.spikeCommit.nfClear
  let s := (s.wf KP_TRAIN_LAST KP_TRAIN_LAST_OUTCOME 0).wf KP_TRAIN_LAST KP_TRAIN_LAST_EMPTIES 0
  if s.rb KP_TRAIN_CTRL KP_TRAIN_CTRL_TRAIN_EN then (s.count48 KP_STEP_0).count48 KP_CURSOR_0 else s

/-- The training part of an EMPTY lock with its causes; the event is of alert severity when EMPTIES reaches EMPTY_LIMIT (R270). -/
def State.trainEmpty (s : State) (causes : Nat) : State :=
  let was := s.rf KP_TRAIN_LAST KP_TRAIN_LAST_EMPTIES
  let s := ({ s with train := { s.train with samples := [] } }).nfClear
  let s := ((s.wf KP_TRAIN_LAST KP_TRAIN_LAST_OUTCOME 1).wf KP_TRAIN_LAST KP_TRAIN_LAST_CAUSES causes).bumpF KP_TRAIN_LAST KP_TRAIN_LAST_EMPTIES 1
  let e := s.rf KP_TRAIN_LAST KP_TRAIN_LAST_EMPTIES
  let limit := s.rf KP_TRAIN_CTRL KP_TRAIN_CTRL_EMPTY_LIMIT
  let s : State := { s with lock := { s.lock with emptied := decide (was < limit ∧ e = limit) } }
  let s := s.postSev 0x14 (if s.lock.emptied then 2 else 1) stOK (s.src 0xD00) (causes % 64 + e * 2 ^ 8)
  if s.rb KP_TRAIN_CTRL KP_TRAIN_CTRL_TRAIN_EN && (causes &&& s.rf KP_TRAIN_CTRL KP_TRAIN_CTRL_SKIP_MASK) != 0 then s.count48 KP_CURSOR_0
  else s

end Sys2Proof.Machine
end

