-- ==== Sys2Proof/Machine/Events.lean ====
section
/-! DEFINITION. The Keeper's side of events: counts, log ring, captures, the fatal file, ALERT_N and the reports of alerts to the manager (R472 to R486). -/

namespace Sys2Proof.Machine

/-- The log ring (R474). -/
def evRing : Nat := 0x004002000000
/-- The fatal file (R479). -/
def fatalFile : Nat := 0x004103FFFE00

/-- The 32 bytes of a record (R475). -/
def State.recordBytes (s : State) (e : Event) (suppressed : Nat) : List Byte :=
  toBytes 8 e.time ++ toBytes 1 e.cls ++ toBytes 1 e.sev ++ toBytes 1 e.status ++ toBytes 1 0 ++ toBytes 4 e.source
    ++ toBytes 6 s.epoch ++ toBytes 2 suppressed ++ toBytes 8 e.detail

/-- FATAL_PEND follows the slots written since reset and VALID (R486). -/
def State.syncFatal (s : State) : State :=
  s.wb EV_ALERT EV_ALERT_FATAL_PEND ((s.fatalNew &&& s.rf EV_FATAL EV_FATAL_VALID) != 0)

/-- An instance at its slot of the fatal file (R475, R479). -/
def State.fatalSlot (s : State) (e : Event) : State :=
  let i := e.cls - 0x30
  let a := fatalFile + 32 * i
  if natBit i (s.rf EV_FATAL EV_FATAL_VALID) then s.store (a + 22) 2 (satAdd 0xFFFF (s.load (a + 22) 2) 1)
  else
    let s := (s.setBytes a (s.recordBytes e 1)).wf EV_FATAL EV_FATAL_VALID (s.rf EV_FATAL EV_FATAL_VALID ||| 2 ^ i)
    ({ s with fatalNew := s.fatalNew ||| 2 ^ i }).syncFatal

/-- The ring has room (R474). -/
def State.evRoom (s : State) : Bool := decide ((s.rd EV_HEAD + 2 ^ 32 - s.rd EV_TAIL) % 2 ^ 32 < 4096)

/-- Whether an instance is recorded, room apart (R476). -/
def State.evDue (s : State) (e : Event) : Bool :=
  let last := spGet 0 s.lastRec e.cls
  decide (s.rf EV_CTRL EV_CTRL_MIN_SEV ≤ e.sev) && (last == 0 || decide (last + 999999 ≤ e.time))

/-- A capture of 32 bytes into eight registers. -/
def State.capture32 (s : State) (a : Nat) (bs : List Byte) : State :=
  (List.range 8).foldl (fun s w => s.wr (a + 4 * w) (ofBytes ((bs.drop (4 * w)).take 4))) s

/-- The captures of a class (R478). -/
def State.evCapture (s : State) (c : Nat) (bs : List Byte) : State :=
  let s := if s.rb (EV_CAP c) EV_CAP_FIRST_VALID then s
    else (s.capture32 (EV_FIRST c 0) bs).wb (EV_CAP c) EV_CAP_FIRST_VALID true
  (s.capture32 (EV_LAST c 0) bs).wb (EV_CAP c) EV_CAP_LAST_VALID true

/-- The ring's part: a record, a drop, or neither (R474, R476, R477). -/
def State.evLog (s : State) (e : Event) (bs : List Byte) : State :=
  let c := e.cls
  if !s.evDue e then s.bumpF (EV_PEND c) EV_PEND_PEND 1
  else if !s.evRoom then ((s.bump EV_LOST 1).bump (EV_LOST_CLASS c) 1).bumpF (EV_PEND c) EV_PEND_PEND 1
  else
    let h := s.rd EV_HEAD
    let s := (s.setBytes (evRing + 32 * (h % 4096)) bs).wr EV_HEAD ((h + 1) % 2 ^ 32)
    ({ s with lastRec := spPut 0 s.lastRec c (e.time + 1) }).wf (EV_PEND c) EV_PEND_PEND 0

/-- ALERT_PEND, LAST_CLASS and the manager's REPORT for an instance of severity ALERT or FATAL (R480, R481). -/
def State.evAlert (s : State) (e : Event) (bs : List Byte) : State :=
  if e.sev < 2 then s
  else
    let s := (s.wb EV_ALERT EV_ALERT_ALERT_PEND true).wf EV_ALERT EV_ALERT_LAST_CLASS e.cls
    if s.role = 1 ∨ s.role = 2 then s.send s.manager 3 txReport ((List.range 4).map (fun i => ofBytes ((bs.drop (8 * i)).take 8))) else s

/-- The Keeper applies one instance. -/
def State.applyEvent (s : State) (e : Event) : State :=
  let bs := s.recordBytes e (s.rf (EV_PEND e.cls) EV_PEND_PEND)
  let s := s.bump (EV_CNT e.cls) 1
  let s := if 0x30 ≤ e.cls ∧ e.cls ≠ 0x33 then s.fatalSlot e else s
  ((s.evCapture e.cls bs).evLog e bs).evAlert e bs

/-- EVENT_REPORT (R473): the report that has waited longest reaches the Keeper, unless it is in a Keeper-only reset or has failed. -/
def execEventReport (s : State) : Host.Outcome State Fault Refusal :=
  if s.boot.keeperDown || s.fleet.adrift then .next s
  else match s.events with
    | e :: t => .next ({ s with events := t }.applyEvent e)
    | [] => .next s

/-- A write of EV_TAIL (R485). -/
def State.evTail (s : State) (m : Ident) (v : Nat) : State :=
  if 4096 < (s.rd EV_HEAD + 2 ^ 32 - v) % 2 ^ 32 then s.regEvent m EV_TAIL else s.wr EV_TAIL v

/-- A write of EV_FATAL clears the VALID bits it names (R479). -/
def State.evFatal (s : State) (v : Nat) : State :=
  let old := s.rf EV_FATAL EV_FATAL_VALID
  (s.wf EV_FATAL EV_FATAL_VALID (old - (old &&& v))).syncFatal

/-- KEEPER_FIRMWARE_EXCEPTION (R472, R479): a KEEPER_FAULT with the Keeper's program counter. -/
def execKeeperFirmwareException (pc : Dword) (s : State) : Host.Outcome State Fault Refusal :=
  .next (s.post 0x34 stOK (s.src 0xD00) pc.toNat)

end Sys2Proof.Machine
end

