-- ==== Sys2Proof/Machine/Time.lean ====
section
/-! DEFINITION. Network time: the sources and their qualification, failover and holdover, slewing and steps, time loss, PPS_OUT (R53 to R64). -/

namespace Sys2Proof.Machine

/-- The time unit as the source of an event (R475). -/
def State.tmSrc (s : State) : Nat := s.src 0xF20

/-! ## Sources (R54 to R58) -/

/-- Whether source 1, 2 or 3 is qualified and may be used. -/
def State.srcOk (s : State) (k : Nat) : Bool :=
  if k = 1 then s.rb TM_SRC_CTRL TM_SRC_CTRL_PPS_EN && s.rb TM_SRC_STATUS TM_SRC_STATUS_PPS_OK
      && s.rb TM_SRC_STATUS TM_SRC_STATUS_REF_OK && s.rb TM_SRC_STATUS TM_SRC_STATUS_TOD_VALID
  else if k = 2 then s.rb TM_SRC_CTRL TM_SRC_CTRL_PTP_EN && s.rb TM_SRC_STATUS TM_SRC_STATUS_PTP_OK
      && s.ethPort (s.rf TM_SRC_CTRL TM_SRC_CTRL_PTP_PORT)
  else if k = 3 then s.rb TM_SRC_CTRL TM_SRC_CTRL_EWE_EN && s.rb TM_SRC_STATUS TM_SRC_STATUS_EWE_OK
  else true

/-- The instants since which the sources are qualified follow their state. -/
def State.syncSources (s : State) : State :=
  { s with time := { s.time with since := (List.range 3).map (fun i =>
      if s.srcOk (i + 1) then (if s.time.since.getD i 0 = 0 then s.now + 1 else s.time.since.getD i 0) else 0) } }

/-- A bit of TM_SRC_STATUS, and what follows from it. -/
def State.setSrc (s : State) (f : Fld) (b : Bool) : State := (s.wb TM_SRC_STATUS f b).syncSources

/-- The active source. -/
def State.active (s : State) : Nat := s.rf TM_SRC_STATUS TM_SRC_STATUS_ACTIVE

/-- The error bound of a source (R59). -/
def State.srcBound (s : State) (k : Nat) : Nat := if k = 3 then s.time.eweBound else 20

/-- ERR_BOUND, saturating. -/
def State.setBound (s : State) (n : Nat) : State := s.wf TM_SRC_STATUS TM_SRC_STATUS_ERR_BOUND (min 0xFFFF n)

/-- The time unit changes to a source, or to holdover (0), and records it (R58, R60). -/
def State.changeSource (s : State) (k : Nat) : State :=
  let old := s.active
  let bound := s.rf TM_SRC_STATUS TM_SRC_STATUS_ERR_BOUND
  let s := s.wf TM_SRC_STATUS TM_SRC_STATUS_ACTIVE k
  let s := if k = 0 then { s with time := { s.time with holdSince := s.now, holdBase := bound } }
    else ({ s with time := { s.time with changed := true } }).setBound (s.srcBound k)
  s.post 0x10 stOK s.tmSrc (old + k * 4)

/-- PPS_IN has failed. -/
def State.ppsFailed (s : State) (t : Nat) : State :=
  ({ s with time := { s.time with ppsBadAt := max s.time.ppsBadAt t } }).setSrc TM_SRC_STATUS_PPS_OK false

/-- An edge of PPS_IN, rising or falling: more than two in 100 ms are a failure (R56). -/
def State.ppsAnyEdge (s : State) (t : Nat) : State :=
  let es := t :: s.time.ppsEdges.filter (fun x => decide (t < x + 100000000))
  let s := { s with time := { s.time with ppsEdges := es, ppsLast := t } }
  if 2 < es.length then s.ppsFailed t else s

/-- Whether an edge lies within ±1 µs of a whole number of seconds from the reference (R56). -/
def ppsInWindow (ref t : Int) : Bool :=
  let d := (t - ref) % 1000000000
  decide (d ≤ 1000) || decide (1000000000 - 1000 ≤ d)

/-- PPS_EDGE (R56, R58): a rising edge at a network time. Before a valid time of day the window has no reference;
the first edge after it is the reference. -/
def execPpsEdge (at_ : Nat) (s : State) : Host.Outcome State Fault Refusal :=
  let t : Int := at_ - sext 16 (s.rf TM_PPS_DELAY TM_PPS_DELAY_DELAY)
  let s := s.ppsAnyEdge at_
  if !s.rb TM_SRC_STATUS TM_SRC_STATUS_TOD_VALID then .next s
  else
    let good := match s.time.ppsRef with
      | none => true
      | some r => ppsInWindow r t
    if good then .next { s with time := { s.time with ppsRef := some t } }
    else .next (({ s with time := { s.time with ppsBadAt := max s.time.ppsBadAt at_ } }).post 0x11 stOK s.tmSrc at_)

/-- PPS_IN_FALLING_EDGE (R56). -/
def execPpsInFallingEdge (at_ : Nat) (s : State) : Host.Outcome State Fault Refusal := .next (s.ppsAnyEdge at_)

/-- PPS_FAIL (R56): no edge for more than 1.5 s. -/
def execPpsFail (s : State) : Host.Outcome State Fault Refusal :=
  .next (if s.time.ppsLast + 1500000000 < s.now then s.ppsFailed s.now else s)

/-- PPS_REQUALIFY (R56): 10 s without a failure condition and with every rising edge inside the window. -/
def execPpsRequalify (s : State) : Host.Outcome State Fault Refusal :=
  if !s.rb TM_SRC_STATUS TM_SRC_STATUS_PPS_OK && decide (s.time.ppsBadAt + 10000000000 ≤ s.now)
      && decide (s.now ≤ s.time.ppsLast + 1500000000) && s.time.ppsRef.isSome then
    .next (s.setSrc TM_SRC_STATUS_PPS_OK true)
  else .next s

/-- REF10M_FAIL (R57; its 10 s count on the resonator, which no step moves): absent for more than 10 µs, or more than 5 ppm off. -/
def execRef10mFail (absentNs : Nat) (ppb : Int) (s : State) : Host.Outcome State Fault Refusal :=
  if 10000 < absentNs ∨ 5000 < ppb.natAbs then
    .next (({ s with time := { s.time with refBadAt := s.boot.uptime } }).setSrc TM_SRC_STATUS_REF_OK false)
  else .next s

/-- REF10M_REQUALIFY (R57). -/
def execRef10mRequalify (s : State) : Host.Outcome State Fault Refusal :=
  if !s.rb TM_SRC_STATUS TM_SRC_STATUS_REF_OK && decide (s.time.refBadAt + 10000000000 ≤ s.boot.uptime) then
    .next (s.setSrc TM_SRC_STATUS_REF_OK true)
  else .next s

/-- The instants that the time unit keeps move with a step of network time by `d` ns, so that the intervals it measures are those of
the resonator. -/
def TimeState.step (t : TimeState) (d : Int) : TimeState :=
  let mv := fun n : Nat => (d + n).toNat
  { t with ppsRef := t.ppsRef.map (fun r => r + d), ppsEdges := t.ppsEdges.map mv, ppsLast := mv t.ppsLast, ppsBadAt := mv t.ppsBadAt,
           ptpAt := mv t.ptpAt, eweAt := mv t.eweAt, since := t.since.map (fun n => if n = 0 then 0 else max 1 (mv n)),
           holdSince := mv t.holdSince, ppsOutAt := mv t.ppsOutAt, todAhead := t.todAhead - d }

/-- Network time steps by `d` ns (R61). -/
def State.stepTime (s : State) (d : Int) : State :=
  let n := (d * 65536 + s.rdWide TM_NOW_0 3).toNat % 2 ^ 80
  { s with time := s.time.step d }.wrWide TM_NOW_0 3 n

/-- The whole seconds of a difference of times of day, to the nearest: what source 1 takes of it (R55). -/
def wholeSeconds (d : Int) : Int := (d + 500000000) / 1000000000 * 1000000000

/-- A time of day has been supplied (R55). Where no schedule runs, the count takes it in holdover, and its second on source 1; else it is
kept as the most recent one, for source 1 to take. -/
def State.supplyTod (s : State) (ns : Nat) : State :=
  let d : Int := (ns : Int) - s.now
  let s : State := { s with time := { s.time with todAhead := d } }
  let s := if s.running ∨ 1 < s.active then s else s.stepTime (if s.active = 1 then wholeSeconds d else d)
  s.setSrc TM_SRC_STATUS_TOD_VALID true

/-- PTP_TIMEOUT (R54): no measurement completed for more than one second. -/
def execPtpTimeout (s : State) : Host.Outcome State Fault Refusal :=
  .next (if s.time.ptpAt + 1000000000 < s.now then s.setSrc TM_SRC_STATUS_PTP_OK false else s)

/-- TIME_OF_DAY_WRITE (R55): the Keeper alone writes it. -/
def execTimeOfDayWrite (m : Ident) (ns : Nat) (s : State) : Host.Outcome State Fault Refusal :=
  if s.isLocal m ∧ masterOf m.num.toNat = .keeper then .next (s.supplyTod ns) else .next s

/-- The first qualified source, or holdover. -/
def State.bestSource (s : State) : Nat := ((List.range 3).find? (fun i => s.srcOk (i + 1))).elim 0 (fun i => i + 1)

/-- SOURCE_FAILOVER (R58): the active source has failed. -/
def execSourceFailover (s : State) : Host.Outcome State Fault Refusal :=
  .next (if s.srcOk s.active then s else s.changeSource s.bestSource)

/-- SOURCE_UPGRADE (R58): a source of higher preference has stayed qualified for 10 s. -/
def execSourceUpgrade (s : State) : Host.Outcome State Fault Refusal :=
  let a := s.active
  match (List.range 3).find? (fun i => s.srcOk (i + 1) && s.time.since.getD i 0 != 0
      && decide (s.time.since.getD i 0 + 9999999999 ≤ s.now)) with
  | some i => .next (if a = 0 ∨ i + 1 < a then s.changeSource (i + 1) else s)
  | none => .next s

/-! ## The running count (R60 to R63) -/

/-- The error added in a holdover of so many ns: the maximum column of R60 at its four times; between two of them the manual states
none, so it is free between their figures, and past the last no less than its figure. -/
def holdoverError (ns : Nat) : Nat :=
  let free := fun lo hi : Nat => max lo (min hi (Config.holdoverBetween ns))
  if ns = 0 then 0 else if ns < 10 ^ 9 then free 0 10 else if ns = 10 ^ 9 then 10 else if ns < 10 ^ 10 then free 10 100
  else if ns = 10 ^ 10 then 100 else if ns < 10 ^ 11 then free 100 1000 else if ns = 10 ^ 11 then 1000
  else if ns < 10 ^ 12 then free 1000 12000 else if ns = 10 ^ 12 then 12000 else max 12000 (Config.holdoverBetween ns)

/-- The correction in 2^-16 ns while a schedule runs: at most 10 ppm of the time elapsed (R61). -/
def State.slew (s : State) (elapsed : Nat) (offset : Int) : Int :=
  if s.active = 0 ∨ !s.running then 0
  else
    let limit : Int := (elapsed * 65536 / 100000 : Nat)
    max (-limit) (min limit (offset * 65536))

/-- The correction while no schedule runs: a step to the source at once, forward or backward (R61; DESIGN CHOICE: R53 says that network
time increases monotonically, and gives no other rule for a source that is behind). Source 1 takes the second last supplied (R55). -/
def State.correction (s : State) (offset : Int) : State :=
  if s.active = 0 ∨ s.running then s
  else s.stepTime (if s.active = 1 then offset + wholeSeconds (s.time.todAhead - offset) else offset)

/-- TIME_LOST by the bound and the measured offset (R62). -/
def State.judgeTime (s : State) (fresh : Bool) : State :=
  let b := s.rf TM_SRC_STATUS TM_SRC_STATUS_ERR_BOUND
  let o := s.time.offset.natAbs
  if 1000 < b ∨ (fresh ∧ 1000 < o) then
    (if s.rb TM_SRC_STATUS TM_SRC_STATUS_TIME_LOST then s
     else
       let s := s.wb TM_SRC_STATUS TM_SRC_STATUS_TIME_LOST true
       if s.inFleet then s else s.post 0x12 stOK s.tmSrc b)
  else if b < 500 ∧ o < 500 then s.wb TM_SRC_STATUS TM_SRC_STATUS_TIME_LOST false
  else s

/-- What counts with the time that passes: the time since T0, the milliseconds of R513, and the input energy at the average power. -/
def State.countTime (s : State) (elapsed : Nat) : State :=
  let p := s.power
  let l := if s.rb PW_CLK PW_CLK_LIMITED then p.limitedNs + elapsed else p.limitedNs
  let t := if s.rb PW_CLK PW_CLK_THROTTLED then p.throttledNs + elapsed else p.throttledNs
  let h := if s.rb PW_SUPPLY PW_SUPPLY_HBM_HOT then p.hotNs + elapsed else p.hotNs
  let e := p.energyNj + s.rf PW_POWER PW_POWER_AVG * elapsed
  let s := { s with boot := { s.boot with uptime := s.boot.uptime + elapsed }, power := { p with
      limitedNs := l % 1000000, throttledNs := t % 1000000, hotNs := h % 1000000, energyNj := e % 1000000000 } }
  let s := ((s.bump PW_LIMITED_MS (l / 1000000)).bump PW_THROTTLE_MS (t / 1000000)).bump PW_HBM_HOT_MS (h / 1000000)
  s.wrWide PW_ENERGY_0 2 ((s.rdWide PW_ENERGY_0 2 + e / 1000000000) % 2 ^ 64)

/-- TIME_DISCIPLINE_TICK (R53, R60 to R62): the bound of a holdover only grows. `elapsed` ns pass on the resonator, and the active source is measured
`offset` ns ahead of network time. -/
def execTimeDisciplineTick (elapsed : Nat) (offset : Int) (s : State) : Host.Outcome State Fault Refusal :=
  let next : Int := s.rdWide TM_NOW_0 3 + (elapsed * 65536 : Nat) + s.slew elapsed offset
  let s := ((s.wrWide TM_NOW_0 3 (next.toNat % 2 ^ 80)).countTime elapsed).correction offset
  if s.active = 0 then
    let b := s.time.holdBase + holdoverError (s.now - s.time.holdSince)
    .next ((s.setBound (max b (s.rf TM_SRC_STATUS TM_SRC_STATUS_ERR_BOUND))).judgeTime false)
  else
    let fresh := s.time.changed
    let s := ({ s with time := { s.time with offset := offset, changed := false } }).setBound (s.srcBound s.active)
    .next (s.judgeTime fresh)

/-! ## PPS_OUT (R64) -/

/-- Whether PPS_OUT may be high. -/
def State.ppsOutOn (s : State) : Bool := s.rb TM_LOCK_CTRL TM_LOCK_CTRL_PPS_OUT_EN && s.rb TM_SRC_STATUS TM_SRC_STATUS_TOD_VALID

/-- PPS_OUT_RISE: at a whole second of network time, within ±5 ns. -/
def execPpsOutRise (s : State) : Host.Outcome State Fault Refusal :=
  if s.ppsOutOn && !s.pins.ppsOut && decide ((s.now + 5) % 1000000000 ≤ 10) then
    .next { s with pins := { s.pins with ppsOut := true }, time := { s.time with ppsOutAt := (s.now + 5) / 1000000000 * 1000000000 } }
  else .next s

/-- PPS_OUT_FALL: 100 ms after the rise. -/
def execPpsOutFall (s : State) : Host.Outcome State Fault Refusal :=
  if s.pins.ppsOut && decide (s.time.ppsOutAt + 100000000 ≤ s.now) then .next { s with pins := { s.pins with ppsOut := false } }
  else .next s

end Sys2Proof.Machine
end

