-- ==== Sys2Proof/Machine/Link.lean ====
section
/-! DEFINITION. Eweline links and Ethernet interfaces: training, keys, codewords with slots, credits and replay, lane failures and retrains, towpath, re-keying, delay measurement and time transfer, Ethernet (R343 to R381, R462). -/

namespace Sys2Proof.Machine

/-! ## Sub-ports -/

/-- A sub-port that has never been UP. -/
def Sub.initial : Sub :=
  { txNum := 0, rxNum := 0, replay := [], queue := [], rx := [], keeperIn := false, line := [], resend := none, credits := [0, 0, 0, 0],
    freed := [0, 0, 0, 0], turn := 0, floor := 0, sinceMgmt := 100, c0Win := 0, c0Left := 0, nakDue := false, keys := [none, none], readySent := false, readyPeer := false, peerAcked := false, switchDue := false,
    oldNum := none, oldAckAt := none, trainAt := 0, back := 3, downAt := 0, delays := [], reqT1 := none, ttAt := 0, latched := [],
    towSince := none, towPeer := false, enterSent := false, fullSince := none, outstanding := [], fwd := [] }

def State.sub (s : State) (p b : Nat) : Sub := spGet Sub.initial s.subs (8 * p + b)
def State.setSub (s : State) (p b : Nat) (k : Sub) : State := { s with subs := spPut Sub.initial s.subs (8 * p + b) k }
def State.modSub (s : State) (p b : Nat) (f : Sub → Sub) : State := s.setSub p b (f (s.sub p b))

/-- LK_STATE.STATE: 0 DOWN, 1 TRAIN, 2 OPEN, 3 UP, 4 TOWPATH, 5 RETRAIN, 6 ETH_UP. -/
def State.setLink (s : State) (p b st : Nat) : State := s.wf (LK_STATE p b) LK_STATE_STATE st

/-- The link port as the source of an event (R475). -/
def State.lkSrc (s : State) (p : Nat) : Nat := s.src (0xF10 + p)

/-- DETAIL of the link events (R472). -/
def State.lkDetail (s : State) (p b : Nat) : Nat := p + b * 2 ^ 4 + s.rf (LK_STATE p b) LK_STATE_WIDTH * 2 ^ 8

/-- Nominal width of a port's sub-ports, and whether a sub-port exists (R344). -/
def State.nominal (s : State) (p : Nat) : Nat := 8 / 2 ^ s.rf (LK_CFG p) LK_CFG_SPLIT
def State.subExists (s : State) (p b : Nat) : Bool := s.rf (LK_CFG p) LK_CFG_MODE == 0 && decide (b < 2 ^ s.rf (LK_CFG p) LK_CFG_SPLIT)

/-- The domain of a port's full-rate logic is ON (R347). -/
def State.portOn (s : State) (p : Nat) : Bool := s.domOn (wharfPart (p / 2)) && !s.partInReset (wharfPart (p / 2))

/-- Whether a lane of a port has failed. -/
def State.laneBad (s : State) (p i : Nat) : Bool := natBit i (s.rf (LK_LANES p) LK_LANES_FAILED)

/-- The largest aligned group of good lanes of at most `2^k` lanes within a sub-port: log of its width, first lane (R360). -/
def State.laneGroup (s : State) (p b : Nat) : Nat → Option (Nat × Nat)
  | 0 => ((List.range (s.nominal p)).find? (fun i => !s.laneBad p (b * s.nominal p + i))).map (fun i => (0, b * s.nominal p + i))
  | k + 1 =>
    match (List.range (s.nominal p / 2 ^ (k + 1))).find? (fun j =>
        (List.range (2 ^ (k + 1))).all (fun i => !s.laneBad p (b * s.nominal p + j * 2 ^ (k + 1) + i))) with
    | some j => if 2 ^ (k + 1) ≤ s.nominal p then some (k + 1, b * s.nominal p + j * 2 ^ (k + 1)) else s.laneGroup p b k
    | none => s.laneGroup p b k

/-- Bits `[first, first + n)` of a lane mask. -/
def laneMask (first n : Nat) : Nat := (2 ^ n - 1) * 2 ^ first

/-- The lanes of a sub-port that carry traffic, in LK_LANES. -/
def State.setActive (s : State) (p b mask : Nat) : State :=
  let own := laneMask (b * s.nominal p) (s.nominal p)
  let old := s.rf (LK_LANES p) LK_LANES_ACTIVE
  s.wf (LK_LANES p) LK_LANES_ACTIVE (old - (old &&& own) + mask)

/-- Width and active lanes of a full-rate link; false where no lane is usable. -/
def State.settleWidth (s : State) (p b : Nat) : Bool × State :=
  match s.laneGroup p b 3 with
  | some (k, first) => (true, (s.wf (LK_STATE p b) LK_STATE_WIDTH k).setActive p b (laneMask first (2 ^ k)))
  | none => (false, s)

/-- The lane of a towpath link: the lowest that has not failed (R368). -/
def State.towLane (s : State) (p b : Nat) : State :=
  match s.laneGroup p b 0 with
  | some (_, i) => s.setActive p b (laneMask i 1)
  | none => s

/-! ## What ends at a master (R361, R363, R386) -/

/-- A store of tiller `c` to another device ends; a fault status stops the core at that store (R173, R179). -/
def State.storeDone (s : State) (c n st : Nat) : State :=
  let k := s.core c
  let pc := match k.stores.find? (fun x => x.1 == n) with
    | some x => x.2
    | none => k.pc
  let s := s.setCore c { k with unackedRemote := k.unackedRemote - 1, stores := k.stores.filter (fun x => x.1 != n) }
  if stInformational st then s.retry c else s.tillerFault c none pc st

/-- A write of engine `e` to another device ends. One that fails halts the engine at that write, or stands against the COPY that it
belongs to (R328, R329). -/
def State.remoteWritten (s : State) (r : RemoteReq) (e st : Nat) : State :=
  let g := s.engine e
  let s := { s with remotes := s.remotes.erase r }.setEngine e { g with remote := g.remote - 1 }
  if st = stOK then (match engineCore e with
    | some c => s.retry c
    | none => s)
  else match r.desc with
    | none => s.setEngine e { s.engine e with worst := stWorst g.worst st }
    | some d => if s.rf (DM_STATUS e) DM_STATUS_STATE = 2 then s else s.dmaHalt e st true r.addr d

/-- A request of this device to another ends: its status, and what a read returned. -/
def State.completeRemote (s : State) (tid st : Nat) (data : List Byte) : State :=
  if 0x1000 ≤ tid ∧ tid < 0x1400 then
    let c := tid - 0x1000
    match (s.core c).stall with
    | .msend _ => s.sendReply ⟨s.self c, 0, 0#128, some c, none⟩ st
    | _ => s
  else if 0x10000 ≤ tid ∧ tid < 0x80000000 then
    match s.remotes.find? (fun r => r.write && r.tid == tid), masterOf (tid % 4096) with
    | some r, .engine e => s.remoteWritten r e st
    | _, _ => s.remoteAnswer tid st data
  else if 0x80000000 ≤ tid then s.storeDone (tid % 1024) (tid / 1024 % 2 ^ 21) st
  else match masterOf tid with
    | .tiller c =>
      (match (s.core c).stall with
       | .load d w a none _ => s.modCore c (fun k => { k with stall := .load d w a (some (BitVec.ofNat 64 (ofBytes data))) st })
       | _ => s)
    | _ => s.reply st data

/-- The response to a request: a read's carries data, another's is an acknowledgement. -/
def answerOp (op : Nat) : Nat := if op = 1 then txResponse else txAck

/-- The class in which a request is answered: memory, mailbox, doorbell. -/
def answerClass (op : Nat) : Nat := if op = 5 then 0 else if op = 4 then 3 else 2

/-- A request is answered with a status; anything else is not answered. -/
def State.answerTx (s : State) (h : Head) (st : Nat) (data : List Byte) : State :=
  if isRequest h.op.toNat then s.sendResponse h (answerClass h.op.toNat) (answerOp h.op.toNat) st data else s

/-- A request that waits to leave ends at its master with a status: a request of this device, or one that it forwards. -/
def State.endTx (s : State) (t : Tx) (st : Nat) : State :=
  if !isRequest t.op then s
  else if s.isLocal t.head.src then s.completeRemote t.head.tid.toNat st [] else s.answerTx t.head st []

/-- Requests of some classes whose route is a sub-port end with a status, where they have not been put on it yet. -/
def State.endQueued (s : State) (p b st : Nat) (cls : List Nat) : State :=
  let mine := fun t : Tx => s.egress t.dev == some (p, b) && isRequest t.op && cls.contains t.cls
  (s.tx.filter mine).foldl (fun s t => s.endTx t st) { s with tx := s.tx.filter (fun t => !mine t) }

/-- Whether the head of a request is still on this side of a link: it waits, or no acknowledgement covers it. -/
def Sub.holds (k : Sub) (tid : Nat) : Bool :=
  (k.queue ++ k.replay.flatMap (fun x => x.cw.flits)).any (fun f => f.kind == .head && flitTid f == tid)

/-- Every request outstanding on a link ends with a status, those that this device forwards too. -/
def State.failOutstanding (s : State) (p b : Nat) (st : Nat → Nat) : State :=
  let k := s.sub p b
  let s := k.outstanding.foldl (fun s t => s.completeRemote t (st t) []) (s.modSub p b (fun k => { k with outstanding := [], fwd := [] }))
  k.fwd.foldl (fun s h => s.answerTx h (st h.tid.toNat) []) s

/-- How an outstanding request ends where its link is taken away: TARGET_RESET when it had reached the far side, BUS_FAULT otherwise (R363). -/
def State.reachedStatus (s : State) (p b tid : Nat) : Nat := if (s.sub p b).holds tid then stBUS_FAULT else stTARGET_RESET

/-- Requests of classes 1 and 2 whose heads wait on a sub-port, or for it, end with TARGET_RESET: towpath does not carry them (R368). -/
def State.endBulk (s : State) (p b : Nat) : State :=
  let k := s.sub p b
  let r1 := dropRequests 1 0 k.queue
  let r2 := dropRequests 2 0 r1.1
  let tids := (r1.2 ++ r2.2).map flitTid
  let s := s.setSub p b { k with queue := r2.1, outstanding := k.outstanding.filter (fun t => !tids.contains t),
                                 fwd := k.fwd.filter (fun h => !tids.contains h.tid.toNat) }
  let s := (k.outstanding.filter (fun t => tids.contains t)).foldl (fun s t => s.completeRemote t stTARGET_RESET []) s
  let s := (k.fwd.filter (fun h => tids.contains h.tid.toNat)).foldl (fun s h => s.answerTx h stTARGET_RESET []) s
  s.endQueued p b stTARGET_RESET [1, 2]

/-- A sub-port is in towpath: one lane, and classes 0 and 3 alone (R368). -/
def State.toTowpath (s : State) (p b : Nat) : State :=
  let s := ((s.towLane p b).setLink p b 4).wf (LK_STATE p b) LK_STATE_WIDTH 0
  (s.modSub p b (fun k => { k with towSince := none, towPeer := false, enterSent := false, fullSince := none })).endBulk p b

/-- Flits by which a long-reach store extends a receive buffer (R356). -/
def longFlits : Nat := 2 ^ 20

/-- LONG of a sub-port (R356). -/
def State.longReach (s : State) (p b : Nat) : Bool := s.rb (LK_STATE p b) LK_STATE_LONG

/-- Credits that a sub-port starts with, by class, and what those of classes 1 and 2 together must leave: of the 1952 w flits that the two
share, each class leaves the other's 256 w (R355). The peer's store is taken to be in use while this end's is: both measure one round trip (R356; DESIGN CHOICE). -/
def State.fullCredits (s : State) (p b : Nat) : List Nat × Nat :=
  let w := s.nominal p
  let x := if s.longReach p b then longFlits else 0
  ([64 * w, 1696 * w + x, 1696 * w + x, 32 * w], 1440 * w + x)

/-- A sub-port with the credits of the peer's empty buffer. -/
def State.giveCredits (s : State) (p b : Nat) : State :=
  let c := s.fullCredits p b
  s.modSub p b (fun k => { k with credits := c.1, floor := c.2 })

/-- LONG as measured: a store that comes into use adds to the credits of classes 1 and 2, and one that goes out of use takes away what it added (R356). -/
def State.setLong (s : State) (p b : Nat) (v : Bool) : State :=
  let old := s.longReach p b
  let s := s.wb (LK_STATE p b) LK_STATE_LONG v
  if old = v then s
  else
    let f := fun n : Nat => if v then n + longFlits else n - longFlits
    s.modSub p b (fun k => { k with credits := (k.credits.set 1 (f (k.credits.getD 1 0))).set 2 (f (k.credits.getD 2 0)), floor := f k.floor })

/-- Both key phases, numbers and replay of a link are gone (R357, R361). -/
def State.wipeLink (s : State) (p b : Nat) : State :=
  let k := s.sub p b
  let s := s.setSub p b { Sub.initial with downAt := s.now, delays := k.delays, reqT1 := none, ttAt := k.ttAt }
  (s.wrWide (LK_KEYCNT_0 p b) 2 0).wb (LK_STATE p b) LK_STATE_KPH false

/-- The time-source sub-port of lowest number with TT_OK (R378). -/
def State.ttPort (s : State) : Option Nat :=
  (List.range 128).find? (fun i => s.rb (LK_STATE (i / 8) (i % 8)) LK_STATE_TT_OK && s.rb (LK_STATE (i / 8) (i % 8)) LK_STATE_TT_SRC)

/-- EWE_OK: some time source has TT_OK (R54, R378). -/
def State.syncEwe (s : State) : State :=
  s.setSrc TM_SRC_STATUS_EWE_OK (s.ttPort).isSome

/-- The link goes DOWN (R361): requests outstanding on it end each with its status, and those that wait for it with BUS_FAULT. -/
def State.linkDown (s : State) (p b : Nat) (st : Nat → Nat) : State :=
  let s := (s.failOutstanding p b st).endQueued p b stBUS_FAULT [0, 1, 2, 3]
  let s := (s.wipeLink p b).setLink p b 0
  let s := (s.setActive p b 0).wb (LK_STATE p b) LK_STATE_TT_OK false
  s.syncEwe.post 0x21 stBUS_FAULT (s.lkSrc p) (s.lkDetail p b)

/-- A KEY_READY flit (R351). -/
def Flit.keyReady (f : Flit) : Bool := f.kind == .control && natBits 0 8 f.data.toNat == 7

/-- This end's KEY_READY waits for its slot or for its acknowledgement. -/
def Sub.keyReadyWaits (k : Sub) : Bool := k.queue.any Flit.keyReady || k.replay.any (fun x => x.cw.flits.any Flit.keyReady)

/-- An OPEN link comes UP with fresh keys once both KEY_READY flits have been acknowledged (R357, R364). -/
def State.comeUp (s : State) (p b : Nat) : State :=
  let k := s.sub p b
  if s.linkSt p b != 2 || !k.readySent || !k.readyPeer || !k.peerAcked || k.keyReadyWaits then s
  else
    let s := s.setSub p b { k with txNum := 0, rxNum := 0, replay := [], resend := none, rx := [], freed := [0, 0, 0, 0],
                                   nakDue := false, switchDue := false, oldNum := none, oldAckAt := none, readySent := false, readyPeer := false,
                                   peerAcked := false }
    ((s.giveCredits p b).wrWide (LK_KEYCNT_0 p b) 2 0).setLink p b 3

/-- A control flit of a type, with its content, waits for a slot (R351). -/
def State.control (s : State) (p b typ content : Nat) : State :=
  let cls : BitVec 2 := if typ = 7 then 3#2 else 0#2
  s.modSub p b (fun k => { k with queue := k.queue ++ [⟨cls, .control, BitVec.ofNat 512 (typ + 256 * content)⟩] })

/-! ## Training and keys (R361, R364, R366, R367, R462) -/

/-- A link that has trained is OPEN, with the credits of the peer's empty buffer (R355, R364). -/
def State.openLink (s : State) (p b : Nat) : State := (s.setLink p b 2).giveCredits p b

/-- LINK_TRAINED (R359, R364): training ends in OPEN, with the lanes that failed it. -/
def execLinkTrained (port : PortId) (sub : SubId) (failed : BitVec 8) (peer : BitVec 14) (s : State) : Host.Outcome State Fault Refusal :=
  if s.linkSt port sub ≠ 1 ∨ !s.subExists port sub then .next s
  else
    let own := laneMask (sub.val * s.nominal port) (s.nominal port)
    let s := s.wf (LK_LANES port) LK_LANES_FAILED (s.rf (LK_LANES port) LK_LANES_FAILED ||| (failed.toNat &&& own))
    let (ok, s) := s.settleWidth port sub
    if !ok then .next (s.linkDown port sub (fun _ => stBUS_FAULT))
    else .next ((s.openLink port sub).wf (LK_STATE port sub) LK_STATE_PEER peer.toNat)

/-- A change is bound. -/
def State.bind (s : State) (e : Nat) (c : Change) (ref : Option (Nat × Nat)) : State :=
  { s with lock := { s.lock with changes := s.lock.changes ++ [⟨e, c, ref⟩] } }

/-- The epoch of the next lock whose configuration step is still to come. -/
def State.nextChange (s : State) : Nat := if s.lock.committed then s.epoch + 2 else s.epoch + 1

/-- LINK_KEY_EXCHANGE (R364, R366, R372, R462): keys and salts are installed, in OPEN for the link to come UP, on an UP or
towpath link in the inactive phase, with the switch bound to the next lock (DESIGN CHOICE: R366 leaves the epoch to the Keeper); a device
that is adrift exchanges none. -/
def execLinkKeyExchange (port : PortId) (sub : SubId) (good : Bool) (material : BitVec 320) (s : State) :
    Host.Outcome State Fault Refusal :=
  let st := s.linkSt port sub
  let ph := (s.rb (LK_STATE port sub) LK_STATE_KPH).toNat
  let s := { s with sec := { s.sec with ephemeral := none } }
  if !good || s.fleet.adrift then .next s
  else if st = 2 then
    let s := s.modSub port sub (fun k => { k with keys := k.keys.set ph (some material), readySent := true })
    .next (s.control port sub 7 0)
  else if st = 3 ∨ st = 4 then .next ((s.modSub port sub (fun k => { k with keys := k.keys.set (1 - ph) (some material) })).bind s.nextChange (.rekey (8 * port.val + sub.val)) none)
  else .next s

/-- KEY_READY (R364): the peer has installed its keys; the next codeword acknowledges its flit. -/
def execKeyReady (port : PortId) (sub : SubId) (s : State) : Host.Outcome State Fault Refusal :=
  if s.linkSt port sub = 2 then .next (s.modSub port sub (fun k => { k with readyPeer := true })) else .next s

/-- REKEY_SWITCH (R366, R373): the transmitter changes phase, after the configuration step that bound it. -/
def execRekeySwitch (port : PortId) (sub : SubId) (s : State) : Host.Outcome State Fault Refusal :=
  let k := s.sub port sub
  let st := s.linkSt port sub
  let ph := s.rb (LK_STATE port sub) LK_STATE_KPH
  if k.switchDue && (st == 3 || st == 4) && (k.keys.getD (!ph).toNat none).isSome then
    let s := s.setSub port sub { k with switchDue := false, oldNum := some k.txNum, oldAckAt := none }
    .next ((s.wb (LK_STATE port sub) LK_STATE_KPH (!ph)).wrWide (LK_KEYCNT_0 port sub) 2 0)
  else .next s

/-- KEY_PHASE_ERASE (R366): 1 ms after the last codeword under the old phase was acknowledged. -/
def execKeyPhaseErase (port : PortId) (sub : SubId) (phase : Bool) (s : State) : Host.Outcome State Fault Refusal :=
  let k := s.sub port sub
  match k.oldAckAt with
  | some t =>
    if phase ≠ s.rb (LK_STATE port sub) LK_STATE_KPH ∧ t + 1000000 ≤ s.now then
      .next (s.setSub port sub { k with keys := k.keys.set phase.toNat none, oldNum := none, oldAckAt := none })
    else .next s
  | none => .next s

/-- KEY_AGING (R367): at 2^42 codewords the link falls back to OPEN. -/
def execKeyAging (port : PortId) (sub : SubId) (s : State) : Host.Outcome State Fault Refusal :=
  let st := s.linkSt port sub
  if (st = 3 ∨ st = 4) ∧ 2 ^ 42 ≤ s.rdWide (LK_KEYCNT_0 port sub) 2 then
    .next ((s.setLink port sub 2).post 0x22 stOK (s.lkSrc port) (s.lkDetail port sub))
  else .next s

/-! ## Retrain and loss (R359 to R362) -/

/-- A retrain starts. -/
def State.startRetrain (s : State) (p b : Nat) : State :=
  let back := s.linkSt p b
  let s := ((s.setLink p b 5).bump (LK_RETRAIN p b) 1).riskInput 1 1
  s.modSub p b (fun k => { k with trainAt := s.now, back := back })

/-- LANE_FAIL (R359, R368; a towpath link moves to the lowest lane that is left): 4 uncorrectable codewords in 1 ms, or a corrected symbol error ratio above 10^-4. -/
def execLaneFail (port : PortId) (sub : SubId) (lane : Fin 8) (uncorrectable : Nat) (correctedPpm : Nat) (s : State) :
    Host.Outcome State Fault Refusal :=
  let w := s.nominal port
  if !s.subExists port sub ∨ lane.val / w ≠ sub.val ∨ (uncorrectable < 4 ∧ correctedPpm ≤ 100) then .next s
  else
    let s := s.wf (LK_LANES port) LK_LANES_FAILED (s.rf (LK_LANES port) LK_LANES_FAILED ||| 2 ^ lane.val)
    .next (if s.linkSt port sub = 3 then s.startRetrain port sub else if s.linkSt port sub = 4 then s.towLane port sub else s)

/-- A request to enter towpath, after the drain (R369). -/
def State.wantTowpath (s : State) (p b : Nat) : State :=
  if s.linkSt p b = 3 then s.modSub p b (fun k => { k with towSince := some (k.towSince.getD s.now) }) else s

/-- The peer has sent TOWPATH_ENTER: this end changes over with it (R369). -/
def State.peerTowpath (s : State) (p b : Nat) : State :=
  if s.linkSt p b = 3 then s.modSub p b (fun k => { k with towSince := some (k.towSince.getD s.now), towPeer := true }) else s

/-- A request to return to full rate (R370); a device that is adrift stays in towpath (R372). -/
def State.wantFull (s : State) (p b : Nat) : State :=
  if s.linkSt p b = 4 ∧ s.portOn p ∧ !s.fleet.adrift then s.modSub p b (fun k => { k with fullSince := some (k.fullSince.getD s.now) }) else s

/-- A WAKE that names partitions (R371). -/
def State.wakeMask (s : State) (mask : Nat) : State :=
  (List.range 4).foldl (fun s k => if natBit k mask then s.wakeDom k else s) s

/-- A control flit, or a write of LK_CTRL, that acts on the link: 4 WAKE, 5 TOWPATH_ENTER (mask 1 where it is LK_CTRL's), 6 FULL_RATE. -/
def State.actControl (s : State) (p b typ mask : Nat) : State :=
  if typ = 4 then s.wakeMask mask
  else if typ = 5 then (if mask = 0 then s.peerTowpath p b else s.wantTowpath p b)
  else s.wantFull p b

/-- Control flits latched during a retrain act in arrival order (R373). -/
def State.actLatched (s : State) (p b : Nat) : State :=
  let l := (s.sub p b).latched
  l.foldl (fun s x => s.actControl p b x.1 x.2) (s.modSub p b (fun k => { k with latched := [] }))

/-- The state of a link is changing: a retrain, the drain before towpath, training back to full rate (R373). -/
def State.linkMoves (s : State) (p b : Nat) : Bool :=
  s.linkSt p b == 5 || (s.sub p b).towSince.isSome || (s.sub p b).fullSince.isSome

/-- Such a flit arrives: latched while the state of the link is changing, but for the peer's TOWPATH_ENTER at an end that is on its way there
too; ignored where the link is neither UP nor in towpath. -/
def State.takeControl (s : State) (p b typ mask : Nat) : State :=
  let st := s.linkSt p b
  if s.linkMoves p b && !(typ == 5 && (s.sub p b).towSince.isSome) then s.modSub p b (fun k => { k with latched := k.latched ++ [(typ, mask)] })
  else if st = 3 ∨ st = 4 then s.actControl p b typ mask
  else s

/-- RETRAIN_DONE (R360): the widest usable group; a narrower link posts a degradation. A link that was OPEN or in towpath is so again. -/
def execRetrainDone (port : PortId) (sub : SubId) (s : State) : Host.Outcome State Fault Refusal :=
  if s.linkSt port sub ≠ 5 then .next s
  else if (s.sub port sub).back = 4 then .next ((s.toTowpath port sub).actLatched port sub)
  else
    let (ok, s) := s.settleWidth port sub
    if !ok then .next (s.linkDown port sub (fun _ => stBUS_FAULT))
    else
      let s := s.setLink port sub (if (s.sub port sub).back = 2 then 2 else 3)
      let s := if 2 ^ s.rf (LK_STATE port sub) LK_STATE_WIDTH < s.nominal port then
          s.post 0x20 stOK (s.lkSrc port) (s.lkDetail port sub) else s
      .next (s.actLatched port sub)

/-- LINK_DOWN (R361): a retrain that has not ended within 100 ms, or no usable lane. -/
def execLinkDown (port : PortId) (sub : SubId) (s : State) : Host.Outcome State Fault Refusal :=
  let st := s.linkSt port sub
  if (st = 5 ∧ (s.sub port sub).trainAt + 100000000 ≤ s.now) ∨ (1 ≤ st ∧ st ≤ 5 ∧ (s.laneGroup port sub 0).isNone) then
    .next (s.linkDown port sub (fun _ => stBUS_FAULT))
  else .next s

/-- LINK_RETRY_TIMER (R361): a DOWN link trains again every second. -/
def execLinkRetryTimer (port : PortId) (sub : SubId) (s : State) : Host.Outcome State Fault Refusal :=
  if s.linkSt port sub = 0 ∧ s.subExists port sub ∧ s.portOn port ∧ (s.sub port sub).downAt + 1000000000 ≤ s.now then
    .next (s.setLink port sub 1)
  else .next s

/-- A write of LK_CTRL (R362, R369 to R371, R373): FULL_RATE is told to the peer, and a WAKE written during a retrain waits for its end. -/
def State.lkCtrl (s : State) (m : Ident) (p b v : Nat) : State :=
  let st := s.linkSt p b
  let ev := fun (s : State) => s.regEvent m (LK_CTRL p b)
  let s := if natBit 1 v then
      (if st = 3 then
        let own := laneMask (b * s.nominal p) (s.nominal p)
        let f := s.rf (LK_LANES p) LK_LANES_FAILED
        (s.wf (LK_LANES p) LK_LANES_FAILED (f - (f &&& own))).startRetrain p b
       else ev s)
    else if natBit 0 v then (if st = 3 then s.startRetrain p b else ev s) else s
  let s := if natBit 2 v then (if st = 4 ∨ st = 0 then ev s else s.takeControl p b 5 1) else s
  let s := if natBit 3 v then
      (let s := s.takeControl p b 6 0
       if st = 4 ∧ s.portOn p then s.control p b 6 0 else s)
    else s
  if natBit 4 v ∧ (st = 3 ∨ st = 4 ∨ st = 5) then s.control p b 4 (natBits 5 4 v) else s

/-! ## Towpath (R368 to R373) -/

/-- A TOWPATH_ENTER flit. -/
def Flit.towpathEnter (f : Flit) : Bool := f.kind == .control && natBits 0 8 f.data.toNat == 5

/-- TOWPATH_CHANGEOVER (R369, R373): once the replay buffer is empty, or 100 µs have passed, TOWPATH_ENTER is queued; once it has left, or the
peer's has come, the change. A replay asked for is sent first. -/
def execTowpathChangeover (port : PortId) (sub : SubId) (s : State) : Host.Outcome State Fault Refusal :=
  let k := s.sub port sub
  match k.towSince with
  | some t =>
    if s.linkSt port sub ≠ 3 ∨ k.resend.isSome then .next s
    else if k.towPeer ∨ (k.enterSent ∧ !k.queue.any Flit.towpathEnter) then .next ((s.toTowpath port sub).actLatched port sub)
    else if !k.enterSent ∧ (k.replay.isEmpty ∨ t + 100000 ≤ s.now) then
      .next ((s.control port sub 5 0).modSub port sub (fun k => { k with enterSent := true }))
    else .next s
  | none => .next s

/-- FULL_RATE_TRAINED (R370): UP again with its keys, numbers and credits. -/
def execFullRateTrained (port : PortId) (sub : SubId) (s : State) : Host.Outcome State Fault Refusal :=
  if s.linkSt port sub = 4 ∧ (s.sub port sub).fullSince.isSome ∧ s.portOn port ∧ !s.fleet.adrift then
    let (ok, s) := s.settleWidth port sub
    if !ok then .next (s.linkDown port sub (fun _ => stBUS_FAULT))
    else .next (((s.setLink port sub 3).modSub port sub (fun k => { k with fullSince := none })).actLatched port sub)
  else .next s

/-- WAKE (R371). -/
def execWake (port : PortId) (sub : SubId) (mask : BitVec 4) (s : State) : Host.Outcome State Fault Refusal :=
  .next (s.takeControl port sub 4 mask.toNat)
/-- TOWPATH_ENTER (R369). -/
def execTowpathEnter (port : PortId) (sub : SubId) (s : State) : Host.Outcome State Fault Refusal := .next (s.takeControl port sub 5 0)
/-- FULL_RATE (R370). -/
def execFullRate (port : PortId) (sub : SubId) (s : State) : Host.Outcome State Fault Refusal := .next (s.takeControl port sub 6 0)

/-- The links of a port enter towpath: an UP link drains first, where its full-rate logic still runs; a retrain is abandoned (R369, R373, R432). -/
def State.portTowpath (s : State) (p : Nat) : State :=
  (List.range 8).foldl (fun s b =>
    let st := s.linkSt p b
    if st = 3 then (if s.portOn p || s.rf (PW_DOM (wharfPart (p / 2))) PW_DOM_STATE != 0 then s.wantTowpath p b else s.toTowpath p b)
    else if st = 5 then (s.toTowpath p b).actLatched p b else s) s

/-- The links of a partition's ports enter towpath. -/
def State.partTowpath (s : State) (k : Nat) : State :=
  (List.range 4).foldl (fun s i => s.portTowpath (4 * k + i)) s

/-- A reset of a partition: what is outstanding on its ports' links ends (R363). -/
def State.partLinksEnd (s : State) (k : Nat) : State :=
  (List.range 32).foldl (fun s i => s.failOutstanding (4 * k + i / 8) (i % 8) (s.reachedStatus (4 * k + i / 8) (i % 8))) s

/-! ## Codewords (R348 to R358) -/

/-- Whether an instant lies in a class-1 window of the schedule (R87, R253). -/
def State.inC1 (s : State) (t : Nat) : Bool :=
  s.inPound && !s.lock.extended && (List.range 8).any (fun i =>
    let a := s.lock.origin + s.rf (KP_C1WIN_S i) KP_C1WIN_S_START * 1000
    let b := min (a + s.rf (KP_C1WIN_L i) KP_C1WIN_L_LEN * 1000) (s.lock.origin + s.rf TM_SCHED_0 TM_SCHED_0_POUND_US * 1000)
    decide (a ≤ t) && decide (t < b))

/-- A chunk of the image that this device sends waits for the window's start (R391). -/
def State.castMay (s : State) (t : Tx) : Bool :=
  match s.fleet.bcast with
  | some k => t.op != txChunk || k.source.isNone || decide (k.windowStart ≤ s.now)
  | none => true

/-- What a device that is adrift sends: class 3 from its recovery agents, or on to another's (R372). -/
def agentSends (h : Head) (cls : Nat) : Bool :=
  cls == 3 && (match masterOf h.src.num.toNat with
    | .agent _ => true
    | _ => false)

/-- Whether a transaction may leave a link in its state now (R76, R363, R364, R368, R369, R372). -/
def State.mayLeave (s : State) (p b : Nat) (t : Tx) : Bool :=
  let st := s.linkSt p b
  let bulk := t.cls == 1 || t.cls == 2
  s.egress t.dev == some (p, b) && s.castMay t && !(bulk && (s.lockSt == 3 || (s.sub p b).towSince.isSome || st == 4))
    && (!s.fleet.adrift || agentSends t.head t.cls) && !s.net.reconf.any (fun x => x.1 == p)
    && (st != 2 || (t.cls == 3 && headKeeper t.head))

/-- The transactions whose route is this sub-port join its queue; requests are outstanding from then on. -/
def State.pull (s : State) (p b : Nat) : State :=
  let l := s.tx.filter (fun t => s.mayLeave p b t)
  let s' := { s with tx := s.tx.filter (fun t => !s.mayLeave p b t) }
  s'.modSub p b (fun k => { k with queue := k.queue ++ l.flatMap txFlits,
                                   outstanding := k.outstanding ++ (l.filter (fun t => isRequest t.op && s.isLocal t.head.src)).map (fun t => t.head.tid.toNat),
                                   fwd := k.fwd ++ (l.filter (fun t => isRequest t.op && !s.isLocal t.head.src)).map (fun t => t.head) })

/-- The first flit of a class, when the sub-port holds a credit for it: classes 1 and 2 draw on what they share too (R355). -/
def Sub.ready (k : Sub) (c : Nat) : Bool :=
  k.queue.any (fun f => f.cls.toNat == c) && decide (0 < k.credits.getD c 0)
    && (c == 0 || c == 3 || decide (k.floor < k.credits.getD 1 0 + k.credits.getD 2 0))

/-- The class that a slot takes (R352): `w0` a class-0 slot, `w1` inside a class-1 window. -/
def Sub.choose (k : Sub) (w0 w1 : Bool) : Option Nat :=
  if w0 && k.ready 0 then some 0
  else if decide (99 ≤ k.sinceMgmt) && k.ready 3 then some 3
  else if w1 && k.ready 1 then some 1
  else if k.ready 2 then some 2
  else if k.ready 1 then some 1
  else if k.ready 3 then some 3
  else none

/-- A list without its first flit of a class. -/
def dropFlit (c : Nat) : List Flit → List Flit
  | [] => []
  | f :: t => if f.cls.toNat = c then t else f :: dropFlit c t

def idleFlit : Flit := ⟨0#2, .idle, 0#512⟩

/-- `n` slots from slot `i` on, filled: flits and the sub-port. An idle flit fills its slot too. -/
def Sub.fill (k : Sub) (slot : Nat → Bool × Bool) (i : Nat) : Nat → List Flit × Sub
  | 0 => ([], k)
  | n + 1 =>
    match k.choose (slot i).1 (slot i).2 with
    | none =>
      let (l, k) := { k with sinceMgmt := k.sinceMgmt + 1 }.fill slot (i + 1) n
      (idleFlit :: l, k)
    | some c =>
      let f := (k.queue.find? (fun f => f.cls.toNat == c)).getD idleFlit
      let k1 := { k with queue := dropFlit c k.queue, credits := k.credits.set c (k.credits.getD c 0 - 1),
                         sinceMgmt := if c = 3 then 0 else k.sinceMgmt + 1 }
      let (l, k2) := k1.fill slot (i + 1) n
      (f :: l, k2)

/-- The class whose credits the next codeword returns: the next in turn that has some (R355). -/
def Sub.creditClass (k : Sub) : Nat :=
  ((List.range 4).map (fun i => (k.turn + 1 + i) % 4)).find? (fun c => k.freed.getD c 0 != 0) |>.getD k.turn

/-- A codeword has slots of a class-0 window: the flits that the window before left are late (R353). -/
def State.countLate (s : State) (p b : Nat) (win : Option Nat) (k : Sub) : State :=
  match win with
  | none => s
  | some n => if n = k.c0Win then s else s.bump (LK_C0_LATE p b) k.c0Left

/-- The class-0 flits that the slots of a window have left so far. -/
def Sub.leaves (k : Sub) (win : Option Nat) : Sub :=
  match win with
  | none => k
  | some n => { k with c0Win := n, c0Left := (k.queue.filter (fun f => f.cls.toNat == 0)).length }

/-- Codewords that a long-reach store adds to the replay buffer: 64 MiB of 700 bytes each (R348, R356). -/
def longWords : Nat := 64 * 2 ^ 20 / 700

/-- Whether the replay buffer has room for one more codeword of a sub-port: 2048 for the whole port, and what a long-reach store adds to its
sub-port's (R356, R357). -/
def State.replayRoom (s : State) (p b : Nat) : Bool :=
  let kept := fun b : Nat => let n := (s.sub p b).replay.length; if s.longReach p b then n - longWords else n
  (s.longReach p b && decide ((s.sub p b).replay.length < longWords)) || decide (((List.range 8).map kept).sum < 2048)

/-- Slots of a codeword whose first bit leaves at `at_` ns: whether each lies in a class-0 window, and in one of class 1 (R87, R89, R352, R368). -/
def State.slotsAt (s : State) (tow : Bool) (at_ : Nat) (i : Nat) : Bool × Bool :=
  let ps := at_ * 1000 + (if tow then 20000 else 2500) * i
  (tow || decide (ps % 128000 < 16000), s.inC1 (ps / 1000))

/-- The ten slots of a codeword filled from what the link carries in its state; what it does not carry waits (R352, R364, R368). -/
def State.fillSlots (s : State) (k : Sub) (st at_ : Nat) : List Flit × Sub :=
  let ok := fun x : Flit × Bool => (st != 2 || x.2) && !(st == 4 && (x.1.cls == 1#2 || x.1.cls == 2#2))
  let l := (openMarks true k.queue).1
  let k : Sub := { k with queue := (l.filter ok).map Prod.fst }
  let r := k.fill (s.slotsAt (st == 4) at_) 0 10
  (r.1, { r.2 with queue := r.2.queue ++ (l.filter (fun x => !ok x)).map Prod.fst })

/-- A new codeword leaves on the next lane of the block (R349, R352, R355, R357, R364, R365). -/
def State.newCodeword (s : State) (p b at_ : Nat) : State :=
  let st := s.linkSt p b
  let r := s.fillSlots (s.sub p b) st at_
  let k := r.2
  let win := if st = 4 then none else ((List.range 10).find? (fun i => (s.slotsAt false at_ i).1)).map (fun i => (at_ * 1000 + 2500 * i) / 128000)
  let s := s.countLate p b win k
  let k := k.leaves win
  let cc := k.creditClass
  let give := min 4095 (k.freed.getD cc 0)
  let ph := s.rb (LK_STATE p b) LK_STATE_KPH
  let key := if st = 2 then none else k.keys.getD ph.toNat none
  let c : Codeword := { seq := BitVec.ofNat 20 k.txNum, ack := BitVec.ofNat 20 (k.rxNum + 2 ^ 20 - 1), nak := k.nakDue, kph := ph,
                        cclass := BitVec.ofNat 2 cc, credit := BitVec.ofNat 12 give, flits := r.1, symbolErrors := 0, icv := 0#64 }
  let c := { c with icv := cwIcv c key 0 k.txNum }
  let left := k.freed.set cc (k.freed.getD cc 0 - give)
  let s := s.setSub p b { k with txNum := k.txNum + 1, replay := k.replay ++ [⟨k.txNum, 0, c⟩], nakDue := false, freed := left, turn := cc,
                                 peerAcked := k.readyPeer, line := k.line ++ [cwSymbols c (cwText c key k.txNum)] }
  if st = 2 then s else s.wrWide (LK_KEYCNT_0 p b) 2 (s.rdWide (LK_KEYCNT_0 p b) 2 + 1)

/-- A codeword leaves again, as it was (R357). -/
def State.oldCodeword (s : State) (p b : Nat) (x : Sent) : State :=
  s.modSub p b (fun k =>
    let key := if s.linkSt p b = 2 then none else k.keys.getD x.cw.kph.toNat none
    { k with resend := if x.num + 1 < k.txNum then some (x.num + 1) else none, line := k.line ++ [cwSymbols x.cw (cwText x.cw key x.num)] })

/-- One lane of a block: a codeword that is to be sent again, before any new one (R357). -/
def State.laneOut (s : State) (p b at_ : Nat) : State :=
  let k := s.sub p b
  match k.resend.bind (fun n => k.replay.find? (fun x => x.num == n)) with
  | some x => s.oldCodeword p b x
  | none => if s.replayRoom p b then s.newCodeword p b at_ else s

/-- The lanes of a codeword block, from the first on. -/
def State.lanesOut (s : State) (p b at_ : Nat) : Nat → State
  | 0 => s
  | n + 1 => (s.laneOut p b at_).lanesOut p b at_ n

/-- CODEWORD_TRANSMIT (R348, R352, R355, R357): one codeword block, a codeword on each active lane, whose first bits leave at network
time `at_` ns. -/
def execCodewordTransmit (port : PortId) (sub : SubId) (at_ : Nat) (s : State) : Host.Outcome State Fault Refusal :=
  let st := s.linkSt port sub
  if st < 2 ∨ 4 < st then .next s
  else
    let s := ((s.pull port sub).modSub port sub (fun k => { k with line := [] })).lanesOut port sub at_ (2 ^ s.rf (LK_STATE port sub) LK_STATE_WIDTH)
    .next (if st = 2 then s.comeUp port sub else s)

/-- The number nearest `ref` that is `n` modulo 2^20, not above `ref` (R357). -/
def backTo (ref n : Nat) : Option Nat :=
  let d := (ref + 2 ^ 20 - n % 2 ^ 20) % 2 ^ 20
  if d ≤ ref then some (ref - d) else none

/-- Every codeword up to number `n` has been acknowledged. -/
def State.ackedTo (s : State) (p b n : Nat) : State :=
  let k := s.sub p b
  let old := match k.oldNum with
    | some o => decide (o ≤ n + 1)
    | none => false
  let left := k.replay.filter (fun x => decide (n < x.num))
  let again := k.resend.bind (fun r => if r ≤ n then (left.head?).map (fun x => x.num) else some r)
  let at_ := if old && k.oldAckAt.isNone then some s.now else k.oldAckAt
  s.setSub p b { k with replay := left, resend := again, oldAckAt := at_ }

/-- An acknowledgement that names a codeword by the low bits of its number. -/
def State.acked (s : State) (p b ack : Nat) : State :=
  let n := (s.sub p b).txNum
  if n = 0 then s else ((backTo (n - 1) ack).map (s.ackedTo p b)).getD s

/-- The count that a sequence number stands for: the value nearest the expected one (R365). -/
def nearCount (expected seq : Nat) : Nat :=
  let d := (seq + 2 ^ 20 - expected % 2 ^ 20) % 2 ^ 20
  if d < 2 ^ 19 then expected + d else expected + d - 2 ^ 20

/-- Whether a codeword's integrity check value is what the link's state asks for (R364 to R366): an erased phase passes nothing. -/
def State.icvPasses (s : State) (p b : Nat) (c : Codeword) : Bool :=
  let k := s.sub p b
  if s.linkSt p b = 2 then c.icv == cwIcv c none 1 0
  else match k.keys.getD c.kph.toNat none with
    | some m => c.icv == cwIcv c (some m) 1 (nearCount k.rxNum c.seq.toNat)
    | none => false

/-- CODEWORD_RECEIVE (R357, R364, R365): a good codeword in sequence is delivered; another is dropped and asked for
again. Its NAK bit is NAK_RECEIVED's. -/
def execCodewordReceive (port : PortId) (sub : SubId) (cw : Codeword) (s : State) : Host.Outcome State Fault Refusal :=
  let st := s.linkSt port sub
  let k := s.sub port sub
  if st < 2 ∨ 4 < st then .next s
  else if 16 < cw.symbolErrors then .next ((s.bump (LK_UNCORR port sub) 1).setSub port sub { k with nakDue := true })
  else
    let s := if cw.symbolErrors = 0 then s else s.bump (LK_CORR port sub) 1
    if !s.icvPasses port sub cw then
      .next ((s.bump (if st = 2 then LK_UNCORR port sub else LK_ICV_FAIL port sub) 1).setSub port sub { k with nakDue := true })
    else
      let ahead := (cw.seq.toNat + 2 ^ 20 - k.rxNum % 2 ^ 20) % 2 ^ 20
      if ahead ≠ 0 then .next (s.setSub port sub { k with nakDue := k.nakDue || decide (ahead < 2 ^ 19) })
      else
        let fs := cw.flits.filter (fun f => f.kind != .idle)
        let marks := openMarks k.keeperIn fs
        let keep := if st = 2 then (marks.1.filter (fun x => x.2)).map (fun x => x.1) else fs
        let s := if st = 2 then s.bump (LK_DROP port sub) (fs.length - keep.length) else s
        let freed := (List.range 4).map (fun c => k.freed.getD c 0 + (fs.filter (fun f => f.cls.toNat == c)).length)
        let cc := cw.cclass.toNat
        let credits := k.credits.set cc (k.credits.getD cc 0 + cw.credit.toNat)
        let s := s.setSub port sub { k with rxNum := k.rxNum + 1, rx := keep, keeperIn := marks.2, freed := freed, credits := credits }
        let s := s.acked port sub cw.ack.toNat
        .next (if st = 2 then s.comeUp port sub else s)

/-- NAK_RECEIVED (R357, R358): every codeword from ACK + 1 is sent again; at the eighth time the sub-port retrains. -/
def execNakReceived (port : PortId) (sub : SubId) (ack : BitVec 20) (s : State) : Host.Outcome State Fault Refusal :=
  let st := s.linkSt port sub
  if st < 2 ∨ 4 < st then .next s
  else
    let s := (s.bump (LK_RETRY port sub) 1).acked port sub ack.toNat
    let s := s.modSub port sub (fun k => { k with replay := k.replay.map (fun x => { x with resent := x.resent + 1 }), resend := (k.replay.head?).map Sent.num })
    if (s.sub port sub).replay.any (fun x => decide (8 ≤ x.resent)) then
      .next ((s.modSub port sub (fun k => { k with replay := k.replay.map (fun x => { x with resent := 0 }) })).startRetrain port sub)
    else .next (if st = 2 then s.comeUp port sub else s)

/-! ## Configuration (R345, R346, R363) -/

/-- Whether a mode and a split of a port keep the limits of R343 to R345. -/
def State.portCfgOk (s : State) (p mode split : Nat) : Bool :=
  mode != 3 && (mode != 1 || (split == 0 && !s.ethPort (if p % 2 = 0 then p + 1 else p - 1)
    && decide (((List.range 16).filter (fun q => q != p && s.ethPort q)).length < 8)))

/-- No change of a port waits. -/
def State.endReconfigure (s : State) (p : Nat) : State := { s with net := { s.net with reconf := s.net.reconf.filter (fun x => x.1 != p) } }

/-- A change of MODE or SPLIT begins: no new transaction leaves on the port's links (R346, R363). -/
def State.beginReconfigure (s : State) (p mode split : Nat) : State :=
  { s with net := { s.net with reconf := (s.endReconfigure p).net.reconf ++ [(p, mode, split, s.now)] } }

/-- A port's links end, and the new ones train (R346, R363). -/
def State.reconfigurePort (s : State) (p mode split : Nat) : State :=
  let s := (List.range 8).foldl (fun s b =>
    if s.subExists p b ∧ s.linkSt p b ≠ 0 then s.linkDown p b (s.reachedStatus p b) else s.setLink p b 0) s
  let s := (s.endReconfigure p).wf (LK_LANES p) LK_LANES_ACTIVE 0
  let s := (s.wf (LK_CFG p) LK_CFG_MODE mode).wf (LK_CFG p) LK_CFG_SPLIT split
  let s := if p = s.rf TM_SRC_CTRL TM_SRC_CTRL_PTP_PORT ∧ mode ≠ 1 then s.setSrc TM_SRC_STATUS_PTP_OK false else s
  if mode = 0 ∧ s.portOn p then (List.range (2 ^ split)).foldl (fun s b => s.setLink p b 1) s else s

/-- Whether a port that is to change has drained: its links' replay buffers are empty, or 100 µs have passed (R363). -/
def State.portDrained (s : State) (p since : Nat) : Bool :=
  (List.range 8).all (fun b => (s.sub p b).replay.isEmpty) || decide (since + 100000 ≤ s.now)

/-- PORT_RECONFIGURE (R345, R363): the change begins, unless the port drains for one already; once it has drained, it is made. -/
def execPortReconfigure (port : PortId) (mode split : BitVec 2) (s : State) : Host.Outcome State Fault Refusal :=
  let s := if s.net.reconf.any (fun x => x.1 == port.val) || !s.portCfgOk port mode.toNat split.toNat then s
    else s.beginReconfigure port mode.toNat split.toNat
  match s.net.reconf.find? (fun x => x.1 == port.val) with
  | some (_, m, v, since) => .next (if s.portDrained port since then s.reconfigurePort port m v else s)
  | none => .next s

/-! ## Delay and time (R377, R378) -/

/-- The link carries control flits. -/
def State.linkTalks (s : State) (p b : Nat) : Bool := let st := s.linkSt p b; decide (2 ≤ st ∧ st ≤ 4)

/-- DELAY_TIMER: DELAY_REQ leaves with t1. -/
def execDelayTimer (port : PortId) (sub : SubId) (t1 : BitVec 80) (s : State) : Host.Outcome State Fault Refusal :=
  if s.linkTalks port sub then
    .next ((s.control port sub 1 (t1.toNat * 2 ^ 8)).modSub port sub (fun k => { k with reqT1 := some t1.toNat }))
  else .next s

/-- DELAY_REQ: the reply carries t2 and t3. -/
def execDelayReq (port : PortId) (sub : SubId) (t1 t2 t3 : BitVec 80) (s : State) : Host.Outcome State Fault Refusal :=
  let _ := t1
  if s.linkTalks port sub then .next (s.control port sub 2 (t2.toNat * 2 ^ 8 + t3.toNat * 2 ^ 88)) else .next s

/-- The median of some results: the mean of the two in the middle where they are even in number. -/
def median (l : List Int) : Int :=
  let z := l.mergeSort (· ≤ ·)
  let n := z.length
  (z.getD ((n - 1) / 2) 0 + z.getD (n / 2) 0) / 2

/-- A difference of network times in 2^-16 ns, in ps. -/
def toPs (x : Int) : Int := x * 1000 / 65536

/-- DELAY_RESP: round trip, delay from the peer, and the medians of the last 16 (R377); the long-reach store follows (R356). -/
def execDelayResp (port : PortId) (sub : SubId) (t2 t3 t4 : BitVec 80) (s : State) : Host.Outcome State Fault Refusal :=
  let k := s.sub port sub
  match k.reqT1 with
  | none => .next s
  | some t1 =>
    if !s.linkTalks port sub then .next s
    else
      let rtt := toPs (((t4.toNat : Int) - t1) - ((t3.toNat : Int) - t2.toNat))
      let delay := rtt / 2 + sext 32 (s.rd (LK_ASYM port sub)) / 2
      let l := (k.delays ++ [(rtt, delay)]).reverse.take 16 |>.reverse
      let s := s.setSub port sub { k with delays := l, reqT1 := none }
      let mr := median (l.map (fun x => x.1))
      let s := s.wr (LK_DELAY port sub) ((median (l.map (fun x => x.2))).toNat % 2 ^ 32)
      let s := s.wr (LK_RTT port sub) ((mr / 1000).toNat % 2 ^ 32)
      .next (s.setLong port sub (s.rb (LK_CFG port) LK_CFG_LR_EN && decide (4000000 < mr)))

/-- TIME_SEND_TIMER: a manager sends its time and its error bound. -/
def execTimeSendTimer (port : PortId) (sub : SubId) (tcw : BitVec 80) (s : State) : Host.Outcome State Fault Refusal :=
  let st := s.linkSt port sub
  if 2 ≤ s.role ∧ (st = 3 ∨ st = 4) then
    .next (s.control port sub 3 (tcw.toNat * 2 ^ 8 + s.rf TM_SRC_STATUS TM_SRC_STATUS_ERR_BOUND * 2 ^ 88))
  else .next s

/-- TIME: TT_OK, and the offset when this is the sub-port in use; one hop adds 5 ns to the bound (R59, R378). -/
def execTime (port : PortId) (sub : SubId) (tcw t2 : BitVec 80) (errBound : BitVec 16) (s : State) : Host.Outcome State Fault Refusal :=
  let st := s.linkSt port sub
  if !s.rb (LK_STATE port sub) LK_STATE_TT_SRC ∨ (st ≠ 3 ∧ st ≠ 4) then .next s
  else
    let s := (s.wb (LK_STATE port sub) LK_STATE_TT_OK true).modSub port sub (fun k => { k with ttAt := s.now })
    if s.ttPort ≠ some (8 * port.val + sub.val) then .next s.syncEwe
    else
      let ahead : Int := (toPs ((t2.toNat : Int) - tcw.toNat) - s.rd (LK_DELAY port sub)) / 1000
      let s := s.supplyTod (tcw.toNat / 65536 + s.rd (LK_DELAY port sub) / 1000)
      let s := { s with time := { s.time with eweAt := s.now, eweBound := errBound.toNat + 5,
                                              offset := if s.active = 3 then -ahead else s.time.offset } }
      .next s.syncEwe

/-- TT_TIMEOUT: no TIME flit for 10 ms. -/
def execTtTimeout (port : PortId) (sub : SubId) (s : State) : Host.Outcome State Fault Refusal :=
  if (s.sub port sub).ttAt + 10000000 < s.now then .next (s.wb (LK_STATE port sub) LK_STATE_TT_OK false).syncEwe else .next s

/-! ## Ethernet (R374, R375, R467) -/

/-- ETH_LINK_UP (R343, R379, R380): the four lanes of the interface carry traffic. -/
def execEthLinkUp (port : PortId) (iface : Fin 2) (s : State) : Host.Outcome State Fault Refusal :=
  if s.ethPort port ∧ s.portOn port then
    let s := s.wf (LK_LANES port) LK_LANES_ACTIVE (s.rf (LK_LANES port) LK_LANES_ACTIVE ||| laneMask (4 * iface.val) 4)
    .next ((s.setLink port iface 6).wf (LK_STATE port iface) LK_STATE_WIDTH 2)
  else .next s

/-- ETH_LINK_DOWN. -/
def execEthLinkDown (port : PortId) (iface : Fin 2) (s : State) : Host.Outcome State Fault Refusal :=
  if s.ethPort port ∧ s.linkSt port iface = 6 then
    let old := s.rf (LK_LANES port) LK_LANES_ACTIVE
    .next ((s.wf (LK_LANES port) LK_LANES_ACTIVE (old - (old &&& laneMask (4 * iface.val) 4))).setLink port iface 0)
  else .next s

/-- The IPv6 address of an interface, first byte first. -/
def State.ip6 (s : State) (p i : Nat) : Nat := (List.range 4).foldl (fun r k => r * 2 ^ 32 + s.rd (LK_ETH_IP6 p i k)) 0

/-- Whether a frame is for this interface: its VLAN tag, its length, and for IPv6 its destination, the interface's address or a multicast (R374). -/
def State.frameMine (s : State) (p i : Nat) (f : EthFrame) : Bool :=
  let cfg := LK_ETH_CFG p i
  let tag := if s.rb cfg LK_ETH_CFG_VLAN_EN then f.vlan == some (BitVec.ofNat 12 (s.rf cfg LK_ETH_CFG_VID)) else f.vlan.isNone
  let dst := f.dst.toNat == s.ip6 p i || f.dst.toNat / 2 ^ 120 == 0xFF
  tag && decide (f.bytes ≤ s.rf cfg LK_ETH_CFG_MTU) && (f.kind == .ptp || dst) && f.kind != .other

/-- A frame's MACsec tag is validated (R375): the connectivity association's key is installed, the frame verifies, its packet number fits the
suite, and its channel is one of at most four, of which the two newest associations hold. -/
def State.macsecTake (s : State) (p i : Nat) (good : Bool) (t : SecTag) : Option State :=
  let x := 2 * p + i
  let own := fun c : MacChannel => c.iface == x && c.sci == t.sci.toNat
  let fits := s.rb (LK_ETH_CFG p i) LK_ETH_CFG_XPN || decide (t.pn.toNat < 2 ^ 32)
  if spGet 0#256 s.caks x == 0#256 || !good || !fits then none
  else match s.net.channels.find? own with
    | some c =>
      let sas := match c.sas.find? (fun a => a.1 == t.an.toNat) with
        | some a => c.sas.map (fun b => if b == a then (a.1, max a.2 t.pn.toNat) else b)
        | none => ((t.an.toNat, t.pn.toNat) :: c.sas).take 2
      some { s with net := { s.net with channels := s.net.channels.map (fun d => if own d then { d with sas := sas } else d) } }
    | none =>
      if 4 ≤ (s.net.channels.filter (fun c => c.iface == x)).length then none
      else some { s with net := { s.net with channels := s.net.channels ++ [⟨x, t.sci.toNat, [(t.an.toNat, t.pn.toNat)]⟩] } }

/-- The next packet number of an interface's transmit channel, in its other association where this one's numbers have run out (R375). -/
def macNext (xpn : Bool) (x : Nat × Nat) : Nat × Nat := if x.2 + 1 < (if xpn then 2 ^ 64 else 2 ^ 32) then (x.1, x.2 + 1) else (1 - x.1, 1)

/-- A frame of the device leaves an interface: tagged for its VLAN, and under MACsec unless it is PTP's (R374, R375). -/
def State.sendFrame (s : State) (p i : Nat) (kind : OwnFrame) : State :=
  let cfg := LK_ETH_CFG p i
  let x := 2 * p + i
  let sec := s.rb cfg LK_ETH_CFG_MSEC && kind != .delayReq
  let n := macNext (s.rb cfg LK_ETH_CFG_XPN) (s.net.macTx.getD x (0, 0))
  let vlan := if s.rb cfg LK_ETH_CFG_VLAN_EN then some (s.rf cfg LK_ETH_CFG_VID) else none
  { s with net := { s.net with frames := s.net.frames ++ [⟨x, kind, vlan, if sec then some n else none⟩],
                               macTx := if sec then s.net.macTx.set x n else s.net.macTx } }

/-- What becomes of a frame past MACsec (R374): what no unit takes is dropped, and the control processors answer neighbour discovery and echo. -/
def State.takeFrame (s : State) (p i : Nat) (f : EthFrame) : State :=
  if !s.frameMine p i f then s.bump (LK_ETH_DROP p i) 1
  else
    let s := s.bump (LK_ETH_RX p i) 1
    if f.kind = .neighbourOrEcho ∧ !s.boot.keeperDown then s.sendFrame p i .icmpAnswer else s

/-- ETH_FRAME (R374, R375): MACsec guards every frame but PTP. -/
def execEthFrame (port : PortId) (iface : Fin 2) (f : EthFrame) (macsecGood : Bool) (s : State) : Host.Outcome State Fault Refusal :=
  if s.linkSt port iface ≠ 6 ∨ !s.ethPort port then .next s
  else if s.rb (LK_ETH_CFG port iface) LK_ETH_CFG_MSEC ∧ f.kind ≠ .ptp then
    match f.sec.bind (s.macsecTake port iface macsecGood) with
    | some z => .next (z.takeFrame port iface f)
    | none => .next (s.bump (LK_ETH_MSEC_FAIL port iface) 1)
  else .next (s.takeFrame port iface f)

/-! ## PTP (R54, R376) -/

/-- The slave clock's offset, from four timestamps that it holds. -/
def ptpOffset (t1 t2 t3 t4 : Nat) : Int := (((t1 : Int) - t2) + ((t4 : Int) - t3)) / 2

/-- A Sync is complete: the device asks for the delay. -/
def State.ptpAsk (s : State) (p t1 t2 : Nat) : State :=
  ({ s with time := { s.time with ptpT1 := some t1, ptpT2 := some t2, ptpT3 := some s.now } }).sendFrame p 0 .delayReq

/-- The measurement is complete: time of day, and the offset where PTP is the active source. -/
def State.ptpDone (s : State) (t1 t2 t3 t4 : Nat) : State :=
  let d := ptpOffset t1 t2 t3 t4
  let s := s.supplyTod ((s.now : Int) + d).toNat
  let s := { s with time := { s.time with ptpAt := s.now, offset := if s.active = 2 then d else s.time.offset, ptpT1 := none, ptpT2 := none, ptpT3 := none } }
  s.setSrc TM_SRC_STATUS_PTP_OK true

/-- PTP_MESSAGE (R54, R376): on interface 0 of the PTP port, in ETH_UP, over the transport of PROFILE: a Sync, of a one-step or a two-step
master, is answered with a Delay_Req, whose answer completes the measurement; a state other than SLAVE ends qualification. -/
def execPtpMessage (port : PortId) (slave udp : Bool) (msg : PtpMsg) (s : State) : Host.Outcome State Fault Refusal :=
  if port.val ≠ s.rf TM_SRC_CTRL TM_SRC_CTRL_PTP_PORT ∨ !s.ethPort port ∨ s.linkSt port 0 ≠ 6 ∨ udp ≠ s.rb (LK_ETH_CFG port 0) LK_ETH_CFG_PROFILE then .next s
  else if !slave then .next (s.setSrc TM_SRC_STATUS_PTP_OK false)
  else match msg with
    | .sync (some t1) t2 => .next (s.ptpAsk port t1 t2)
    | .sync none t2 => .next { s with time := { s.time with ptpT1 := none, ptpT2 := some t2, ptpT3 := none } }
    | .followUp t1 => (match s.time.ptpT2 with
      | some t2 => .next (s.ptpAsk port t1 t2)
      | none => .next s)
    | .delayResp t4 => (match s.time.ptpT1, s.time.ptpT2, s.time.ptpT3 with
      | some t1, some t2, some t3 => .next (s.ptpDone t1 t2 t3 t4)
      | _, _, _ => .next s)

end Sys2Proof.Machine
end

