-- ==== Sys2Proof/Machine/Reset.lean ====
section
/-! DEFINITION. Partial resets and power domains: the boundary around a core, a cluster or a partition, its entry, drain, settling and release; domains that wake and drain; requests that meet (R331, R430 to R440). -/

namespace Sys2Proof.Machine

/-- Power control as the source of an event (R475). -/
def State.pwSrc (s : State) : Nat := s.src 0xF21

/-! ## Scopes (R430) -/

/-- The cores of a scope: 0 a core, 1 a cluster, 2 a partition. -/
def scopeCores (scope target : Nat) : List Nat :=
  if scope = 0 then [target] else if scope = 1 then (List.range 16).map (fun i => 16 * target + i) else partCores target

/-- The partition of a scope. -/
def scopePart (scope target : Nat) : Nat := if scope = 0 then corePart target else if scope = 1 then corePart (16 * target) else target

/-- The wharf DMA engines of a partition. -/
def partEngines (k : Nat) : List Nat := (List.range 32).map (fun i => 2048 + 32 * k + i)

/-- Whether a boundary's scope lies inside another scope, and is smaller. -/
def Boundary.inside (b : Boundary) (scope target : Nat) : Bool :=
  decide (b.scope < scope) && (if scope = 1 then b.target / 16 == target else scopePart b.scope b.target == target)

/-- Whether the units of a scope already lie inside a reset in progress. -/
def State.joins (s : State) (scope target : Nat) : Bool :=
  s.boot.resets.any (fun b => decide (scope ≤ b.scope) && (if scope = 2 then b.target == target else b.covers ((scopeCores scope target).headD 0)))

/-- PW_RESET_STATUS follows the resets in progress and latched (R442). -/
def State.syncResets (s : State) : State :=
  let s := s.wb PW_RESET_STATUS PW_RESET_STATUS_BUSY (!s.boot.resets.isEmpty)
  let s := s.wb PW_RESET_STATUS PW_RESET_STATUS_DEFERRED (!s.boot.latched.isEmpty || !s.boot.enLatched.isEmpty || !s.lock.deferred.isEmpty)
  s.wf PW_RESET_STATUS PW_RESET_STATUS_IN_RESET ((List.range 4).foldl (fun r k => r + (s.partInReset k).toNat * 2 ^ k) 0)

def State.setResets (s : State) (l : List Boundary) : State := ({ s with boot := { s.boot with resets := l } }).syncResets

/-! ## Entry (R331, R432) -/

/-- A DMA engine at a reset boundary: the descriptor in progress stays, a halted engine is aborted (R331). -/
def State.enterEngine (s : State) (e : Nat) : State :=
  if s.rf (DM_STATUS e) DM_STATUS_STATE = 2 then s.dmaAbortAll e
  else
    let g := s.engine e
    match g.desc, g.chains with
    | some _, k :: _ => s.setEngine e { g with chains := [⟨k.start, g.index + 1, none⟩] }
    | _, _ => (s.setEngine e { Engine.initial with unacked := g.unacked, remote := g.remote }).wf (DM_STATUS e) DM_STATUS_STATE 0

/-- The wait of a tiller for something that it issued and that the drain must see answered. -/
def Stall.outbound : Stall → Bool
  | .msend _ => true
  | .load _ _ _ Option.none _ => true
  | _ => false

/-- A core enters a boundary: the tiller stops, its queues empty, its engines act under R331, and the vote follows R204
and R258. -/
def State.enterCore (s : State) (c : Nat) : State :=
  let k := s.core c
  let st := s.tstate c
  let s := if s.inPound && (st == 1 || st == 3) && !s.rb (CO_TSTATUS c) CO_TSTATUS_CLAIM_ONLY then s.veto 32 else s
  let s := if s.inPound then s.gnReset c else s
  let s := (s.setCore c { k with queue := [], stall := if k.stall.outbound then k.stall else .none }).syncQueues c
  let s := s.wf (CO_TSTATUS c) CO_TSTATUS_STATE 4
  (s.enterEngine (2 * c)).enterEngine (2 * c + 1)

/-- The units of a scope enter: present cores that lie inside no reset yet and, for a partition, its wharf engines and
links. -/
def State.enterScope (s : State) (scope target : Nat) : State :=
  let l := (scopeCores scope target).filter (fun c => s.present c && !s.inReset c)
  let s := l.foldl (fun s c => s.enterCore c) s
  if scope = 2 then ((partEngines target).foldl (fun s e => s.enterEngine e) s).partTowpath target else s

/-- A reset starts: smaller resets inside it are taken over (R432, R433, R434). -/
def State.openReset (s : State) (scope target : Nat) : State :=
  let s := if scope = 2 ∧ s.inPound then s.veto 32 else s
  let s := s.enterScope scope target
  let s := if scope = 2 then s.partLinksEnd target else s
  let s := s.setResets (s.boot.resets.filter (fun b => !b.inside scope target) ++ [⟨scope, target, false⟩])
  s.post 0x0C stOK s.pwSrc (scope + target * 4)

/-- A reset that is carried out now: nothing for a domain that is OFF, a reset in progress joined, a partition whose
domain is on its way latched (R434, R440). -/
def State.startReset (s : State) (scope target : Nat) : State :=
  let k := scopePart scope target
  let st := s.rf (PW_DOM k) PW_DOM_STATE
  if st = 0 ∨ s.joins scope target then s
  else if st = 2 then s.openReset scope target
  else if scope = 2 ∧ !s.boot.latched.contains k then
    ({ s with boot := { s.boot with latched := s.boot.latched ++ [k] } }).syncResets
  else s

/-- A reset request (R80, R442). -/
def State.requestReset (s : State) (scope target : Nat) : State :=
  let s := (s.wf PW_RESET_STATUS PW_RESET_STATUS_SCOPE scope).wf PW_RESET_STATUS PW_RESET_STATUS_TARGET target
  if s.lock.window then ({ s with lock := { s.lock with deferred := s.lock.deferred ++ [Deferred.reset scope target] } }).syncResets
  else s.startReset scope target

/-- A write of PW_RESET past the rights of the access (R442). -/
def State.pwReset (s : State) (m : Ident) (v : Nat) : State :=
  let scope := natBits 0 2 v
  let target := natBits 2 10 v
  if scope = 3 ∨ (scope = 1 ∧ 64 ≤ target) ∨ (scope = 2 ∧ 4 ≤ target) then s.regEvent m PW_RESET else s.requestReset scope target

/-! ## Drain and settle (R432) -/

/-- An engine's descriptor has ended and its writes are acknowledged. -/
def State.engineDrained (s : State) (e : Nat) : Bool :=
  let g := s.engine e
  (g.chains.isEmpty || s.rf (DM_STATUS e) DM_STATUS_STATE == 2) && g.unacked == 0 && g.remote == 0

/-- Every request that a core issued before entry has ended. -/
def State.coreDrained (s : State) (c : Nat) : Bool :=
  let k := s.core c
  k.unacked == 0 && k.unackedRemote == 0 && !k.stall.outbound && s.sends.all (fun x => x.tiller != some c)
    && s.engineDrained (2 * c) && s.engineDrained (2 * c + 1)

def State.scopeDrained (s : State) (scope target : Nat) : Bool :=
  (scopeCores scope target).all (fun c => !s.present c || s.coreDrained c) && (scope != 2 || (partEngines target).all (fun e => s.engineDrained e))

/-- A halted engine is aborted before the drain ends (R331). -/
def State.abortHalted (s : State) (e : Nat) : State := if s.rf (DM_STATUS e) DM_STATUS_STATE = 2 then s.dmaAbortAll e else s

/-- Whether a master number belongs to a scope. -/
def scopeMaster (scope target num : Nat) : Bool :=
  match masterOf num with
  | .tiller c => (scopeCores scope target).contains c
  | .engine e => if e < 2048 then (scopeCores scope target).contains (e / 2) else scope == 2 && (partEngines target).contains e
  | _ => false

/-- The settling step: tokens are reclaimed and locks released; at a reset, mailbox slots are emptied. -/
def State.settleScope (s : State) (scope target : Nat) (reset : Bool) : State :=
  let l := (scopeCores scope target).filter (fun c => s.present c)
  let s := l.foldl (fun s c => (((s.abortHalted (2 * c)).abortHalted (2 * c + 1)).reclaimTokens c)) s
  let s := if scope = 2 then (partEngines target).foldl (fun s e => s.abortHalted e) s else s
  let s := s.releaseLocks (fun n => scopeMaster scope target n)
  if reset then l.foldl (fun s c => s.discardSlots c) s else s

/-- RESET_DRAIN_COMPLETE (R432). -/
def execResetDrainComplete (scope : Fin 3) (target : Fin 1024) (s : State) : Host.Outcome State Fault Refusal :=
  if s.boot.resets.contains ⟨scope, target, false⟩ && s.scopeDrained scope target then
    let s := s.settleScope scope target true
    .next (s.setResets (s.boot.resets.map (fun b => if b = ⟨scope, target, false⟩ then { b with drained := true } else b)))
  else .next s

/-! ## Release (R430, R431) -/

/-- Whether a register offset of a CO_ block belongs to the core-state image (R395): trackers, observation words, scale
register file. -/
def imageOff (o : Nat) : Bool := decide (0x2000 ≤ o ∧ o < 0x2400) || decide (0x4000 ≤ o)

/-- Whether a reset core reloads a register from the image: tracker status, observation words, scale register file. -/
def reloadOff (o : Nat) : Bool := if o < 0x2400 then imageOff o && o % 16 == 12 else imageOff o

/-- An engine's registers and state after reset. -/
def State.clearEngine (s : State) (e : Nat) : State :=
  ({ s with engines := spPut Engine.initial s.engines e Engine.initial }).clearRegs (dmBase e) (dmBase e + 0x800)

/-- A core's registers that a reset clears, from offset `lo` to `hi - 1`. -/
def State.clearCo (s : State) (c lo hi : Nat) : State := s.clearRegs (coBase c + lo) (coBase c + hi)

/-- The registers of a core that are reloaded read what the image holds, or zero. -/
def State.reloadImage (s : State) (c : Nat) : State :=
  let mine := fun r : Nat × Word => decide (coBase c ≤ r.1 ∧ r.1 < coBase c + 0x10000) && reloadOff (r.1 - coBase c)
  ({ s with regs := s.regs.filter (fun r => !mine r) }).loadRegs (s.lock.image.filter mine)

/-- A core is cleared and released into IDLE; the captures of its wide quantities hold zero (R15). -/
def State.releaseCore (s : State) (c : Nat) : State :=
  let only := s.rb (CO_TSTATUS c) CO_TSTATUS_CLAIM_ONLY
  let s := s.setCore c Core.initial
  let s := ((s.clearCo c 0x10 0x24).clearCo c 0x100 0x124).clearCo c 0x1000 0x1800
  let s := (s.clearCaptures (coBase c) (coBase c + 0x10000)).clearCaptures (mbBase (4 * c)) (mbBase (4 * c) + 0x1000)
  let s := (s.wb (CO_TSTATUS c) CO_TSTATUS_CLAIM_ONLY only).reloadImage c
  let s := (s.clearEngine (2 * c)).clearEngine (2 * c + 1)
  s.setNotes c []

/-- A die hub's claim counters after reset: limits stay. -/
def State.clearClaims (s : State) (die : Nat) : State :=
  (List.range 64).foldl (fun s ctr =>
    let limit := s.claimLimit false die ctr
    let s := s.setClaim (claimKey false die ctr) ⟨[], [], []⟩
    let s := s.clearRegs (claimReg false die ctr 0) (claimReg false die ctr 0 + 16)
    s.wf (claimReg false die ctr 0) KP_CLAIM_ARMING_LIMIT limit) s

/-- A partition's dies. -/
def partDies (k : Nat) : List Nat := (List.range 16).filter (fun n => diePart n == k)

/-- The ports of a partition. -/
def partPorts (k : Nat) : List Nat := [4 * k, 4 * k + 1, 4 * k + 2, 4 * k + 3]

/-- The request intake of a port is cleared: its reassemblies, refusals and reservations are gone (R20, R430). -/
def State.clearIntake (s : State) (p : Nat) : State := (s.setPort p Intake.initial).syncPort p

/-- The units of a scope are cleared. -/
def State.clearScope (s : State) (scope target : Nat) : State :=
  let s := ((scopeCores scope target).filter (fun c => s.present c)).foldl (fun s c => s.releaseCore c) s
  if scope = 2 then
    (partPorts target).foldl (fun s p => s.clearIntake p)
      ((partEngines target).foldl (fun s e => s.clearEngine e) ((partDies target).foldl (fun s n => s.clearClaims n) s))
  else s

/-- The links of a partition's ports return to full rate (R370). -/
def State.partFull (s : State) (k : Nat) : State :=
  (List.range 4).foldl (fun s i => (List.range 8).foldl (fun s b => s.wantFull (4 * k + i) b) s) s

/-- A drain of a domain starts (R436). -/
def State.startDrain (s : State) (k : Nat) : State := (s.wf (PW_DOM k) PW_DOM_STATE 3).enterScope 2 k

/-- A boundary is released. -/
def State.releaseScope (s : State) (scope target : Nat) : State :=
  let s := s.clearScope scope target
  let s := s.setResets (s.boot.resets.filter (fun b => !(b.scope == scope && b.target == target)))
  if scope = 2 then
    (if s.rb (PW_DOM target) PW_DOM_EN then s.partFull target else s.startDrain target)
  else s

/-- A PART test that holds a partition. -/
def State.testHolds (s : State) (k : Nat) : Bool :=
  match s.boot.test with
  | some t => !t.full && natBit k t.parts
  | none => false

/-- RESET_RELEASE (R431, R432). -/
def execResetRelease (scope : Fin 3) (target : Fin 1024) (s : State) : Host.Outcome State Fault Refusal :=
  if s.boot.resets.contains ⟨scope, target, true⟩ && !(scope.val == 2 && s.testHolds target) then .next (s.releaseScope scope target)
  else .next s

/-! ## Power domains (R436 to R440) -/

/-- EN of partition `k` becomes 0. -/
def State.disableDom (s : State) (k : Nat) : State :=
  let st := s.rf (PW_DOM k) PW_DOM_STATE
  let s := s.wb (PW_DOM k) PW_DOM_EN false
  if st = 2 then (if s.partInReset k then s else s.startDrain k)
  else if st = 1 then s.wf (PW_DOM k) PW_DOM_STATE 5
  else if st = 4 then s.wf (PW_DOM k) PW_DOM_STATE 3
  else s

/-- A change of EN that is carried out now, unless a PART test latches it. -/
def State.setDom (s : State) (k : Nat) (en : Bool) : State :=
  if s.testHolds k then ({ s with boot := { s.boot with enLatched := s.boot.enLatched ++ [(k, en)] } }).syncResets
  else if en then s.enableDom k else s.disableDom k

/-- A write of PW_DOM_k past the rights of the access. -/
def State.pwDom (s : State) (k v : Nat) : State :=
  let en := natBit 0 v
  if s.lock.window then ({ s with lock := { s.lock with deferred := s.lock.deferred ++ [Deferred.power k en] } }).syncResets
  else s.setDom k en

/-- Requests deferred by the lock window are carried out (R80). -/
def State.runDeferred (s : State) : State :=
  let l := s.lock.deferred
  l.foldl (fun s d => match d with
    | .reset scope target => s.startReset scope target
    | .power k en => s.setDom k en) ({ s with lock := { s.lock with deferred := [], window := false } }).syncResets

/-- A partition's basins lose what they held (R436, R437). -/
def State.loseBasins (s : State) (k : Nat) : State :=
  (partDies k).foldl (fun s n => s.clearMem (64 * n * basinSize) (64 * (n + 1) * basinSize)) s

/-- DRAINING_DONE (R436): the domain reaches OFF; with the enable latched it wakes at once. -/
def execDrainingDone (part : PartId) (s : State) : Host.Outcome State Fault Refusal :=
  let k := part.val
  let st := s.rf (PW_DOM k) PW_DOM_STATE
  if (st = 3 ∨ st = 4) ∧ s.scopeDrained 2 k then
    let s := ((s.settleScope 2 k false).clearScope 2 k).loseBasins k
    let s := { s with boot := { s.boot with latched := s.boot.latched.filter (fun x => x != k) } }
    let s := s.setResets (s.boot.resets.filter (fun b => scopePart b.scope b.target != k))
    let s := (s.wf (PW_DOM k) PW_DOM_STATE 0).partTowpath k
    .next (if st = 4 then (s.wf (PW_DOM k) PW_DOM_STATE 1).bumpF (PW_DOM k) PW_DOM_WAKES 1 else s)
  else .next s

/-- A domain is ON: held messages raise their events, links return to full rate, latched resets run (R340, R370, R440). -/
def State.domUp (s : State) (k : Nat) : State :=
  let s := s.wf (PW_DOM k) PW_DOM_STATE 2
  let s := ((partCores k).filter (fun c => s.present c)).foldl (fun s c => (s.wf (CO_TSTATUS c) CO_TSTATUS_STATE 0).raiseHeld c) s
  let s := s.partFull k
  if s.boot.latched.contains k then
    ({ s with boot := { s.boot with latched := s.boot.latched.filter (fun x => x != k) } }).openReset 2 k
  else s

/-- P0 to P3 are ON at start-up: the start-up check begins (R414). -/
def State.partitionsOn (s : State) : State :=
  if s.boot.phase = 5 ∧ (List.range 4).all (fun k => s.domOn k) then
    ({ s with boot := { s.boot with phase := 6 } }).wf KP_BOOT_STATUS KP_BOOT_STATUS_STAGE 3
  else s

/-- WAKING_DONE (R436, R437): the domain is ON, with its basins zero; with the disable latched it drains at once. -/
def execWakingDone (part : PartId) (tookMs : Nat) (s : State) : Host.Outcome State Fault Refusal :=
  let k := part.val
  let st := s.rf (PW_DOM k) PW_DOM_STATE
  if st = 1 ∨ st = 5 then
    let s := (((s.loseBasins k).wf (PW_DOM k) PW_DOM_WAKE_MS (min 255 tookMs)).domUp k).partitionsOn
    .next (if st = 5 then s.startDrain k else s)
  else .next s

end Sys2Proof.Machine
end

