-- ==== Sys2Proof/Machine/Schedule.lean ====
section
/-! DEFINITION. Schedules and pounds: admission and its refusals, what an image loads, the changeover, the start and the restart of a pound, withdrawal (R65 to R67, R170, R171, R207, R211, R221, R240, R274, R310, R316, R395, R450, R457). -/

namespace Sys2Proof.Machine

/-! ## Measurement registers (R457) -/

/-- The bytes of measurement register `i`. -/
def State.meas (s : State) (i : Nat) : List Byte := toBytes 32 (s.rdWide (KP_MEAS i 0) 8)

/-- Register `i` extended by a digest: M_i = SM3(M_i || d). -/
def State.measExtend (s : State) (i : Nat) (d : List Byte) : State :=
  s.wrWide (KP_MEAS i 0) 8 (Config.sm3 (s.meas i ++ d)).toNat

/-- The bytes of a digest. -/
def digestBytes (d : BitVec 256) : List Byte := toBytes 32 d.toNat

/-! ## What an image may load (R212, R240, R242, R243, R244, R253, R274, R323) -/

/-- Registers that a schedule alone sets: they leave an earlier schedule's values when the next one takes effect. -/
def schedOwned (a : Nat) : Bool :=
  match target a with
  | .reg (.co _) o => decide (o < 0xC) || o == 0x188 || (decide (0x2000 ≤ o ∧ o < 0x2400) && o % 16 != 12) || decide (0x2400 ≤ o ∧ o < 0x2C00)
  | .reg .kp o => [0x200, 0x218, 0x21C, 0x228, 0x240, 0x244, 0x248, 0x260, 0x264, 0x268].contains o || decide (0x280 ≤ o ∧ o < 0x2C0)
  | .reg (.wh _) o => decide (0x100 ≤ o ∧ o < 0x140) && decide (o % 0x20 < 0xC)
  | _ => false

/-- Whether a register is an observation word. -/
def isObs (a : Nat) : Bool :=
  match target a with
  | .reg (.co _) o => decide (0x4000 ≤ o ∧ o < 0x6000)
  | _ => false

/-- Registers that an image may load: those, the scale register file, observation words, SLUICE_POUNDS, and an Ethernet interface's IPv6
address, VLAN and MTU (R374). -/
def loadable (a : Nat) : Bool :=
  schedOwned a || isObs a || a == KP_SLUICE_CTRL || (match target a with
    | .reg (.co _) o => decide (0x8000 ≤ o)
    | .reg (.lk _) o => decide (0x400 ≤ o ∧ o < 0x480) && (o % 0x40 == 0 || decide (0x10 ≤ o % 0x40 ∧ o % 0x40 < 0x20))
    | _ => false)

/-- Every word with its own bits: reserved bits, and fields that no schedule sets, keep their values. -/
def State.loadWord (s : State) (a v : Nat) : State :=
  if !loadable a then s
  else if a = KP_SLUICE_CTRL then s.wf a KP_SLUICE_CTRL_SLUICE_POUNDS v
  else
    match target a with
    | .reg (.co c) o =>
      if o = 0x188 then s.wf a CO_WIDE_POOL_POOL v
      else
        let s := s.wr a v
        if 0x2000 ≤ o ∧ o < 0x2400 ∧ o % 16 = 0 then s.wb (CO_TRK_STATUS c ((o - 0x2000) / 16)) CO_TRK_STATUS_FELL_BACK false else s
    | .reg (.lk _) o => if o % 0x40 = 0 then s.wr a (v / 8 * 8 + s.rd a % 8) else s.wr a v
    | _ => s.wr a v

/-- The schedule's registers at their reset values. -/
def State.clearSched (s : State) : State :=
  ({ s with regs := s.regs.filter (fun r => !schedOwned r.1) }).loadRegs ((resetRegs s.fuses.part).filter (fun r => schedOwned r.1))

/-! ## Refusals (R67, R211, R221, R274, R316, R394, R450) -/

/-- The registers with an image's words loaded, to be checked. -/
def State.trial (s : State) (im : ScheduleImage) : State := im.loads.foldl (fun s l => s.loadWord l.1 l.2.toNat) s.clearSched

/-- Observation words of a tracker: 18, or one per record (R221). -/
def State.obsCount (s : State) (c t : Nat) : Nat :=
  if s.rf (CO_TRK_CFG c t) CO_TRK_CFG_KIND = 1 then s.rf (CO_TRK_REC c t) CO_TRK_REC_REC_CNT_M1 + 1 else 18

def State.trkKind (s : State) (c t : Nat) : Nat := s.rf (CO_TRK_CFG c t) CO_TRK_CFG_KIND
def State.obsBase (s : State) (c t : Nat) : Nat := s.rf (CO_TRK_OBS c t) CO_TRK_OBS_OBS_BASE

/-- Whether a tracker's configuration is refused (R221). -/
def State.trackerBad (s : State) (c t : Nat) : Bool :=
  let k := s.trkKind c t
  let used := decide (1 ≤ k ∧ k ≤ 3)
  decide (4 ≤ k)
  || decide (4096 < s.rf (CO_TRK_REC c t) CO_TRK_REC_REC_BASE + s.rf (CO_TRK_REC c t) CO_TRK_REC_REC_CNT_M1 + 1)
  || (used && (!isBargeFmt (s.rf (CO_TRK_CFG c t) CO_TRK_CFG_TFMT)
    || decide (2048 < s.obsBase c t + s.obsCount c t)
    || (List.range 64).any (fun u => u != t && decide (1 ≤ s.trkKind c u ∧ s.trkKind c u ≤ 3)
        && meets [(s.obsBase c t, s.obsCount c t)] [(s.obsBase c u, s.obsCount c u)])))
  || (k == 1 && s.rf (CO_TRK_CFG c t) CO_TRK_CFG_GAUGE_N == 0)

/-- Records of a sounding whose largest N is `n`: one, or one a column with PERCOL (R193, R229). -/
def State.sndRecords (s : State) (c l n : Nat) : Nat := if s.rb (CO_SND_CFG c l) CO_SND_CFG_PERCOL then max 1 n else 1

/-- Whether a layer's sounding configuration is refused, `n` being the largest N of its SOUND instructions (R221): a layer is sounded
when its threshold is positive. -/
def State.soundBad (s : State) (c l n : Nat) : Bool :=
  let sounded := match fp32F.decode (s.rd (CO_SND_THR c l)) with
    | .fin x => !x.neg && x.m != 0
    | .inf neg => !neg
    | _ => false
  let cfg := CO_SND_CFG c l
  let srec := s.rf cfg CO_SND_CFG_SREC
  sounded && (!isBargeFmt (s.rf cfg CO_SND_CFG_TFMT) || srec % 2 == 1 || decide (8191 < srec + 2 * s.sndRecords c l n - 1) || s.rf cfg CO_SND_CFG_SAT == 3)

/-- Whether the training part holds a reserved value (R274). -/
def State.trainBad (s : State) : Bool :=
  (List.range 4).any (fun k => s.rf KP_NF_ACT (KP_NF_ACT_ACT k) == 3)
  || (List.range 2).any (fun c => s.rf (KP_SPIKE_CFG c) KP_SPIKE_CFG_ACT == 3
    || !decide (1 ≤ s.rf (KP_SPIKE_CFG c) KP_SPIKE_CFG_ALPHA_SH ∧ s.rf (KP_SPIKE_CFG c) KP_SPIKE_CFG_ALPHA_SH ≤ 16))
  || s.rf (KP_SPIKE_CFG 1) KP_SPIKE_CFG_LOSS_CORE != 0

/-- Whether a core's program is refused (R211): a program holds at least one instruction, and one bucket table stands at CO_BTAB. -/
def State.programBad (s : State) (p : CoreProgram) : Bool :=
  !s.present p.core || decide (basinSize < p.entry + max 4 p.size) || decide (basinSize < p.btab + 64 * max 1 p.tables)
  || p.pointerLists.any (fun l => decide (basinSize < l.1 + 16 * l.2))
  || (match p.entryWide with
    | none => true
    | some w => decide (basinSize < w + max 4 p.sizeWide))
  || decide (basinSize < p.basinNeed)

/-- The cores that an image names beside its programs': those of its bindings, of its register words, and LOSS_CORE where a program
runs the loss channel (R28, R211). -/
def imageCores (im : ScheduleImage) : List Nat :=
  im.bindings.map (fun b => b.core.val) ++ im.loads.filterMap (fun l => match target l.1 with
    | .reg b o => (Target.reg b o).core?
    | _ => none)

/-- Whether an image names an absent core: `z` holds its words. LOSS_CORE is named where a schedule trains (R244, R262). -/
def State.namesAbsent (s z : State) (im : ScheduleImage) : Bool :=
  (imageCores im).any (fun c => !s.present c)
  || (im.loads.any (fun l => l.1 == KP_SPIKE_CFG 0) && !s.present (z.rf (KP_SPIKE_CFG 0) KP_SPIKE_CFG_LOSS_CORE))

/-- The largest N with which an image's programs sound a layer of a core. -/
def soundWidth (im : ScheduleImage) (c l : Nat) : Nat :=
  ((im.programs.filter (fun p => p.core.val == c)).flatMap (fun p => p.soundings.filter (fun x => x.1 == l))).foldl (fun r x => max r x.2) 0

/-- Whether a binding matches only identities that R450 allows on a channel of partition `k`. -/
def State.bindingOk (s : State) (b : Binding) : Bool :=
  let k := corePart b.core
  if !s.tenants then true
  else
    let ids := (List.range 4096).filter (fun n => (n &&& b.smask) == (b.smid &&& b.smask))
    let samePart := fun n : Nat => (masterOf n).part == some k
    if b.sdev = s.devId then ids.all (fun n => samePart n || (match masterOf n with
      | .keeper => true
      | .control _ => true
      | _ => false))
    else ids.all samePart && decide (s.rf (KP_TENANT_PEER k) KP_TENANT_PEER_PEER_LO ≤ b.sdev ∧ b.sdev ≤ s.rf (KP_TENANT_PEER k) KP_TENANT_PEER_PEER_HI)

/-- Whether intake ports share a ring, or an intake ring has another owner too (R316); `s` holds the image's words. -/
def State.intakeBad (s : State) (im : ScheduleImage) : Bool :=
  let on := (List.range 16).filter (fun p => s.rb (WH_INTAKE_CFG (p / 2) (p % 2)) WH_INTAKE_CFG_EN)
  let ring := fun p : Nat => s.rf (WH_INTAKE_CFG (p / 2) (p % 2)) WH_INTAKE_CFG_RING
  on.any (fun p => on.any (fun q => p != q && ring p == ring q) || im.ringOwners.any (fun r => r.1.val == ring p))

/-- The long-reach stores of a device: 128 MiB for each sub-port of a port with LR_EN (R356). -/
def State.longStores (s : State) : Nat :=
  ((List.range 16).map (fun p =>
    if s.rb (LK_CFG p) LK_CFG_LR_EN ∧ s.rf (LK_CFG p) LK_CFG_MODE = 0 then 2 ^ s.rf (LK_CFG p) LK_CFG_SPLIT * 2 ^ 27 else 0)).sum

/-- HBM that a schedule can be allotted: what is usable, less the long-reach stores (R7, R48, R211, R356). -/
def State.usableHbm (s : State) : Nat := (if s.integ 0 then 0x2F40000000 else 0x3000000000) - s.longStores

/-- The D units of shard group `g` do not fill its stripes: D is a multiple of n − 1, or of n − 2 with dual parity (R394). -/
def State.unitsBad (s : State) (g : Nat) : Bool :=
  let lost := if s.rb (KP_GRP_CFG g) KP_GRP_CFG_DUAL then 2 else 1
  s.rf (KP_GRP_UNITS g) KP_GRP_UNITS_D % (s.rf (KP_GRP_CFG g) KP_GRP_CFG_N - lost) != 0

/-- While the device is in a shard group, protected tensors retain two committed epochs and D fills the stripes (R394). -/
def State.protectBad (s : State) (im : ScheduleImage) : Bool :=
  let groups := (List.range 4).filter (fun g => s.rb (KP_GRP_CFG g) KP_GRP_CFG_VALID)
  (!groups.isEmpty && im.tensors.any (fun t => t.prot && decide (t.slots.length < 3))) || groups.any (fun g => s.unitsBad g)

/-- Whether a schedule is refused at admission; `fresh` where no schedule runs. -/
def State.schedBad (s : State) (im : ScheduleImage) (fresh : Bool) : Bool :=
  let z := s.trial im
  im.programs.any (fun p => s.programBad p) || s.namesAbsent z im || decide (s.usableHbm < im.hbmNeed)
  || (im.programs.map (fun p => p.core.val) ++ imageCores im).eraseDups.any (fun c =>
      (List.range 64).any (fun t => z.trackerBad c t) || (List.range 256).any (fun l => z.soundBad c l (soundWidth im c l)))
  || z.trainBad || z.intakeBad im || !im.bindings.all (fun b => s.bindingOk b) || s.protectBad im
  || (fresh && decide (im.anchor < s.now + 1000000))

/-- A refusal: SCHED_REFUSED with a reason that the runtime chooses, and the manager told, or on a stand-alone device the request
intake of each port, as an interrupt to its master number (R67, R211; DESIGN CHOICE: R211 gives the report no form). -/
def State.refuseSched (s : State) : State :=
  let (r, s) := s.draw
  let s := s.post 0x16 stOK (s.src 0xD01) (r % 256)
  if s.role = 1 ∨ s.role = 2 then s.send s.manager 3 txReport [r % 256]
  else if s.inFleet then s
  else { s with interrupts := s.interrupts ++ ((List.range 16).filter (fun p => s.intakeOn p)).map (fun p => (s.self (0xD10 + p), BitVec.ofNat 64 (r % 256))) }

/-! ## Loading (R310, R316, R395) -/

/-- A program's registers. -/
def State.loadProgram (s : State) (p : CoreProgram) : State :=
  let c := p.core.val
  let s := ((s.wf (CO_ENTRY c) CO_ENTRY_OFFSET p.entry).wf (CO_ENTRY_WIDE c) CO_ENTRY_WIDE_OFFSET (p.entryWide.getD 0)).wf (CO_BTAB c) CO_BTAB_OFFSET p.btab
  (s.wb (CO_TSTATUS c) CO_TSTATUS_CLAIM_ONLY p.claimOnly).wf (CO_WIDE_POOL c) CO_WIDE_POOL_POOL p.pool

/-- Claim limits: counters that the image does not name are not armed (R207). -/
def State.loadClaims (s : State) (l : List ClaimLimit) : State :=
  let s := allCounters.foldl (fun s x => s.wf (claimReg x.1 x.2.1 x.2.2 0) KP_CLAIM_ARMING_LIMIT 0) s
  l.foldl (fun s c => s.wf (claimReg c.device c.die c.ctr 0) KP_CLAIM_ARMING_LIMIT c.limit) s

/-- A mailbox binding, unless the channel is locked (R334). -/
def State.loadBinding (s : State) (b : Binding) : State :=
  let x := 4 * b.core.val + b.chan.val
  if s.rb (MB_BIND_1 x) MB_BIND_1_LOCKED then s
  else
    let s := (s.wf (MB_BIND_0 x) MB_BIND_0_SMID b.smid).wf (MB_BIND_0 x) MB_BIND_0_SMASK b.smask
    (s.wb (MB_BIND_0 x) MB_BIND_0_VALID true).wf (MB_BIND_1 x) MB_BIND_1_SDEV b.sdev

/-- Owners of the intake rings, and of the rings that the image gives away. -/
def State.loadOwners (s : State) (im : ScheduleImage) : State :=
  let s := im.ringOwners.foldl (fun s r => s.wf (KP_RING_OWNER r.1) KP_RING_OWNER_OWNER (identWord r.2)) s
  (List.range 16).foldl (fun s p =>
    let a := WH_INTAKE_CFG (p / 2) (p % 2)
    if s.rb a WH_INTAKE_CFG_EN then
      (s.wf (KP_RING_OWNER (s.rf a WH_INTAKE_CFG_RING)) KP_RING_OWNER_OWNER (s.devId * 4096 + 0xD10 + p)).syncPort p
    else s) s

/-- An image's registers take effect. A changeover keeps observation words and tracker status. -/
def State.loadImage (s : State) (im : ScheduleImage) (fresh : Bool) : State :=
  let s := (s.clearSched.wf TM_SCHED_0 TM_SCHED_0_POUND_US im.poundUs).wf TM_SCHED_0 TM_SCHED_0_RETAIN im.retain
  let s := (s.wf TM_SCHED_1 TM_SCHED_1_VOTE_LEAD im.voteLead).wf TM_SCHED_1 TM_SCHED_1_SERVE_SLOT im.serveSlot
  let s := (List.range 1024).foldl (fun s c => s.wb (CO_TSTATUS c) CO_TSTATUS_CLAIM_ONLY false) s
  let s := im.programs.foldl (fun s p => s.loadProgram p) s
  let s := s.loadClaims im.claims
  let s := if fresh then { s with regs := s.regs.filter (fun r => !(match target r.1 with
      | .reg (.co _) o => decide (0x2000 ≤ o ∧ o < 0x2400) && o % 16 == 12
      | _ => false)) } else s
  let s := im.loads.foldl (fun s l => if !fresh && isObs l.1 then s else s.loadWord l.1 l.2.toNat) s
  let s := im.bindings.foldl (fun s b => s.loadBinding b) s
  (s.loadOwners im).syncDemand

/-- The registers of the core-state image as they stand (R395). -/
def State.imageNow (s : State) : Sparse Word :=
  s.regs.filter (fun r => match target r.1 with
    | .reg (.co _) o => imageOff o
    | _ => false)

/-- A schedule becomes current on an IDLE device. -/
def State.adoptSched (s : State) (im : ScheduleImage) : State :=
  let s := s.loadImage im true
  let k := max 1 im.retain
  { s with sched := some im, lock := { s.lock with
      anchor := im.anchor, rot := 0, history := [(s.epoch, k)], past := [], image := s.imageNow, imageWork := [] } }

/-- The epochs that the current schedule retains, as they stay readable after a changeover (R83, R310). -/
def State.pastEpochs (s : State) : List PastEpoch :=
  match s.sched with
  | some im => s.lock.history.map (fun h => ⟨h.1, h.2, im.tensors, max 1 (s.rf TM_SCHED_0 TM_SCHED_0_RETAIN)⟩)
  | none => []

/-- A staged schedule replaces the running one in the lock that sets the epoch to `e` (R310); the epochs before it stay readable as
the old schedule retained them (R83). -/
def State.changeSched (s : State) (e : Nat) (im : ScheduleImage) : State :=
  let past := (s.pastEpochs.filter (fun p => p.epoch != e)) ++ s.lock.past
  let s := s.loadImage im false
  { s with sched := some im, lock := { s.lock with rot := 0, history := [(e, max 1 im.retain)], past := past } }

/-! ## Pounds (R170, R171, R207, R395) -/

/-- Pound length in ns (R65). -/
def State.poundNs (s : State) : Nat := s.rf TM_SCHED_0 TM_SCHED_0_POUND_US * 1000

/-- The cores that run a pound: those the schedule gives a program, present and in no reset, on a device whose duty is to
compute (R170, R204, R382). -/
def State.runCores (s : State) : List Nat :=
  if s.rf KP_FLEET_ID KP_FLEET_ID_DUTY ≠ 0 then []
  else match s.sched with
    | some im => (im.programs.map (fun p => p.core.val)).filter (fun c => s.present c && s.coreUp c)
    | none => []

/-- The record of a core's fault is cleared: when the next pound starts (R212). -/
def State.clearFault (s : State) (c : Nat) : State :=
  let s := ((s.modCore c (fun k => { k with faultSeen := false })).wb (CO_TSTATUS c) CO_TSTATUS_FAULT_T false).wf (CO_TSTATUS c) CO_TSTATUS_FAULT 0
  (s.wf (CO_TSTATUS c) CO_TSTATUS_FAULT_Q 0).wf (CO_FAULT_PC c) CO_FAULT_PC_PC 0

/-- The program of a core starts. -/
def State.startCore (s : State) (c : Nat) (wide : Bool) : State :=
  let k := s.core c
  let pc := if wide then s.rf (CO_ENTRY_WIDE c) CO_ENTRY_WIDE_OFFSET else s.rf (CO_ENTRY c) CO_ENTRY_OFFSET
  let s := (s.setCore c { k with
      g := List.replicate 32 0#64, pc := pc, queue := [], stall := .none, keys := [], marks := [], issued := 0 }).syncQueues c
  (s.wf (CO_TSTATUS c) CO_TSTATUS_STATE 1).wf (CO_TSTATUS c) CO_TSTATUS_TOKENS 0

/-- Armed counters begin anew; a restart raises ARM (R207). No index is listed and no token held of any counter after it. -/
def State.armClaims (s : State) (restart : Bool) : State :=
  allCounters.foldl (fun s x =>
    let a := claimReg x.1 x.2.1 x.2.2 0
    if s.rf a KP_CLAIM_ARMING_LIMIT = 0 then (s.wf (a + 8) KP_CLAIM_RECLAIM_RECLAIM 0).wf (a + 12) KP_CLAIM_HELD_OUTSTANDING 0
    else
      let arm := if restart then (s.rf a KP_CLAIM_ARMING_ARM + 1) % 32 else 0
      (((s.wf a KP_CLAIM_ARMING_ARM arm).wr (a + 4) 0).wr (a + 8) 0).wr (a + 12) 0) { s with claims := [] }

/-- The cores that hold the record of a fault lose it (R212). -/
def State.clearFaults (s : State) : State := s.cores.foldl (fun s x => s.clearFault x.1) s

/-- Tillers that do not take part stand idle. -/
def State.idleOthers (s : State) (run : List Nat) : State :=
  s.cores.foldl (fun s x =>
    let st := s.tstate x.1
    if 1 ≤ st ∧ st ≤ 3 ∧ !run.contains x.1 then s.wf (CO_TSTATUS x.1) CO_TSTATUS_STATE 0 else s) s

/-- ALL_WIDE (R237). -/
def State.allWide (s : State) : Bool := s.rb KP_SLUICE_CTRL KP_SLUICE_CTRL_ALL_WIDE

/-- The cores of a pound or of its restart begin, with the working parts of their trackers clear (R217, R219). -/
def State.startCores (s : State) (restart : Bool) : State :=
  let run := s.runCores
  let wide := s.allWide
  let s := run.foldl (fun s c => ((List.range 64).foldl (fun s t => s.clearTracker c t) s).startCore c wide) ((s.armClaims restart).idleOthers run)
  if restart then s.trainRestart run else s.clearFaults.trainStart run

/-- STATE of TM_LOCK_STATUS; the ports that the device RB_N has held low stay low until they have recovered (R321). -/
def State.setLockSt (s : State) (n : Nat) : State := (if s.running then s else s.syncPorts).wf TM_LOCK_STATUS TM_LOCK_STATUS_STATE n
/-- VOTE of TM_LOCK_STATUS. -/
def State.setVote (s : State) (n : Nat) : State := s.wf TM_LOCK_STATUS TM_LOCK_STATUS_VOTE n

/-- A pound starts, at the instant from which its windows count. A fault found after the cut-off of the lock before vetoes at its own
cut-off (R179), and an uncorrectable error met after the drain of the lock before vetoes the next lock (R75). -/
def State.poundStart (s : State) : State :=
  let carried := (if natBit 0 s.lock.cutCauses then 0 else s.lock.causes % 2) ||| (if s.lock.lateError then 2 else 0)
  let s := { s with lock := { s.lock with
      extended := false, poundStart := s.lock.origin, votes := [], cut := false, cutCauses := 0, passed := [], decision := none, start := none,
      committed := false, causes := carried, ovr := false, lateError := false, emptied := false, imageWork := s.imageNow } }
  let s : State := { s with fleet := { s.fleet with losses := [] } }
  ((s.startCores false).setLockSt 1).setVote 0

/-- pound_seed of the pound that starts, and its streams (R76, R164). -/
def State.seedPound (s : State) (working : Nat) : State :=
  let seed := (s.sched.map (fun im => im.seed.toNat)).getD 0
  let cores := (s.cores.map (fun x => (x.1, { x.2 with sr := [] }))).filter (fun x => x.2 != Core.initial)
  { s with lock := { s.lock with poundSeed := mix64 (seed ^^^ working) }, cores := cores }

/-- A schedule is withdrawn: the device is IDLE and keeps its committed state (R81, R388, R401). -/
def State.withdraw (s : State) : State :=
  let s := s.cores.foldl (fun s x =>
    if 1 ≤ s.tstate x.1 ∧ s.tstate x.1 ≤ 3 then
      ((s.modCore x.1 (fun k => { k with queue := [], stall := .none })).syncQueues x.1).wf (CO_TSTATUS x.1) CO_TSTATUS_STATE 0
    else s) s
  let s := (((s.wr TM_SCHED_0 0).wr TM_SCHED_1 0).wrWide TM_NEXT_LOCK_0 2 0).setLockSt 0
  let s := s.setVote 0
  { s with sched := none, lock := { s.lock with
      votes := [], cut := false, cutCauses := 0, passed := [], decision := none, start := none, committed := false, window := false,
      causes := 0, ovr := false,
      lateError := false, history := [(s.epoch, 0)], past := [], image := [], imageWork := [] } }.runDeferred

/-- The device commits nothing and is OUT_OF_STEP; requests that the lock window deferred are carried out (R74, R75, R80). -/
def State.outOfStep (s : State) : State :=
  let l := s.nextLock
  let s := ((s.setLockSt 4).wf TM_LOCK_STATUS TM_LOCK_STATUS_LAST 3).wf KP_TRAIN_LAST KP_TRAIN_LAST_OUTCOME 3
  let s := { s with lock := { s.lock with decision := none, start := none, committed := false, lateError := false } }
  (s.post 0x15 stOK s.tmSrc l).runDeferred

/-- The epoch that a replaced schedule still retains, if it does (R83). -/
def State.pastEpoch (s : State) (e : Nat) : Option PastEpoch := s.lock.past.find? (fun p => p.epoch == e && decide (s.epoch < e + p.keep))

/-- Whether an epoch is retained and published: the published one, one that the schedule has committed within its retention, or one
that the schedule before it has (R82 to R84). -/
def State.retained (s : State) (e : Nat) : Bool :=
  decide (e ≤ s.epoch) && (e == s.epoch
    || (s.lock.history.any (fun h => h.1 == e) && decide (s.epoch < e + max 1 (s.rf TM_SCHED_0 TM_SCHED_0_RETAIN)))
    || (s.pastEpoch e).isSome)

end Sys2Proof.Machine
end

