-- ==== Sys2Proof/Machine/Security.lean ====
section
/-! DEFINITION. The Keeper's security: images in MRAM and their verification, measurement, attestation, authorisations, operator sessions, key-region entries, tenants, the I3C address (R305, R444 to R468, R508). The engines of SM2, SM3 and SM4 stand in Config and in the commands' operands. -/

namespace Sys2Proof.Machine

/-! ## Images (R452, R453) -/

/-- The base and the size of an image slot. -/
def slotBase (i : Nat) : Nat := mramBase + i * 0x1F00000
def slotSize : Nat := 0x1F00000

/-- A field of a slot's header. -/
def State.hdr (s : State) (i off n : Nat) : Nat := s.load (slotBase i + off) n

/-- Every part of the part table lies within the body. -/
def State.partsOk (s : State) (i : Nat) : Bool :=
  (List.range 20).all (fun e => s.hdr i (128 + 16 * e) 1 == 0
    || decide (s.hdr i (128 + 16 * e + 8) 4 + s.hdr i (128 + 16 * e + 12) 4 ≤ s.hdr i 8 4))

/-- Whether the image of slot `i` verifies (R453). -/
def State.imageOk (s : State) (i : Nat) : Bool :=
  let z := s.hdr i
  let key := z 13 1
  z 0 4 == 0x54524854 && z 4 4 == 1 && decide (z 8 4 ≤ slotSize - 512) && decide (key ≤ 3) && !natBit key s.fuses.revoked
  && z 14 2 == 0 && z 112 16 == 0
  && Config.sm3 (s.bytes (slotBase i + 48) 64) == s.fuses.keyHash.getD key 0#256
  && Config.sm2Verify (BitVec.ofNat 512 (z 48 64)) (Config.sm3 (s.bytes (slotBase i) 448)) (BitVec.ofNat 512 (z 448 64))
  && digestBytes (Config.sm3 (s.bytes (slotBase i + 512) (z 8 4))) == s.bytes (slotBase i + 16) 32
  && s.partsOk i && decide (s.fuses.rollback ≤ z 12 1)

/-- The SVN of a slot, or 0xFF when its image does not verify. -/
def State.slotSvn (s : State) (i : Nat) : Nat := if s.imageOk i then s.hdr i 12 1 else 0xFF

/-- The slot in use. -/
def State.slot (s : State) : Nat := s.rf KP_BOOT_STATUS KP_BOOT_STATUS_SLOT

/-- SVN_OTHER follows the other slot. -/
def State.syncSvn (s : State) : State := s.wf KP_SEC_STATUS KP_SEC_STATUS_SVN_OTHER (s.slotSvn (1 - s.slot))

/-- The hashes of the parts of a kind, in part-table order, extended into a register. -/
def State.measParts (s : State) (slot reg : Nat) (kinds : List Nat) : State :=
  (List.range 20).foldl (fun s e =>
    if kinds.contains (s.hdr slot (128 + 16 * e) 1) then
      s.measExtend reg (digestBytes (Config.sm3 (s.bytes (slotBase slot + 512 + s.hdr slot (128 + 16 * e + 8) 4) (s.hdr slot (128 + 16 * e + 12) 4))))
    else s) s

/-- The header's hash extended into a register. -/
def State.measHeader (s : State) (slot reg : Nat) : State := s.measExtend reg (digestBytes (Config.sm3 (s.bytes (slotBase slot) 512)))

/-- IMAGE_SLOT_WRITE (R456, R467): the inactive slot, header erased first and written last; where the whole write has
taken place, the slot holds the image. -/
def State.writeImage (s : State) (i : Nat) (image : List Byte) : State :=
  if slotSize < image.length then s else (s.setBytes (slotBase i) image).syncSvn

def execImageSlotWrite (image : List Byte) (s : State) : Host.Outcome State Fault Refusal := .next (s.writeImage (1 - s.slot) image)

/-! ## The random bit generator (R451) -/

/-- A random value of the Keeper's generator. -/
def State.random (s : State) : Nat × State :=
  let (v, s) := s.draw
  (v, { s with sec := { s.sec with drbgRequests := s.sec.drbgRequests + 1 } })

/-- DRBG_RESEED: after 2^20 requests. -/
def execDrbgReseed (s : State) : Host.Outcome State Fault Refusal :=
  .next (if 2 ^ 20 ≤ s.sec.drbgRequests then { s with sec := { s.sec with drbgRequests := 0 } } else s)

/-- KP_AUTH_NONCE changes (R466). -/
def State.newNonce (s : State) : State :=
  let (v, s) := s.random
  s.wrWide (KP_AUTH_NONCE 0) 8 v

/-! ## Attestation (R459, R460) -/

/-- The Keeper firmware runs: after its start phase, outside a Keeper-only reset, and not in a start that failed for want of an
image (R416, R435). -/
def State.keeperUp (s : State) : Bool :=
  !s.boot.keeperDown && (decide (5 ≤ s.boot.phase)
    || (s.rf KP_BOOT_STATUS KP_BOOT_STATUS_STAGE == 15 && s.rf KP_BOOT_STATUS KP_BOOT_STATUS_CAUSE != 1))

/-- Bytes 0 to 399 of a report. -/
def State.reportBody (s : State) (nonce : BitVec 256) (key : Nat) : List Byte :=
  toBytes 4 1 ++ toBytes 4 (s.rd KP_PART_INFO) ++ toBytes 16 s.fuses.serial.toNat ++ toBytes 2 s.devId
    ++ toBytes 1 (s.role + 4 * s.rf KP_FLEET_ID KP_FLEET_ID_DUTY)
    ++ toBytes 1 (s.rf KP_BOOT_STATUS KP_BOOT_STATUS_FALLBACK + 2 * s.slot + 4 * s.tenants.toNat)
    ++ toBytes 6 s.epoch ++ toBytes 2 0 ++ toBytes 8 s.now ++ toBytes 32 nonce.toNat ++ (List.range 8).flatMap (fun i => s.meas i)
    ++ toBytes 1 (s.rf KP_SEC_STATUS KP_SEC_STATUS_ROLLBACK) ++ toBytes 1 (s.rf KP_SEC_STATUS KP_SEC_STATUS_SVN_ACTIVE)
    ++ toBytes 1 (s.rf KP_SEC_STATUS KP_SEC_STATUS_SVN_OTHER) ++ toBytes 1 0 ++ toBytes 64 key

/-- ATTESTATION_REQUEST: a report of 496 bytes, signed; at most 16 in a second. -/
def execAttestationRequest (nonce : BitVec 256) (wantKey : Bool) (s : State) : Host.Outcome State Fault Refusal :=
  if !s.keeperUp then .next s
  else
    let recent := s.sec.attested.filter (fun t => decide (s.now < t + 1000000000))
    if 16 ≤ recent.length then .next (({ s with sec := { s.sec with attested := recent } }).reply stBAD_OPCODE [])
    else
      let (key, s) := if wantKey then s.random else (0, s)
      let (sig, s) := s.draw
      let s := { s with sec := { s.sec with attested := recent ++ [s.now], ephemeral := if wantKey then some s.now else s.sec.ephemeral } }
      let body := s.reportBody nonce key
      .next (s.reply stOK (body ++ digestBytes (Config.sm3 body) ++ toBytes 64 sig))

/-- EPHEMERAL_KEY_EXPIRY. -/
def execEphemeralKeyExpiry (s : State) : Host.Outcome State Fault Refusal :=
  match s.sec.ephemeral with
  | some t => if t + 1000000000 ≤ s.now then .next { s with sec := { s.sec with ephemeral := none } } else .next s
  | none => .next s

/-! ## Authorisations (R455, R466) -/

/-- Whether a token holds. -/
def State.tokenOk (s : State) (t : Token) : Bool :=
  t.version == 1#32 && decide (1 ≤ t.op.toNat ∧ t.op.toNat ≤ 4) && decide (t.index.toNat ≤ 3) && t.zeros
  && (t.op == 2#8 || t.op == 3#8 || t.arg == 0#8)
  && t.keyHash == s.fuses.authHash.getD t.index.toNat 0#256
  && Config.sm2Verify (BitVec.ofNat 512 t.keyHash.toNat) t.digest t.signature
  && t.serial == s.fuses.serial && t.nonce.toNat == s.rdWide (KP_AUTH_NONCE 0) 8

/-- The held token, in KP_SEC_STATUS. -/
def State.setAuth (s : State) (a : Option Auth) : State :=
  let s := { s with sec := { s.sec with auth := a } }
  (s.wb KP_SEC_STATUS KP_SEC_STATUS_AUTH_VALID a.isSome).wf KP_SEC_STATUS KP_SEC_STATUS_AUTH_OP (a.elim 0 (fun x => x.op))

/-- A token is offered: valid or not, the nonce changes. -/
def State.offer (s : State) (t : Token) : State :=
  let s := if s.tokenOk t then s.setAuth (some ⟨t.op.toNat, t.arg.toNat, s.now⟩) else s
  s.newNonce

/-- AUTHORISATION_OFFER, over an operator session. -/
def execAuthorisationOffer (t : Token) (s : State) : Host.Outcome State Fault Refusal :=
  .next (if s.sec.session.isSome && s.keeperUp then s.offer t else s)

/-- AUTHORISATION_EXPIRY: 10 minutes. -/
def execAuthorisationExpiry (s : State) : Host.Outcome State Fault Refusal :=
  match s.sec.auth with
  | some a => if a.since + 600000000000 ≤ s.now then .next (s.setAuth none) else .next s
  | none => .next s

/-- A held token of an operation. -/
def State.holds (s : State) (op : Nat) : Option Auth :=
  match s.sec.auth with
  | some a => if a.op = op then some a else none
  | none => none

/-- REVOKE_SIGNING_KEY: never the key that signed the active image. -/
def execRevokeSigningKey (index : Fin 4) (s : State) : Host.Outcome State Fault Refusal :=
  match s.holds 2 with
  | some a =>
    if a.arg = index.val ∧ s.hdr s.slot 13 1 ≠ index.val then
      let s := { s with fuses := { s.fuses with revoked := s.fuses.revoked ||| 2 ^ index.val } }
      .next (((s.setAuth none).wf KP_SEC_STATUS KP_SEC_STATUS_REVOKED s.fuses.revoked).syncSvn)
    else .next s
  | none => .next s

/-- RAISE_ROLLBACK (R455). -/
def execRaiseRollback (value : Byte) (s : State) : Host.Outcome State Fault Refusal :=
  match s.holds 3 with
  | some a =>
    if a.arg = value.toNat ∧ value.toNat ≤ s.rf KP_SEC_STATUS KP_SEC_STATUS_SVN_ACTIVE ∧ s.rf KP_BOOT_STATUS KP_BOOT_STATUS_STAGE = 7 then
      let s := { s with fuses := { s.fuses with rollback := max s.fuses.rollback value.toNat } }
      .next (((s.setAuth none).wf KP_SEC_STATUS KP_SEC_STATUS_ROLLBACK s.fuses.rollback).syncSvn)
    else .next s
  | none => .next s

/-- REPLACE_OPERATOR_KEYS (R466, R467): under a token, or while the list is empty. -/
def execReplaceOperatorKeys (hashes : List (BitVec 256)) (digest : BitVec 256) (s : State) : Host.Outcome State Fault Refusal :=
  if hashes.length ≤ 4 ∧ s.keeperUp ∧ ((s.holds 4).isSome ∨ s.fuses.operatorKeys.isEmpty) then
    let s := { s with fuses := { s.fuses with operatorKeys := hashes } }
    let s := if (s.holds 4).isSome then s.setAuth none else s
    .next (s.measExtend 6 (digestBytes digest))
  else .next s

/-- SESSION_OPEN (R467). -/
def execSessionOpen (keyHash : BitVec 256) (exchangeGood : Bool) (s : State) : Host.Outcome State Fault Refusal :=
  if exchangeGood && s.keeperUp && s.fuses.operatorKeys.contains keyHash then
    .next { s with sec := { s.sec with session := some keyHash, ephemeral := none } }
  else .next s

/-- CAK_DELIVERY (R467): over an operator session. -/
def execCakDelivery (port : PortId) (iface : Fin 2) (cak : BitVec 256) (s : State) : Host.Outcome State Fault Refusal :=
  if s.sec.session.isSome && s.keeperUp then .next { s with caks := spPut 0#256 s.caks (2 * port.val + iface.val) cak } else .next s

/-! ## Changes bound to an epoch (R77, R299, R305, R449) -/

/-- Whether a change bound to an epoch comes too late: its configuration step has begun. `TM_EPOCH` rises at the end of the
lock, and the configuration step is carried out together with the commit step. -/
def State.epochPast (s : State) (e : Nat) : Bool := decide (e ≤ s.epoch) || (s.lock.committed && decide (e ≤ s.epochW))

/-- Whether a key-region entry is one that R305 treats as not valid. -/
def kregBad (v : Nat) : Bool := decide (natBits 8 8 v < natBits 0 8 v) || decide (191 < natBits 8 8 v) || decide (4 < natBits 16 3 v)

/-- The Keeper's write of a key-region entry through controller `n`, which changes every controller's, at an epoch. -/
def State.kregWrite (s : State) (m : Ident) (n i v e : Nat) : State :=
  let s := if kregBad v then s.regEvent m (HM_KREG n i) else s
  if s.epochPast e then s.reply stBOUNDS_FAULT [] else (s.bind e (.kreg 8 i v) none).reply stOK []

/-- HM_KREG_WRITE (R305). -/
def execHmKregWrite (m : Ident) (index : Fin 16) (value : Word) (epoch : BitVec 48) (s : State) : Host.Outcome State Fault Refusal :=
  let (st, s) := s.checkLocal m (HM_KREG 0 index.val) 4 true
  if st ≠ stOK then .next (s.reply st []) else .next (s.kregWrite m 0 index.val value.toNat epoch.toNat)

/-- A key-region entry in all controllers; units verified under the table as it was are read afresh. -/
def State.putKreg (s : State) (i v : Nat) : State :=
  ((List.range 8).foldl (fun s n => s.wr (HM_KREG n i) (v % 2 ^ 19 + v / 2 ^ 31 % 2 * 2 ^ 31)) s).dropCaches

/-- A key slot gets fresh keys, or loses them: what was written under the old ones reads as unrelated bytes (R299). -/
def State.rekeySlot (s : State) (slot : Nat) : State :=
  ({ s with keyGen := s.keyGen.set slot (s.keyGen.getD slot 0 + 1) }).dropCaches

/-- The 36 bytes that register 5 is extended by (R457). -/
def State.tenantBytes (s : State) : List Byte :=
  toBytes 4 (s.rd KP_SEC_CTRL) ++ (List.range 4).flatMap (fun k => toBytes 4 (s.rd (KP_TENANT k)) ++ toBytes 4 (s.rd (KP_TENANT_PEER k)))

/-- Register 5 is extended at a change. -/
def State.measTenants (s : State) : State := s.measExtend 5 (digestBytes (Config.sm3 s.tenantBytes))

/-- A change of a tenant register (0 KP_TENANT_k, 1 KP_TENANT_PEER_k) takes effect (R449). -/
def State.tenantChange (s : State) (k reg v : Nat) : State :=
  let was := s.rb (KP_TENANT k) KP_TENANT_EN
  let s := if reg = 0 then s.wr (KP_TENANT k) (v % 8) else s.wr (KP_TENANT_PEER k) (natBits 0 14 v + natBits 16 14 v * 2 ^ 16)
  let s := if s.rb (KP_TENANT k) KP_TENANT_EN = was then s else s.rekeySlot (k + 1)
  s.measTenants

/-- A write of KP_SEC_CTRL by the Keeper: LOCK holds both bits until device reset (R447). -/
def State.secCtrl (s : State) (m : Ident) (v : Nat) : State :=
  if s.rb KP_SEC_CTRL KP_SEC_CTRL_LOCK then s.regEvent m KP_SEC_CTRL
  else
    let old := s.rd KP_SEC_CTRL
    let s := s.wr KP_SEC_CTRL (v % 4)
    if old = v % 4 then s else s.measTenants

/-- A write of KP_MEAS_EXT word 0 by a control processor extends register 7 (R457). -/
def State.measExt (s : State) (m : Ident) : State :=
  match masterOf m.num.toNat with
  | .control _ => s.measExtend 7 (toBytes 32 (s.rdWide (KP_MEAS_EXT 0) 8))
  | _ => s

/-! ## I3C (R508) -/

/-- I3C_SETDASA. -/
def execI3cSetdasa (address : BitVec 7) (s : State) : Host.Outcome State Fault Refusal :=
  .next { s with sec := { s.sec with i3cAddr := address.toNat } }
/-- I3C_ENTDAA. -/
def execI3cEntdaa (address : BitVec 7) (s : State) : Host.Outcome State Fault Refusal :=
  .next { s with sec := { s.sec with i3cAddr := address.toNat } }

end Sys2Proof.Machine
end

