-- ==== Sys2Proof/Machine/Startup.lean ====
section
/-! DEFINITION. From power to ready: device reset and its releases, the start phases and their failures, the start-up check and the core maps, the Keeper-only reset (R23 to R31, R297, R303, R413 to R423, R430, R435, R451, R457, R507, R508). -/

namespace Sys2Proof.Machine

/-! ## Device reset (R417) -/

/-- Findings that a repair entry can name (R422). -/
def isRepair : Finding → Bool
  | .coreSite _ _ | .basinRow _ _ _ _ | .basinSlice _ _ | .hbmDataLane _ _ _ _ | .hbmCaLane _ _ _ => true
  | _ => false

/-- Entries that burn into the e-fuse array. -/
def isEFuse : Finding → Bool
  | .coreSite _ _ | .basinRow _ _ _ _ | .basinSlice _ _ => true
  | _ => false

/-- STAGE of KP_BOOT_STATUS (R443). -/
def State.stage (s : State) : Nat := s.rf KP_BOOT_STATUS KP_BOOT_STATUS_STAGE
def State.setStage (s : State) (n : Nat) : State := s.wf KP_BOOT_STATUS KP_BOOT_STATUS_STAGE n
def State.setPhase (s : State) (n : Nat) : State := { s with boot := { s.boot with phase := n } }

/-- Every register at its reset value, and everything volatile gone; the fuses, the MRAM and the VALID bits of the fatal
file stay, with `fatalNew` of them written since. A self-test in progress is INCOMPLETE (R428). -/
def State.deviceReset (s : State) (hold : Hold) (fatalNew : Nat) : State :=
  let mram := s.mem.filter (fun c => decide (mramBase ≤ c.1 ∧ c.1 < mramBase + 0x4000000))
  let testing := s.boot.test.isSome
  let valid := s.rf EV_FATAL EV_FATAL_VALID
  let r := State.resetOf s.fuses.part
  let z : State := { r with
    pending := s.pending, mem := mram, fuses := s.fuses, free := s.free, fatalNew := fatalNew, resp := s.resp
    pins := { r.pins with thermTripN := s.pins.thermTripN, pwrGood := s.pins.pwrGood, resetN := s.pins.resetN, addrSel := s.pins.addrSel }
    boot := { Boot.reset with hold := hold }, power := { r.power with mod := s.power.mod } }
  let z := (z.wf EV_FATAL EV_FATAL_VALID valid).syncFatal
  let z := (z.wf KP_SEC_STATUS KP_SEC_STATUS_ROLLBACK s.fuses.rollback).wf KP_SEC_STATUS KP_SEC_STATUS_REVOKED s.fuses.revoked
  let z := (z.wf KP_REPAIR_STATUS KP_REPAIR_STATUS_SOFT s.fuses.soft.length).wf KP_REPAIR_STATUS KP_REPAIR_STATUS_FUSED (min 256 (s.fuses.fused.filter isEFuse).length)
  let z := (if testing then z.wf KP_TEST_STATUS KP_TEST_STATUS_STATE 3 else z).newNonce
  z.recapture (KP_AUTH_NONCE 0) 8

/-- T0 (R413): the reset is released, and the straps are sampled (R507, R508). -/
def State.tZero (s : State) : State :=
  { s with boot := { s.boot with phase := 1, hold := .none, uptime := 0 }, sec := { s.sec with i3cAddr := 0x58 + s.pins.addrSel } }

/-- A fatal record written as the part shuts down: its slot, and its bit among those written since the reset that follows. -/
def State.fatalReset (s : State) (hold : Hold) (cls detail source : Nat) : State :=
  let i := cls - 0x30
  let had := natBit i (s.rf EV_FATAL EV_FATAL_VALID)
  let s := s.fatalSlot ⟨s.now, cls, 3, stOK, source, detail⟩
  s.deviceReset hold (if had then 0 else 2 ^ i)

/-- RESET_N_ASSERT (R417, R507): a low pulse of 10.00 µs starts a device reset; a supply shutdown or a trip keeps its own hold. -/
def execResetNAssert (lowNs : Nat) (s : State) : Host.Outcome State Fault Refusal :=
  if lowNs < 10000 then .next s
  else
    let s := { s with pins := { s.pins with resetN := false } }
    match s.boot.hold with
    | .supply _ => .next s
    | .trip => .next s
    | .none => .next (if s.boot.phase = 0 then s else s.deviceReset .pin 0)
    | _ => .next (s.deviceReset .pin 0)

/-- RESET_N_RELEASE (R413, R417): T0 follows a device reset that RESET_N held, or a power-up that waited for it. -/
def execResetNRelease (s : State) : Host.Outcome State Fault Refusal :=
  let s := { s with pins := { s.pins with resetN := true } }
  if s.boot.hold = .pin ∨ (s.boot.hold = .none ∧ s.boot.phase = 0 ∧ 40000 ≤ s.rf PW_IN PW_IN_VIN) then .next s.tZero else .next s

/-- KP_RESET_RELEASE (R417): 10 µs after the write; RESET_N low goes on holding the device. -/
def execKpResetRelease (s : State) : Host.Outcome State Fault Refusal :=
  if s.boot.hold = .kpReset then .next (if s.pins.resetN then s.tZero else { s with boot := { s.boot with hold := .pin } }) else .next s

/-! ## A failed start (R416) -/

/-- A partition is OFF at once. -/
def State.forceOff (s : State) (k : Nat) : State :=
  let l := (partCores k).filter (fun c => s.present c)
  let s := l.foldl (fun s c => (s.setCore c Core.initial).wf (CO_TSTATUS c) CO_TSTATUS_STATE 0) s
  ((((s.clearScope 2 k).loseBasins k).wf (PW_DOM k) PW_DOM_STATE 0).wb (PW_DOM k) PW_DOM_EN false).partTowpath k

def State.allOff (s : State) : State := (List.range 4).foldl (fun s k => s.forceOff k) s

/-- The start fails with a cause. -/
def State.startFail (s : State) (cause : Nat) : State :=
  let s := (s.allOff.setStage 15).wf KP_BOOT_STATUS KP_BOOT_STATUS_CAUSE cause
  ({ s with boot := { s.boot with keeperDown := false } }).post 0x30 stOK (s.src 0xD00) cause

/-- Whether a start, or a Keeper-only reset, is under way. -/
def State.starting (s : State) : Bool :=
  s.stage != 15 && ((decide (1 ≤ s.boot.phase ∧ s.boot.phase < 10)) || s.boot.keeperDown)

/-- START_FAIL (R416). -/
def execStartFail (cause : Byte) (s : State) : Host.Outcome State Fault Refusal :=
  if s.starting && decide (1 ≤ cause.toNat ∧ cause.toNat ≤ 9) then .next (s.startFail cause.toNat) else .next s

/-- A start phase may end now. -/
def State.atPhase (s : State) (n : Nat) : Bool := s.boot.phase == n && s.stage != 15

/-! ## The phases (R413, R414, R415, R451) -/

/-- VIN_POWER_UP (R413): T0, when RESET_N is high. -/
def execVinPowerUp (vinMv : BitVec 16) (s : State) : Host.Outcome State Fault Refusal :=
  if s.boot.phase = 0 ∧ s.boot.hold = .none ∧ 40000 ≤ vinMv.toNat then
    let s := s.wf PW_IN PW_IN_VIN vinMv.toNat
    .next (if s.pins.resetN then s.tZero else s)
  else .next s

/-- KEEPER_RAILS_GOOD: PWR_GOOD rises. -/
def execKeeperRailsGood (good : Bool) (s : State) : Host.Outcome State Fault Refusal :=
  if s.atPhase 1 then .next (if good then ({ s with pins := { s.pins with pwrGood := true } }).setPhase 2 else s.startFail 7) else .next s

/-- RESONATOR_SETTLED: the time unit counts in holdover. -/
def execResonatorSettled (s : State) : Host.Outcome State Fault Refusal := .next (if s.atPhase 2 then s.setPhase 3 else s)

/-- The boot ROM's choice of a slot: that of the selector, or the other once. -/
def State.bootSlot (s : State) : Option (Nat × Bool) :=
  let a := s.fuses.selector
  if s.imageOk a then some (a, false) else if s.imageOk (1 - a) then some (1 - a, true) else none

/-- The image in force, and the measurement of registers 0 and 1; the boot ROM's version digest is stated nowhere. -/
def State.bootImage (s : State) (slot : Nat) (fallback : Bool) : State :=
  let s := (s.wf KP_BOOT_STATUS KP_BOOT_STATUS_SLOT slot).wb KP_BOOT_STATUS KP_BOOT_STATUS_FALLBACK fallback
  let s := { s with fuses := { s.fuses with selector := slot } }
  let s := (s.wf KP_SEC_STATUS KP_SEC_STATUS_SVN_ACTIVE (s.hdr slot 12 1)).syncSvn
  let (rom, s) := s.draw
  ((s.measExtend 0 (toBytes 32 rom)).measHeader slot 0).measParts slot 1 [1]

/-- Registers 2 and 3, which the Keeper firmware extends: every die-hub part, and then every wharf-die part (R457). -/
def State.measFirmware (s : State) : State := ((s.measParts s.slot 2 [2]).measParts s.slot 3 [3]).measParts s.slot 3 [4]

/-- BOOT_ROM (R415, R451): tests, verifies, falls back, measures. -/
def execBootRom (selfTestGood : Bool) (s : State) : Host.Outcome State Fault Refusal :=
  if !s.atPhase 3 then .next s
  else if !selfTestGood then .next (s.startFail 2)
  else
    let s := { s with sec := { s.sec with drbgRequests := 0 } }
    match s.bootSlot with
    | none => .next (s.startFail 1)
    | some (slot, fb) => .next (((s.bootImage slot fb).setStage 1).setPhase 4)

/-- KEEPER_FIRMWARE_READY. -/
def execKeeperFirmwareReady (good : Bool) (s : State) : Host.Outcome State Fault Refusal :=
  if !s.atPhase 4 then .next s
  else if good then .next ((s.measFirmware.setStage 2).setPhase 5) else .next (s.startFail 2)

/-- PARTITION_SWITCH_ON (R414, R436): in order, each once the one before it is ON. -/
def execPartitionSwitchOn (part : PartId) (s : State) : Host.Outcome State Fault Refusal :=
  if s.atPhase 5 && s.rf (PW_DOM part) PW_DOM_STATE == 0 && (List.range part).all (fun k => s.domOn k) then .next (s.enableDom part)
  else .next s

/-! ## The start-up check (R297, R418 to R423) -/

/-- SOFT in KP_REPAIR_STATUS follows the soft record. -/
def State.setSoft (s : State) (l : List Finding) : State :=
  ({ s with fuses := { s.fuses with soft := l } }).wf KP_REPAIR_STATUS KP_REPAIR_STATUS_SOFT l.length

/-- Entries join the soft record, which keeps its first 1024 (R421). -/
def State.addSoft (s : State) (l : List Finding) : State :=
  let all := s.fuses.soft ++ (l.filter (fun f => isRepair f && !s.fuses.soft.contains f)).eraseDups
  let s := s.setSoft (all.take 1024)
  if 1024 < all.length then s.post 0x26 stOK (s.src 0xD00) 1 else s

/-- Lanes of a pseudo-channel, and command lanes of a channel, among findings. -/
def dataLanes (l : List Finding) (n c pc : Nat) : Nat :=
  (l.filter (fun f => match f with
    | .hbmDataLane a b d _ => a.val == n && b.val == c && d.val == pc
    | _ => false)).length
def caLanes (l : List Finding) (n c : Nat) : Nat :=
  (l.filter (fun f => match f with
    | .hbmCaLane a b _ => a.val == n && b.val == c
    | _ => false)).length

/-- Whether a channel has more failing lanes than spares. -/
def channelBad (l : List Finding) (n c : Nat) : Bool :=
  decide (2 < dataLanes l n c 0) || decide (2 < dataLanes l n c 1) || decide (1 < caLanes l n c)

/-- HM_REPAIR_c of one channel. -/
def State.repairChannel (s : State) (l : List Finding) (n c : Nat) : State :=
  let a := HM_REPAIR n c
  let s := (s.wf a HM_REPAIR_PC0 (min 2 (dataLanes l n c 0))).wf a HM_REPAIR_PC1 (min 2 (dataLanes l n c 1))
  (s.wb a HM_REPAIR_CA (decide (0 < caLanes l n c))).wb a HM_REPAIR_FAILED (channelBad l n c)

/-- Interface training of a stack. -/
def State.trainStack (s : State) (l : List Finding) (n : Nat) : State :=
  let s := (List.range 16).foldl (fun s c => s.repairChannel l n c) s
  let lanes := (List.range 16).foldl (fun r c => r + min 2 (dataLanes l n c 0) + min 2 (dataLanes l n c 1) + min 1 (caLanes l n c)) 0
  ((s.wb (HM_STATUS n) HM_STATUS_TRAINED true).wf (HM_STATUS n) HM_STATUS_LANES lanes).wb (HM_STATUS n) HM_STATUS_REPAIR_EXHAUSTED
    ((List.range 16).any (fun c => channelBad l n c))

/-- What one finding of the check does at once: its event, and a failed transceiver lane. -/
def State.checkFinding (s : State) (f : Finding) : State :=
  match f with
  | .aqueduct k => s.post 0x23 stOK (s.src 0xD00) k.val
  | .transceiverLane p i => (s.wf (LK_LANES p) LK_LANES_FAILED (s.rf (LK_LANES p) LK_LANES_FAILED ||| 2 ^ i.val)).post 0x26 stOK (s.src 0xD00) 0
  | _ => s.post 0x26 stOK (s.src 0xD00) 0

/-- Zeros in every unit of HBM, under fresh keys (R303). -/
def State.zeroHbm (s : State) : State :=
  ({ s.clearMem hbmBase (hbmBase + 0x3000000000) with blockKey := [], keyGen := [0, 0, 0, 0, 0] }).dropCaches

/-- HBM initialisation begins: INTEG is locked (R303). -/
def State.startHbm (s : State) : State :=
  ((List.range 8).foldl (fun s n => s.wb (HM_STATUS n) HM_STATUS_INIT_LOCK true) s).zeroHbm

/-- Lanes of an HBM stack, whose repair is found afresh at every start-up (R297). -/
def isLane : Finding → Bool
  | .hbmDataLane _ _ _ _ | .hbmCaLane _ _ _ => true
  | _ => false

/-- STARTUP_CHECK_DONE (R297, R419 to R421): the disabled set is what is fused, what earlier checks found but for lanes, and what this
one found. -/
def execStartupCheckDone (found : List Finding) (s : State) : Host.Outcome State Fault Refusal :=
  if !s.atPhase 6 then .next s
  else
    let all := (s.fuses.fused ++ s.fuses.soft.filter (fun f => !isLane f) ++ found).eraseDups
    let s := { s with boot := { s.boot with disabled := all } }
    let s := (found.foldl (fun s f => s.checkFinding f) s).addSoft found
    let s := (List.range 8).foldl (fun s n => s.trainStack all n) s
    if found.any (fun f => match f with | .wharfLogic _ => true | _ => false) then .next (s.startFail 3)
    else if found.any (fun f => match f with | .aqueduct _ => true | _ => false) then .next (s.startFail 4)
    else if (List.range 8).any (fun n => s.rb (HM_STATUS n) HM_STATUS_REPAIR_EXHAUSTED) then .next (s.startFail 5)
    else .next ((s.startHbm.setStage 4).setPhase 7)

/-! ## Core maps (R23, R24, R29 to R31) -/

/-- Whether a site of a die is good, and whether a basin slice is: 16 spare rows serve each tier. -/
def State.siteGood (s : State) (die site : Nat) : Bool :=
  s.boot.disabled.all (fun f => match f with
    | .coreSite d i => !(d.val == die && i.val == site)
    | .dieHub d => d.val != die
    | _ => true)

def State.badRows (s : State) (die site tier : Nat) : Nat :=
  (s.boot.disabled.filter (fun f => match f with
    | .basinRow d i t _ => d.val == die && i.val == site && t.val == tier
    | _ => false)).length

def State.sliceGood (s : State) (die site : Nat) : Bool :=
  s.boot.disabled.all (fun f => match f with
    | .basinSlice d i => !(d.val == die && i.val == site)
    | .dieHub d => d.val != die
    | _ => true)
  && (List.range 4).all (fun t => decide (s.badRows die site t ≤ 16))

/-- The map of one quadrant from index `i` on: the site of each index, or none. -/
def State.mapQuadrant (s : State) (die q : Nat) (spare : Bool) (i : Nat) : Nat → List (Option Nat)
  | 0 => []
  | n + 1 =>
    if !s.sliceGood die i then none :: s.mapQuadrant die q spare (i + 1) n
    else if s.siteGood die i then some i :: s.mapQuadrant die q spare (i + 1) n
    else if spare then some (64 + q) :: s.mapQuadrant die q false (i + 1) n
    else none :: s.mapQuadrant die q spare (i + 1) n

/-- The map of a die. -/
def State.mapDie (s : State) (die : Nat) : List (Option Nat) :=
  (List.range 4).flatMap (fun q => s.mapQuadrant die q (s.siteGood die (64 + q)) (16 * q) 16)

/-- CD_CORE_MAP_i for an entry of the map. -/
def mapWord : Option Nat → Nat
  | some site => site + 0x80 + (if 64 ≤ site then 0x100 else 0)
  | none => 0

/-- The registers of a die's map. -/
def State.writeMap (s : State) (die : Nat) : State :=
  let m := s.mapDie die
  let s := (List.range 64).foldl (fun s i => s.wr (CD_CORE_MAP die i) (mapWord (m.getD i none))) s
  let s := s.wf (CD_DIE_INFO die) CD_DIE_INFO_CORES_PRESENT (m.filter Option.isSome).length
  s.wf (CD_DIE_INFO die) CD_DIE_INFO_SPARE_USED ((List.range 4).foldl (fun r q => r + (if m.contains (some (64 + q)) then 2 ^ q else 0)) 0)

/-- KP_CORE_COUNT. -/
def State.countCores (s : State) : State :=
  let present := (List.range 16).foldl (fun r n => r + s.rf (CD_DIE_INFO n) CD_DIE_INFO_CORES_PRESENT) 0
  let spares := ((List.range 1024).filter (fun c => s.rb (CD_CORE_MAP (c / 64) (c % 64)) CD_CORE_MAP_SPARE)).length
  (s.wf KP_CORE_COUNT KP_CORE_COUNT_PRESENT present).wf KP_CORE_COUNT KP_CORE_COUNT_SPARES_USED spares

/-- Eweline sub-ports begin their first training. -/
def State.firstTraining (s : State) : State :=
  (List.range 128).foldl (fun s i => if s.subExists (i / 8) (i % 8) then s.setLink (i / 8) (i % 8) 1 else s) s

/-- HBM_INIT_DONE (R303, R414): every byte reads zero, whatever has reached the memory meanwhile; then the core maps, and the links train. -/
def execHbmInitDone (s : State) : Host.Outcome State Fault Refusal :=
  if !s.atPhase 7 then .next s
  else
    let s := ((List.range 8).foldl (fun s n => s.wb (HM_STATUS n) HM_STATUS_INIT_DONE true) s).zeroHbm
    let s := ((List.range 16).foldl (fun s n => s.writeMap n) s).countCores
    if s.rf KP_CORE_COUNT KP_CORE_COUNT_PRESENT = 0 then .next (s.startFail 8)
    else .next ((s.firstTraining.setStage 6).setPhase 8)

/-- LINKS_FIRST_TRAINING_DONE (R414). -/
def execLinksFirstTrainingDone (s : State) : Host.Outcome State Fault Refusal := .next (if s.atPhase 8 then s.setPhase 9 else s)

/-- READY (R413, R414). -/
def execReady (s : State) : Host.Outcome State Fault Refusal :=
  if s.atPhase 9 then .next (((s.setStage 7).wf KP_BOOT_STATUS KP_BOOT_STATUS_READY_MS (min 0xFFFF (s.boot.uptime / 1000000))).setPhase 10)
  else .next s

/-! ## The Keeper-only reset (R406, R435) -/

/-- The Keeper and the control processors restart: measurements are zero, a held authorisation and the session are gone, and the
nonce is fresh; the captures of these quantities hold the same (R15). -/
def State.keeperReset (s : State) : State :=
  let s := (List.range 8).foldl (fun s i => s.wrWide (KP_MEAS i 0) 8 0) s
  let s := { s with boot := { s.boot with keeperDown := true }, sec := { s.sec with session := none, ephemeral := none, attested := [], drbgRequests := 0 } }
  (((((s.setAuth none).setStage 0).newNonce).recapture (KP_AUTH_NONCE 0) 8).clearCaptures (KP_MEAS 0 0) (KP_MEAS 0 0 + 0x100)).clearCaptures
    (KP_MEAS_EXT 0) (KP_MEAS_EXT 0 + 32)

/-- A write of KP_RESET past the rights of the access (R443). -/
def State.kpReset (s : State) (m : Ident) (v : Nat) : State :=
  if natBits 16 16 v ≠ 0xB007 then s.regEvent m KP_RESET
  else if natBit 0 v then s.deviceReset .kpReset 0
  else if natBit 1 v then s.keeperReset
  else s

/-- STAGE after so many start phases. -/
def phaseStage (n : Nat) : Nat := if n = 10 then 7 else if 8 ≤ n then 6 else if n = 7 then 4 else if n = 6 then 3 else if n = 5 then 2 else if n = 4 then 1 else 0

/-- Registers 3, 4 and 5 extended afresh from what is in force (R457). -/
def State.measAgain (s : State) : State :=
  let s := match s.sched with
    | some im => s.measExtend 4 (digestBytes im.digest)
    | none => s
  s.measTenants

/-- KEEPER_RESTARTED (R406, R435): the boot ROM and the firmware have run again; the device comes back OUT_OF_STEP. -/
def execKeeperRestarted (s : State) : Host.Outcome State Fault Refusal :=
  if !s.boot.keeperDown then .next s
  else match s.bootSlot with
    | none => .next (s.startFail 1)
    | some (slot, fb) =>
      let s := ((s.bootImage slot fb).measFirmware).measAgain
      let s := { s with boot := { s.boot with keeperDown := false }, fleet := { s.fleet with adrift := false, beats := List.replicate 8 0 } }
      .next ((s.setStage (phaseStage s.boot.phase)).setLockSt 4)

end Sys2Proof.Machine
end

