-- ==== Sys2Proof/Machine/Power.lean ====
section
/-! DEFINITION. Power, supply supervision, the arithmetic clock, the thermal throttle and trip, cable assemblies (R3, R488 to R503, R512, R513). -/

namespace Sys2Proof.Machine

/-! ## The clock and the limit (R489, R493 to R495) -/

def State.clkMax (s : State) : Nat := s.rf KP_PART_INFO KP_PART_INFO_CLK_MAX
def State.pwrMax (s : State) : Nat := s.rf KP_PART_INFO KP_PART_INFO_PWR_MAX

/-- The effective limit of R489, in W. -/
def State.effective (s : State) : Nat := min (min (s.rf PW_LIMIT PW_LIMIT_LIMIT * 100) (s.pwrMax * 100)) (120 * s.rf PW_IN PW_IN_VIN / 1000)

def State.syncEffective (s : State) : State := s.wf PW_LIMIT PW_LIMIT_EFFECTIVE s.effective

/-- The bound of the clock beside the limiter's. -/
def State.otherBound (s : State) : Nat := min (min (s.rf PW_CLK PW_CLK_REQ) s.clkMax) s.power.ceiling

/-- ACTUAL, LIMITED, THROTTLED and BELOW_BOUND follow the bounds (R512). -/
def State.syncClock (s : State) : State :=
  let actual := max 200 (min s.otherBound s.power.limiter)
  let s := (s.wf PW_CLK PW_CLK_ACTUAL actual).wb PW_CLK PW_CLK_LIMITED (decide (s.power.limiter < s.otherBound))
  (s.wb PW_CLK PW_CLK_THROTTLED (decide (s.power.ceiling < s.clkMax))).wb PW_CLK PW_CLK_BELOW_BOUND (decide (actual < 700))

/-- A write of PW_LIMIT past the rights of the access (R3, R513). -/
def State.pwLimit (s : State) (v : Nat) : State := (s.wf PW_LIMIT PW_LIMIT_LIMIT (max 10 (min (v % 256) s.pwrMax))).syncEffective

/-- A write of PW_CLK past the rights of the access (R3, R495). -/
def State.pwClk (s : State) (v : Nat) : State :=
  ((s.wf PW_CLK PW_CLK_REQ (max 200 (min (natBits 0 12 v) s.clkMax))).wb PW_CLK PW_CLK_SSC_EN (natBit 12 v)).syncClock

/-! ## Supply events (R490) -/

/-- DETAIL of SUPPLY and SUPPLY_SHUTDOWN. -/
def supplyDetail (kind vin : Nat) : Nat := kind + vin % 2 ^ 16 * 2 ^ 16

/-- The condition of a warning kind is present now: it posts when it begins, after an absence of 1 s. -/
def State.warn (s : State) (kind vin : Nat) : State :=
  let last := s.power.warned.getD (kind - 1) 0
  let fresh := last = 0 ∨ last + 999999999 ≤ s.now
  let s := { s with power := { s.power with warned := s.power.warned.set (kind - 1) (s.now + 1) } }
  if fresh then
    let s := s.post 0x2A stOK s.pwSrc (supplyDetail kind vin)
    if kind ≤ 3 then (s.bump PW_SUPPLY_CNT 1).riskInput 2 1 else s
  else s

/-- A warning's bit of PW_SUPPLY. -/
def warnFld (kind : Nat) : Fld := if kind = 1 then PW_SUPPLY_UV else if kind = 2 then PW_SUPPLY_OV else PW_SUPPLY_RAIL

/-- A warning condition that is absent: it was present until now if its bit was set. -/
def State.unwarn (s : State) (kind : Nat) : State :=
  if s.rb PW_SUPPLY (warnFld kind) then
    ({ s with power := { s.power with warned := s.power.warned.set (kind - 1) (s.now + 1) } }).wb PW_SUPPLY (warnFld kind) false
  else s

/-- A warning condition, present or not, that has lasted so long. -/
def State.warnCmd (s : State) (kind vin : Nat) (present long : Bool) : State :=
  if !present then s.unwarn kind else if long then (s.wb PW_SUPPLY (warnFld kind) true).warn kind vin else s

/-- UV_WARN. -/
def execUvWarn (vinMv : BitVec 16) (lastedUs : Nat) (s : State) : Host.Outcome State Fault Refusal :=
  .next (s.warnCmd 1 vinMv.toNat (decide (vinMv.toNat < 41000)) (decide (1000 ≤ lastedUs)))

/-- OV_WARN. -/
def execOvWarn (vinMv : BitVec 16) (lastedUs : Nat) (s : State) : Host.Outcome State Fault Refusal :=
  .next (s.warnCmd 2 vinMv.toNat (decide (59000 < vinMv.toNat)) (decide (1000 ≤ lastedUs)))

/-- RAIL_WARN: a rail at so many thousandths of its set point. -/
def execRailWarn (vinMv : BitVec 16) (permille lastedUs : Nat) (s : State) : Host.Outcome State Fault Refusal :=
  .next (s.warnCmd 3 vinMv.toNat (decide (permille < 950) || decide (1050 < permille)) (decide (10 ≤ lastedUs)))

/-! ## Limiter and throttle (R493, R498) -/

/-- LIMITER_SAMPLE (R490, R493, R494): telemetry, the effective limit, and the clock lowered in steps of 5 MHz. -/
def execLimiterSample (vinMv iin10ma avgW peakW : BitVec 16) (lowerMhz : BitVec 12) (s : State) : Host.Outcome State Fault Refusal :=
  let s := (s.wf PW_IN PW_IN_VIN vinMv.toNat).wf PW_IN PW_IN_IIN iin10ma.toNat
  let s := ((s.wf PW_POWER PW_POWER_AVG avgW.toNat).wf PW_POWER PW_POWER_PEAK peakW.toNat).syncEffective
  let s := if 41000 ≤ vinMv.toNat then s.unwarn 1 else s
  let s := if vinMv.toNat ≤ 59000 then s.unwarn 2 else s
  let down := lowerMhz.toNat / 5 * 5
  let s := if down = 0 then s
    else { s with power := { s.power with limiter := max 200 (min s.otherBound s.power.limiter - down) } }
  let s := s.syncClock
  .next (if s.rb PW_CLK PW_CLK_LIMITED && decide (s.power.limiter < 700) then s.warn 4 vinMv.toNat else s)

/-- CLOCK_RAISE (R493): up by 5 MHz, until nothing is limited. -/
def execClockRaise (s : State) : Host.Outcome State Fault Refusal :=
  if s.rf PW_POWER PW_POWER_AVG * 100 ≤ s.rf PW_LIMIT PW_LIMIT_EFFECTIVE * 97 then
    let n := s.power.limiter + 5
    .next ({ s with power := { s.power with limiter := if s.otherBound ≤ n then s.clkMax else n } }).syncClock
  else .next s

/-- The hottest junction reads `j` on die `i` (R497, R513, R514). -/
def State.junction (s : State) (j i : Nat) : State :=
  let s := ((s.wf PW_TEMP PW_TEMP_JMAX j).wf PW_TEMP PW_TEMP_JDIE i).wf (PW_DIE_TEMP i) PW_DIE_TEMP_TEMP j
  (s.wf (PW_DIE_TEMP i) PW_DIE_TEMP_PEAK (max j (s.rf (PW_DIE_TEMP i) PW_DIE_TEMP_PEAK))).riskInput 3 j

/-- THROTTLE_DOWN. -/
def execThrottleDown (jmax : Byte) (die : Fin 25) (s : State) : Host.Outcome State Fault Refusal :=
  let s := s.junction jmax.toNat die.val
  if 95 < jmax.toNat then
    let began := decide (s.power.ceiling = s.clkMax)
    let s := ({ s with power := { s.power with ceiling := max 200 (s.power.ceiling - 25) } }).syncClock
    .next (if began then s.post 0x2B stOK s.pwSrc jmax.toNat else s)
  else .next s

/-- THROTTLE_UP. -/
def execThrottleUp (jmax : Byte) (die : Fin 25) (s : State) : Host.Outcome State Fault Refusal :=
  let s := s.junction jmax.toNat die.val
  if jmax.toNat ≤ 92 then .next ({ s with power := { s.power with ceiling := min s.clkMax (s.power.ceiling + 25) } }).syncClock else .next s

/-! ## Trips and shutdowns (R491, R492, R499, R512) -/

/-- The Keeper-die rails go. -/
def State.railsOff (s : State) : State := { s with pins := { s.pins with pwrGood := false } }

/-- The part has its input. -/
def State.powered (s : State) : Bool := s.boot.phase != 0 || s.boot.hold != .none

/-- A held reset is released: T0, or whatever else still holds it. -/
def State.releaseHold (s : State) : State :=
  if !s.pins.thermTripN then { s with boot := { s.boot with hold := .trip } }
  else if s.pins.resetN then s.tZero else { s with boot := { s.boot with hold := .pin } }

/-- THERMAL_TRIP (R499). -/
def execThermalTrip (jmax hmax : Byte) (above105Ms : Nat) (s : State) : Host.Outcome State Fault Refusal :=
  if s.powered ∧ s.pins.thermTripN ∧ (110 ≤ jmax.toNat ∨ (105 < jmax.toNat ∧ 100 ≤ above105Ms) ∨ 105 ≤ hmax.toNat) then
    let hold := match s.boot.hold with
      | .supply k => .supply k
      | _ => .trip
    let s := (s.fatalReset hold 0x31 jmax.toNat s.pwSrc).railsOff
    .next { s with pins := { s.pins with thermTripN := false } }
  else .next s

/-- THERMAL_TRIP_RELEASE (R499). -/
def execThermalTripRelease (hottest : Byte) (coolMs : Nat) (s : State) : Host.Outcome State Fault Refusal :=
  if !s.pins.thermTripN && decide (hottest.toNat ≤ 80) && decide (10000 ≤ coolMs) then
    let s := { s with pins := { s.pins with thermTripN := true } }
    .next (if s.boot.hold = .trip then s.releaseHold else s)
  else .next s

/-- A supply shutdown (R491). -/
def State.shutdown (s : State) (kind vin : Nat) (met : Bool) : State :=
  let already := match s.boot.hold with
    | .supply _ => true
    | _ => false
  if met && s.powered && !already then (s.fatalReset (.supply kind) 0x32 (supplyDetail kind vin) s.pwSrc).railsOff else s

/-- UV_SHUTDOWN. -/
def execUvShutdown (vinMv : BitVec 16) (lastedUs : Nat) (s : State) : Host.Outcome State Fault Refusal :=
  .next (s.shutdown 1 vinMv.toNat (decide (vinMv.toNat < 38000) && decide (100 ≤ lastedUs)))

/-- OV_SHUTDOWN. -/
def execOvShutdown (vinMv : BitVec 16) (lastedUs : Nat) (s : State) : Host.Outcome State Fault Refusal :=
  .next (s.shutdown 2 vinMv.toNat (decide (63000 < vinMv.toNat) && decide (10 ≤ lastedUs)))

/-- RAIL_SHUTDOWN. -/
def execRailShutdown (vinMv : BitVec 16) (permille : Nat) (overCurrent : Bool) (lastedUs : Nat) (s : State) : Host.Outcome State Fault Refusal :=
  .next (s.shutdown 3 vinMv.toNat ((overCurrent || decide (permille < 900) || decide (1100 < permille)) && decide (100 ≤ lastedUs)))

/-- OVERCURRENT_SHUTDOWN. -/
def execOvercurrentShutdown (vinMv iin10ma : BitVec 16) (lastedUs : Nat) (s : State) : Host.Outcome State Fault Refusal :=
  .next (s.shutdown 4 vinMv.toNat (decide (14000 < iin10ma.toNat) && decide (10 ≤ lastedUs)))

/-- SUPPLY_SHUTDOWN_RELEASE (R492, R512). -/
def execSupplyShutdownRelease (vinMv : BitVec 16) (steadyMs resetNLowNs below10vMs : Nat) (s : State) : Host.Outcome State Fault Refusal :=
  match s.boot.hold with
  | .supply kind =>
    let met := if kind = 1 then decide (40000 ≤ vinMv.toNat) && decide (100 ≤ steadyMs) && s.pins.resetN
      else (decide (10000 ≤ resetNLowNs) && s.pins.resetN) || (decide (1000 ≤ below10vMs) && decide (40000 ≤ vinMv.toNat))
    .next (if met then s.releaseHold else s)
  | _ => .next s

/-- CABLE_PRESENT (R503): MOD_3V3 of a port is switched on. -/
def execCablePresent (port : PortId) (s : State) : Host.Outcome State Fault Refusal :=
  .next { s with power := { s.power with mod := s.power.mod ||| 2 ^ port.val } }

end Sys2Proof.Machine
end

