-- ==== Sys2Proof/Machine/SelfTest.lean ====
section
/-! DEFINITION. Self-test and fuse repair (R421, R424 to R429, R440). -/

namespace Sys2Proof.Machine

/-- A master that is the Keeper or a control processor. -/
def isKeeperOrControl (m : Ident) : Bool :=
  match masterOf m.num.toNat with
  | .keeper => true
  | .control _ => true
  | _ => false

/-- The partitions of a mask. -/
def maskParts (mask : Nat) : List Nat := (List.range 4).filter (fun k => natBit k mask)

/-- The slices of a test (R425). -/
def SelfTest.slices (t : SelfTest) : Nat := if t.full then 360 else 72 * (maskParts t.parts).length

/-- SLICE: the one that runs, or the last one. -/
def State.syncSlice (s : State) (t : SelfTest) : State := s.wf KP_TEST_STATUS KP_TEST_STATUS_SLICE (min t.ran (t.slices - 1))

/-- A test no longer holds its partitions: latched EN changes are carried out (R440). -/
def State.endTest (s : State) (state : Nat) : State :=
  let s := s.wf KP_TEST_STATUS KP_TEST_STATUS_STATE state
  let l := s.boot.enLatched
  l.foldl (fun s x => s.setDom x.1 x.2) ({ s with boot := { s.boot with test := none, enLatched := [] } }).syncResets

/-- The 32 bits of a repair entry (R422). -/
def entryBits : Finding → Nat
  | .coreSite d s => 1 + d.val * 2 ^ 4 + s.val * 2 ^ 8
  | .basinRow d s t r => 2 + d.val * 2 ^ 4 + s.val * 2 ^ 8 + t.val * 2 ^ 14 + r.val * 2 ^ 16
  | .basinSlice d s => 3 + d.val * 2 ^ 4 + s.val * 2 ^ 8
  | .hbmDataLane n c p l => 4 + n.val * 2 ^ 4 + c.val * 2 ^ 8 + p.val * 2 ^ 12 + l.val * 2 ^ 13
  | .hbmCaLane n c l => 5 + n.val * 2 ^ 4 + c.val * 2 ^ 8 + l.val * 2 ^ 12
  | _ => 0

/-- Bytes 0 to 99 + 4F of a record (R427); the coverage figures achieved are stated nowhere. -/
def State.testBody (s : State) (t : SelfTest) (coverage : Nat) : List Byte :=
  let f := t.fails.filter isRepair
  toBytes 4 1 ++ toBytes 4 (s.rd KP_PART_INFO) ++ toBytes 16 s.fuses.serial.toNat ++ toBytes 2 s.devId
    ++ toBytes 2 (t.full.toNat + 2 * t.parts) ++ toBytes 8 t.began ++ toBytes 8 s.now ++ s.meas 1 ++ toBytes 4 t.ran
    ++ toBytes 4 (s.rf KP_TEST_STATUS KP_TEST_STATUS_FAILED) ++ toBytes 4 (s.rf KP_TEST_STATUS KP_TEST_STATUS_INCOMPL)
    ++ toBytes 6 coverage ++ toBytes 2 0 ++ toBytes 4 f.length ++ f.flatMap (fun x => toBytes 4 (entryBits x))

/-- The record is written to Keeper SRAM and copied to the persistent area, both at places that the manual leaves open. -/
def State.writeRecord (s : State) (t : SelfTest) : State :=
  let (cov, s) := s.draw
  let (sig, s) := s.draw
  let (at1, s) := s.draw
  let (at2, s) := s.draw
  let body := s.testBody t cov
  let rec_ := body ++ digestBytes (Config.sm3 body) ++ toBytes 64 sig
  let a := ksramBase + at1 % 0x10000000
  ((s.setBytes a rec_).setBytes (mramBase + 0x3E00000 + at2 % 0x200000) rec_).wrWide KP_TEST_REC_0 2 a

/-- The test ends (R424, R427): record, soft record, event, and the SHUTDOWN stage of a FULL test. -/
def State.finishTest (s : State) (t : SelfTest) : State :=
  let s := s.writeRecord t
  let s := (s.setSoft (s.fuses.soft.filter (fun f => !t.passed.contains f))).addSoft t.fails
  let failed := s.rf KP_TEST_STATUS KP_TEST_STATUS_FAILED
  let s := s.postSev 0x25 (if failed = 0 then 0 else 2) stOK (s.src 0xD00) (failed + s.rf KP_TEST_STATUS KP_TEST_STATUS_INCOMPL * 2 ^ 16)
  let s := s.endTest 2
  if t.full then ((List.range 16).foldl (fun s p => s.portTowpath p) s.allOff).setStage 8 else s

/-- The slice that ran has ended: the next one runs, or the test ends. -/
def State.nextSlice (s : State) (t : SelfTest) : State :=
  let t := { t with ran := t.ran + 1 }
  let s := ({ s with boot := { s.boot with test := some t } }).syncSlice t
  if t.slices ≤ t.ran then s.finishTest t else s

/-- A PART test holds a partition in reset (R424, R440). -/
def State.holdPart (s : State) (k : Nat) : State :=
  if s.lock.window then ({ s with lock := { s.lock with deferred := s.lock.deferred ++ [Deferred.reset 2 k] } }).syncResets else s.startReset 2 k

/-- A self-test starts. -/
def State.startTest (s : State) (full : Bool) (parts : Nat) : State :=
  let t : SelfTest := ⟨full, if full then 0 else parts, 0, [], [], s.now⟩
  let s := (s.wr KP_TEST_STATUS 0).wf KP_TEST_STATUS KP_TEST_STATUS_STATE 1
  let s := { s with boot := { s.boot with test := some t } }
  let s := if full then s else (maskParts parts).foldl (fun s k => s.holdPart k) s
  if t.slices = 0 then s.finishTest t else s

/-- A write of KP_TEST_CTRL past the rights of the access (R424, R428). -/
def State.testCtrl (s : State) (m : Ident) (v : Nat) : State :=
  let full := natBit 2 v
  let parts := natBits 3 4 v
  if natBit 1 v && s.boot.test.isSome then s.endTest 3
  else if !natBit 0 v then s
  else if !isKeeperOrControl m || s.boot.test.isSome || (full && s.lockSt != 0) || (!full && (maskParts parts).any (fun k => !s.domOn k)) then
    s.regEvent m KP_TEST_CTRL
  else s.startTest full parts

/-- SELFTEST_SLICE_END (R425, R427): what failed, and what was tested to completion and passed. -/
def execSelftestSliceEnd (failures passed : List Finding) (s : State) : Host.Outcome State Fault Refusal :=
  match s.boot.test with
  | none => .next s
  | some t =>
    let s := if failures.isEmpty then s else s.bumpF KP_TEST_STATUS KP_TEST_STATUS_FAILED 1
    .next (s.nextSlice { t with fails := (t.fails ++ failures).eraseDups, passed := t.passed ++ passed.filter (fun f => !failures.contains f) })

/-- SELFTEST_SLICE_TIMEOUT (R426). -/
def execSelftestSliceTimeout (s : State) : Host.Outcome State Fault Refusal :=
  match s.boot.test with
  | none => .next s
  | some t => .next ((s.bumpF KP_TEST_STATUS KP_TEST_STATUS_INCOMPL 1).nextSlice t)

/-! ## Fuse repair (R429) -/

/-- A write of KP_REPAIR_CTRL past the rights of the access; the token is spent. -/
def State.repairCtrl (s : State) (m : Ident) (v : Nat) : State :=
  if natBits 16 16 v ≠ 0xB007 then s.regEvent m KP_REPAIR_CTRL
  else if !natBit 0 v then s
  else if masterOf m.num.toNat ≠ .keeper ∨ (s.holds 1).isNone ∨ s.lockSt ≠ 0 ∨ s.boot.test.isSome ∨ !s.boot.burning.isEmpty then
    s.regEvent m KP_REPAIR_CTRL
  else
    let s := ({ s with boot := { s.boot with burning := s.fuses.soft } }).setAuth none
    s.wb KP_REPAIR_STATUS KP_REPAIR_STATUS_BURN_BUSY (!s.boot.burning.isEmpty)

/-- Entries in the e-fuse array. -/
def State.eFuses (s : State) : Nat := (s.fuses.fused.filter isEFuse).length

/-- FUSE_ENTRY_BURNED: read back good or not; the e-fuse array takes 256 entries. -/
def execFuseEntryBurned (good : Bool) (s : State) : Host.Outcome State Fault Refusal :=
  match s.boot.burning with
  | [] => .next s
  | f :: t =>
    let s := ({ s with boot := { s.boot with burning := t } }).wb KP_REPAIR_STATUS KP_REPAIR_STATUS_BURN_BUSY (!t.isEmpty)
    if isEFuse f ∧ 256 ≤ s.eFuses then .next s
    else if good then
      let s := { s with fuses := { s.fuses with fused := s.fuses.fused ++ [f] } }
      let s := s.setSoft (s.fuses.soft.filter (fun x => x != f))
      .next (s.wf KP_REPAIR_STATUS KP_REPAIR_STATUS_FUSED s.eFuses)
    else .next ((s.wb KP_REPAIR_STATUS KP_REPAIR_STATUS_BURN_FAIL true).post 0x26 stOK (s.src 0xD00) 2)

end Sys2Proof.Machine
end

