-- ==== Sys2Proof/Machine/Registers.lean ====
section
/-! DEFINITION. Access to registers: fields and their access codes, wide quantities, what a write does in each block, and the commands that write one register (R9 to R16, R49 to R52, R444 to R446). -/

namespace Sys2Proof.Machine

/-! ## Places (R50, R52) -/

/-- The base address of a block. -/
def Blk.base : Blk → Nat
  | .kp => kpBase
  | .tm => tmBase
  | .pw => pwBase
  | .ev => evBase
  | .doorbell => doorbellBase
  | .cd n => cdBase n
  | .co c => coBase c
  | .wh n => whBase n
  | .hm n => hmBase n
  | .lk p => lkBase p
  | .dm e => dmBase e
  | .mb x => mbBase x
  | .cc c => ccBase c

/-- The rows of a block's table. -/
def Blk.rows : Blk → List RegRow
  | .kp => kpRows
  | .tm => tmRows
  | .pw => pwRows
  | .ev => evRows
  | .doorbell => []
  | .cd _ => cdRows
  | .co _ => coRows
  | .wh _ => whRows
  | .hm _ => hmRows
  | .lk _ => lkRows
  | .dm _ => dmRows
  | .mb _ => mbRows
  | .cc _ => [⟨0, 4, 0x30, 0, 1, [⟨0, 32, .rw, 0⟩]⟩]

/-- Whether a row holds a register at an offset. -/
def RegRow.holds (r : RegRow) (o : Nat) : Bool :=
  let d := o - r.off
  let i := if r.s1 = 0 then 0 else d / r.s1
  let e := d - i * r.s1
  let j := if r.s2 = 0 then 0 else e / r.s2
  decide (r.off ≤ o ∧ i < r.n1 ∧ j < r.n2) && e == j * r.s2

/-- Event classes without registers (R472). -/
def reservedClass (c : Nat) : Bool :=
  decide (0x0D ≤ c ∧ c ≤ 0x0F) || c == 0x1F || decide (0x2C ≤ c ∧ c ≤ 0x2F) || decide (0x36 ≤ c)

/-- The fields of the register at an offset; none where the offset holds no register (R50). -/
def Blk.fields (b : Blk) (o : Nat) : List RegField :=
  let absent := match b with
    | .ev => decide (0x1000 ≤ o) && reservedClass ((o - 0x1000) / 0x80)
    | .cc _ => reservedClass (o / 4)
    | .mb x => decide (0x100 ≤ o) && x % 4 != 0
    | _ => false
  if absent then [] else ((b.rows.find? (fun r => r.holds o)).map (fun r => r.fields)).getD []

/-! ## Fields (R11, R12, R14) -/

/-- What a read of a register's word returns. -/
def readFields (l : List RegField) (w : Nat) : Nat :=
  l.foldl (fun r f => if f.acc = .wo then r else natPut f.lo f.width r (natBits f.lo f.width w)) 0

/-- The word after a write. -/
def writeFields (l : List RegField) (locked : Bool) (old v : Nat) : Nat :=
  l.foldl (fun w f =>
    let x := natBits f.lo f.width v
    match f.acc with
    | .ro => w
    | .rw => natPut f.lo f.width w x
    | .wo => natPut f.lo f.width w x
    | .w1c => let y := natBits f.lo f.width w; natPut f.lo f.width w (y - (y &&& x))
    | .rwl => if locked then w else natPut f.lo f.width w x) old

/-- Whether the RWL fields of a register are locked (R303, R334); KP_SEC_CTRL has a write of its own. -/
def State.lockedAt (s : State) (b : Blk) (o : Nat) : Bool :=
  match b with
  | .mb x => decide (o < 8) && s.rb (MB_BIND_1 x) MB_BIND_1_LOCKED
  | .hm n => o == 0 && s.rb (HM_STATUS n) HM_STATUS_INIT_LOCK
  | _ => false

/-- The word of a register as it stands: some are views of other state (R164, R321, R480). -/
def State.regWord (s : State) (b : Blk) (o : Nat) : Nat :=
  let w := s.rd (b.base + o)
  match b with
  | .co _ => if o = 0x108 then s.lock.poundSeed % 2 ^ 32 else if o = 0x10C then s.lock.poundSeed / 2 ^ 32 % 2 ^ 32 else w
  | .wh n =>
    if o = 0x10C ∨ o = 0x12C then natPut WH_INTAKE_STATUS_BUSY.lo 1 w (s.portRbLow (2 * n + (o - 0x10C) / 0x20)).toNat else w
  | .ev => if o = 0x10 then natPut EV_ALERT_ASSERTED.lo 1 w s.alertLow.toNat else w
  | _ => w

/-! ## Wide quantities (R15) -/

/-- The wide quantities of a block: offset, stride, count, words. -/
def Blk.wides : Blk → List (Nat × Nat × Nat × Nat)
  | .tm => [(0x0, 0, 1, 3), (0x20, 0, 1, 2), (0x28, 0, 1, 2)]
  | .pw => [(0x28, 0, 1, 2)]
  | .kp => [(0x58, 0, 1, 2), (0x208, 0, 1, 2), (0x210, 0, 1, 2), (0x218, 0, 1, 2), (0x220, 0, 1, 2), (0x250, 0x20, 2, 2), (0x258, 0x20, 2, 2),
      (0x800, 0x20, 16, 2), (0xA10, 0, 1, 2), (0xA34, 0, 1, 2), (0xC20, 0, 1, 8), (0xC80, 0, 1, 8), (0xD00, 0x20, 8, 8), (0xE0C, 0x80, 4, 2)]
  | .co _ => [(0x108, 0, 1, 2), (0x200, 0, 1, 2), (0x208, 0, 1, 2), (0x210, 0, 1, 2), (0x218, 0, 1, 2), (0x1000, 0x20, 64, 2), (0x1008, 0x20, 64, 2)]
  | .hm _ => [(0xA0, 0, 1, 2), (0xA8, 0, 1, 2)]
  | .lk _ => [(0x130, 0x40, 8, 2), (0x404, 0x40, 2, 2), (0x410, 0x40, 2, 4)]
  | .dm _ => [(0x10, 0, 1, 2), (0x18, 0, 1, 2), (0x20, 0, 1, 2)]
  | .mb _ => [(0x10, 0, 1, 4)]
  | _ => []

/-- The place of an offset in one of some wide quantities: offset of the lowest word, words, index. -/
def wideIn (o : Nat) : List (Nat × Nat × Nat × Nat) → Option (Nat × Nat × Nat)
  | [] => none
  | (w, st, n, k) :: t =>
    let i := if st = 0 then 0 else (o - w) / st
    let lo := w + i * st
    if w ≤ o ∧ i < n ∧ lo ≤ o ∧ o < lo + 4 * k then some (lo, k, (o - lo) / 4) else wideIn o t

/-- A written buffer of a higher word. -/
def State.buffered (s : State) (a : Nat) : Option Nat := (s.wbuf.find? (fun x => x.1 == a)).map (fun x => x.2.toNat)

/-- A buffer written. -/
def State.setBuffer (s : State) (a v : Nat) : State := { s with wbuf := s.wbuf.filter (fun x => x.1 != a) ++ [(a, BitVec.ofNat 32 v)] }

/-- The words of a quantity from index `i` on after a write of its lowest word; their buffers are unwritten. -/
def State.applyWide (s : State) (b : Blk) (o v i : Nat) : Nat → State
  | 0 => s
  | n + 1 =>
    let x := o + 4 * i
    let a := b.base + x
    let w := if i = 0 then v else (s.buffered a).getD (s.rd a)
    let s := s.wr a (writeFields (b.fields x) false (s.rd a) w)
    ({ s with wbuf := s.wbuf.filter (fun z => z.1 != a) }).applyWide b o v (i + 1) n

/-- The capture of a quantity loaded. -/
def State.loadCapture (s : State) (b : Blk) (o : Nat) : Nat → State
  | 0 => s
  | n + 1 =>
    let s := s.loadCapture b o n
    let x := o + 4 * n
    { s with capture := spPut 0#32 s.capture (b.base + x) (BitVec.ofNat 32 (readFields (b.fields x) (s.regWord b x))) }

/-! ## Reads and writes of one register -/

/-- A read of a register by a master, past every check. -/
def State.regRead (s : State) (m : Ident) (b : Blk) (o : Nat) : Nat × State :=
  match b with
  | .mb x => if o = 0xC then s.lockRead m x else (readFields (b.fields o) (s.regWord b o), s)
  | _ =>
    match wideIn o b.wides with
    | some (lo, n, 0) => (readFields (b.fields o) (s.regWord b o), s.loadCapture b lo n)
    | some _ => ((spGet 0#32 s.capture (b.base + o)).toNat, s)
    | none => (readFields (b.fields o) (s.regWord b o), s)

/-- The plain effect of a write: the fields by their access codes. -/
def State.regStore (s : State) (b : Blk) (o v : Nat) : State :=
  match wideIn o b.wides with
  | some (lo, n, 0) => s.applyWide b lo v 0 n
  | some _ => s.setBuffer (b.base + o) v
  | none => s.wr (b.base + o) (writeFields (b.fields o) (s.lockedAt b o) (s.rd (b.base + o)) v)

/-- A write, with the event of a write to a locked field (R12). -/
def State.regStoreRwl (s : State) (m : Ident) (b : Blk) (o v : Nat) : State :=
  let s := if s.lockedAt b o then s.regEvent m (b.base + o) else s
  s.regStore b o v

/-- A write of a KP_ register. -/
def State.kpWrite (s : State) (m : Ident) (o v : Nat) : State :=
  if o = 0x30 then s.kpReset m v
  else if o = 0x50 then s.testCtrl m v
  else if o = 0x60 then s.repairCtrl m v
  else if o = 0xC00 then s.secCtrl m v
  else if o = 0xC80 then (s.regStore .kp o v).measExt m
  else if 0x800 ≤ o ∧ o < 0xA00 then
    let r := (o - 0x800) / 0x20
    let w := o % 0x20
    if w = 0x8 then s.ringCfg m r v
    else if w = 0x1C then s.ringCtrl r v
    else if (w = 0 ∨ w = 4 ∨ w = 0xC) ∧ s.rb (KP_RING_CFG r) KP_RING_CFG_EN then s.regEvent m (kpBase + o)
    else s.regStore .kp o v
  else s.regStore .kp o v

/-- A write of a TM_ register. -/
def State.tmWrite (s : State) (o v : Nat) : State :=
  let port := s.rf TM_SRC_CTRL TM_SRC_CTRL_PTP_PORT
  let s := s.regStore .tm o v
  if o = 0x14 then
    -- No measurement has completed on a port to which PTP_PORT has moved (R54).
    (if s.rf TM_SRC_CTRL TM_SRC_CTRL_PTP_PORT = port then s else s.wb TM_SRC_STATUS TM_SRC_STATUS_PTP_OK false).syncSources
  else if o = 0x3C ∧ !s.rb TM_LOCK_CTRL TM_LOCK_CTRL_PPS_OUT_EN then { s with pins := { s.pins with ppsOut := false } }
  else s

/-- A write of a PW_ register. -/
def State.pwWrite (s : State) (m : Ident) (o v : Nat) : State :=
  if o = 0x8 then s.pwLimit v
  else if o = 0xC then s.pwClk v
  else if 0x100 ≤ o ∧ o < 0x110 then s.pwDom ((o - 0x100) / 4) v
  else if o = 0x200 then s.pwReset m v
  else s.regStore .pw o v

/-- A write of an EV_ register. -/
def State.evWrite (s : State) (m : Ident) (o v : Nat) : State :=
  if o = 0x8 then s.evTail m v else if o = 0x14 then s.evFatal v else s.regStore .ev o v

/-- A write of a CO_ register (R241, R256, R262). -/
def State.coWrite (s : State) (m : Ident) (c o v : Nat) : State :=
  if isObs (coBase c + o) && s.tstate c == 1 then s.regEvent m (coBase c + o)
  else
    let s := s.regStore (.co c) o v
    if o = 0x208 then s.gnPartWrite m c else if o = 0x200 then s.lossWritten m c else s

/-- A write of an HM_ register (R292, R305): REF2X acts at once; a key-region entry changes at the next lock that may still change it. -/
def State.hmWrite (s : State) (m : Ident) (n o v : Nat) : State :=
  if 0x100 ≤ o ∧ o < 0x140 then s.kregWrite m n ((o - 0x100) / 4) v s.nextChange
  else if o = 0 then (s.regStoreRwl m (.hm n) o v).syncRefresh n
  else s.regStoreRwl m (.hm n) o v

/-- A write of an LK_ register (R345, R346). -/
def State.lkWrite (s : State) (m : Ident) (p o v : Nat) : State :=
  let b := (o - 0x100) / 0x40
  if o = 0 then
    let s := s.wf (LK_CFG p) LK_CFG_LR_EN (natBits 4 1 v)
    let mode := natBits 0 2 v
    let split := natBits 2 2 v
    if (s.rf (LK_CFG p) LK_CFG_MODE = mode ∧ s.rf (LK_CFG p) LK_CFG_SPLIT = split) ∨ !s.portCfgOk p mode split then s
    else s.beginReconfigure p mode split
  else if 0x100 ≤ o ∧ o < 0x300 ∧ o % 0x40 = 0x10 then
    (if s.subExists p b then s.lkCtrl m p b v else if v % 2 ^ 9 = 0 then s else s.regEvent m (LK_CTRL p b))
  else if 0x100 ≤ o ∧ o < 0x300 ∧ o % 0x40 = 0 then (s.regStore (.lk p) o v).syncEwe
  else s.regStore (.lk p) o v

/-- A write of a DM_ register (R324, R333): DM_CHAIN belongs to wharf engines. -/
def State.dmWrite (s : State) (m : Ident) (e o v : Nat) : State :=
  if o = 0 then s.dmGo m e v
  else if o = 4 then s.dmCtrl m e v
  else if (o = 0x20 ∨ o = 0x24) ∧ e < 2048 then s
  else s.regStore (.dm e) o v

/-- A write of an MB_ register. -/
def State.mbWrite (s : State) (m : Ident) (x o v : Nat) : State :=
  if o = 0xC then s.lockWrite m x v
  else
    let s := s.regStoreRwl m (.mb x) o v
    if o = 0x10 then s.mbSend m x else s

/-- A write of a register by a master, past every check. -/
def State.regWrite (s : State) (m : Ident) (b : Blk) (o v : Nat) : State :=
  match b with
  | .kp => s.kpWrite m o v
  | .tm => s.tmWrite o v
  | .pw => s.pwWrite m o v
  | .ev => s.evWrite m o v
  | .co c => s.coWrite m c o v
  | .hm n => s.hmWrite m n o v
  | .lk p => s.lkWrite m p o v
  | .dm e => s.dmWrite m e o v
  | .mb x => s.mbWrite m x o v
  | b => s.regStore b o v

/-! ## Accesses of every kind (R10, R16, R49, R51, R275) -/

/-- A change of INTEG by another master than the Keeper is denied (R444). -/
def State.integDenied (s : State) (m : Ident) (b : Blk) (o v : Nat) : Bool :=
  match b with
  | .hm n => o == 0 && !(s.isLocal m && masterOf m.num.toNat == .keeper) && natBits 0 1 v != s.rf (HM_CFG n) HM_CFG_INTEG
  | _ => false

/-- A read at a local address by a master, after its earlier accesses to the same die (R43): status, data, state. -/
def State.localRd (s : State) (m : Ident) (a n : Nat) : Nat × List Byte × State :=
  let s := s.flushSends m a
  match target a with
  | .reg .doorbell _ => (stOK, List.replicate n 0#8, s)
  | .reg b o =>
    if n ≠ 4 ∨ a % 4 ≠ 0 then (stALIGN_FAULT, [], s)
    else
      let (st, s) := s.checkLocal m a 4 false
      if st ≠ stOK then (st, [], s)
      else
        let (v, s) := s.regRead m b o
        (stOK, toBytes 4 v, s)
  | _ =>
    if !aligned a n then (stALIGN_FAULT, [], s)
    else
      let (st, s) := s.checkLocal m a n false
      if st ≠ stOK then (st, [], s)
      else
        let (st, bs, s) := s.memRd a n
        (st, bs, s.poundError m st)

/-- A write of a register by a master: its status; none where the reply comes later (R335). -/
def State.regWr (s : State) (m : Ident) (b : Blk) (o a n v : Nat) : Option Nat × State :=
  if n ≠ 4 ∨ a % 4 ≠ 0 then (some stALIGN_FAULT, s)
  else
    let (st, s) := s.checkLocal m a 4 true
    if st ≠ stOK then (some st, s)
    else if s.integDenied m b o v then (some stBOUNDS_FAULT, s.deny m a)
    else
      let s := s.regWrite m b o v
      (match b with
       | .mb _ => if o = 0x10 then (none, s) else (some stOK, s)
       | _ => (some stOK, s))

/-- A write at a local address by a master, after its earlier accesses to the same die (R43): status, or none where the reply comes later. -/
def State.localWr (s : State) (m : Ident) (a : Nat) (bs : List Byte) : Option Nat × State :=
  let s := s.flushSends m a
  let n := bs.length
  match target a with
  | .reg .doorbell o =>
    if n ≠ 8 ∨ o % 8 ≠ 0 then (some stALIGN_FAULT, s)
    else
      let (st, s) := s.checkLocal m a n true
      if st ≠ stOK then (some st, s)
      else
        let (st, s) := s.doorbell m o n (ofBytes bs)
        (some st, s)
  | .reg b o => s.regWr m b o a n (ofBytes bs)
  | _ =>
    if !aligned a n then (some stALIGN_FAULT, s)
    else
      let (st, s) := s.checkLocal m a n true
      if st ≠ stOK then (some st, s)
      else
        let (st, s) := s.memWr a bs
        (some st, s.poundError m st)

/-- The operation and the class of a write to another device: a doorbell has its own (R350). -/
def remoteWrite (l n : Nat) : Nat × Nat := if (within? doorbellBase 0x1000 l).isSome && n == 8 then (txDoorbell, 3) else (txWrite, 2)

/-- A write by a master, anywhere: a reply, unless it comes later. An address that breaks R16 answers BOUNDS_FAULT whatever the
alignment or the size of the access (DESIGN CHOICE: R16 gives no order of the checks). -/
def State.busWrite (s : State) (m : Ident) (addr : Nat) (bs : List Byte) : State :=
  match s.resolve addr with
  | none => s.reply stBOUNDS_FAULT []
  | some (dev, a) =>
    if dev ≠ s.devId then
      let w := remoteWrite a bs.length
      let (st, s) := s.sendReq dev w.2 w.1 addr bs.length m (tidOf m) 0 bs
      if st ≠ stOK then s.reply st [] else s
    else match s.localWr m a bs with
      | (some st, s) => s.reply st []
      | (none, s) => s

/-- A read by a master, anywhere; the order of the checks is that of `busWrite` (DESIGN CHOICE). -/
def State.busRead (s : State) (m : Ident) (addr n : Nat) : State :=
  match s.resolve addr with
  | none => s.reply stBOUNDS_FAULT []
  | some (dev, a) =>
    if dev ≠ s.devId then
      let (st, s) := s.sendReq dev 2 txRead addr n m (tidOf m) 0 []
      if st ≠ stOK then s.reply st [] else s
    else
      let (st, bs, s) := s.localRd m a n
      s.reply st bs

/-- A write of one register of this device by a master. -/
def State.put32 (s : State) (m : Ident) (a v : Nat) : State := s.busWrite m a (toBytes 4 v)

/-! ## Commands -/

/-- REGISTER_WRITE (R10 to R14). -/
def execRegisterWrite (m : Ident) (addr : Dword) (size : Nat) (value : Word) (s : State) : Host.Outcome State Fault Refusal :=
  .next (s.busWrite m addr.toNat (toBytes size value.toNat))

/-- WIDE_LOW_READ (R15). -/
def execWideLowRead (m : Ident) (addr : Dword) (s : State) : Host.Outcome State Fault Refusal := .next (s.busRead m addr.toNat 4)

/-- WIDE_HIGH_WRITE (R15). -/
def execWideHighWrite (m : Ident) (addr : Dword) (value : Word) (s : State) : Host.Outcome State Fault Refusal :=
  .next (s.busWrite m addr.toNat (toBytes 4 value.toNat))

/-- WIDE_LOW_WRITE (R15). -/
def execWideLowWrite (m : Ident) (addr : Dword) (value : Word) (s : State) : Host.Outcome State Fault Refusal :=
  .next (s.busWrite m addr.toNat (toBytes 4 value.toNat))

/-- RING_DOORBELL (R312, R313). -/
def execRingDoorbell (m : Ident) (off : BitVec 12) (size : Nat) (value : Dword) (s : State) : Host.Outcome State Fault Refusal :=
  .next (s.busWrite m (doorbellBase + off.toNat) (toBytes size value.toNat))

/-- RING_RESUME (R314). -/
def execRingResume (m : Ident) (ring : Fin 16) (s : State) : Host.Outcome State Fault Refusal := .next (s.put32 m (KP_RING_CTRL ring) 1)

/-- DM_GO (R324). -/
def execDmGo (m : Ident) (engine : EngineId) (value : Word) (s : State) : Host.Outcome State Fault Refusal :=
  .next (s.put32 m (DM_GO engine) value.toNat)

/-- DMA_RESUME (R329). -/
def execDmaResume (m : Ident) (engine : EngineId) (s : State) : Host.Outcome State Fault Refusal := .next (s.put32 m (DM_CTRL engine) 1)

/-- DMA_ABORT (R329). -/
def execDmaAbort (m : Ident) (engine : EngineId) (s : State) : Host.Outcome State Fault Refusal := .next (s.put32 m (DM_CTRL engine) 2)

/-- MB_MSG_SEND (R335). -/
def execMbMsgSend (m : Ident) (core : CoreId) (chan : Fin 4) (value : Word) (s : State) : Host.Outcome State Fault Refusal :=
  .next (s.put32 m (MB_MSG_0 (4 * core.val + chan.val)) value.toNat)

/-- MB_LOCK_READ (R339). -/
def execMbLockRead (m : Ident) (core : CoreId) (chan : Fin 4) (s : State) : Host.Outcome State Fault Refusal :=
  .next (s.busRead m (MB_LOCK (4 * core.val + chan.val)) 4)

/-- MB_LOCK_WRITE (R339). -/
def execMbLockWrite (m : Ident) (core : CoreId) (chan : Fin 4) (value : Word) (s : State) : Host.Outcome State Fault Refusal :=
  .next (s.put32 m (MB_LOCK (4 * core.val + chan.val)) value.toNat)

/-- OBS_WRITE (R241). -/
def execObsWrite (m : Ident) (core : CoreId) (index : Fin 2048) (value : Word) (s : State) : Host.Outcome State Fault Refusal :=
  .next (s.put32 m (CO_OBS core index) value.toNat)

/-- GN_PARTIAL_WRITE (R256): the write of CO_GN_PART_0. -/
def execGnPartialWrite (m : Ident) (core : CoreId) (value : Word) (s : State) : Host.Outcome State Fault Refusal :=
  .next (s.put32 m (CO_GN_PART_0 core) value.toNat)

/-- LOSS_WRITE (R262): the write of CO_LOSS_0. -/
def execLossWrite (m : Ident) (core : CoreId) (value : Word) (s : State) : Host.Outcome State Fault Refusal :=
  .next (s.put32 m (CO_LOSS_0 core) value.toNat)

/-- LK_RETRAIN (R380). -/
def execLkRetrain (m : Ident) (port : PortId) (sub : SubId) (s : State) : Host.Outcome State Fault Refusal := .next (s.put32 m (LK_CTRL port sub) 1)

/-- LK_RESTORE (R380). -/
def execLkRestore (m : Ident) (port : PortId) (sub : SubId) (s : State) : Host.Outcome State Fault Refusal := .next (s.put32 m (LK_CTRL port sub) 2)

/-- LK_TOWPATH (R380). -/
def execLkTowpath (m : Ident) (port : PortId) (sub : SubId) (s : State) : Host.Outcome State Fault Refusal := .next (s.put32 m (LK_CTRL port sub) 4)

/-- LK_FULL_RATE (R380). -/
def execLkFullRate (m : Ident) (port : PortId) (sub : SubId) (s : State) : Host.Outcome State Fault Refusal := .next (s.put32 m (LK_CTRL port sub) 8)

/-- LK_WAKE (R380). -/
def execLkWake (m : Ident) (port : PortId) (sub : SubId) (mask : BitVec 4) (s : State) : Host.Outcome State Fault Refusal :=
  .next (s.put32 m (LK_CTRL port sub) (16 + mask.toNat * 32))

/-- DEVICE_RESET (R417): the whole value written to KP_RESET. -/
def execDeviceReset (m : Ident) (value : Word) (s : State) : Host.Outcome State Fault Refusal := .next (s.put32 m KP_RESET value.toNat)

/-- KEEPER_ONLY_RESET (R435): the whole value written to KP_RESET. -/
def execKeeperOnlyReset (m : Ident) (value : Word) (s : State) : Host.Outcome State Fault Refusal := .next (s.put32 m KP_RESET value.toNat)

/-- CORE_RESET (R430, R442). -/
def execCoreReset (m : Ident) (core : BitVec 10) (s : State) : Host.Outcome State Fault Refusal := .next (s.put32 m PW_RESET (core.toNat * 4))

/-- CLUSTER_RESET (R430, R442). -/
def execClusterReset (m : Ident) (cluster : BitVec 10) (s : State) : Host.Outcome State Fault Refusal :=
  .next (s.put32 m PW_RESET (1 + cluster.toNat * 4))

/-- PARTITION_RESET (R430, R442). -/
def execPartitionReset (m : Ident) (part : BitVec 10) (s : State) : Host.Outcome State Fault Refusal := .next (s.put32 m PW_RESET (2 + part.toNat * 4))

/-- PW_DOM_EN_WRITE (R436). -/
def execPwDomEnWrite (m : Ident) (part : PartId) (en : Bool) (s : State) : Host.Outcome State Fault Refusal :=
  .next (s.put32 m (PW_DOM part) en.toNat)

/-- SELFTEST_FULL (R424): RUN and FULL. -/
def execSelftestFull (m : Ident) (s : State) : Host.Outcome State Fault Refusal := .next (s.put32 m KP_TEST_CTRL 5)

/-- SELFTEST_PART (R424): RUN and the partitions. -/
def execSelftestPart (m : Ident) (parts : BitVec 4) (s : State) : Host.Outcome State Fault Refusal :=
  .next (s.put32 m KP_TEST_CTRL (1 + parts.toNat * 8))

/-- SELFTEST_ABORT (R428). -/
def execSelftestAbort (m : Ident) (s : State) : Host.Outcome State Fault Refusal := .next (s.put32 m KP_TEST_CTRL 2)

/-- BURN (R429): the whole value written to KP_REPAIR_CTRL. -/
def execBurn (m : Ident) (value : Word) (s : State) : Host.Outcome State Fault Refusal := .next (s.put32 m KP_REPAIR_CTRL value.toNat)

/-- MEAS_EXTEND (R457): the write of KP_MEAS_EXT word 0. -/
def execMeasExtend (m : Ident) (value : Word) (s : State) : Host.Outcome State Fault Refusal := .next (s.put32 m (KP_MEAS_EXT 0) value.toNat)

/-- EV_TAIL_WRITE (R485). -/
def execEvTailWrite (m : Ident) (value : Word) (s : State) : Host.Outcome State Fault Refusal := .next (s.put32 m EV_TAIL value.toNat)

/-- PW_LIMIT_WRITE (R494). -/
def execPwLimitWrite (m : Ident) (value : Word) (s : State) : Host.Outcome State Fault Refusal := .next (s.put32 m PW_LIMIT value.toNat)

/-- PW_CLK_WRITE (R513). -/
def execPwClkWrite (m : Ident) (value : Word) (s : State) : Host.Outcome State Fault Refusal := .next (s.put32 m PW_CLK value.toNat)

/-! ## Memory by address -/

/-- An access by address, of any kind. -/
def State.busAccess (s : State) (m : Ident) (addr n : Nat) (write : Bool) (data : List Byte) : State :=
  if write then s.busWrite m addr (data.take n ++ List.replicate (n - data.length) 0#8) else s.busRead m addr n

/-- BASIN_ACCESS (R275 to R279). -/
def execBasinAccess (m : Ident) (addr : Dword) (size : Nat) (write : Bool) (data : List Byte) (upset : Upset) (s : State) :
    Host.Outcome State Fault Refusal :=
  let s := match s.resolve addr.toNat with
    | some (dev, a) => if dev = s.devId ∧ a < 0x800000000 then s.addUpset 8 a upset else s
    | none => s
  .next (s.busAccess m addr.toNat size write data)

/-- HBM_ACCESS (R282 to R286, R298 to R302): accesses of up to 32 bytes, and those marked narrow, take the narrow
path; the main path takes aligned accesses of 64 bytes. -/
def execHbmAccess (m : Ident) (addr : Dword) (size : Nat) (narrow : Bool) (write : Bool) (data : List Byte) (upset : Upset)
    (s : State) : Host.Outcome State Fault Refusal :=
  match s.resolve addr.toNat with
  | none => .next (s.reply stBOUNDS_FAULT [])
  | some (dev, a) =>
    match dev == s.devId, target a with
    | true, .hbm _ =>
      let s := s.addUpset 32 a upset
      let n := narrow || decide (size ≤ 32)
      if n && decide (32 < size) then .next (s.reply stALIGN_FAULT [])
      else if !aligned a size then .next (s.reply stALIGN_FAULT [])
      else
        .next (s.busAccess m addr.toNat size write data)
    | _, _ => .next (s.busAccess m addr.toNat size write data)

end Sys2Proof.Machine
end

