-- ==== Sys2Proof/Machine/Intake.lean ====
section
/-! DEFINITION. Serving intake: fragments, reassembly, busy replies and refusals, the serving slots, and SERVE (R83, R91, R310, R317 to R321). -/

namespace Sys2Proof.Machine

/-! ## Datagrams (R317) -/

/-- A number of `n` bytes in network order. -/
def netBytes (n v : Nat) : List Byte := (toBytes n v).reverse

/-- The 32 bytes of a header. -/
def headerBytes (h : ServeHeader) : List Byte :=
  netBytes 1 h.ver.toNat ++ netBytes 1 h.type.toNat ++ netBytes 1 h.cls.toNat ++ netBytes 1 h.status.toNat ++ netBytes 2 h.plan.toNat
    ++ netBytes 1 h.fidx.toNat ++ netBytes 1 h.fcntM1.toNat ++ netBytes 8 h.reqId.toNat ++ netBytes 6 h.epoch.toNat ++ netBytes 1 h.flags.toNat
    ++ netBytes 1 h.reserved.toNat ++ netBytes 4 h.total.toNat ++ netBytes 4 h.offset.toNat

/-- A datagram leaves a port for the address and UDP port that its header names. -/
def State.sendDatagram (s : State) (p : Nat) (h : ServeHeader) (data : List Byte) : State :=
  { s with datagrams := s.datagrams ++ [⟨p, h.srcAddr.toNat, h.srcPort.toNat, headerBytes h ++ data⟩] }

/-- The answer to a request that carries no data: a refusal or a busy reply. -/
def State.answer (s : State) (p : Nat) (h : ServeHeader) (type status : Nat) : State :=
  s.sendDatagram p { h with
      ver := 1#8, type := BitVec.ofNat 8 type, status := BitVec.ofNat 8 status, fidx := 0#8, fcntM1 := 0#8, reserved := 0#8, total := 0#32,
      offset := 0#32 } []

/-! ## Requests in reassembly (R318) -/

/-- Whether a reassembly is of the request that a header names. -/
def Reassembly.of (x : Reassembly) (h : ServeHeader) : Bool :=
  x.client == h.srcAddr.toNat && x.clientPort == h.srcPort.toNat && x.reqId == h.reqId.toNat

/-- The request of a header is gone from the port, its reservation kept. -/
def State.dropReasm (s : State) (p : Nat) (h : ServeHeader) : State :=
  let k := s.port p
  s.setPort p { k with reasm := k.reasm.filter (fun x => !x.of h) }

/-- A reservation released. -/
def State.releasePool (s : State) (p base : Nat) : State :=
  let k := s.port p
  (s.setPort p { k with pool := k.pool.filter (fun x => x.1 != base) }).syncPort p

/-- The request of a header discarded, its reservation released. -/
def State.discard (s : State) (p : Nat) (h : ServeHeader) : State :=
  match (s.port p).reasm.find? (fun x => x.of h) with
  | some x => (s.dropReasm p h).releasePool p x.base
  | none => s

/-- The bytes that a request takes in the pool. -/
def poolBytes (total : Nat) : Nat := (total + 64 + 4095) / 4096 * 4096

/-- Bytes of a port's pool. -/
def State.poolSize (s : State) (p : Nat) : Nat := s.rf (WH_INTAKE_SIZE (p / 2) (p % 2)) WH_INTAKE_SIZE_SIZE_MIB * 2 ^ 20

/-- A place for `n` bytes: the runtime's choice among those that are free. -/
def State.poolPlace (s : State) (p n : Nat) : Option Nat × State :=
  let pool := (s.port p).pool
  let (v, s) := s.draw
  let fits := fun b : Nat => decide (b + n ≤ s.poolSize p) && pool.all (fun x => decide (b + n ≤ x.1) || decide (x.1 + x.2 ≤ b))
  ((v % max 1 (s.poolSize p / 4096) * 4096 :: 0 :: pool.map (fun x => x.1 + x.2)).find? fits, s)

/-- A busy reply, counted once, and remembered (R318, R320). -/
def State.busyReply (s : State) (p : Nat) (h : ServeHeader) : State :=
  let k := s.port p
  let s := s.setPort p { k with refused := k.refused ++ [(h.srcAddr.toNat, h.srcPort.toNat, h.reqId.toNat, s.now)] }
  (s.bump (WH_INTAKE_BUSY (p / 2) (p % 2)) 1).answer p h 4 0

/-- A refusal, counted (R320). -/
def State.refusal (s : State) (p : Nat) (h : ServeHeader) (st : Nat) : State :=
  ((s.discard p h).bump (WH_INTAKE_REFUSED (p / 2) (p % 2)) 1).answer p h 3 st

/-! ## Checks (R320) -/

/-- Two headers of one request, but for the fields that are each fragment's own. -/
def sameRequest (a b : ServeHeader) : Bool := { a with fidx := b.fidx, offset := b.offset } == b

/-- The plan of a number in the running schedule. -/
def State.planOf (s : State) (n : Nat) : Option Plan :=
  if s.running then s.sched.bind (fun im => im.plans.find? (fun x => x.number == n)) else none

/-- The status with which a fragment's request is refused, or OK. -/
def State.fragmentStatus (s : State) (p : Nat) (h : ServeHeader) : Nat :=
  let agree := (s.port p).reasm.all (fun x => !x.of h || sameRequest x.header h)
  if h.ver != 1#8 || h.type != 1#8 || (h.cls != 0#8 && h.cls != 2#8) || h.reserved != 0#8 || h.flags.toNat / 2 != 0
      || decide (h.fcntM1.toNat < h.fidx.toNat) || !agree then stBAD_OPCODE
  else match s.planOf h.plan.toNat with
    | none => stBAD_OPCODE
    | some x => if 2 ^ 20 < h.total.toNat ∨ x.maxInput < h.total.toNat then stSHAPE_OVER else stOK

/-! ## Complete requests (R319) -/

/-- The bytes of a request's data. A byte that no fragment brought does not occur in a complete request. -/
def Reassembly.data (x : Reassembly) : List Byte :=
  let total := x.header.total.toNat
  x.frags.foldl (fun r f => r.take f.1 ++ f.2.take (total - f.1) ++ r.drop (f.1 + f.2.length)) (List.replicate total 0#8)

/-- Whether every byte has arrived: the bytes from `a` on, by the fragments in `l`. -/
def coveredFrom (l : List (Nat × List Byte)) (a total : Nat) : Nat → Bool
  | 0 => decide (total ≤ a)
  | n + 1 =>
    if total ≤ a then true
    else match l.find? (fun f => decide (f.1 ≤ a) && decide (a < f.1 + f.2.length)) with
      | some f => coveredFrom l (f.1 + f.2.length) total n
      | none => false

/-- The request is complete. -/
def Reassembly.complete (x : Reassembly) : Bool := coveredFrom x.frags 0 x.header.total.toNat (x.frags.length + 1)

/-- The bytes of the next access of a write of `n` bytes: 64, or the largest power of two that is left (R275). -/
def pieceOf (n : Nat) : Nat := if 64 ≤ n then 64 else 2 ^ Nat.log2 n

/-- Bytes written by a master to this device's memory, in pieces, up to the first that fails. -/
def State.writeParts (s : State) (m : Ident) (a : Nat) (bs : List Byte) : Nat → State
  | 0 => s
  | k + 1 =>
    if bs.isEmpty then s
    else
      let n := pieceOf bs.length
      let (st, s) := s.checkLocal m a n true
      if st ≠ stOK then s
      else
        let (st, s) := s.memWr a (bs.take n)
        if st ≠ stOK then s else s.writeParts m (a + n) (bs.drop n) k

/-- Bytes written by a master to memory, here or on another device. -/
def State.writeMem (s : State) (m : Ident) (a : Nat) (bs : List Byte) : State :=
  match s.resolve a with
  | none => s
  | some (dev, l) =>
    if dev ≠ s.devId then (s.sendReq dev 3 txWrite a bs.length m (tidOf m) 0 bs).2
    else s.writeParts m l bs (bs.length / 64 + 7)

/-- The words of a SERVE descriptor. -/
def serveWords (x : Reassembly) (addr tag : Nat) : List Nat :=
  let h := x.header
  let eb := natBit 0 h.flags.toNat
  [3 + eb.toNat * 2 ^ 10 + tag % 2 ^ 16 * 2 ^ 16, if eb then h.epoch.toNat else 0, addr, h.total.toNat + h.plan.toNat * 2 ^ 32 + h.cls.toNat % 4 * 2 ^ 48,
    h.reqId.toNat, 0, 0, 0]

/-- A complete request is written to the pool, its descriptor to the ring, and the doorbell rung. -/
def State.reassembled (s : State) (p : Nat) (x : Reassembly) : State :=
  let m := s.self (0xD10 + p)
  let h := x.header
  let addr := hbmBase + s.rf (WH_INTAKE_POOL (p / 2) (p % 2)) WH_INTAKE_POOL_BASE_MIB * 2 ^ 20 + x.base
  let r := s.rf (WH_INTAKE_CFG (p / 2) (p % 2)) WH_INTAKE_CFG_RING
  let s := s.dropReasm p h
  let s := s.writeMem m addr (netBytes 16 h.srcAddr.toNat ++ netBytes 2 h.srcPort.toNat ++ [BitVec.ofNat 8 p] ++ List.replicate 45 0#8 ++ x.data)
  let (tag, s) := s.draw
  let s := s.writeMem m (s.ringAddr r (s.rd (KP_RING_PROD r))) ((serveWords x addr tag).flatMap (fun w => toBytes 8 w))
  let s := s.bump (WH_INTAKE_ADMIT (p / 2) (p % 2)) 1
  (s.doorbell m (8 * r) 8 ((s.rd (KP_RING_PROD r) + 1) % 2 ^ 32)).2

/-! ## INTAKE_FRAGMENT (R318 to R321) -/

/-- Fragment bytes as they are kept: bytes that an earlier fragment brought too are free. -/
def State.fresh (s : State) (x : Reassembly) (off : Nat) (data : List Byte) : List Byte × State :=
  let old := fun a : Nat => x.frags.any (fun f => decide (f.1 ≤ a) && decide (a < f.1 + f.2.length))
  if data.zipIdx.any (fun b => old (off + b.2)) then
    let (v, s) := s.draw
    (data.zipIdx.map (fun b => if old (off + b.2) then BitVec.ofNat 8 (v / 2 ^ (8 * b.2)) else b.1), s)
  else (data, s)

/-- A fragment of a request that holds its reservation; a duplicate is discarded. -/
def State.addFragment (s : State) (p : Nat) (x : Reassembly) (h : ServeHeader) (data : List Byte) : State :=
  if x.fidx.contains h.fidx.toNat then s
  else
    let (bs, s) := s.fresh x h.offset.toNat data
    let x := { x with frags := x.frags ++ [(h.offset.toNat, bs)], fidx := x.fidx ++ [h.fidx.toNat] }
    if x.complete then s.reassembled p x
    else
      let k := s.port p
      s.setPort p { k with reasm := k.reasm.map (fun y => if y.of h then x else y) }

/-- A first fragment: the reservation, or a busy reply. -/
def State.firstFragment (s : State) (p : Nat) (h : ServeHeader) (data : List Byte) : State :=
  let n := poolBytes h.total.toNat
  if s.portRbLow p || decide (1024 ≤ (s.port p).reasm.length) || decide (s.poolFree p < n) then s.busyReply p h
  else
    let (place, s) := s.poolPlace p n
    match place with
    | none => s.busyReply p h
    | some b =>
      let x : Reassembly := ⟨h.srcAddr.toNat, h.srcPort.toNat, h.reqId.toNat, s.now, h, [], [], b, n⟩
      let k := s.port p
      ((s.setPort p { k with reasm := k.reasm ++ [x], pool := k.pool ++ [(b, n)] }).syncPort p).addFragment p x h data

/-- INTAKE_FRAGMENT: a datagram to the intake's UDP port. -/
def execIntakeFragment (port : PortId) (h : ServeHeader) (data : List Byte) (s : State) : Host.Outcome State Fault Refusal :=
  let p := port.val
  let key := (h.srcAddr.toNat, h.srcPort.toNat, h.reqId.toNat)
  if !s.intakeOn p || !s.portOn p then .next s
  else if (s.port p).refused.any (fun x => (x.1, x.2.1, x.2.2.1) == key) then .next s
  else
    let st := s.fragmentStatus p h
    if st ≠ stOK then .next (s.refusal p h st)
    else match (s.port p).reasm.find? (fun x => x.of h) with
      | some x => .next (s.addFragment p x h data)
      | none => .next (s.firstFragment p h data)

/-- INTAKE_EXPIRY (R318): 10 ms after its first fragment. -/
def execIntakeExpiry (port : PortId) (srcAddr : BitVec 128) (srcPort : BitVec 16) (reqId : Dword) (s : State) :
    Host.Outcome State Fault Refusal :=
  let p := port.val
  match (s.port p).reasm.find? (fun x => x.client == srcAddr.toNat && x.clientPort == srcPort.toNat && x.reqId == reqId.toNat) with
  | some x =>
    if x.first + 10000000 ≤ s.now then .next ((s.discard p x.header).bump (WH_INTAKE_EXPIRED (p / 2) (p % 2)) 1) else .next s
  | none => .next s

/-- INTAKE_REFUSAL_FORGET (R318): 10 ms after a busy reply. -/
def execIntakeRefusalForget (port : PortId) (srcAddr : BitVec 128) (srcPort : BitVec 16) (reqId : Dword) (s : State) :
    Host.Outcome State Fault Refusal :=
  let p := port.val
  let k := s.port p
  let gone := fun x : Nat × Nat × Nat × Nat =>
    x.1 == srcAddr.toNat && x.2.1 == srcPort.toNat && x.2.2.1 == reqId.toNat && decide (x.2.2.2 + 10000000 ≤ s.now)
  .next (s.setPort p { k with refused := k.refused.filter (fun x => !gone x) })

/-! ## The serving path (R83, R91, R310, R319) -/

/-- The local address of a request, and its fields, from its descriptor. -/
def RingExec.reqTotal (d : RingExec) : Nat := natBits 0 32 (d.word 3)
def RingExec.reqPlan (d : RingExec) : Nat := natBits 32 16 (d.word 3)
def RingExec.reqClass (d : RingExec) : Nat := natBits 48 2 (d.word 3)

/-- The local address of a request's bytes. -/
def State.reqAddr (s : State) (d : RingExec) : Nat := ((s.resolve (d.word 2)).map (fun x => x.2)).getD 0

/-- The master in whose name a request's bytes are read: the owner of its ring, which wrote its descriptor (R316, R319; DESIGN
CHOICE: the spec names no master of the serving path's own). -/
def State.servedFor (s : State) (r : Nat) : Ident :=
  let w := s.rf (KP_RING_OWNER r) KP_RING_OWNER_OWNER
  ⟨BitVec.ofNat 14 (w / 4096), BitVec.ofNat 12 w⟩

/-- The status of a request's bytes from offset `i` on, read by the serving path in pieces of 64 (R27, R48, R49). -/
def State.readRequest (s : State) (m : Ident) (a : Nat) : Nat → Nat × State
  | 0 => (stOK, s)
  | n + 1 =>
    let (st, _, s) := s.localGet m a 64
    if st ≠ stOK then (st, s) else s.readRequest m (a + 64) n

/-- The status of a request's bytes: they lie on this device, and the first `n` pieces can be read. -/
def State.requestRead (s : State) (r : Nat) (d : RingExec) (n : Nat) : Nat × State :=
  match s.resolve (d.word 2) with
  | none => (stBOUNDS_FAULT, s)
  | some (dev, a) => if dev ≠ s.devId then (stBOUNDS_FAULT, s) else s.readRequest (s.servedFor r) a n

/-- The reply address that a request holds in its first 64 bytes: address, UDP port, port. -/
def State.replyTo (s : State) (d : RingExec) : Nat × Nat × Nat :=
  let b := fun i n : Nat => ofBytes (s.bytes (s.reqAddr d + i) n).reverse
  (b 0 16, b 16 2, b 18 1 % 16)

/-- The header of an answer to a request of the serving path. -/
def State.serveHeader (s : State) (d : RingExec) (type status epoch : Nat) : ServeHeader :=
  let a := s.replyTo d
  ⟨1#8, BitVec.ofNat 8 type, BitVec.ofNat 8 d.reqClass, BitVec.ofNat 8 status, BitVec.ofNat 16 d.reqPlan, 0#8, 0#8, BitVec.ofNat 64 (d.word 4),
    BitVec.ofNat 48 epoch, 1#8, 0#8, 0#32, 0#32, BitVec.ofNat 128 a.1, BitVec.ofNat 16 a.2.1⟩

/-- A descriptor completes, and its pool space is released. -/
def State.serveDone (s : State) (r : Nat) (d : RingExec) (st : Nat) : State :=
  let p := (s.replyTo d).2.2
  let base := s.reqAddr d - (hbmBase + s.rf (WH_INTAKE_POOL (p / 2) (p % 2)) WH_INTAKE_POOL_BASE_MIB * 2 ^ 20)
  (s.ringComplete r d st).releasePool p base

/-- The epoch that a request binds to at its admission. -/
def State.bindEpoch (s : State) (d : RingExec) : Nat := if d.eb then d.target else s.epoch

/-- A request admitted to the serving path, or refused there (R310, R320). One whose reply address cannot be read has nobody to be
answered: its descriptor completes with the status of that read. -/
def State.admitServe (s : State) (r : Nat) (d : RingExec) : State :=
  let x := s.requestRead r d 1
  if x.1 ≠ stOK then x.2.ringComplete r d x.1
  else
  let e := s.bindEpoch d
  let st := if (s.planOf d.reqPlan).isNone then stBAD_OPCODE else if !s.retained e then stBOUNDS_FAULT else stOK
  if st = stOK then s.ringSet r { d with begun := true, served := true, epoch := some e }
  else
    let p := (s.replyTo d).2.2
    let h := s.serveHeader d 3 st e
    ((s.bump (WH_INTAKE_REFUSED (p / 2) (p % 2)) 1).answer p h 3 st).serveDone r d st

/-- The requests of port `p` in a ring that wait for the serving path, oldest first, admitted within the quota `q` of class 0. -/
def State.slotRing (s : State) (p r : Nat) (q : Nat) : List RingExec → Nat × State
  | [] => (q, s)
  | d :: t =>
    let may := d.op == 3 && !d.served && (s.replyTo d).2.2 == p && (d.begun || (s.ringBegin r d.index 3).isSome)
    if !may then s.slotRing p r q t
    else if d.reqClass = 0 ∧ q = 0 then
      let k := s.port p
      ((s.setPort p { k with waited := k.waited + 1 }).ringSet r { d with begun := true }).slotRing p r q t
    else (s.admitServe r d).slotRing p r (if d.reqClass = 0 then q - 1 else q) t

/-- A slot may begin: none has begun within the slot period S (R91). -/
def State.slotDue (s : State) (p : Nat) : Bool :=
  let k := (s.port p).slotAt
  k == 0 || decide (k + s.rf TM_SCHED_1 TM_SCHED_1_SERVE_SLOT * 10000 ≤ s.now + 1)

/-- SERVING_SLOT_START (R91): class 0 within the quota, class 2 beside it. R91 states the period S of the slots and not the instants
at which they begin: one begins at the command, no sooner than S after the last on the port (DESIGN CHOICE). -/
def execServingSlotStart (port : PortId) (s : State) : Host.Outcome State Fault Refusal :=
  let quota := (s.sched.map (fun im => im.quota)).getD 0
  if !s.slotDue port then .next s
  else
  let s := s.setPort port { s.port port with slotAt := s.now + 1 }
  .next ((List.range 16).foldl (fun (x : Nat × State) r => x.2.slotRing port r x.1 (x.2.ring r)) (quota, s)).2

/-- The datagrams of a response: fragments of at most 8192 bytes. -/
def State.respond (s : State) (p : Nat) (h : ServeHeader) (data : List Byte) : State :=
  let n := max 1 ((data.length + 8191) / 8192)
  (List.range n).foldl (fun s i => s.sendDatagram p { h with
      fidx := BitVec.ofNat 8 i, fcntM1 := BitVec.ofNat 8 (n - 1), total := BitVec.ofNat 32 data.length, offset := BitVec.ofNat 32 (8192 * i) }
      ((data.drop (8192 * i)).take 8192)) s

/-- SERVE (R83, R84, R317, R319, R483): the plan of an admitted request has run, and its response leaves; a request whose epoch is no
longer retained is answered with BOUNDS_FAULT and no data. -/
def execServe (ring : Fin 16) (index : Word) (response : List Byte) (s : State) : Host.Outcome State Fault Refusal :=
  match (s.ring ring).find? (fun d => d.index == index.toNat && d.op == 3 && d.served) with
  | none => .next s
  | some d =>
    let (st, s) := s.requestRead ring d ((d.reqTotal + 64 + 63) / 64)
    let st := if st = stOK ∧ !(d.epoch.all (fun e => s.retained e)) then stBOUNDS_FAULT else st
    let p := (s.replyTo d).2.2
    let h := s.serveHeader d 2 st (d.epoch.getD s.epoch)
    .next ((s.respond p h (if st = stOK then response else [])).serveDone ring d st)

end Sys2Proof.Machine
end

