-- ==== Sys2Proof/Machine/Fallback.lean ====
section
/-! DEFINITION. What fleet commands and locks share: orders to other devices, fencing, ID changes, failed and released members, snapshots taken and restored, withdrawal and readmission (R316, R383, R393, R399 to R403, R407, R408, R411). -/

namespace Sys2Proof.Machine

/-! ## Orders and events -/

/-- An order to a device governed: the number of its kind, and its words (R389). -/
def State.order (s : State) (dev kind : Nat) (words : List Nat) : State := s.send dev 3 txFleetCmd (kind :: words)

/-- The members that have not been released. -/
def State.governed (s : State) : List Member := s.fleet.members.filter (fun m => !m.released)

/-- An order to every device governed; a lower manager among them is asked to pass it on to its own (R387, R388). -/
def State.orderAll (s : State) (kind : Nat) (words : List Nat) : State :=
  s.governed.foldl (fun s m => if m.role = 2 then (s.order m.dev kind words).order m.dev 16 (0x4000 :: kind :: words) else s.order m.dev kind words) s

/-- An order to a device of the fleet: one that a lower manager governs gets it through the lower managers (R387). -/
def State.orderTo (s : State) (dev kind : Nat) (words : List Nat) : State :=
  if s.governed.any (fun m => m.dev == dev) then s.order dev kind words
  else (s.governed.filter (fun m => m.role == 2)).foldl (fun s m => s.order m.dev 16 (dev :: kind :: words)) s

/-- An event of class FLEET about a device; its kind is the runtime's choice (R472). -/
def State.postFleet (s : State) (dev : Nat) : State :=
  let (kind, s) := s.draw
  s.post 0x28 stOK (s.src 0xD00) (kind % 16 + dev % 2 ^ 14 * 2 ^ 16)

/-! ## Members (R402, R411) -/

/-- WORKERS and FAILED follow the members. -/
def State.syncMembers (s : State) : State :=
  (s.wf KP_FLEET_STATUS KP_FLEET_STATUS_WORKERS (min 256 s.governed.length)).wf KP_FLEET_STATUS KP_FLEET_STATUS_FAILED
    (min 256 (s.governed.filter (fun m => m.failed)).length)

/-- The members replaced by a list. -/
def State.setMembers (s : State) (l : List Member) : State := ({ s with fleet := { s.fleet with members := l } }).syncMembers

/-- The member of a device ID changed. -/
def State.modMember (s : State) (dev : Nat) (f : Member → Member) : State :=
  s.setMembers (s.fleet.members.map (fun (m : Member) => if m.dev = dev then f m else m))

/-- The member of a device ID. -/
def State.member (s : State) (dev : Nat) : Option Member := s.governed.find? (fun m => m.dev == dev)

/-- A device is declared failed (R402). -/
def State.declareFailed (s : State) (dev : Nat) : State :=
  if s.governed.any (fun m => m.dev == dev && !m.failed) then (s.modMember dev (fun m => { m with failed := true })).postFleet dev else s

/-! ## Fences and IDs (R316, R383, R403) -/

/-- Every link to a neighbour loses its keys. -/
def State.fence (s : State) (dev : Nat) : State :=
  (List.range 128).foldl (fun s i =>
    let p := i / 8
    let b := i % 8
    if s.subExists p b ∧ 2 ≤ s.linkSt p b ∧ s.linkSt p b ≤ 5 ∧ s.rf (LK_STATE p b) LK_STATE_PEER = dev then s.linkDown p b (fun _ => stBUS_FAULT) else s) s

/-- The device takes an ID, and rewrites the owners that named its old one. -/
def State.takeId (s : State) (new : Nat) : State :=
  let old := s.devId
  let s := s.wf KP_FLEET_ID KP_FLEET_ID_DEV_ID new
  (List.range 16).foldl (fun s r =>
    let o := s.rf (KP_RING_OWNER r) KP_RING_OWNER_OWNER
    if o / 4096 = old then s.wf (KP_RING_OWNER r) KP_RING_OWNER_OWNER (new % 2 ^ 14 * 4096 + o % 4096) else s) s

/-- A device governed is released: fenced, and out of the fleet (R393, R403). -/
def State.releaseMember (s : State) (dev : Nat) : State :=
  let s := s.order dev 12 []
  let s := (s.modMember dev (fun m => { m with released := true })).orderAll 13 [dev]
  s.fence dev

/-- The activation lock of a broadcast: incomplete receivers are released, and have failed where their work is needed (R393, R402). -/
def State.endCast (s : State) : State :=
  let l := s.governed.filter (fun m => m.lacking)
  l.foldl (fun s m => if m.duty = 0 ∧ s.sched.isSome then (s.declareFailed m.dev).fence m.dev else (s.postFleet m.dev).releaseMember m.dev) s

/-- A fleet register that a manager sets: 0 KP_FLEET_CFG, 1 the standby's ID, 2 the thresholds of KP_RISK, 3 KP_RISK_W, 4 KP_SNAP_CFG,
5 KP_SNAP_EVERY (R411). KR_AUTH is set at admission. -/
def State.setFleetWord (s : State) (i v : Nat) : State :=
  if i = 0 then
    let s := (s.wf KP_FLEET_CFG KP_FLEET_CFG_FAIL_HOLDS v).wf KP_FLEET_CFG KP_FLEET_CFG_EMPTY_ACT (natBits 8 2 v)
    s.wf KP_FLEET_CFG KP_FLEET_CFG_REPLAY (natBits 11 1 v)
  else if i = 1 then s.wf KP_FLEET_STBY KP_FLEET_STBY_STBY_ID v
  else if i = 2 then (s.wf KP_RISK KP_RISK_THR_PEER (natBits 8 8 v)).wf KP_RISK KP_RISK_THR_EXT (natBits 16 8 v)
  else if i = 3 then s.wr KP_RISK_W (v % 2 ^ 16)
  else if i = 4 then (s.wf KP_SNAP_CFG KP_SNAP_CFG_PEER_ID v).wf KP_SNAP_CFG KP_SNAP_CFG_SINK_ID (natBits 16 14 v)
  else if i = 5 then s.wf KP_SNAP_EVERY KP_SNAP_EVERY_COMMITS v
  else s

/-! ## Descriptors that wait for devices (R388) -/

/-- The descriptor of a ring with a count. -/
def State.ringFind (s : State) (r i : Nat) : Option RingExec := (s.ring r).find? (fun d => d.index == i)

/-- The descriptor of a reference completes. -/
def State.refDone (s : State) (ref : Nat × Nat) (st : Nat) : State :=
  match s.ringFind ref.1 ref.2 with
  | some d => s.ringComplete ref.1 d st
  | none => s

/-- A descriptor waits for something. -/
def State.addWait (s : State) (op what r i : Nat) : State := { s with fleet := { s.fleet with waits := s.fleet.waits ++ [(op, what, r, i)] } }

/-- The waits of an OP on something end; a descriptor that waits for nothing else completes. -/
def State.endWaits (s : State) (op what st : Nat) : State :=
  let hit := fun w : Nat × Nat × Nat × Nat => w.1 == op && w.2.1 == what
  let done := s.fleet.waits.filter hit
  let rest := s.fleet.waits.filter (fun w => !hit w)
  let s := { s with fleet := { s.fleet with waits := rest } }
  done.foldl (fun s w => if rest.any (fun x => x.2.2 == w.2.2) then s else s.refDone (w.2.2.1, w.2.2.2) st) s

/-- Every wait of an OP ends. -/
def State.endAllWaits (s : State) (op st : Nat) : State :=
  (s.fleet.waits.filter (fun w => w.1 == op)).foldl (fun s w => s.endWaits op w.2.1 st) s

/-! ## Snapshots (R400, R401) -/

/-- Registers of committed state that a snapshot holds: KP_STEP, KP_CURSOR, the sluice set and its counts, the spike watch with RUN,
and the core-state registers. -/
def snapReg (a : Nat) : Bool :=
  match target a with
  | .reg .kp o => decide (0x208 ≤ o ∧ o < 0x218) || decide (0x120 ≤ o ∧ o < 0x140) || decide (0x400 ≤ o ∧ o < 0x800)
      || decide (0x24C ≤ o ∧ o < 0x260) || decide (0x26C ≤ o ∧ o < 0x280)
  | .reg (.co _) o => imageOff o
  | _ => false

/-- The state as of epoch `e`, whose tensors stand in slot `k`. -/
def State.takeSnap (s : State) (e k : Nat) : SnapImage :=
  let ts := (s.sched.map (fun im => im.tensors)).getD []
  { epoch := e, tensors := ts.filterMap (fun t => t.slots[k]?.map (fun a => (a, s.bytes a t.size))), regs := s.regs.filter (fun r => snapReg r.1),
    image := s.lock.image, digest := (s.sched.map (fun im => im.digest)).getD 0#256 }

/-- The registers of a snapshot as they were. -/
def State.loadSnapRegs (s : State) (k : SnapImage) : State :=
  let s := ({ s with regs := s.regs.filter (fun r => !snapReg r.1) }).loadRegs k.regs
  let s := { s with lock := { s.lock with image := k.image } }
  let s := (List.range 1024).foldl (fun s c => (List.range 8).foldl (fun s i =>
    let v := s.rd (KP_SLUICE_SET 0 + 4 * i)
    if s.rd (CO_SLUICE c 0 + 4 * i) = v then s else s.wr (CO_SLUICE c 0 + 4 * i) v) s) s
  s.syncDemand

/-- A snapshot loaded: the tensors' bytes, and the committed state. -/
def State.loadSnap (s : State) (k : SnapImage) : State :=
  let s := k.tensors.foldl (fun s t => (s.memWr t.1 t.2).2) s
  ({ s with fleet := { s.fleet with restored := true } }).loadSnapRegs k

/-- Every serving request in progress ends with TARGET_RESET (R401). -/
def State.failServing (s : State) : State :=
  (List.range 16).foldl (fun s r => ((s.ring r).filter (fun d => d.op == 3)).foldl (fun s d =>
    let p := (s.replyTo d).2.2
    let h := s.serveHeader d 2 stTARGET_RESET (d.epoch.getD s.epoch)
    (s.answer p h 2 stTARGET_RESET).serveDone r d stTARGET_RESET) s) s

/-- This device's part of a fallback to epoch `e`: where the model's device holds no snapshot of that epoch, its memory and registers
stay, and KP_STEP and KP_CURSOR are free. -/
def State.restoreOwn (s : State) (e : Nat) : State :=
  let s := (s.failServing.withdraw).bumpF KP_FLEET_STATUS KP_FLEET_STATUS_RESTORES 1
  let s := match s.fleet.kept with
    | some k => if k.epoch = e then s.loadSnap k else
        let (v, s) := s.draw
        (s.wrWide KP_STEP_0 2 (v % 2 ^ 48)).wrWide KP_CURSOR_0 2 (v / 2 ^ 48 % 2 ^ 48)
    | none =>
        let (v, s) := s.draw
        (s.wrWide KP_STEP_0 2 (v % 2 ^ 48)).wrWide KP_CURSOR_0 2 (v / 2 ^ 48 % 2 ^ 48)
  let s := s.wrWide TM_EPOCH_0 2 e
  { s with lock := { s.lock with history := [(e, 0)], past := [] } }

/-- The whole fleet falls back. -/
def State.restoreAll (s : State) (e : Nat) : State := (s.orderAll 8 [e]).restoreOwn e

/-- The epoch of the last complete snapshot. -/
def State.snapEpoch (s : State) : Nat := s.rdWide KP_SNAP_EPOCH_0 2

/-- The core-state that a restore left stands when the schedule it was taken under becomes current again (R401). -/
def State.afterRestore (s : State) : State :=
  match s.fleet.kept with
  | some k =>
    if s.fleet.restored then
      let s := { s with fleet := { s.fleet with restored := false } }
      if (s.sched.map (fun im => im.digest)) = some k.digest then s.loadSnapRegs k else s
    else s
  | none => { s with fleet := { s.fleet with restored := false } }

/-! ## A device OUT_OF_STEP (R81, R407), and a fleet that keeps emptying (R408) -/

/-- Working parts of the trackers and slots of the schedule's cores discarded. -/
def State.dropWorking (s : State) : State :=
  let cs := (s.sched.map (fun im => im.programs.map (fun p => p.core.val))).getD []
  (cs.filter (fun c => s.present c)).foldl (fun s c => (List.range 64).foldl (fun s t => (s.clearTracker c t).clearSlot c t) s) s

/-- Readmission: IDLE, with no lock and no vote (R92), until the next held lock instant, at which the pound runs again. -/
def State.readmitOwn (s : State) : State :=
  if s.lockSt ≠ 4 then s
  else
    let p := s.poundNs
    let l := s.nextLock
    let k := if s.now < l ∨ p = 0 then 0 else (s.now - l) / p + 1
    ((({ s with lock := { s.lock with anchor := l + k * p } }.dropWorking).wrWide TM_NEXT_LOCK_0 2 0).setVote 0).setLockSt 0

/-- The top manager's act after a lock that raised the EMPTY_LIMIT alert, or did not. -/
def State.emptyAct (s : State) (alert : Bool) : State :=
  if s.role ≠ 3 ∨ !alert then s
  else
    let act := s.rf KP_FLEET_CFG KP_FLEET_CFG_EMPTY_ACT
    if act = 1 then (s.orderAll 9 []).withdraw else if act = 2 then s.restoreAll s.snapEpoch else s

end Sys2Proof.Machine
end

