-- ==== Sys2Proof/Machine/RingCmds.lean ====
section
/-! DEFINITION. The ring commands NOP, SCHEDULE, CONFIG and COPY, and what a reader bound to an epoch reads (R77, R83, R84, R309, R310, R345, R449, R483). -/

namespace Sys2Proof.Machine

/-! ## Readers bound to an epoch (R82 to R84) -/

/-- The slot of exposed tensors that holds the state of epoch `e`. -/
def State.epochSlot (s : State) (e : Nat) : Option Nat := (s.lock.history.find? (fun h => h.1 == e)).map (fun h => h.2)

/-- The exposed tensor of a list, and the offset in its slot, at an address. -/
def exposedIn (l : List Tensor) (a : Nat) : Option (Tensor × Nat) :=
  l.findSome? (fun t =>
    if t.exposed then (t.slots.find? (fun b => decide (b ≤ a) && decide (a < b + t.size))).map (fun b => (t, a - b)) else none)

/-- The exposed tensor of the current schedule at an address. -/
def State.exposedAt (s : State) (a : Nat) : Option (Tensor × Nat) :=
  match s.sched with
  | none => none
  | some im => exposedIn im.tensors a

/-- The address that a reader bound to epoch `e` reads for address `a`: in an exposed tensor, the slot that holds the epoch, by the
current schedule or, for an epoch before the changeover, by the one it replaced. -/
def State.boundAddr (s : State) (e : Option Nat) (a : Nat) : Nat :=
  match e with
  | none => a
  | some e =>
    match s.epochSlot e with
    | some k =>
      (match s.exposedAt a with
       | some (t, o) => t.slots.getD k (a - o) + o
       | none => a)
    | none =>
      match s.pastEpoch e with
      | some p =>
        (match exposedIn p.tensors a with
         | some (t, o) => t.slots.getD p.slot (a - o) + o
         | none => a)
      | none => a

/-! ## NOP -/

/-- NOP (R309). -/
def execNop (ring : Fin 16) (index : Word) (s : State) : Host.Outcome State Fault Refusal :=
  match s.ringBegin ring index.toNat 0 with
  | some d => .next (s.ringComplete ring d stOK)
  | none => .next s

/-! ## SCHEDULE (R211, R310) -/

/-- A SCHEDULE that its case admits: on an IDLE device current at once, else staged for its epoch. -/
def State.ringSchedule (s : State) (r : Nat) (d : RingExec) (im : ScheduleImage) : State :=
  let fresh := s.lockSt == 0
  if d.eb == fresh || s.lockSt == 4 then s.ringComplete r d stBAD_OPCODE
  else if !fresh && s.epochPast d.target then s.ringComplete r d stBOUNDS_FAULT
  else if !s.dmaRangeOk (s.self 0xD00) (d.word 2) (max 1 (natBits 0 32 (d.word 3))) false then s.ringComplete r d stBOUNDS_FAULT
  else if s.schedBad im fresh then s.refuseSched.ringComplete r d stBAD_OPCODE
  else
    let s := s.measExtend 4 (digestBytes im.digest)
    if fresh then (s.adoptSched im).afterRestore.ringComplete r d stOK
    else (s.bind d.target (.schedule im) (some (r, d.index))).ringStart r d

/-- SCHEDULE: `image` is what the image in memory says. -/
def execSchedule (ring : Fin 16) (index : Word) (image : ScheduleImage) (s : State) : Host.Outcome State Fault Refusal :=
  match s.ringBegin ring index.toNat 1 with
  | some d => .next (s.ringSchedule ring d image)
  | none => .next s

/-! ## CONFIG (R77, R309, R345, R449) -/

/-- Sixteen bytes of a list, read by the Keeper; those of another device have been asked for. -/
def State.configRead (s : State) (a : Nat) : Nat × List Byte × State :=
  match s.resolve a with
  | none => (stBOUNDS_FAULT, [], s)
  | some (dev, l) =>
    if dev ≠ s.devId then
      let r := s.remoteTake (s.self 0xD00) a 16
      (r.1, r.2, s)
    else s.localRd (s.self 0xD00) l 16

/-- The places of `n` entries of 16 bytes from `a` on. -/
def listPieces (a n : Nat) : List (Nat × Nat) := (List.range n).map (fun i => (a + 16 * i, 16))

/-- A list that the Keeper reads: where parts of it lie in another device's memory and have not all arrived, they are asked for and
nothing else happens yet; else `f` reads it. -/
def State.keeperReads (s : State) (l : List (Nat × Nat)) (f : State → State) : State :=
  let m := s.self 0xD00
  if !s.allGot m l then s.askAll m 3 none l
  else if l.any (fun x => s.isRemote x.1) then (f s).remoteForget m l
  else f s

/-- The entries of a list: the status of the read, and (local address, value); none where an address lies outside every block, or
in a block of an absent core (R27). -/
def State.configList (s : State) (a : Nat) : Nat → Nat × List (Nat × Nat) × State
  | 0 => (stOK, [], s)
  | n + 1 =>
    let (st, bs, s) := s.configRead a
    if st ≠ stOK then (st, [], s)
    else
      let (st, l, s) := s.configList (a + 16) n
      if st ≠ stOK then (st, l, s)
      else match s.resolve (ofBytes (bs.take 8)) with
        | some (dev, x) =>
          (match target x with
           | .reg _ _ => if dev = s.devId ∧ ((target x).core?.map (fun c => s.present c)).getD true then (stOK, (x, ofBytes ((bs.drop 8).take 4)) :: l, s) else (stBOUNDS_FAULT, [], s)
           | _ => (stBOUNDS_FAULT, [], s))
        | none => (stBOUNDS_FAULT, [], s)

/-- MODE and SPLIT of the ports as some entries would leave them. -/
def State.trialPorts (s : State) (l : List (Nat × Nat)) : State :=
  l.foldl (fun s x => (List.range 16).foldl (fun s p =>
    if x.1 = LK_CFG p then (s.wf (LK_CFG p) LK_CFG_MODE (natBits 0 2 x.2)).wf (LK_CFG p) LK_CFG_SPLIT (natBits 2 2 x.2) else s) s) s

/-- The entries of every CONFIG that still waits. -/
def State.pendingConfig (s : State) : List (Nat × Nat) :=
  s.lock.changes.flatMap (fun b => match b.change with
    | .config l => l
    | _ => [])

/-- Whether some entries break the limits of R343 to R345. -/
def State.portsBad (s : State) (l : List (Nat × Nat)) : Bool :=
  let z := s.trialPorts (s.pendingConfig ++ l)
  (List.range 16).any (fun p => l.any (fun x => x.1 == LK_CFG p) && !z.portCfgOk p (z.rf (LK_CFG p) LK_CFG_MODE) (z.rf (LK_CFG p) LK_CFG_SPLIT))

/-- The tenant register that an address names: partition, and 0 KP_TENANT_k or 1 KP_TENANT_PEER_k. -/
def tenantReg (a : Nat) : Option (Nat × Nat) :=
  (List.range 4).findSome? (fun k => if a = KP_TENANT k then some (k, 0) else if a = KP_TENANT_PEER k then some (k, 1) else none)

/-- The changes of a list: a tenant's registers have a time of their own (R449). -/
def configChanges (l : List (Nat × Nat)) : List Change :=
  let plain := l.filter (fun x => (tenantReg x.1).isNone)
  let tenants := l.filterMap (fun x => (tenantReg x.1).map (fun t => Change.tenant t.1 t.2 x.2))
  (if plain.isEmpty then [] else [.config plain]) ++ tenants

/-- A CONFIG: bound to its epoch, or refused before any entry is applied. -/
def State.ringConfig (s : State) (r : Nat) (d : RingExec) : State :=
  let n := natBits 0 16 (d.word 3)
  if !d.eb || n == 0 || decide (1024 < n) then s.ringComplete r d stBAD_OPCODE
  else if s.epochPast d.target then s.ringComplete r d stBOUNDS_FAULT
  else s.keeperReads (listPieces (d.word 2) n) (fun s =>
    let (st, l, s) := s.configList (d.word 2) n
    if st ≠ stOK then s.ringComplete r d st
    else if s.portsBad l then s.ringComplete r d stBAD_OPCODE
    else ((configChanges l).foldl (fun s c => s.bind d.target c (some (r, d.index))) s).ringStart r d)

/-- CONFIG (R309). -/
def execConfig (ring : Fin 16) (index : Word) (s : State) : Host.Outcome State Fault Refusal :=
  match s.ringBegin ring index.toNat 2 with
  | some d => .next (s.ringConfig ring d)
  | none => .next s

/-! ## COPY (R309, R326, R483) -/

/-- `k` pieces of 64 bytes of a transfer to the range `row`, copied by an engine as a reader bound to an epoch, if it is one. -/
def State.boundPieces (s : State) (e : Nat) (ep : Option Nat) (row : Nat × Nat) (src dst : Nat) : Nat → Nat × State
  | 0 => (stOK, s)
  | k + 1 =>
    let (st, bs, s) := s.dmaRd e (s.boundAddr ep src) 64
    if st ≠ stOK then (st, s)
    else
      let (st, s) := s.dmaWr e 2 dst none row bs
      if st ≠ stOK then (st, s) else s.boundPieces e ep row (src + 64) (dst + 64) k

/-- The check and the move of a COPY by engine `e`: its status. -/
def State.copyMove (s : State) (e : Nat) (d : RingExec) : Nat × State :=
  let src := d.word 2
  let dst := d.word 3
  let n := natBits 0 32 (d.word 4)
  if d.eb && !s.retained d.target then (stBOUNDS_FAULT, s)
  else if src % 64 ≠ 0 ∨ dst % 64 ≠ 0 ∨ n % 64 ≠ 0 then (stALIGN_FAULT, s)
  else if n = 0 then (stOK_EMPTY, s)
  else if !s.dmaRangeOk (s.engineId e) src n false || !s.dmaRangeOk (s.engineId e) dst n true then (stBOUNDS_FAULT, s)
  else s.boundPieces e (if d.eb then some d.target else none) (dst, n) src dst (n / 64)

/-- A COPY that its engine has carried out counts among the engine's completed descriptors (R309, R328). -/
def State.copyCount (s : State) (e st : Nat) : State := if st = stOK ∨ st = stOK_EMPTY then s.bump (DM_DONE_CNT e) 1 else s

/-- The pieces of a COPY's source that another device holds. -/
def State.copyRemote (s : State) (d : RingExec) : List (Nat × Nat) :=
  let n := natBits 0 32 (d.word 4)
  if s.isRemote (d.word 2) && d.word 2 % 64 == 0 && d.word 3 % 64 == 0 && n % 64 == 0 then
    (List.range (n / 64)).map (fun i => (d.word 2 + 64 * i, 64))
  else []

/-- A COPY has been moved, from `s` to `z`: its errors do not bear on the vote, and writes on this device are acknowledged as they are made. -/
def State.copyMoved (s z : State) (e : Nat) (far : List (Nat × Nat)) : State :=
  let z := if far.isEmpty then z else z.remoteForget (s.engineId e) far
  { z with lock := { z.lock with causes := s.lock.causes, lateError := s.lock.lateError } }.setEngine e { z.engine e with unacked := (s.engine e).unacked }

/-- A COPY by engine `e`: a source on another device is read over the links first. -/
def State.copyBy (s : State) (r : Nat) (d : RingExec) (e : Nat) : State :=
  let far := s.copyRemote d
  if !s.allGot (s.engineId e) far then (s.askAll (s.engineId e) 2 (if d.eb then some d.target else none) far).ringSet r { d with engine := some e }
  else
    let x := s.copyMove e d
    let s := s.copyMoved x.2 e far
    if (s.engine e).remote = 0 ∨ x.1 ≠ stOK then (s.copyCount e x.1).ringComplete r d x.1 else s.ringSet r { d with begun := true, engine := some e }

/-- A COPY begins: the runtime chooses the engine. -/
def State.copyBegin (s : State) (r : Nat) (d : RingExec) : State :=
  match d.engine with
  | some e => s.copyBy r d e
  | none => s.draw.2.copyBy r d (2048 + s.draw.1 % 128)

/-- A COPY whose writes to another device have all been answered. -/
def State.copyEnd (s : State) (r : Nat) (d : RingExec) (e : Nat) : State :=
  let g := s.engine e
  if g.remote ≠ 0 then s
  else ((s.setEngine e { g with worst := stOK_EMPTY }).copyCount e (stWorst stOK g.worst)).ringComplete r d (stWorst stOK g.worst)

/-- COPY (R76, R309): it begins, not while a lock runs, or it ends once its writes have been acknowledged. -/
def execCopy (ring : Fin 16) (index : Word) (s : State) : Host.Outcome State Fault Refusal :=
  match s.ringBegin ring index.toNat 4 with
  | some d => .next (if s.lockSt = 3 then s else s.copyBegin ring d)
  | none =>
    match (s.ring ring).find? (fun d => d.index == index.toNat && d.op == 4 && d.begun) with
    | some d => .next (match d.engine with
      | some e => s.copyEnd ring d e
      | none => s)
    | none => .next s

end Sys2Proof.Machine
end

