-- ==== Sys2Proof/Machine/Lock.lean ====
section
/-! DEFINITION. Votes, decisions and locks: what a device votes and when, how managers combine votes, what COMMIT, EMPTY and HOLD do, configuration changes, snapshots that fall due, the risk score and the reports after a lock (R62, R68 to R81, R204, R234 to R237, R266 to R270, R384, R398, R399, R402, R409, R449, R481). -/

namespace Sys2Proof.Machine

/-! ## The first pound (R65, R81) -/

/-- ANCHOR_REACHED (R65, R81): network time reaches T_A on an IDLE device that has a schedule; a RESTORE is complete (R388). -/
def execAnchorReached (s : State) : Host.Outcome State Fault Refusal :=
  if s.sched.isSome ∧ s.lockSt = 0 ∧ s.lock.anchor ≤ s.now ∧ !s.fleet.adrift then
    let s := s.wrWide TM_NEXT_LOCK_0 2 ((s.lock.anchor + s.poundNs) % 2 ^ 64)
    let s := { s with lock := { s.lock with origin := s.lock.anchor } }
    .next ((s.seedPound s.epochW).poundStart.endAllWaits 0x15 stOK)
  else .next s

/-! ## Votes (R70 to R72, R204) -/

/-- The lock machinery works: the Keeper answers, and the device is not adrift (R75, R405). -/
def State.lockLive (s : State) : Bool := !s.fleet.adrift && !s.boot.keeperDown

/-- The instant L − V has come. -/
def State.pastCut (s : State) : Bool := decide (s.nextLock ≤ s.now + s.voteLead)

/-- The pound began before the vote cut-off (R76). -/
def State.mayVote (s : State) : Bool := decide (s.lock.poundStart + s.voteLead ≤ s.nextLock)

/-- The own vote for the coming lock. -/
def State.ownVote (s : State) : Nat := s.rf TM_LOCK_STATUS TM_LOCK_STATUS_VOTE

/-- Retention K (R82). -/
def State.retainK (s : State) : Nat := max 1 (s.rf TM_SCHED_0 TM_SCHED_0_RETAIN)

/-- An engine with nothing queued and nothing unacknowledged. -/
def engineIdle (e : Nat × Engine) : Bool := e.2.chains.isEmpty && e.2.unacked == 0 && e.2.remote == 0

/-- Every armed claim counter has DONE equal to LIMIT. -/
def State.claimsDone (s : State) : Bool :=
  allCounters.all (fun x => let n := s.claimLimit x.1 x.2.1 x.2.2
    n == 0 || s.rf (claimReg x.1 x.2.1 x.2.2 1) KP_CLAIM_PROGRESS_DONE == n)

/-- A snapshot transfer that still reads the slot which this lock would make the working slot (R399). -/
def State.slotBusy (s : State) : Bool :=
  s.fleet.snaps.any (fun x => match x.running with
    | some (_, slot) => slot == (s.lock.rot + 1) % (s.retainK + 1)
    | none => false)

/-- Time loss bars a fleet device from READY (R62). -/
def State.timeLost (s : State) : Bool := s.inFleet && s.rb TM_SRC_STATUS TM_SRC_STATUS_TIME_LOST

/-- Nothing bars a commit (R204, R235, R399). -/
def State.readyNow (s : State) : Bool :=
  s.runCores.all (fun c => s.tstate c != 1 && s.tstate c != 3) && s.claimsDone && s.engines.all engineIdle
  && s.sends.isEmpty && s.train.samples.isEmpty && !s.lock.ovr && !s.timeLost && s.lock.causes == 0 && !s.lock.lateError && !s.slotBusy

/-- The device's pending sluice mask (R233). -/
def State.pendMask (s : State) : BitVec 256 := BitVec.ofNat 256 (s.rdWide (KP_SLUICE_PEND 0) 8)

/-- The members whose votes a manager waits for. -/
def State.voters (s : State) : List Member := s.fleet.members.filter (fun m => !m.released)

/-- The vote that has arrived from a device. -/
def State.voteOf (s : State) (dev : Nat) : Option VoteRec := s.lock.votes.find? (fun v => v.dev == dev)

/-- VOTE codes of TM_LOCK_STATUS (R92). -/
def voteCode : Vote → Nat
  | .ready => 1
  | .notReady => 2
  | .veto => 3

/-- A member's vote, as a code; a missing one is 0. -/
def State.memberVote (s : State) (m : Member) : Nat := ((s.voteOf m.dev).map (fun v => voteCode v.vote)).getD 0

/-- The combined vote: VETO or READY as soon as it is known, NOT_READY at the cut-off (R72). -/
def State.combined (s : State) (final : Bool) : Nat :=
  let votes := s.ownVote :: s.voters.map (fun m => s.memberVote m)
  if votes.contains 3 then 3 else if votes.all (fun v => v == 1) then 1 else if final then 2 else 0

/-- The union of the causes of every VETO (R266). -/
def State.causeUnion (s : State) : Nat :=
  s.lock.votes.foldl (fun r v => if v.vote == Vote.veto then r ||| v.causes else r) (if s.ownVote = 3 then s.lock.causes else 0)

/-- The union of the pending masks, and of the overcommit bits (R234). -/
def State.layerUnion (s : State) : BitVec 256 := s.lock.votes.foldl (fun r v => r ||| v.layers) s.pendMask
def State.anyOver (s : State) : Bool := s.lock.ovr || s.lock.votes.any (fun v => v.ovr)

/-- The words of a vote: its lock, the vote with its overcommit bit and causes, and the pending mask. -/
def State.voteWords (s : State) (v : Nat) (layers : BitVec 256) (ovr : Bool) (causes : Nat) : List Nat :=
  [s.nextLock, v + ovr.toNat * 4 + causes % 64 * 8] ++ (List.range 4).map (fun i => natBits (64 * i) 64 layers.toNat)

/-- A vote leaves for the manager. -/
def State.sendVoteUp (s : State) (v : Nat) (layers : BitVec 256) (ovr : Bool) (causes : Nat) : State :=
  s.send s.manager 0 txVote (s.voteWords v layers ovr causes)

/-- A lower manager passes its combined vote up as soon as it is known, and a VETO again when it has joined more causes, pending masks or
overcommit bits (R234, R266, R384). -/
def State.passUp (s : State) (final : Bool) : State :=
  let v := s.combined final
  let ws := s.voteWords v s.layerUnion s.anyOver (if v = 3 then s.causeUnion else 0)
  if s.role ≠ 2 ∨ v = 0 ∨ ws = s.lock.passed ∨ (s.lock.passed ≠ [] ∧ v ≠ 3) then s
  else { (s.send s.manager 0 txVote ws) with lock := { (s.send s.manager 0 txVote ws).lock with passed := ws } }

/-- The device's own vote is sent (R70, R81). -/
def State.castVote (s : State) (v : Nat) : State :=
  let s := (s.setVote v).setLockSt 2
  if s.role = 1 then s.sendVoteUp v s.pendMask s.lock.ovr (if v = 3 then s.lock.causes else 0) else s.passUp false

/-- Whether a vote may be sent now, before the cut-off. -/
def State.voteOpen (s : State) : Bool := s.lockLive && s.inPound && !s.lock.cut && !s.pastCut && !s.fleet.replaying

/-- VOTE_READY (R70, R204). -/
def execVoteReady (s : State) : Host.Outcome State Fault Refusal :=
  .next (if s.voteOpen && s.ownVote == 0 && s.readyNow then s.castVote 1 else s)

/-- VOTE_VETO (R70, R71). -/
def execVoteVeto (s : State) : Host.Outcome State Fault Refusal :=
  .next (if s.voteOpen && s.ownVote != 3 && s.lock.causes != 0 then s.castVote 3 else s)

/-! ## The cut-off (R72, R402) -/

/-- Every direct worker's missing and NOT_READY votes are counted; one that reaches FAIL_HOLDS has failed. -/
def State.countMissed (s : State) : State :=
  let limit := s.rf KP_FLEET_CFG KP_FLEET_CFG_FAIL_HOLDS
  let ms := s.fleet.members.map (fun m =>
    let v := s.memberVote m
    { m with missed := if m.released then m.missed else if v = 0 ∨ v = 2 then m.missed + 1 else 0 })
  let s := { s with fleet := { s.fleet with members := ms } }
  if limit = 0 then s
  else (ms.filter (fun m => m.missed == limit)).foldl (fun s m => s.declareFailed m.dev) s

/-- The words of a decision on its way down. -/
def decisionWords (d : Decision) : List Nat :=
  let o := match d.outcome with
    | .commit => 0
    | .empty => 1
    | .hold => 2
  [d.lock, o + d.causes.toNat * 4 + d.wideRerun.toNat * 2 ^ 10 + d.repair.toNat * 2 ^ 11 + d.rerun.toNat * 2 ^ 12
    + (d.idChange.elim 0 (fun c => 2 ^ 13 + c.1.toNat * 2 ^ 16 + c.2.toNat * 2 ^ 32))]
  ++ (List.range 4).map (fun i => natBits (64 * i) 64 d.layers.toNat)

/-- A decision leaves for every device governed. -/
def State.sendDown (s : State) (d : Decision) : State := s.voters.foldl (fun s m => s.send m.dev 0 txDecision (decisionWords d)) s

/-- The decision of a top manager or of a stand-alone device (R72, R234, R402). -/
def State.lockDecision (s : State) : Decision :=
  let v := s.combined true
  let hold := v == 2
  let id := if hold then s.fleet.repairNext else none
  { lock := s.nextLock, outcome := if v = 3 then .empty else if hold then .hold else .commit, layers := s.layerUnion,
    causes := BitVec.ofNat 6 (if v = 3 then s.causeUnion else 0), wideRerun := hold && s.anyOver, repair := id.isSome,
    rerun := hold && s.fleet.rerunNext, idChange := id.map (fun c => (BitVec.ofNat 14 c.1, BitVec.ofNat 14 c.2)) }

/-- The decision stands, and is sent down; a manager whose lease has expired decides nothing (R410). -/
def State.takeDecision (s : State) : State :=
  if (s.role ≠ 0 ∧ s.role ≠ 3) ∨ s.rf KP_FLEET_STBY KP_FLEET_STBY_LEASE = 2 ∨ s.lock.decision.isSome then s
  else
    let d := s.lockDecision
    let s := { s with
      lock := { s.lock with decision := some d }
      fleet := { s.fleet with repairNext := if d.repair then none else s.fleet.repairNext, rerunNext := s.fleet.rerunNext && !d.rerun } }
    if s.role = 3 then s.sendDown d else s

/-- The vote that the cut-off finds due: VETO where a cause stands and it has not been sent, else NOT_READY where none has (R70, R71, R75). -/
def State.cutVote (s : State) : State :=
  if !s.mayVote || s.fleet.replaying then s
  else if s.lock.causes ≠ 0 then (if s.ownVote = 3 then s else s.castVote 3)
  else if s.ownVote = 0 then s.castVote 2
  else s

/-- VOTE_CUTOFF (R70, R72, R76): a device whose pound began after the cut-off sends no vote. -/
def execVoteCutoff (s : State) : Host.Outcome State Fault Refusal :=
  if !s.lockLive || !s.inPound || s.lock.cut || !s.pastCut then .next s
  else
    let s := s.cutVote
    let s := { s with lock := { s.lock with cut := true, cutCauses := s.lock.causes } }
    let s := s.passUp true
    let s := if s.role = 2 ∨ s.role = 3 then s.countMissed else s
    .next s.takeDecision

/-- VOTE (R70, R72): a worker's vote for the coming lock; only a change to VETO replaces one that has arrived, and a VETO that a lower
manager passes again adds to its own (R384). -/
def execVote (worker : BitVec 14) (lock : Nat) (v : Vote) (layers : BitVec 256) (overcommit : Bool) (causes : BitVec 6) (s : State) :
    Host.Outcome State Fault Refusal :=
  let dev := worker.toNat
  let rec_ : VoteRec := ⟨dev, v, layers, overcommit, causes.toNat⟩
  if !s.lockLive || !s.inPound || s.lock.cut || (s.role != 2 && s.role != 3) || lock != s.nextLock || !s.voters.any (fun m => m.dev == dev) then .next s
  else
    let s := match s.voteOf dev with
      | none => { s with lock := { s.lock with votes := s.lock.votes ++ [rec_] } }
      | some old =>
        if v == Vote.veto then
          let new : VoteRec := if old.vote = Vote.veto then ⟨dev, v, old.layers ||| layers, old.ovr || overcommit, old.causes ||| causes.toNat⟩ else rec_
          { s with lock := { s.lock with votes := s.lock.votes.map (fun (x : VoteRec) => if x.dev = dev then new else x) } }
        else s
    .next ((s.passUp false).endWaits 0x18 dev stOK)

/-! ## A lock starts (R74 to R76, R267) -/

/-- A tiller that has not reached its fence stops at an EMPTY lock: what has not started is discarded (R267). -/
def State.stopEngine (s : State) (e : Nat) : State :=
  if s.rf (DM_STATUS e) DM_STATUS_STATE = 2 then s.dmaAbortAll e
  else
    let g := s.engine e
    if g.chains.isEmpty then s
    else
      let started := g.desc.isSome || g.index != 0
      let s := s.setEngine e { g with chains := if started then g.chains.take 1 else [] }
      if started then s else s.wf (DM_STATUS e) DM_STATUS_STATE 0

def State.stopCore (s : State) (c : Nat) : State :=
  let s := (s.stopEngine (2 * c)).stopEngine (2 * c + 1)
  let kept := ((s.engine (2 * c)).chains ++ (s.engine (2 * c + 1)).chains).filterMap (fun k => k.entry)
  let s := s.modCore c (fun k => { k with queue := k.queue.filter (fun e => e.started || e.q == 7 || kept.contains e.seq), stall := .none })
  ((s.syncQueues c).wf (CO_TSTATUS c) CO_TSTATUS_STATE 0).wf (CO_TSTATUS c) CO_TSTATUS_TOKENS 0

/-- The tillers that an EMPTY lock stops. -/
def State.stopCores (s : State) : State :=
  let s := s.runCores.foldl (fun s c => if s.tstate c = 1 ∨ s.tstate c = 3 then s.stopCore c else s) s
  s.engines.foldl (fun s x => if s.rf (DM_STATUS x.1) DM_STATUS_STATE = 2 then s.dmaAbortAll x.1 else s) s

/-- A manager with a standby sends LEASE at each lock instant `l` (R409). -/
def State.sendLease (s : State) (l : Nat) : State :=
  if (s.role = 2 ∨ s.role = 3) ∧ s.rf KP_FLEET_STBY KP_FLEET_STBY_STBY_ID ≠ 0 ∧ s.rf KP_FLEET_STBY KP_FLEET_STBY_LEASE < 2 then
    s.send (s.rf KP_FLEET_STBY KP_FLEET_STBY_STBY_ID) 0 txLease [l, s.epoch, s.rf TM_SCHED_0 TM_SCHED_0_POUND_US]
  else s

/-- TIME_LOST is posted at each lock (R62). -/
def State.noteTimeLost (s : State) : State := if s.timeLost then s.post 0x12 stOK s.tmSrc (s.rf TM_SRC_STATUS TM_SRC_STATUS_ERR_BOUND) else s

/-- A COMMIT or EMPTY lock starts at an instant: the window opens and the drain begins. -/
def State.startLock (s : State) (d : Decision) (at_ : Nat) : State :=
  if s.lock.lateError then s.outOfStep
  else
    let s := { s with lock := { s.lock with start := some at_, window := true, committed := false } }
    let s := (s.sendLease s.nextLock).setLockSt 3
    if d.outcome = .empty then s.stopCores else s

/-- LOCK_INSTANT (R74, R76): without a decision the lock does not start, and the window is open. -/
def execLockInstant (s : State) : Host.Outcome State Fault Refusal :=
  if !s.lockLive || !s.inPound || s.lock.start.isSome || !decide (s.nextLock ≤ s.now) then .next s
  else match s.lock.decision with
    | none => .next { s with lock := { s.lock with window := true } }
    | some d => if d.outcome = .hold then .next s else .next (s.startLock d s.nextLock)

/-- DECISION (R74): held until L, applied at once when late, sent on by a lower manager, or discarded. -/
def execDecision (d : Decision) (s : State) : Host.Outcome State Fault Refusal :=
  if !s.lockLive || !s.inPound || (s.role != 1 && s.role != 2) || d.lock != s.nextLock || s.lock.decision.isSome
      || !decide (s.now < s.nextLock + 20000) then .next s
  else
    let s := { s with lock := { s.lock with decision := some d } }
    let s := if s.role = 2 ∧ s.rf KP_FLEET_STBY KP_FLEET_STBY_LEASE ≠ 2 then s.sendDown d else s
    if s.now < s.nextLock ∨ d.outcome = .hold then .next s else .next (s.startLock d s.now)

/-- NO_DECISION_TIMEOUT (R74). -/
def execNoDecisionTimeout (s : State) : Host.Outcome State Fault Refusal :=
  if s.lockLive && s.inPound && s.lock.decision.isNone && decide (s.nextLock + 20000 ≤ s.now) then .next s.outOfStep else .next s

/-! ## Reports (R389, R481) -/

/-- The rises of EV_CNT since the last REPORT after a lock. -/
def State.eventRises (s : State) : List Nat := (List.range 64).map (fun c => s.rd (EV_CNT c) - spGet 0 s.lock.reported c)

/-- REPORT after a lock: its outcome, the epoch, the risk score, the rises of EV_CNT, and the loss record of a COMMIT (R404). -/
def State.lockReport (s : State) (outcome : Nat) (losses : List Dword) : State :=
  if s.role ≠ 1 ∧ s.role ≠ 2 then s
  else
    let s := s.send s.manager 3 txReport ([outcome, s.epoch, s.rf KP_RISK KP_RISK_SCORE] ++ s.eventRises ++ losses.map (fun x => x.toNat))
    { s with lock := { s.lock with reported := (List.range 64).filterMap (fun c => let n := s.rd (EV_CNT c); if n = 0 then none else some (c, n)) } }

/-! ## A held lock (R66, R78, R79, R236, R402) -/

/-- The pound is executed again from the lock instant `l`. -/
def State.rerun (s : State) (l : Nat) : State :=
  let s := s.dropWorking
  ({ s with fleet := { s.fleet with replaying := false }, lock := { s.lock with origin := l, extended := false } }).startCores true

/-- The effects of a HOLD at the lock instant `l`. -/
def State.holdLock (s : State) (d : Decision) (l : Nat) : State :=
  let was := s.rf TM_LOCK_STATUS TM_LOCK_STATUS_HOLDS
  let s := (s.wf TM_LOCK_STATUS TM_LOCK_STATUS_LAST 2).bumpF TM_LOCK_STATUS TM_LOCK_STATUS_HOLDS 1
  let s := s.wf KP_TRAIN_LAST KP_TRAIN_LAST_OUTCOME 2
  let holds := s.rf TM_LOCK_STATUS TM_LOCK_STATUS_HOLDS
  let limit := s.rf TM_LOCK_CTRL TM_LOCK_CTRL_HOLD_LIMIT
  let s := s.postSev 0x13 (if was < limit ∧ holds = limit then 2 else 1) stLOCK_HELD s.tmSrc holds
  let s := ((s.wrWide TM_NEXT_LOCK_0 2 ((l + s.poundNs) % 2 ^ 64)).setLockSt 1).setVote 0
  let k := s.lock
  let s := { s with lock := { k with
      causes := if k.lateError then k.causes ||| 2 else k.causes, lateError := false, votes := [], cut := false, cutCauses := 0, passed := [],
      decision := none, ovr := false, extended := true } }
  let s := if d.wideRerun then (s.wb KP_SLUICE_CTRL KP_SLUICE_CTRL_ALL_WIDE true).rerun l else if d.rerun then s.rerun l else s
  let s := if d.repair then
      { s with fleet := { s.fleet with repairAt := some (l + 8000, d.idChange.map (fun c => (c.1.toNat, c.2.toNat))) } } else s
  ((s.sendLease l).noteTimeLost).lockReport 2 []

/-- LOCK_HOLD (R78): at L with HOLD decided, or when the late decision of R74 is HOLD. -/
def execLockHold (s : State) : Host.Outcome State Fault Refusal :=
  if !s.lockLive || !s.inPound || s.lock.start.isSome || !decide (s.nextLock ≤ s.now) then .next s
  else match s.lock.decision with
    | some d => if d.outcome = .hold then .next (s.holdLock d s.nextLock).runDeferred else .next s
    | none => .next s

/-! ## The commit step (R76, R78, R217, R234) -/

/-- A codeword of a sub-port has been sent again and is not acknowledged (R373). -/
def Sub.retries (k : Sub) : Bool := k.resend.isSome || k.replay.any (fun x => x.resent != 0)

/-- The drain has completed: queues, engines and writes of the pound, and no retry is in progress on a link (R76, R373). -/
def State.drained (s : State) : Bool :=
  s.subs.all (fun x => !x.2.retries) && s.runCores.all (fun c => let k := s.core c; k.queue.isEmpty && k.unacked == 0 && k.unackedRemote == 0)
  && s.engines.all (fun e => e.2.unacked == 0 && e.2.remote == 0 && (e.2.chains.isEmpty || (e.2.desc.isNone && e.2.index == 0)
      || s.rf (DM_STATUS e.1) DM_STATUS_STATE == 2))

/-- The sluice set and its LEFT counts with a union applied (R234). -/
def State.sluiceSet (s : State) (union : BitVec 256) : State :=
  let n := s.rf KP_SLUICE_CTRL KP_SLUICE_CTRL_SLUICE_POUNDS
  (List.range 256).foldl (fun s l =>
    let left := s.rf (KP_SLUICE_LEFT l) KP_SLUICE_LEFT_LEFT
    let s := if s.maskBit (KP_SLUICE_SET 0) l ∧ left ≠ 0xFFFF then
        (s.wf (KP_SLUICE_LEFT l) KP_SLUICE_LEFT_LEFT (left - 1)).setMaskBit (KP_SLUICE_SET 0) l (left != 1)
      else s
    if union.getLsbD l then
      (s.setMaskBit (KP_SLUICE_SET 0) l true).wf (KP_SLUICE_LEFT l) KP_SLUICE_LEFT_LEFT (if n = 0 then 0xFFFF else n)
    else s) s

/-- The mirrors of the sluice set in the cores, and their failure masks cleared. -/
def State.mirrorSluice (s : State) : State :=
  let set := (List.range 8).map (fun i => s.rd (KP_SLUICE_SET 0 + 4 * i))
  (List.range 1024).foldl (fun s c =>
    (List.range 8).foldl (fun s i =>
      let s := if s.rd (CO_SLUICE c 0 + 4 * i) = set.getD i 0 then s else s.wr (CO_SLUICE c 0 + 4 * i) (set.getD i 0)
      if s.rd (CO_SND_FAIL c 0 + 4 * i) = 0 then s else s.wr (CO_SND_FAIL c 0 + 4 * i) 0) s) s

/-- The sluice update of a COMMIT or EMPTY lock. -/
def State.sluiceLock (s : State) (union : BitVec 256) : State :=
  let s := s.sluiceSet union
  let s := (s.wrWide (KP_SLUICE_PEND 0) 8 0).mirrorSluice
  let s := (s.wb KP_SLUICE_CTRL KP_SLUICE_CTRL_OVER false).wb KP_SLUICE_CTRL KP_SLUICE_CTRL_ALL_WIDE
    (s.overCore (s.maskLayers (KP_SLUICE_SET 0))).isSome
  s.syncDemand

/-- Trackers and statistics slots of the schedule's cores at a lock. -/
def State.trackersLock (s : State) (commit : Bool) : State :=
  let cs := (s.sched.map (fun im => im.programs.map (fun p => p.core.val))).getD []
  (cs.filter (fun c => s.present c)).foldl (fun s c => (List.range 64).foldl (fun s t =>
    ((if commit then s.foldTracker c t else s).clearTracker c t).clearSlot c t) s) s

/-- PEPOCH of the groups in use (R397). -/
def State.parityEpoch (s : State) (e : Nat) : State :=
  (List.range 4).foldl (fun s g => if s.rb (KP_GRP_CFG g) KP_GRP_CFG_VALID then s.wrWide (KP_GRP_PEPOCH_0 g) 2 e else s) s

/-- Slots flip at a COMMIT; at an EMPTY lock the new epoch has the slot of the one before. -/
def State.flip (s : State) (commit : Bool) (e : Nat) : State :=
  let k := s.lock
  if commit then
    let s := { s with lock := { k with history := (e, k.rot % (s.retainK + 1)) :: k.history, rot := k.rot + 1, image := k.imageWork } }
    (s.parityEpoch e).trainCommit
  else { s with lock := { k with history := (e, (k.history.headD (0, 0)).2) :: k.history } }

/-! ### Configuration (R77, R299, R305, R310, R366, R387, R393, R394, R441, R449) -/

/-- Configuration of trackers and sounding, which an admitted schedule alone loads (R221, R240, R242). -/
def trackedConfig (a : Nat) : Bool :=
  match target a with
  | .reg (.co _) o => decide (0x2000 ≤ o ∧ o < 0x2C00)
  | _ => false

/-- A register that a CONFIG entry names takes its value, as if the Keeper wrote it; a field that is loaded from the schedule
changes too, but for trackers and sounding. -/
def State.configWrite (s : State) (a v : Nat) : State :=
  if trackedConfig a then s
  else if a = TM_SCHED_0 then s.wr a (v % 2 ^ 27)
  else if a = TM_SCHED_1 then s.wr a v
  else if loadable a then (s.loadWord a v).syncDemand
  else match target a with
    | .reg (.hm n) o => if 0x100 ≤ o ∧ o < 0x140 then (if kregBad v then s.regEvent (s.self 0xD00) a else s).putKreg ((o - 0x100) / 4) v else s.regWrite (s.self 0xD00) (.hm n) o v
    | .reg (.lk p) 0 =>
      let s := s.wf (LK_CFG p) LK_CFG_LR_EN (natBits 4 1 v)
      if s.rf (LK_CFG p) LK_CFG_MODE = natBits 0 2 v ∧ s.rf (LK_CFG p) LK_CFG_SPLIT = natBits 2 2 v then s
      else s.beginReconfigure p (natBits 0 2 v) (natBits 2 2 v)
    | .reg b o => if (b.fields o).isEmpty then s else s.regWrite (s.self 0xD00) b o v
    | _ => s

/-- The words of a shard group's registers (R412). -/
def State.loadGroup (s : State) (g : Nat) (ws : List Nat) : State :=
  let s := (s.wr (KP_GRP_CFG g) (ws.getD 0 0 % 2 ^ 16)).wr (KP_GRP_PAR g) (ws.getD 1 0 % 2 ^ 18)
  let s := s.wr (KP_GRP_UNITS g) (ws.getD 2 0 % 2 ^ 24)
  (List.range 16).foldl (fun s j => s.wr (KP_GRP_MEMBER g j) (ws.getD (3 + j) 0 % 2 ^ 14)) s

/-- The route banks switch (R387). -/
def State.switchBank (s : State) : State := s.wb KP_ROUTE KP_ROUTE_BANK (!s.rb KP_ROUTE KP_ROUTE_BANK)

/-- A change takes effect in the lock that sets the epoch to `e`. -/
def State.applyChange (s : State) (e : Nat) (c : Change) : State :=
  match c with
  | .config l => l.foldl (fun s x => s.configWrite x.1 x.2) s
  | .schedule im => (s.changeSched e im).seedPound (e + 1)
  | .routes => s.switchBank
  | .rekey p => s.modSub (p / 8) (p % 8) (fun k => { k with switchDue := true })
  | .kreg _ i v => s.putKreg i v
  | .key slot => s.rekeySlot slot
  | .tenant k reg v => s.tenantChange k reg v
  | .image =>
    let s := s.measHeader (1 - s.slot) 3
    { s with fuses := { s.fuses with selector := 1 - s.slot } }
  | .group g ws => s.loadGroup g ws
  | .fleet i v => s.setFleetWord i v
  | .release dev => s.releaseMember dev
  | .castEnd => s.endCast

/-- A change that this lock applies: bound to its epoch or an earlier one; a tenant's waits for its domain to be OFF. -/
def State.changeDue (s : State) (e : Nat) (b : Bound) : Bool :=
  match b.change with
  | .tenant k _ _ => decide (b.epoch ≤ e) && s.rf (PW_DOM k) PW_DOM_STATE == 0
  | _ => decide (b.epoch ≤ e)

/-- A ring's descriptor whose last change has been applied completes. -/
def State.finishRefs (s : State) (refs : List (Nat × Nat)) : State :=
  refs.foldl (fun s r =>
    if s.lock.changes.any (fun b => b.ref == some r) then s
    else match (s.ring r.1).find? (fun d => d.index == r.2) with
      | some d => s.ringComplete r.1 d stOK
      | none => s) s

/-- The configuration step. -/
def State.configStep (s : State) (e : Nat) : State :=
  let due := s.lock.changes.filter (fun b => s.changeDue e b)
  let s := { s with lock := { s.lock with changes := s.lock.changes.filter (fun b => !s.changeDue e b) } }
  let s := due.foldl (fun s b => s.applyChange e b.change) s
  s.finishRefs (due.filterMap (fun b => b.ref)).eraseDups

/-! ### Snapshots and the risk score (R398, R399) -/

/-- PEER_DUE, EXT_DUE and DEFERRED follow the targets. -/
def State.syncSnaps (s : State) : State :=
  let due := fun i : Nat => (s.fleet.snaps.getD i Snap.initial).due
  let s := (s.wb KP_SNAP_STATUS KP_SNAP_STATUS_PEER_DUE (due 0)).wb KP_SNAP_STATUS KP_SNAP_STATUS_EXT_DUE (due 1)
  s.wb KP_SNAP_STATUS KP_SNAP_STATUS_DEFERRED (s.fleet.snaps.any (fun x => x.due && x.running.isSome))

/-- A snapshot becomes due for a target. -/
def State.snapDue (s : State) (i : Nat) : State :=
  let x := s.fleet.snaps.getD i Snap.initial
  ({ s with fleet := { s.fleet with snaps := s.fleet.snaps.set i { x with due := true } } }).syncSnaps

/-- The snapshot step for one target: recorded, unless a transfer to it still runs. -/
def State.recordSnap (s : State) (e i : Nat) : State :=
  let x := s.fleet.snaps.getD i Snap.initial
  if !x.due || x.running.isSome then s.syncSnaps
  else
    let slot := (s.lock.history.headD (0, 0)).2
    let every := s.rf KP_SNAP_EVERY KP_SNAP_EVERY_COMMITS
    let s := { s with fleet := { s.fleet with
        snaps := s.fleet.snaps.set i { x with due := false, running := some (e, slot), image := some (s.takeSnap e slot), refs := [], runRefs := x.refs }
        commits := if i = 1 ∧ every ≤ s.fleet.commits then 0 else s.fleet.commits } }
    (s.wf KP_SNAP_STATUS KP_SNAP_STATUS_STATE 1).syncSnaps

/-- The snapshot step. -/
def State.snapStep (s : State) (commit : Bool) (e : Nat) : State :=
  let s := if commit then { s with fleet := { s.fleet with commits := s.fleet.commits + 1 } } else s
  let every := s.rf KP_SNAP_EVERY KP_SNAP_EVERY_COMMITS
  let s := if every ≠ 0 ∧ every ≤ s.fleet.commits then s.snapDue 1 else s
  (s.recordSnap e 0).recordSnap e 1

/-- The score of the inputs of the last 60 s. -/
def State.riskScore (s : State) : Nat :=
  let last := s.fleet.risk.filter (fun x => decide (s.now < x.1 + 60000000000))
  let count := fun k : Nat => (last.filter (fun x => x.2.1 == k)).length
  let hot := last.foldl (fun m x => if x.2.1 = 3 then max m x.2.2 else m) (s.rf PW_TEMP PW_TEMP_JMAX)
  let w := fun f : Fld => s.rf KP_RISK_W f
  min 255 (w KP_RISK_W_W_T * (hot - 85) + w KP_RISK_W_W_CE * Nat.log2 (1 + count 0) + w KP_RISK_W_W_LR * min 15 (count 1)
    + w KP_RISK_W_W_SUP * min 15 (count 2))

/-- The health step: a score that rises to a threshold makes a snapshot due at the next lock. -/
def State.healthStep (s : State) : State :=
  let old := s.rf KP_RISK KP_RISK_SCORE
  let new := s.riskScore
  let s := { s with fleet := { s.fleet with risk := s.fleet.risk.filter (fun x => decide (s.now < x.1 + 60000000000)) } }
  let s := s.wf KP_RISK KP_RISK_SCORE new
  let rose := fun t : Nat => t != 0 && decide (old < t) && decide (t ≤ new)
  let s := if rose (s.rf KP_RISK KP_RISK_THR_PEER) then s.snapDue 0 else s
  if rose (s.rf KP_RISK KP_RISK_THR_EXT) then s.snapDue 1 else s

/-- What a COMMIT or EMPTY lock carries out between its drain and its end. -/
def State.lockSteps (s : State) (d : Decision) : State :=
  let commit := d.outcome == .commit
  let e := s.epoch + 1
  let s := (s.trackersLock commit).sluiceLock d.layers
  let s := (s.flip commit e).seedPound (e + 1)
  let s := if commit then s else s.trainEmpty d.causes.toNat
  let s := (s.wf TM_LOCK_STATUS TM_LOCK_STATUS_LAST (if commit then 0 else 1)).wf TM_LOCK_STATUS TM_LOCK_STATUS_HOLDS 0
  let s := ((s.configStep e).snapStep commit e).healthStep
  { s with lock := { s.lock with committed := true } }

/-- LOCK_COMMIT_STEP (R76): the drain has completed. An uncorrectable error that the drain met bars the device (R75). -/
def execLockCommitStep (s : State) : Host.Outcome State Fault Refusal :=
  match s.lock.decision with
  | some d =>
    if !s.lockLive || s.lockSt != 3 || s.lock.committed || !s.drained then .next s
    else if s.lock.lateError then .next s.outOfStep
    else .next (s.lockSteps d)
  | none => .next s

/-! ## The end of a lock (R65, R76, R80) -/

/-- The lock that started at `t` ends: the epoch is published, the next pound starts, deferred requests are carried out. -/
def State.endLock (s : State) (d : Decision) (t : Nat) : State :=
  let l := s.nextLock
  let alert := s.lock.emptied
  let losses := s.fleet.losses
  let s := s.wrWide TM_EPOCH_0 2 (s.epoch + 1)
  let s := s.wrWide TM_NEXT_LOCK_0 2 ((l + 20000 + s.poundNs) % 2 ^ 64)
  let s := { s with lock := { s.lock with history := s.lock.history.take s.retainK, past := s.lock.past.filter (fun p => decide (s.epoch < p.epoch + p.keep)), origin := t + 20000 } }
  let s := s.poundStart.runDeferred
  let commit := d.outcome == .commit
  let s := s.noteTimeLost.lockReport (if commit then 0 else 1) (if commit && s.rf KP_FLEET_ID KP_FLEET_ID_DUTY == 0 then losses else [])
  s.emptyAct alert

/-- LOCK_END (R76): 20 µs after the lock started. -/
def execLockEnd (s : State) : Host.Outcome State Fault Refusal :=
  match s.lock.decision, s.lock.start with
  | some d, some t =>
    if s.lockLive && s.lockSt == 3 && s.lock.committed && decide (t + 20000 ≤ s.now) then .next (s.endLock d t) else .next s
  | _, _ => .next s

end Sys2Proof.Machine
end

