-- ==== Sys2Proof/Machine/Broadcast.lean ====
section
/-! DEFINITION. Firmware broadcast: the RS(80,64) code, chunks, MISSING, verification and activation (R390 to R393). -/

namespace Sys2Proof.Machine

/-! ## GF(2^8) and the code (R390) -/

/-- A product by α. -/
def gfDouble (a : Nat) : Nat := if 128 ≤ a then (2 * a) ^^^ 0x11D else 2 * a

/-- A product in GF(2^8): `n` bits of `b`. -/
def gfMulBits (a b : Nat) : Nat → Nat
  | 0 => 0
  | n + 1 => (if b % 2 = 1 then a else 0) ^^^ gfMulBits (gfDouble a) (b / 2) n

def gfMul (a b : Nat) : Nat := gfMulBits a b 8

/-- α to the power `n`. -/
def gfExp : Nat → Nat
  | 0 => 1
  | n + 1 => gfDouble (gfExp n)

/-- The inverse of an element other than 0: its power 254. -/
def gfInv (a : Nat) : Nat := (List.range 7).foldl (fun (x : Nat × Nat) _ => let q := gfMul x.2 x.2; (gfMul x.1 q, q)) (1, a) |>.1

/-- A polynomial, highest degree first, times (x − r). -/
def polyByRoot (p : List Nat) (r : Nat) : List Nat := List.zipWith (· ^^^ ·) (p ++ [0]) (0 :: p.map (fun c => gfMul c r))

/-- The generator, highest degree first. -/
def rsGen : List Nat := (List.range 16).foldl (fun p i => polyByRoot p (gfExp i)) [1]

/-- The 16 parity symbols of 64 data symbols, the first of highest degree. -/
def rsParity (data : List Nat) : List Nat :=
  data.foldl (fun r d =>
    let f := d ^^^ r.headD 0
    List.zipWith (fun a g => a ^^^ gfMul f g) (r.drop 1 ++ [0]) (rsGen.drop 1)) (List.replicate 16 0)

/-- A polynomial, lowest degree first, at a point. -/
def polyAt (p : List Nat) (x : Nat) : Nat := p.reverse.foldl (fun r c => gfMul r x ^^^ c) 0

/-- Syndrome `k` of a word of 80 symbols. -/
def rsSyndrome (w : List Nat) (k : Nat) : Nat := w.foldl (fun r c => gfMul r (gfExp k) ^^^ c) 0

/-- The symbols at the places of `gone`, from the word with zeros there: at most 16 of them. -/
def rsErased (w : List Nat) (gone : List Nat) : List (Nat × Nat) :=
  let xs := gone.map (fun i => (i, gfExp (79 - i)))
  let lam := xs.foldl (fun p x => List.zipWith (· ^^^ ·) (p ++ [0]) (0 :: p.map (fun c => gfMul c x.2))) [1]
  let syn := (List.range 16).map (fun k => rsSyndrome w k)
  let om := (List.range 16).map (fun n => (List.range (n + 1)).foldl (fun r i => r ^^^ gfMul (syn.getD i 0) (lam.getD (n - i) 0)) 0)
  xs.map (fun x =>
    let v := gfInv x.2
    let d := xs.foldl (fun r y => if y.1 = x.1 then r else gfMul r (1 ^^^ gfMul y.2 v)) 1
    (x.1, gfMul (polyAt om v) (gfInv d)))

/-! ## Chunks (R390, R391) -/

/-- The chunk `i` of a block of an image in memory: data, padded with zeros, or parity. What another device's memory holds
(a global address) is unstated. -/
def State.srcChunk (s : State) (base len block i : Nat) : List Byte :=
  let data := fun j : Nat =>
    let o := (64 * block + j) * 4096
    let own := if 2 ^ 48 ≤ base then toBytes (min 4096 (len - o)) (Config.unstated 0x122 base o) else s.bytes (base + o) (min 4096 (len - o))
    (own ++ List.replicate 4096 0#8).take 4096
  if i < 64 then data i
  else
    let l := (List.range 64).map data
    (List.range 4096).map (fun b => BitVec.ofNat 8 ((rsParity (l.map (fun c => (c.getD b 0#8).toNat))).getD (i - 64) 0))

/-- The place of a chunk in a receiver's staging area. -/
def Bcast.place (k : Bcast) (block i : Nat) : Nat := k.stage + (80 * block + i) * 4096

/-- A chunk leaves for a device. -/
def State.sendChunk (s : State) (dev : Nat) (k : Bcast) (block i : Nat) (data : List Byte) : State :=
  let addr := 2 ^ 62 + dev * 2 ^ 48 + k.place block i % 2 ^ 48
  { s with tx := s.tx ++ [⟨dev, 2, txChunk, ⟨BitVec.ofNat 64 addr, s.self 0xD00, BitVec.ofNat 8 txChunk, 0#8, 64,
    BitVec.ofNat 32 (i + k.number * 2 ^ 8 + block * 2 ^ 16), 0#48, 0#8, 0#8, true⟩, 0, data⟩] }

/-- Chunks held of a block. -/
def Bcast.held (k : Bcast) (block : Nat) : List Nat := (k.got.filter (fun x => x / 128 == block)).map (fun x => x % 128)

/-- The blocks that hold fewer than 64 chunks. -/
def Bcast.lacking (k : Bcast) : List Nat := (List.range k.blocks).filter (fun b => decide ((k.held b).length < 64))

/-- MISSING and STATE of KP_BCAST (R411). -/
def State.syncCast (s : State) : State :=
  match s.fleet.bcast with
  | none => s
  | some k =>
    let s := (s.wf KP_BCAST KP_BCAST_NUM k.number).wf KP_BCAST KP_BCAST_MISSING (min 255 k.lacking.length)
    s.wf KP_BCAST KP_BCAST_STATE (if k.verified then 2 else if k.failed then 3 else 1)

def State.setCast (s : State) (k : Bcast) : State := ({ s with fleet := { s.fleet with bcast := some k } }).syncCast

/-- Whether a chunk may be forwarded to a child. -/
def State.childOpen (s : State) (dev : Nat) : Bool :=
  decide ((s.tx.filter (fun t => t.dev == dev && t.op == txChunk)).length < 64)
  && (match s.egress dev with
    | some (p, b) => s.linkSt p b == 3
    | none => false)

/-- CHUNK (R391): stored at its staging address and forwarded to the children. -/
def execChunk (number : Byte) (block : BitVec 16) (index : Byte) (data : List Byte) (s : State) : Host.Outcome State Fault Refusal :=
  match s.fleet.bcast with
  | none => .next s
  | some k =>
    let b := block.toNat
    let i := index.toNat
    if k.source.isSome || number.toNat != k.number || decide (k.blocks ≤ b) || decide (80 ≤ i) || k.got.contains (128 * b + i) then .next s
    else
      let bytes := (data ++ List.replicate 4096 0#8).take 4096
      let s := (s.memWr (k.place b i) bytes).2
      let s := s.setCast { k with got := k.got ++ [128 * b + i] }
      .next (k.children.foldl (fun s c => if s.childOpen c then s.sendChunk c k b i bytes else s) s)

/-! ## MISSING (R392) -/

/-- The map of the chunks held of a block, one bit each. -/
def Bcast.heldMap (k : Bcast) (b : Nat) : Nat := (k.held b).foldl (fun r i => r ||| 2 ^ i) 0

/-- A receiver sends MISSING: every block that holds fewer than 64 chunks, with its map. -/
def State.sendMissing (s : State) (k : Bcast) : State :=
  let words := k.lacking.flatMap (fun b => [b, k.heldMap b % 2 ^ 64, k.heldMap b / 2 ^ 64])
  (s.send s.manager 3 txMissing words).setCast { k with missingAt := s.now }

/-- A broadcast in reception that lacks chunks. -/
def State.receiving (s : State) : Option Bcast :=
  match s.fleet.bcast with
  | some k => if k.source.isNone && !k.verified && !k.failed && !k.lacking.isEmpty then some k else none
  | none => none

/-- BROADCAST_WINDOW_END: each receiver sends its first MISSING; one that lacks nothing lists no block. -/
def execBroadcastWindowEnd (s : State) : Host.Outcome State Fault Refusal :=
  match s.fleet.bcast with
  | some k => .next (if k.source.isNone ∧ k.windowEnd ≤ s.now ∧ k.missingAt = 0 then s.sendMissing k else s)
  | none => .next s

/-- MISSING_REPEAT: every 100 ms, until the deadline. -/
def execMissingRepeat (s : State) : Host.Outcome State Fault Refusal :=
  match s.receiving with
  | some k => .next (if k.missingAt ≠ 0 ∧ k.missingAt + 100000000 ≤ s.now ∧ s.now < k.deadline then s.sendMissing k else s)
  | none => .next s

/-- A chunk as this manager has it: from the image it sends, or from its own staging area. -/
def State.ownChunk (s : State) (k : Bcast) (b i : Nat) : Option (List Byte) :=
  match k.source with
  | some (base, len) => some (s.srcChunk base len b i)
  | none => if k.got.contains (128 * b + i) then some (s.bytes (k.place b i) 4096) else none

/-- The lowest-numbered chunks that a receiver lacks of a block and this device has, sent until the receiver has 64. -/
def State.fillBlock (s : State) (dev : Nat) (k : Bcast) (b map : Nat) : State :=
  let have_ := ((List.range 80).filter (fun i => natBit i map)).length
  let want := ((List.range 80).filter (fun i => !natBit i map && (k.source.isSome || k.got.contains (128 * b + i)))).take (64 - have_)
  want.foldl (fun s i => match s.ownChunk k b i with
    | some data => s.sendChunk dev k b i data
    | none => s) s

/-- MISSING: the manager unicasts what a receiver lacks. -/
def execMissing (receiver : BitVec 14) (blocks : List (BitVec 16 × BitVec 80)) (s : State) : Host.Outcome State Fault Refusal :=
  match s.fleet.bcast with
  | none => .next s
  | some k =>
    if s.role < 2 ∨ (s.member receiver.toNat).isNone then .next s
    else
      let s := s.modMember receiver.toNat (fun m => { m with lacking := !blocks.isEmpty })
      .next (blocks.foldl (fun s x => if x.1.toNat < k.blocks then s.fillBlock receiver.toNat k x.1.toNat x.2.toNat else s) s)

/-! ## Verification and the deadline (R393) -/

/-- The 64 data chunks of a block, reconstructed from those held. -/
def State.blockData (s : State) (k : Bcast) (b : Nat) : List Byte :=
  let held := k.held b
  let chunk := fun i : Nat => if held.contains i then s.bytes (k.place b i) 4096 else List.replicate 4096 0#8
  let all := (List.range 80).map chunk
  let gone := (List.range 80).filter (fun i => !held.contains i)
  let lost := if gone.all (fun i => decide (64 ≤ i)) then [] else (List.range 4096).map (fun x => rsErased (all.map (fun c => (c.getD x 0#8).toNat)) gone)
  (List.range 64).flatMap (fun i => if held.contains i then all.getD i [] else
    lost.map (fun l => BitVec.ofNat 8 (((l.find? (fun y => y.1 == i)).map (fun y => y.2)).getD 0)))

/-- The image of a complete receiver. -/
def State.castImage (s : State) (k : Bcast) : List Byte := ((List.range k.blocks).flatMap (fun b => s.blockData k b)).take slotSize

/-- IMAGE_VERIFY: reconstructed, verified, distributed to the dies, written to the inactive slot, and bound to the activation epoch. A chunk that
reaches its die with a bad CRC is asked for again up to 3 times; the fourth failure leaves the receiver incomplete. -/
def execImageVerify (badTries : Nat) (s : State) : Host.Outcome State Fault Refusal :=
  match s.fleet.bcast with
  | none => .next s
  | some k =>
    if k.source.isSome || k.verified || k.failed || !k.lacking.isEmpty || !s.keeperUp then .next s
    else
      let z := s.writeImage (1 - s.slot) (s.castImage k)
      if !z.imageOk (1 - z.slot) || decide (4 ≤ badTries) then .next (s.setCast { k with failed := true })
      else
        let z := z.setCast { k with verified := true }
        .next (if z.epochPast k.activation then z else z.bind k.activation .image none)

/-- BROADCAST_DEADLINE: a receiver that is not complete is left out. -/
def execBroadcastDeadline (s : State) : Host.Outcome State Fault Refusal :=
  match s.fleet.bcast with
  | some k => .next (if k.source.isNone ∧ !k.verified ∧ k.deadline ≤ s.now then s.setCast { k with failed := true } else s)
  | none => .next s

/-! ## BROADCAST (R388, R391) -/

/-- The devices that the sender of an image, or a lower manager, governs, as a tree: so many are its own children, and each has two of the
rest (DESIGN CHOICE: R391 gives each device up to four and draws no tree; two are left to a lower manager for its own). -/
def State.castRoot (s : State) : Nat := if s.role = 2 then 2 else 4
def State.castChildren (s : State) : List Nat := (s.governed.map (fun m => m.dev)).take s.castRoot
def State.castBelow (s : State) (i : Nat) : List Nat := ((s.governed.map (fun m => m.dev)).drop (s.castRoot + 2 * i)).take 2

/-- The order of a broadcast to every device governed, each with its children. -/
def State.castOrders (s : State) (words : List Nat) : State :=
  (List.range s.governed.length).foldl (fun s i =>
    let l := s.castBelow i
    s.order ((s.governed.map (fun m => m.dev)).getD i 0) 6 (words ++ l.length :: l)) s

/-- The descriptor of a BROADCAST is carried out: the order, and every chunk once, in block order. -/
def State.castBegin (s : State) (r : Nat) (d : RingExec) : State :=
  if !d.eb then s.ringComplete r d stBAD_OPCODE
  else if s.epochPast d.target then s.ringComplete r d stBOUNDS_FAULT
  else
    let len := natBits 0 32 (d.word 3)
    match s.resolve (d.word 2) with
    | none => s.ringComplete r d stBOUNDS_FAULT
    | some (dev, a) =>
      let base := if dev = s.devId then a else d.word 2
      if len = 0 ∨ !s.dmaRangeOk (s.self 0xD00) (d.word 2) len false then s.ringComplete r d stBOUNDS_FAULT
      else
        let (v, s) := s.draw
        let window := d.word 4 + natBits 0 32 (d.word 5) * 1000
        let k : Bcast := { number := v % 256, blocks := (len + 262143) / 262144, stage := v / 256 % 2 ^ 48, children := s.castChildren, windowStart := d.word 4, windowEnd := window,
                           deadline := window + natBits 32 32 (d.word 5) * 1000, activation := d.target, got := [], missingAt := 0, verified := false,
                           failed := false, source := some (base, len) }
        let s := { s with fleet := { s.fleet with bcast := some k } }
        let s := s.castOrders [k.number, k.blocks, k.stage, k.windowEnd, k.deadline, k.activation]
        let s := (List.range k.blocks).foldl (fun s b => (List.range 80).foldl (fun s i =>
          let data := s.srcChunk base len b i
          k.children.foldl (fun s c => s.sendChunk c k b i data) s) s) s
        (s.bind d.target .castEnd (some (r, d.index))).ringStart r d

end Sys2Proof.Machine
end

