-- ==== Sys2Proof/Machine/Stripes.lean ====
section
/-! DEFINITION. Shard groups: stripes, their parity holders, the places of units and of parity, and the rebuild of a member on the spare that replaces it (R394 to R397, R403, R412). -/

namespace Sys2Proof.Machine

/-! ## Stripes (R396) -/

/-- `holds`: member `j` of `n` holds parity of stripe `t`. -/
def holdsParity (n : Nat) (dual : Bool) (j t : Nat) : Bool := j == t % n || (dual && j == (t + 1) % n)

/-- The stripe of the `k`-th unit from stripe `t` on, in at most so many stripes. -/
def stripeFrom (n : Nat) (dual : Bool) (j : Nat) : Nat → Nat → Nat → Nat
  | 0, t, _ => t
  | f + 1, t, k =>
    if holdsParity n dual j t then stripeFrom n dual j f (t + 1) k
    else if k = 0 then t
    else stripeFrom n dual j f (t + 1) (k - 1)

/-- `stripe_of`: the stripe of unit `k` of member `j`. Of four stripes in a row a member holds parity of at most two. -/
def stripeOf (n : Nat) (dual : Bool) (j k : Nat) : Nat := stripeFrom n dual j (3 * k + 4) 0 k

/-- The unit of member `j` in stripe `t`: the stripes before it whose parity the member does not hold. -/
def unitIn (n : Nat) (dual : Bool) (j t : Nat) : Nat := ((List.range t).filter (fun x => !holdsParity n dual j x)).length

/-- P of some units: their XOR. -/
def parityP (units : List (List Byte)) : List Byte := units.foldl (fun r u => List.zipWith (· ^^^ ·) r u) (units.headD [] |>.map (fun _ => 0#8))

/-- g^j ⊗ unit, bytewise, with g = 0x02 in the field of R390. -/
def gScale (j : Nat) (u : List Byte) : List Byte := u.map (fun b => BitVec.ofNat 8 (gfMul (gfExp j) b.toNat))

/-- Q of the units of some members: the sum of g^j ⊗ unit_j. -/
def parityQ (units : List (Nat × List Byte)) : List Byte := parityP (units.map (fun x => gScale x.1 x.2))

/-! ## Places (R394, R396, R412) -/

def State.grpN (s : State) (g : Nat) : Nat := s.rf (KP_GRP_CFG g) KP_GRP_CFG_N
def State.grpDual (s : State) (g : Nat) : Bool := s.rb (KP_GRP_CFG g) KP_GRP_CFG_DUAL
/-- U. -/
def State.grpUnit (s : State) (g : Nat) : Nat := 2 ^ s.rf (KP_GRP_CFG g) KP_GRP_CFG_UNIT_LOG2
/-- D. -/
def State.grpUnits (s : State) (g : Nat) : Nat := s.rf (KP_GRP_UNITS g) KP_GRP_UNITS_D
/-- The member of a group that a device ID is. -/
def State.grpMember (s : State) (g dev : Nat) : Option Nat :=
  if s.rb (KP_GRP_CFG g) KP_GRP_CFG_VALID then (List.range (s.grpN g)).find? (fun j => s.rf (KP_GRP_MEMBER g j) KP_GRP_MEMBER_DEV == dev) else none

/-- The stripes of a group: those of every member's D units. -/
def State.grpStripes (s : State) (g : Nat) : Nat := s.grpUnits g * s.grpN g / (s.grpN g - (if s.grpDual g then 2 else 1))

/-- PAR_BASE as a local address, in a slot: a parity region that the schedule lists as a tensor has one place for each slot (R394). -/
def State.parBase (s : State) (g slot : Nat) : Nat :=
  let b := hbmBase + s.rf (KP_GRP_PAR g) KP_GRP_PAR_PAR_MIB * 2 ^ 20
  match s.sched.bind (fun im => im.tensors.find? (fun t => t.slots.contains b)) with
  | some t => t.slots.getD slot b
  | none => b

/-- The place of P of stripe `t` in its holder, from PAR_BASE. -/
def State.placeP (s : State) (g t : Nat) : Nat := (if s.grpDual g then 2 else 1) * s.grpUnit g * (t / s.grpN g)
/-- The place of Q. -/
def State.placeQ (s : State) (g t : Nat) : Nat := s.placeP g t + s.grpUnit g

/-- The protected tensors of the schedule in a slot, in its order: addresses and sizes (R394). -/
def State.protPlaces (s : State) (slot : Nat) : List (Nat × Nat) :=
  ((s.sched.map (fun im => im.tensors)).getD []).filterMap (fun t => if t.prot then t.slots[slot]?.map (fun a => (a, t.size)) else none)

/-- The address of byte `o` of the protected sequence; none in the padding. -/
def protAddr : List (Nat × Nat) → Nat → Option Nat
  | [], _ => none
  | (a, n) :: l, o => if o < n then some (a + o) else protAddr l (o - n)

/-! ## Rebuild (R403, step 4) -/

/-- A memory-side XOR of up to 64 bytes into device `dev`, as the DMA engines send one (R287). -/
def State.sendXor (s : State) (dev a : Nat) (bs : List Byte) : State :=
  (s.sendReq dev 2 txMsop (2 ^ 62 + dev * 2 ^ 48 + a) 0 (s.self 0xD00) 0xD00 29 bs).2

/-- One unit sent into another device, 64 bytes at a time: `src` and `dst` give each piece's place here and there, and `f` what is sent. -/
def State.sendUnit (s : State) (dev size : Nat) (f : List Byte → List Byte) (src dst : Nat → Option Nat) : State :=
  (List.range (size / 64)).foldl (fun s i => match src (64 * i), dst (64 * i) with
    | some a, some b => s.sendXor dev b (f (s.bytes a 64))
    | _, _ => s) s

/-- What member `i` sends for stripe `t` to the device that takes the place of member `j`, for the epoch of a slot: its committed parity
or unit into the lost unit, or its unit into the lost parity. The lost member's tensors stand where its own do (DESIGN CHOICE: the
manual does not say where another member's protected set lies). -/
def State.rebuildStripe (s : State) (g slot dev i j t : Nat) : State :=
  let n := s.grpN g
  let dual := s.grpDual g
  let u := s.grpUnit g
  let own := fun o : Nat => protAddr (s.protPlaces slot) (u * unitIn n dual i t + o)
  let lost := fun o : Nat => protAddr (s.protPlaces slot) (u * unitIn n dual j t + o)
  let par := fun (p o : Nat) => some (s.parBase g slot + p + o)
  if j = t % n then (if holdsParity n dual i t then s else s.sendUnit dev u id own (par (s.placeP g t)))
  else if holdsParity n dual j t then (if holdsParity n dual i t then s else s.sendUnit dev u (gScale i) own (par (s.placeQ g t)))
  else if i = t % n then s.sendUnit dev u id (par (s.placeP g t)) lost
  else if holdsParity n dual i t then s
  else s.sendUnit dev u id own lost

/-- A member sends what the rebuild of another needs, for epochs E and E − 1. -/
def State.rebuildSend (s : State) (g dev i j : Nat) : State :=
  [s.epoch, s.epoch - 1].foldl (fun s e => match s.epochSlot e with
    | some slot => (List.range (s.grpStripes g)).foldl (fun s t => s.rebuildStripe g slot dev i j t) s
    | none => s) s

/-- The spare fills the units and the parity that it is to hold with zero, for epochs E and E − 1, and is member `j` from now on. -/
def State.rebuildFill (s : State) (g j : Nat) : State :=
  let s := s.wf (KP_GRP_CFG g) KP_GRP_CFG_IDX j
  let lines := (s.grpStripes g + s.grpN g - 1) / s.grpN g
  let size := (if s.grpDual g then 2 else 1) * s.grpUnit g * lines
  [s.epoch, s.epoch - 1].foldl (fun s e => match s.epochSlot e with
    | some slot =>
      let s := (s.protPlaces slot).foldl (fun s x => (s.memWr x.1 (List.replicate x.2 0#8)).2) s
      (s.memWr (s.parBase g slot) (List.replicate size 0#8)).2
    | none => s) s

/-- The rebuild of device `dev`, whose ID a spare has taken: at that spare, and at every other member of its groups. -/
def State.rebuild (s : State) (dev : Nat) : State :=
  (List.range 4).foldl (fun s g => match s.grpMember g dev with
    | none => s
    | some j => if s.devId = dev then s.rebuildFill g j else match s.grpMember g s.devId with
      | some i => s.rebuildSend g dev i j
      | none => s) s

end Sys2Proof.Machine
end

