-- ==== Sys2Proof/Machine/Fleet.lean ====
section
/-! DEFINITION. Fleet commands: the descriptors 0x10 to 0x1B of a manager, FLEET_CMD at a device, reports, replacement, snapshots, adrift devices, leases and the takeover by a standby (R382 to R411, R463 to R465). -/

namespace Sys2Proof.Machine

/-! ## Descriptors of a manager (R388) -/

/-- A fleet descriptor that may start: BAD_OPCODE on a device that is no manager; a manager whose lease has expired starts none (R410). -/
def State.fleetDesc (s : State) (r i op : Nat) (f : State → RingExec → State) : State :=
  match s.ringBegin r i op with
  | none => s
  | some d =>
    if s.role < 2 then s.ringComplete r d stBAD_OPCODE
    else if s.rf KP_FLEET_STBY KP_FLEET_STBY_LEASE = 2 then s
    else f s d

/-- The device ID that word 2 names. -/
def RingExec.device (d : RingExec) : Nat := natBits 0 14 (d.word 2)

/-! ### Reads by the Keeper -/

/-- `k` bytes that the Keeper reads at an address of device `dev`; those of another device have been asked for. -/
def State.keeperGet (s : State) (a dev l k : Nat) : Nat × List Byte × State :=
  if dev ≠ s.devId then
    let r := s.remoteTake (s.self 0xD00) a k
    (r.1, r.2, s)
  else s.localRd (s.self 0xD00) l k

/-- `n` pieces of `k` bytes read by the Keeper. -/
def State.keeperRead (s : State) (k a : Nat) : Nat → Nat × List Byte × State
  | 0 => (stOK, [], s)
  | n + 1 =>
    match s.resolve a with
    | none => (stBOUNDS_FAULT, [], s)
    | some (dev, l) =>
      let (st, bs, s) := s.keeperGet a dev l k
      if st ≠ stOK then (st, [], s)
      else
        let (st, rest, s) := s.keeperRead k (a + k) n
        (st, bs ++ rest, s)

/-! ### ADMIT (R463 to R465) -/

/-- An admission record from its 280 bytes, with their hash (R463, R464). -/
def recordOf (bs : List Byte) : AdmissionRecord :=
  let z := fun o n : Nat => ofBytes ((bs.drop o).take n)
  { version := BitVec.ofNat 32 (z 0 4), checkMask := BitVec.ofNat 8 (z 4 1), minRollback := BitVec.ofNat 8 (z 5 1), flags := BitVec.ofNat 8 (z 6 1),
    zero := BitVec.ofNat 8 (z 7 1), serial := BitVec.ofNat 128 (z 8 16), meas := (List.range 8).map (fun i => BitVec.ofNat 256 (z (24 + 32 * i) 32)),
    digest := Config.sm3 bs }

/-- Whether a record is malformed. -/
def recordBad (x : AdmissionRecord) : Bool := x.version != 1#32 || x.zero != 0#8 || x.flags.toNat / 4 != 0

/-- Whether a report agrees with a record. -/
def recordMatches (x : AdmissionRecord) (p : Report) : Bool :=
  (x.serial == 0#128 || x.serial == p.serial) && decide (x.minRollback.toNat ≤ p.rollback.toNat) && (!natBit 1 x.flags.toNat || p.tenants)
    && (List.range 8).all (fun i => !natBit i x.checkMask.toNat || x.meas.getD i 0#256 == p.meas.getD i 0#256)

/-- The link of an ADMIT where it is this device's own: port and sub-port. -/
def State.admitLink (s : State) (d : RingExec) : Option (Nat × Nat) :=
  if d.device = s.devId then some (natBits 14 4 (d.word 2), natBits 18 3 (d.word 2)) else none

/-- An ADMIT fails: the link's keys are erased. -/
def State.admitFail (s : State) (r : Nat) (d : RingExec) (st : Nat) : State :=
  let s := match s.admitLink d with
    | some (p, b) => s.modSub p b (fun k => { k with keys := [none, none], readySent := false })
    | none => s
  s.ringComplete r d st

/-- The keys of the exchange are installed on the link. -/
def State.admitKeys (s : State) (d : RingExec) : State :=
  match s.admitLink d with
  | none => s
  | some (p, b) =>
    let (v, s) := s.draw
    let ph := (s.rb (LK_STATE p b) LK_STATE_KPH).toNat
    let s := s.modSub p b (fun k => { k with keys := k.keys.set ph (some (BitVec.ofNat 320 v)), readySent := true })
    s.control p b 7 0

/-- Device `dev` is told that its rings belong to this device's control processor 0 (R316; DESIGN CHOICE: the manual leaves to the
manager which of its control processors issues for a ring). -/
def State.nameOwners (s : State) (dev : Nat) : State :=
  (List.range 16).foldl (fun s r => s.order dev 1 [r, s.devId * 4096 + 0xD01]) s

/-- The candidate is a member, and is told its ID, role, duty and KR_AUTH, the owner of its rings, and the epoch and training counts
(R69, R268). A member that still holds the ID is fenced first (R383). The descriptor completes with the REPORT in which the device
shows the fleet's epoch, a spare with its first (DESIGN CHOICE: R388 does not say how the manager learns that it holds its state). -/
def State.admitOk (s : State) (r : Nat) (d : RingExec) (x : AdmissionRecord) : State :=
  let id := natBits 0 14 (d.word 3)
  let role := natBits 14 2 (d.word 3)
  let duty := natBits 16 2 (d.word 3)
  let m : Member := ⟨id, role, duty, false, false, 0, s.epoch, 0, [], false⟩
  let s := if (s.member id).isSome then s.releaseMember id else s
  let s := (s.admitKeys d).setMembers (s.fleet.members.filter (fun y => y.dev != id) ++ [m])
  ((s.order id 0 [id, role, duty, x.flags.toNat % 2, s.epoch, s.rdWide KP_STEP_0 2, s.rdWide KP_CURSOR_0 2]).nameOwners id).addWait 0x110 id r d.index

/-- An ADMIT whose link is OPEN, or that waits for it. The manager's own ID is never given (R383), and the status of such an ADMIT is
unstated. -/
def State.admitRun (s : State) (r : Nat) (d : RingExec) (open_ chain : Bool) (x : AdmissionRecord) (p : Report) (accepts : Bool) : State :=
  let mine := fun w : Nat × Nat × Nat × Nat => w.1 == 0x10 && w.2.2 == (r, d.index)
  if !open_ then (if s.fleet.waits.any mine then s else (s.addWait 0x10 s.now r d.index).ringStart r d)
  else
    let s := { s with fleet := { s.fleet with waits := s.fleet.waits.filter (fun w => !mine w) } }
    let (nonce, s) := s.random
    if !(chain && p.signatureGood && p.nonce.toNat == nonce % 2 ^ 256 && recordMatches x p && accepts) then s.admitFail r d stINTEGRITY_FAIL
    else if recordBad x then s.admitFail r d stBAD_OPCODE
    else if natBits 0 14 (d.word 3) = s.devId then
      let (v, s) := s.draw
      s.admitFail r d (v % 256)
    else (s.admitOk r d x).ringStart r d

/-- The record that word 4 names is read, then the admission goes on; a read that fails ends it with its status. -/
def State.admitRead (s : State) (r : Nat) (d : RingExec) (open_ chain : Bool) (p : Report) (accepts : Bool) : State :=
  let a := d.word 4
  s.keeperReads (if s.isRemote a then (List.range 35).map (fun k => (a + 8 * k, 8)) else []) (fun s =>
    let (st, bs, s) := s.keeperRead 8 a 35
    if st ≠ stOK then s.admitFail r d st else s.admitRun r d open_ chain (recordOf bs) p accepts)

/-- ADMIT. -/
def execAdmitDevice (ring : Fin 16) (index : Word) (open_ chainGood : Bool) (report : Report) (peerAccepts : Bool) (s : State) :
    Host.Outcome State Fault Refusal :=
  let r := ring.val
  let i := index.toNat
  match (if s.fleet.waits.any (fun w => w.1 == 0x10 && w.2.2 == (r, i)) then s.ringFind r i else none) with
  | some d => .next (s.admitRead r d open_ chainGood report peerAccepts)
  | none => .next (s.fleetDesc r i 0x10 (fun s d => s.admitRead r d open_ chainGood report peerAccepts))

/-- ADMIT_TIMEOUT (R465): the link has not reached OPEN within 12 s. -/
def execAdmitTimeout (ring : Fin 16) (index : Word) (s : State) : Host.Outcome State Fault Refusal :=
  let mine := fun w : Nat × Nat × Nat × Nat => w.1 == 0x10 && w.2.2 == (ring.val, index.toNat)
  match s.fleet.waits.find? mine, s.ringFind ring index.toNat with
  | some w, some d =>
    if w.2.1 + 12000000000 ≤ s.now then
      .next ({ s with fleet := { s.fleet with waits := s.fleet.waits.filter (fun w => !mine w) } }.admitFail ring d stBUS_FAULT)
    else .next s
  | _, _ => .next s

/-! ### RELEASE, ROUTES, GROUP: bound to an epoch -/

/-- RELEASE (R388, R403). -/
def execRelease (ring : Fin 16) (index : Word) (s : State) : Host.Outcome State Fault Refusal :=
  .next (s.fleetDesc ring index.toNat 0x11 (fun s d =>
    if !d.eb then s.ringComplete ring d stBAD_OPCODE
    else if s.epochPast d.target then s.ringComplete ring d stBOUNDS_FAULT
    else (s.bind d.target (.release d.device) (some (ring.val, d.index))).ringStart ring d))

/-- The words of a bank image. -/
def bankWords (bs : List Byte) : List (Nat × Nat) := (List.range 16384).map (fun i => (i, ofBytes ((bs.drop (4 * i)).take 4) % 2 ^ 16))

/-- An entry of the inactive bank (R385). -/
def State.putRoute (s : State) (dest v : Nat) : State :=
  if s.rb KP_ROUTE KP_ROUTE_BANK then { s with fleet := { s.fleet with bank0 := spPut 0 s.fleet.bank0 dest (v % 2 ^ 16) } }
  else { s with fleet := { s.fleet with bank1 := spPut 0 s.fleet.bank1 dest (v % 2 ^ 16) } }

/-- One bank image, at an address: 16,384 entries of 4 bytes. -/
@[irreducible] def State.bankImage (s : State) (a : Nat) : Nat × List Byte × State := s.keeperRead 64 a 1024

/-- A bank image into this device's inactive bank, or sent entry by entry to device `dev`. -/
def State.placeBank (s : State) (dev : Nat) (image : List Byte) : State :=
  (bankWords image).foldl (fun s x => if dev = s.devId then s.putRoute x.1 x.2 else s.orderTo dev 3 [x.1, x.2]) s

/-- One entry of a list of banks: the status, and the device whose bank it is. -/
def State.loadBank (s : State) (a : Nat) : Nat × Nat × State :=
  let (st, bs, s) := s.configRead a
  if st ≠ stOK then (st, 0, s)
  else
    let dev := natBits 0 14 (ofBytes (bs.take 8))
    let (st, image, s) := s.bankImage (ofBytes (bs.drop 8))
    (st, dev, if st ≠ stOK then s else s.placeBank dev image)

/-- The places that a ROUTES reads: its list, and once that is here the bank images that the list names. -/
def State.bankPieces (s : State) (a n : Nat) : List (Nat × Nat) :=
  let l := listPieces a n
  if s.allGot (s.self 0xD00) l then
    l ++ (List.range n).flatMap (fun i =>
      let b := ofBytes ((s.configRead (a + 16 * i)).2.1.drop 8)
      if s.isRemote b then (List.range 1024).map (fun k => (b + 64 * k, 64)) else [])
  else l

/-- The bank images of a list loaded: each into this device's inactive bank, or sent entry by entry. -/
def State.loadBanks (s : State) (a : Nat) : Nat → Nat × List Nat × State
  | 0 => (stOK, [], s)
  | n + 1 =>
    let (st, dev, s) := s.loadBank a
    if st ≠ stOK then (st, [], s)
    else
      let (st, l, s) := s.loadBanks (a + 16) n
      (st, dev :: l, s)

/-- ROUTES (R387): the banks are loaded; with EB their switch is bound. -/
def execRoutes (ring : Fin 16) (index : Word) (s : State) : Host.Outcome State Fault Refusal :=
  .next (s.fleetDesc ring index.toNat 0x12 (fun s d =>
    if d.eb && s.epochPast d.target then s.ringComplete ring d stBOUNDS_FAULT
    else s.keeperReads (s.bankPieces (d.word 2) (natBits 0 16 (d.word 3))) (fun s =>
      let (st, l, s) := s.loadBanks (d.word 2) (natBits 0 16 (d.word 3))
      if st ≠ stOK then s.ringComplete ring d st
      else
        let s := if d.eb then
            l.eraseDups.foldl (fun s dev => if dev = s.devId then s.bind d.target .routes none else s.orderTo dev 4 [1, d.target]) s else s
        s.ringComplete ring d stOK)))

/-- GROUP (R394): the layout of the group table is stated nowhere, so what it gives each group is free. -/
def execGroup (ring : Fin 16) (index : Word) (s : State) : Host.Outcome State Fault Refusal :=
  .next (s.fleetDesc ring index.toNat 0x1A (fun s d =>
    if !d.eb then s.ringComplete ring d stBAD_OPCODE
    else if s.epochPast d.target then s.ringComplete ring d stBOUNDS_FAULT
    else
      let (v, s) := s.draw
      let words := (List.range 19).map (fun i => natBits (2 + 32 * i) 32 v)
      let s := s.orderAll 5 (v % 4 :: words ++ [d.target])
      (s.bind d.target (.group (v % 4) words) none).ringComplete ring d stOK))

/-! ### SNAPSHOT, RESTORE, WITHDRAW -/

/-- A target of the own device's snapshots falls due for a descriptor. -/
def State.snapAsk (s : State) (i : Nat) (ref : Nat × Nat) : State :=
  let s := s.snapDue i
  let x := s.fleet.snaps.getD i Snap.initial
  { s with fleet := { s.fleet with snaps := s.fleet.snaps.set i { x with refs := x.refs ++ [ref] } } }

/-- SNAPSHOT (R388, R399). -/
def execSnapshot (ring : Fin 16) (index : Word) (s : State) : Host.Outcome State Fault Refusal :=
  .next (s.fleetDesc ring index.toNat 0x14 (fun s d =>
    let bits := natBits 0 2 (d.word 2)
    if bits = 0 then s.ringComplete ring d stOK
    else
      let s := (s.orderAll 7 [bits]).ringStart ring d
      let s := if natBit 0 bits then s.snapAsk 0 (ring.val, d.index) else s
      if natBit 1 bits then s.snapAsk 1 (ring.val, d.index) else s))

/-- RESTORE (R401). -/
def execRestore (ring : Fin 16) (index : Word) (s : State) : Host.Outcome State Fault Refusal :=
  .next (s.fleetDesc ring index.toNat 0x15 (fun s d =>
    let e := natBits 0 48 (d.word 2)
    ((s.ringStart ring d).restoreAll e).addWait 0x15 e ring.val d.index))

/-- WITHDRAW (R388): complete once every target is known to be IDLE. -/
def execWithdraw (ring : Fin 16) (index : Word) (s : State) : Host.Outcome State Fault Refusal :=
  .next (s.fleetDesc ring index.toNat 0x1B (fun s d =>
    let all := natBit 14 (d.word 2)
    let devs := if all then s.governed.map (fun m => m.dev) else [d.device].filter (fun x => x != s.devId)
    let s := if all || d.device == s.devId then s.withdraw else s
    let s := devs.foldl (fun s x => (s.orderTo x 9 []).addWait 0x1B x ring.val d.index) s
    if devs.isEmpty then s.ringComplete ring d stOK else s.ringStart ring d))

/-! ### REPLACE, KEEPER_RESET, READMIT, WAKE, BROADCAST -/

/-- REPLACE (R403): without a spare that holds the failed device's cores the manager reports. -/
def execReplace (ring : Fin 16) (index : Word) (spareHoldsCores : Bool) (s : State) : Host.Outcome State Fault Refusal :=
  .next (s.fleetDesc ring index.toNat 0x16 (fun s d =>
    let failed := d.device
    let spare := natBits 16 14 (d.word 2)
    if !spareHoldsCores then (s.postFleet failed).ringComplete ring d stBAD_OPCODE
    else
      let s := s.declareFailed failed
      let (v, s) := s.draw
      let s := match s.fleet.replace with
        | some x => (match x.ref with
          | some ref => s.refDone ref (v % 256)
          | none => s)
        | none => s
      let s := { s with fleet := { s.fleet with replace := some ⟨failed, spare, some (ring.val, d.index)⟩, repairNext := some (spare, failed) } }
      s.ringStart ring d))

/-- KEEPER_RESET (R406). -/
def execKeeperReset (ring : Fin 16) (index : Word) (s : State) : Host.Outcome State Fault Refusal :=
  .next (s.fleetDesc ring index.toNat 0x17 (fun s d =>
    let s := s.orderTo d.device 14 []
    let s := { s with fleet := { s.fleet with asked := s.fleet.asked ++ [(d.device, s.now, ring.val, d.index)] } }
    s.ringStart ring d))

/-- READMIT (R407): a device whose epoch is behind has failed instead. -/
def execReadmit (ring : Fin 16) (index : Word) (s : State) : Host.Outcome State Fault Refusal :=
  .next (s.fleetDesc ring index.toNat 0x18 (fun s d =>
    let behind := s.governed.any (fun m => m.dev == d.device && decide (m.epoch < s.epoch))
    if behind then (s.declareFailed d.device).ringComplete ring d stBAD_OPCODE
    else
      let s := s.orderTo d.device 10 []
      let s := { s with fleet := { s.fleet with rerunNext := true } }
      (s.addWait 0x18 d.device ring.val d.index).ringStart ring d))

/-- FLEET_WAKE (R371, R388): a WAKE flit to a neighbour, or an order to another device. -/
def execFleetWake (ring : Fin 16) (index : Word) (s : State) : Host.Outcome State Fault Refusal :=
  .next (s.fleetDesc ring index.toNat 0x19 (fun s d =>
    let mask := natBits 16 4 (d.word 2)
    match s.egress d.device with
    | none => s.ringComplete ring d stBUS_FAULT
    | some (p, b) =>
      if s.egressStatus d.device 3 ≠ stOK then s.ringComplete ring d stBUS_FAULT
      else
        let s := if s.rf (LK_STATE p b) LK_STATE_PEER = d.device then s.control p b 4 mask else s.orderTo d.device 11 [mask]
        s.ringComplete ring d stOK))

/-- BROADCAST (R391). -/
def execBroadcast (ring : Fin 16) (index : Word) (s : State) : Host.Outcome State Fault Refusal :=
  .next (s.fleetDesc ring index.toNat 0x13 (fun s d => s.castBegin ring d))

/-! ## FLEET_CMD at a device (R389) -/

/-- Whether an order is accepted from its sender: MGR_ID, or the acting standby; before admission, whoever admits. -/
def State.acceptsOrder (s : State) (src : Ident) (o : FleetOrder) : Bool :=
  let from_ := src.dev.toNat
  let mgr := s.inFleet && (from_ == s.manager
    || (s.rf KP_FLEET_STBY KP_FLEET_STBY_LEASE == 3 && from_ == s.rf KP_FLEET_STBY KP_FLEET_STBY_STBY_ID))
  match o with
  | .assign _ _ _ _ _ _ _ _ => !s.inFleet
  | _ => mgr

/-- Admission at the candidate (R383, R463). -/
def State.assignOwn (s : State) (mgr : Nat) (id role duty : Nat) (krAuth : Bool) (record : BitVec 256) : State :=
  let s := s.takeId id
  let s := ((s.wf KP_FLEET_ID KP_FLEET_ID_ROLE role).wf KP_FLEET_ID KP_FLEET_ID_DUTY duty).wf KP_FLEET_ID KP_FLEET_ID_MGR_ID
    (if role = 0 ∨ role = 3 then id else mgr)
  let s := s.wb KP_FLEET_CFG KP_FLEET_CFG_KR_AUTH krAuth
  let s := s.measExtend 6 (digestBytes record)
  { s with sec := { s.sec with records := s.sec.records ++ [record] } }

/-- The epoch, KP_STEP and KP_CURSOR that admission restores from the manager (R69, R268). -/
def State.assignCounts (s : State) (epoch step cursor : Nat) : State :=
  let s := ((s.wrWide TM_EPOCH_0 2 epoch).wrWide KP_STEP_0 2 step).wrWide KP_CURSOR_0 2 cursor
  { s with lock := { s.lock with history := [(epoch, 0)], past := [] } }

/-- A change that an order binds; bound to a past epoch it is refused, and the manager is told (R77). -/
def State.orderBind (s : State) (e : Nat) (c : Change) : State := if s.epochPast e then s.refuseSched else s.bind e c none

/-- What an accepted order does. -/
def State.obey (s : State) (src : Ident) (o : FleetOrder) : State :=
  match o with
  | .assign id role duty kr rec_ epoch step cursor =>
    (s.assignOwn src.dev.toNat id.toNat role.toNat duty.toNat kr rec_).assignCounts epoch.toNat step.toNat cursor.toNat
  | .ringOwner r owner => s.regWrite (s.self 0xD00) .kp (0x80C + 0x20 * r.val) (identWord owner)
  | .fleetWord i v => if s.running then s.bind (if s.lock.committed then s.epoch + 2 else s.epoch + 1) (.fleet i.val v.toNat) none else s.setFleetWord i.val v.toNat
  | .routeEntry dest v => s.putRoute dest.toNat v.toNat
  | .routeSwitch (some e) => s.orderBind e.toNat .routes
  | .routeSwitch none => s
  | .group i ws e => s.orderBind e.toNat (.group i.val (ws.map (fun w => w.toNat)))
  | .broadcastStart number blocks stage children windowEnd deadline activation =>
    let s := if s.role = 2 then s.castOrders [number.toNat, blocks, stage.toNat, windowEnd, deadline, activation.toNat] else s
    let below := if s.role = 2 then s.castChildren else []
    s.setCast { number := number.toNat, blocks := blocks, stage := stage.toNat, children := (children.map (fun c => c.toNat) ++ below).take 4, windowStart := 0, windowEnd := windowEnd,
                deadline := deadline, activation := activation.toNat, got := [], missingAt := 0, verified := false, failed := false, source := none }
  | .snapshot peer sink =>
    let s := if peer then s.snapDue 0 else s
    if sink then s.snapDue 1 else s
  | .restore e => s.restoreOwn e.toNat
  | .withdraw => s.withdraw.lockReport 3 []
  | .readmit => s.readmitOwn
  | .wake mask => s.wakeMask mask.toNat
  | .release => s.withdraw
  | .failed dev => s.fence dev.toNat
  | .keeperReset => if s.rb KP_FLEET_CFG KP_FLEET_CFG_KR_AUTH then s.keeperReset else s
  | .authorisation t => s.offer t
  | .relay none kind ws => if s.role = 2 then s.orderAll kind (ws.map (fun w => w.toNat)) else s
  | .relay (some dev) kind ws => if s.role = 2 ∧ s.governed.any (fun m => m.dev == dev.toNat) then s.order dev.toNat kind (ws.map (fun w => w.toNat)) else s

/-- FLEET_CMD: the Keeper carries it out, or for KEEPER_RESET a recovery agent (R406). -/
def execFleetCmd (src : Ident) (order : FleetOrder) (s : State) : Host.Outcome State Fault Refusal :=
  if !s.acceptsOrder src order then .next s
  else if order = .keeperReset then .next (s.obey src order)
  else if s.keeperUp && !s.fleet.adrift then .next (s.obey src order)
  else .next s

/-! ## Reports and failures at a manager (R402 to R407) -/

/-- KEEPER_RESET descriptors of a device end. -/
def State.endAsked (s : State) (dev st : Nat) : State :=
  let l := s.fleet.asked.filter (fun a => a.1 == dev)
  let s := { s with fleet := { s.fleet with asked := s.fleet.asked.filter (fun a => a.1 != dev) } }
  l.foldl (fun s a => s.refDone (a.2.2.1, a.2.2.2) st) s

/-- REPORT (R389, R402, R404): what a manager keeps of it; a WITHDRAW of the device ends
when it is in IDLE; an ADMIT ends as its definition says. -/
def execReport (worker : BitVec 14) (score : Byte) (losses : List Dword) (missedLocks : LockNote) (epoch : BitVec 48) (s : State) :
    Host.Outcome State Fault Refusal :=
  let dev := worker.toNat
  if s.role < 2 ∨ (s.member dev).isNone then .next s
  else
    let s := s.modMember dev (fun m => { m with
      score := score.toNat, epoch := epoch.toNat, losses := if losses.isEmpty then m.losses else (losses :: m.losses).take 2 })
    let s := s.endAsked dev stOK
    let s := if missedLocks.idle then s.endWaits 0x1B dev stOK else s
    let s := if s.epoch ≤ epoch.toNat ∨ (s.member dev).any (fun m => m.duty == 1) then s.endWaits 0x110 dev stOK else s
    .next (if missedLocks.missed ≠ 0 ∧ epoch.toNat < s.epoch then s.declareFailed dev else s)

/-- ADRIFT (R402, R406). -/
def execAdrift (dev : BitVec 14) (epoch : BitVec 48) (s : State) : Host.Outcome State Fault Refusal :=
  if s.role < 2 then .next s
  else .next ((s.modMember dev.toNat (fun m => { m with epoch := epoch.toNat })).declareFailed dev.toNat)

/-- KEEPER_REPORT_TIMEOUT (R406): 10 s after KEEPER_RESET the device is released. -/
def execKeeperReportTimeout (dev : BitVec 14) (s : State) : Host.Outcome State Fault Refusal :=
  if s.fleet.asked.any (fun a => a.1 == dev.toNat && decide (a.2.1 + 10000000000 ≤ s.now)) then
    let (v, s) := s.draw
    .next ((s.endAsked dev.toNat (v % 256)).releaseMember dev.toNat)
  else .next s

/-- A REPAIR's ID change at every device: neighbours of the failed one erase their keys, the spare takes the ID, and the rebuild of its
shards begins (R403). -/
def State.changeIds (s : State) (old new : Nat) : State :=
  let s := if old = new then s else s.fence new
  let s := (List.range 128).foldl (fun s i =>
    if s.linkSt (i / 8) (i % 8) ≠ 0 ∧ s.rf (LK_STATE (i / 8) (i % 8)) LK_STATE_PEER = old then
      s.wf (LK_STATE (i / 8) (i % 8)) LK_STATE_PEER new else s) s
  let s := if s.role < 2 ∨ old = new then s else s.setMembers ((s.fleet.members.filter (fun m => m.dev != old)).map (fun (m : Member) =>
    if m.dev = new then { m with duty := 0 } else m))
  if s.devId = old then
    let s := (s.takeId new).wf KP_FLEET_ID KP_FLEET_ID_DUTY 0
    { s with fleet := { s.fleet with replaying := true } }.rebuild new
  else if old = new then s else s.rebuild new

/-- REPAIR_SWITCH (R402): 8 µs after the held lock instant. -/
def execRepairSwitch (s : State) : Host.Outcome State Fault Refusal :=
  match s.fleet.repairAt with
  | none => .next s
  | some (t, id) =>
    if s.now < t then .next s
    else
      let s := { s with fleet := { s.fleet with repairAt := none } }.switchBank
      .next (match id with
        | some (old, new) => s.changeIds old new
        | none => s)

/-- The loss record that a replay is compared with. -/
def State.lossRecord (s : State) (dev : Nat) : List Dword := ((s.member dev).map (fun m => m.losses.headD [])).getD []

/-- REPLAY_CHECK (R403, R404): on a match, or with REPLAY clear, the next decision carries RERUN; on a mismatch the fleet falls back. -/
def execReplayCheck (samples : List Dword) (s : State) : Host.Outcome State Fault Refusal :=
  match s.fleet.replace with
  | none => .next s
  | some x =>
    if s.fleet.repairNext.isSome then .next s
    else
      let replay := s.rb KP_FLEET_CFG KP_FLEET_CFG_REPLAY
      let done := fun (s : State) (st : Nat) => match x.ref with
        | some ref => s.refDone ref st
        | none => s
      let s := if replay then s else s.postFleet x.failed
      let s := { s with fleet := { s.fleet with replace := none } }
      if !replay || samples == s.lossRecord x.failed then
        let s := s.modMember x.failed (fun m => { m with failed := false, missed := 0 })
        .next (done { s with fleet := { s.fleet with rerunNext := true } } stOK)
      else
        let (v, s) := s.draw
        .next ((done s (v % 256)).restoreAll s.snapEpoch)

/-! ## Snapshot transfers (R399) -/

/-- Whether a descriptor still waits for a snapshot. -/
def State.snapWaits (s : State) (ref : Nat × Nat) : Bool := s.fleet.snaps.any (fun x => x.refs.contains ref || x.runRefs.contains ref)

/-- The transfer to a target ends. -/
def State.snapEnd (s : State) (i : Nat) (good : Bool) : State :=
  let x := s.fleet.snaps.getD i Snap.initial
  match x.running with
  | none => s
  | some (e, _) =>
    let s := { s with fleet := { s.fleet with snaps := s.fleet.snaps.set i { x with running := none, image := none, runRefs := [] } } }
    let s := (s.wf KP_SNAP_STATUS KP_SNAP_STATUS_STATE (if good then 2 else 3)).syncSnaps
    let (v, s) := s.draw
    let s := if good then ({ s with fleet := { s.fleet with kept := x.image } }).wrWide KP_SNAP_EPOCH_0 2 e
      else s.post 0x27 stOK (s.src 0xD00) e
    x.runRefs.foldl (fun s ref => if s.snapWaits ref then s else s.refDone ref (if good then stOK else v % 256)) s

/-- SNAPSHOT_TRANSFER_END. -/
def execSnapshotTransferEnd (toSink : Bool) (good : Bool) (s : State) : Host.Outcome State Fault Refusal := .next (s.snapEnd toSink.toNat good)

/-! ## Heartbeats and adrift devices (R405, R406) -/

/-- KEEPER_HEARTBEAT: every agent hears the Keeper. -/
def execKeeperHeartbeat (s : State) : Host.Outcome State Fault Refusal :=
  if s.keeperUp && !s.fleet.adrift then .next { s with fleet := { s.fleet with beats := List.replicate 8 0 } } else .next s

/-- The device becomes adrift: the fatal slot, the links, ADRIFT to the manager, and running snapshots fail. -/
def State.goAdrift (s : State) (agent : Nat) : State :=
  let src := s.src (0xE00 + agent)
  let e : Event := ⟨s.now, 0x33, 3, stOK, src, s.epoch⟩
  let s : State := { s with fleet := { s.fleet with adrift := true }, events := s.events ++ [e] }
  let s := s.fatalSlot e
  let s := (List.range 16).foldl (fun s p => if s.ethPort p then s else s.portTowpath p) s
  let s := if s.role = 1 ∨ s.role = 2 then s.sendAs (0xE00 + agent) s.manager 3 txAdrift [s.devId, s.epoch] else s
  (s.snapEnd 0 false).snapEnd 1 false

/-- ADRIFT_DETECT: an agent has missed so many heartbeats in a row. -/
def execAdriftDetect (agent : WharfId) (missed : Nat) (s : State) : Host.Outcome State Fault Refusal :=
  let s := { s with fleet := { s.fleet with beats := s.fleet.beats.set agent missed } }
  if 10 ≤ missed ∧ !s.fleet.adrift then .next (s.goAdrift agent) else .next s

/-! ## Leases (R409, R410) -/

/-- T_exp. -/
def leaseEnd (lock poundUs : Nat) : Nat := lock + 3 * (poundUs * 1000 + 20000)

def State.leaseSt (s : State) : Nat := s.rf KP_FLEET_STBY KP_FLEET_STBY_LEASE

/-- LEASE at the standby: its expiry, and LEASE_ACK. -/
def execLease (lock : Nat) (epoch : BitVec 48) (poundUs : Nat) (s : State) : Host.Outcome State Fault Refusal :=
  if s.rf KP_FLEET_ID KP_FLEET_ID_DUTY ≠ 2 ∨ s.leaseSt = 3 ∨ !s.keeperUp then .next s
  else
    let s := (s.wrWide KP_LEASE_EXP_0 2 (leaseEnd lock poundUs % 2 ^ 64)).wf KP_FLEET_STBY KP_FLEET_STBY_LEASE 1
    let s := { s with fleet := { s.fleet with lease := some (lock, poundUs) } }
    .next (s.send s.manager 0 txLeaseAck [lock, epoch.toNat, poundUs])

/-- LEASE_ACK at the manager. -/
def execLeaseAck (lock : Nat) (epoch : BitVec 48) (poundUs : Nat) (s : State) : Host.Outcome State Fault Refusal :=
  let _ := epoch
  if s.role < 2 ∨ 2 ≤ s.leaseSt then .next s
  else .next ((s.wrWide KP_LEASE_EXP_0 2 (leaseEnd lock poundUs % 2 ^ 64)).wf KP_FLEET_STBY KP_FLEET_STBY_LEASE 1)

/-- LEASE_EXPIRY (R410): the manager stops acting. -/
def execLeaseExpiry (s : State) : Host.Outcome State Fault Refusal :=
  if 2 ≤ s.role ∧ s.leaseSt = 1 ∧ s.rdWide KP_LEASE_EXP_0 2 ≤ s.now then .next ((s.wf KP_FLEET_STBY KP_FLEET_STBY_LEASE 2).postFleet s.devId)
  else .next s

/-- The first lock instant after T_exp, every lock since the last LEASE counted as held. -/
def takeoverAt (lock poundUs : Nat) : Nat :=
  let p := poundUs * 1000
  if p = 0 then leaseEnd lock poundUs else lock + ((leaseEnd lock poundUs - lock) / p + 1) * p

/-- STANDBY_TAKEOVER (R410): the manager's ID and role, its neighbours fence it, and every device is readmitted. Which role and manager
the old manager had reaches the standby by the mirror of R409, which the model does not hold: they are free. -/
def execStandbyTakeover (s : State) : Host.Outcome State Fault Refusal :=
  match s.fleet.lease with
  | none => .next s
  | some (l, p) =>
    if s.rf KP_FLEET_ID KP_FLEET_ID_DUTY ≠ 2 ∨ s.leaseSt ≠ 1 ∨ s.now < takeoverAt l p then .next s
    else
      let old := s.manager
      let (v, s) := s.draw
      let role := 2 + v % 2
      let s := s.wf KP_FLEET_STBY KP_FLEET_STBY_LEASE 3
      let s := (s.fence old).takeId old
      let s := ((s.wf KP_FLEET_ID KP_FLEET_ID_ROLE role).wf KP_FLEET_ID KP_FLEET_ID_MGR_ID (if role = 3 then old else v / 2 % 2 ^ 14)).orderAll 13 [old]
      let s := s.governed.foldl (fun s m => s.nameOwners m.dev) s
      let s := (s.orderAll 10 []).readmitOwn
      .next { s with fleet := { s.fleet with rerunNext := true } }

end Sys2Proof.Machine
end

