-- ==== Sys2Proof/Machine/Tiller.lean ====
section
/-! DEFINITION. The tiller's scalar instructions (R170, R172 to R174). -/

namespace Sys2Proof.Machine

/-! ## Results in registers -/

/-- 64-bit wrap-around. -/
def w64 (x : Nat) : Nat := x % 2 ^ 64

/-- An instruction that writes a register from registers, and goes on. -/
def State.scalar (s : State) (c d : Nat) (f : Core → Nat) : State :=
  s.issue c 4 (fun s => s.result c d (w64 (f (s.core c))) 4)

/-- The operations of ALU by FN; none for a FN that R173 does not list. -/
def aluOp (fn : Nat) (a b : Dword) : Option Dword :=
  let n := b.toNat % 64
  if fn = 0 then some (a + b)
  else if fn = 1 then some (a - b)
  else if fn = 2 then some (a &&& b)
  else if fn = 3 then some (a ||| b)
  else if fn = 4 then some (a ^^^ b)
  else if fn = 5 then some (a <<< n)
  else if fn = 6 then some (a >>> n)
  else if fn = 7 then some (a.sshiftRight n)
  else if fn = 8 then some (a * b)
  else if fn = 9 then some (if a.slt b then 1#64 else 0#64)
  else if fn = 10 then some (if a.ult b then 1#64 else 0#64)
  else none

/-- A register as 64 bits. -/
def Core.rv (k : Core) (r : Nat) : Dword := BitVec.ofNat 64 (k.rg r)

/-- ALU (R173). -/
def execAlu (core : CoreId) (d a b : BitVec 5) (fn : BitVec 11) (s : State) : Host.Outcome State Fault Refusal :=
  .next (s.issue core 4 (fun s =>
    let k := s.core core
    match aluOp fn.toNat (k.rv a.toNat) (k.rv b.toNat) with
    | some v => s.result core d.toNat v.toNat 4
    | none => s.selfFault core stBAD_OPCODE))

/-- ADDI (R173). -/
def execAddi (core : CoreId) (d a : BitVec 5) (imm : BitVec 16) (s : State) : Host.Outcome State Fault Refusal :=
  .next (s.scalar core d.toNat (fun k => (k.rv a.toNat + imm.signExtend 64).toNat))

/-- ANDI (R173). -/
def execAndi (core : CoreId) (d a : BitVec 5) (imm : BitVec 16) (s : State) : Host.Outcome State Fault Refusal :=
  .next (s.scalar core d.toNat (fun k => (k.rv a.toNat &&& imm.zeroExtend 64).toNat))

/-- ORI (R173). -/
def execOri (core : CoreId) (d a : BitVec 5) (imm : BitVec 16) (s : State) : Host.Outcome State Fault Refusal :=
  .next (s.scalar core d.toNat (fun k => (k.rv a.toNat ||| imm.zeroExtend 64).toNat))

/-- XORI (R173). -/
def execXori (core : CoreId) (d a : BitVec 5) (imm : BitVec 16) (s : State) : Host.Outcome State Fault Refusal :=
  .next (s.scalar core d.toNat (fun k => (k.rv a.toNat ^^^ imm.zeroExtend 64).toNat))

/-- SHI (R173): the direction 3 is reserved. -/
def execShi (core : CoreId) (d a : BitVec 5) (imm : BitVec 16) (s : State) : Host.Outcome State Fault Refusal :=
  .next (s.issue core 4 (fun s =>
    let v := (s.core core).rv a.toNat
    let n := imm.toNat % 64
    let dir := imm.toNat / 64 % 4
    if dir = 0 then s.result core d.toNat (v <<< n).toNat 4
    else if dir = 1 then s.result core d.toNat (v >>> n).toNat 4
    else if dir = 2 then s.result core d.toNat (v.sshiftRight n).toNat 4
    else s.selfFault core stBAD_OPCODE))

/-- SHLOR (R173). -/
def execShlor (core : CoreId) (d a : BitVec 5) (imm : BitVec 16) (s : State) : Host.Outcome State Fault Refusal :=
  .next (s.scalar core d.toNat (fun k => (k.rv a.toNat <<< 16 ||| imm.zeroExtend 64).toNat))

/-! ## Loads and stores (R173) -/

/-- The address of a load or store: g[A] + IMM. -/
def Core.ea (k : Core) (a : BitVec 5) (imm : BitVec 16) : Nat := (k.rv a.toNat + imm.signExtend 64).toNat

/-- The tiller stalls on a load. -/
def State.loading (s : State) (c d : Nat) (wide : Bool) (addr : Nat) (v : Option Dword) : State :=
  s.modCore c (fun k => { k with stall := .load d wide addr v stOK })

/-- A load of `n` bytes (R173). -/
def State.tillerLoad (s : State) (c d n addr : Nat) : State :=
  if addr % n ≠ 0 then s.selfFault c stALIGN_FAULT
  else match s.resolve addr with
    | none => s.selfFault c stBOUNDS_FAULT
    | some (dev, l) =>
      if dev ≠ s.devId then
        let (st, s) := s.sendReq dev 2 txRead addr n (s.self c) (tidOf (s.self c)) 0 []
        if st ≠ stOK then s.selfFault c st else s.loading c d (n == 8) addr none
      else
        let (st, bs, s) := s.localRd (s.self c) l n
        if stInformational st then s.loading c d (n == 8) addr (some (BitVec.ofNat 64 (ofBytes bs))) else s.selfFault c st

/-- A write of a tiller that waits for its acknowledgement (R202). -/
def State.countWrite (s : State) (c : Nat) : State := s.modCore c (fun k => { k with unacked := k.unacked + 1 })

/-- The transaction number of a tiller's store: the store's number and the core. -/
def storeTid (c n : Nat) : Nat := 0x80000000 + c + 1024 * n

/-- A store of `n` bytes (R173). -/
def State.tillerStore (s : State) (c n addr v : Nat) : State :=
  if addr % n ≠ 0 then s.selfFault c stALIGN_FAULT
  else match s.resolve addr with
    | none => s.selfFault c stBOUNDS_FAULT
    | some (dev, l) =>
      if dev ≠ s.devId then
        let w := remoteWrite l n
        let k := s.core c
        let num := k.seq % 2 ^ 21
        let (st, s) := s.sendReq dev w.2 w.1 addr n (s.self c) (storeTid c num) 0 (toBytes n v)
        if st ≠ stOK then s.selfFault c st
        else (s.modCore c (fun k => { k with
            seq := k.seq + 1, unackedRemote := k.unackedRemote + 1, stores := k.stores ++ [(num, k.pc)] })).advance c 4
      else match s.localWr (s.self c) l (toBytes n v) with
        | (some st, s) => if stInformational st then (s.countWrite c).advance c 4 else s.selfFault c st
        | (none, s) => (s.countWrite c).advance c 4

/-- LD (R173). -/
def execLd (core : CoreId) (d a : BitVec 5) (imm : BitVec 16) (s : State) : Host.Outcome State Fault Refusal :=
  .next (s.issue core 4 (fun s => s.tillerLoad core d.toNat 8 ((s.core core).ea a imm)))

/-- LDW (R173). -/
def execLdw (core : CoreId) (d a : BitVec 5) (imm : BitVec 16) (s : State) : Host.Outcome State Fault Refusal :=
  .next (s.issue core 4 (fun s => s.tillerLoad core d.toNat 4 ((s.core core).ea a imm)))

/-- ST (R173). -/
def execSt (core : CoreId) (d a : BitVec 5) (imm : BitVec 16) (s : State) : Host.Outcome State Fault Refusal :=
  .next (s.issue core 4 (fun s => s.tillerStore core 8 ((s.core core).ea a imm) ((s.core core).rg d.toNat)))

/-- STW (R173). -/
def execStw (core : CoreId) (d a : BitVec 5) (imm : BitVec 16) (s : State) : Host.Outcome State Fault Refusal :=
  .next (s.issue core 4 (fun s => s.tillerStore core 4 ((s.core core).ea a imm) ((s.core core).rg d.toNat % 2 ^ 32)))

/-- TILLER_LOAD_RETURN (R173): the data of a load goes to g[D]; a fault status stops the core. -/
def execTillerLoadReturn (core : CoreId) (s : State) : Host.Outcome State Fault Refusal :=
  if s.tstate core ≠ 1 then .next s
  else match (s.core core).stall with
    | .load d wide _ (some v) st =>
      if stInformational st then .next (s.result core d (if wide then v.toNat else v.toNat % 2 ^ 32) 4)
      else .next (s.selfFault core st)
    | _ => .next s

/-! ## Branches and jumps (R173) -/

/-- The basin offset `off` words from an instruction; one below the basin wraps, and so lies outside it (R170). -/
def wordsFrom (pc : Nat) (off : Int) : Nat := ((pc : Int) + 4 * off).emod (2 ^ 64) |>.toNat

/-- The tiller goes on at a basin offset. -/
def State.goto (s : State) (c pc : Nat) : State := s.modCore c (fun k => { k with pc := pc, stall := .none })

/-- A conditional branch. -/
def State.branch (s : State) (c : Nat) (off : BitVec 16) (cond : Core → Bool) : State :=
  s.issue c 4 (fun s =>
    let k := s.core c
    if cond k then s.goto c (wordsFrom k.pc off.toInt) else s.advance c 4)

/-- BEQ (R173). -/
def execBeq (core : CoreId) (a b : BitVec 5) (off : BitVec 16) (s : State) : Host.Outcome State Fault Refusal :=
  .next (s.branch core off (fun k => k.rv a.toNat == k.rv b.toNat))

/-- BNE (R173). -/
def execBne (core : CoreId) (a b : BitVec 5) (off : BitVec 16) (s : State) : Host.Outcome State Fault Refusal :=
  .next (s.branch core off (fun k => k.rv a.toNat != k.rv b.toNat))

/-- BLT (R173). -/
def execBlt (core : CoreId) (a b : BitVec 5) (off : BitVec 16) (s : State) : Host.Outcome State Fault Refusal :=
  .next (s.branch core off (fun k => (k.rv a.toNat).slt (k.rv b.toNat)))

/-- BGE (R173). -/
def execBge (core : CoreId) (a b : BitVec 5) (off : BitVec 16) (s : State) : Host.Outcome State Fault Refusal :=
  .next (s.branch core off (fun k => !(k.rv a.toNat).slt (k.rv b.toNat)))

/-- BLTU (R173). -/
def execBltu (core : CoreId) (a b : BitVec 5) (off : BitVec 16) (s : State) : Host.Outcome State Fault Refusal :=
  .next (s.branch core off (fun k => (k.rv a.toNat).ult (k.rv b.toNat)))

/-- BGEU (R173). -/
def execBgeu (core : CoreId) (a b : BitVec 5) (off : BitVec 16) (s : State) : Host.Outcome State Fault Refusal :=
  .next (s.branch core off (fun k => !(k.rv a.toNat).ult (k.rv b.toNat)))

/-- A jump that writes the offset of the next instruction. -/
def State.link (s : State) (c d target : Nat) : State :=
  s.modCore c (fun k => { k.wg d (k.pc + 4) with
    pc := target, stall := .none })

/-- JAL (R173). -/
def execJal (core : CoreId) (d : BitVec 5) (off : BitVec 21) (s : State) : Host.Outcome State Fault Refusal :=
  .next (s.issue core 4 (fun s => s.link core d.toNat (wordsFrom (s.core core).pc off.toInt)))

/-- JR (R173). -/
def execJr (core : CoreId) (d a : BitVec 5) (imm : BitVec 16) (s : State) : Host.Outcome State Fault Refusal :=
  .next (s.issue core 4 (fun s => s.link core d.toNat ((s.core core).ea a imm)))

/-! ## Special values and waits (R173, R174) -/

/-- RDS (R174); the cycles since the pound's start are a free value. -/
def execRds (core : CoreId) (d : BitVec 5) (imm : BitVec 16) (s : State) : Host.Outcome State Fault Refusal :=
  .next (s.issue core 4 (fun s =>
    let i := imm.toNat
    if i = 0 then s.result core d.toNat core.val 4
    else if i = 1 then s.result core d.toNat s.devId 4
    else if i = 2 then s.result core d.toNat s.epochW 4
    else if i = 3 then s.result core d.toNat s.now 4
    else if i = 4 then s.result core d.toNat (s.rf TM_SCHED_0 TM_SCHED_0_POUND_US) 4
    else if i = 5 then
      let (v, s) := s.draw
      s.result core d.toNat (w64 v) 4
    else s.selfFault core stBAD_OPCODE))

/-- The tiller waits: it stalls, and goes on at once if what it waits for holds. -/
def State.await (s : State) (c : Nat) (w : Stall) : State := (s.modCore c (fun k => { k with stall := w })).retry c

/-- WAITQ (R173). -/
def execWaitq (core : CoreId) (imm : BitVec 16) (s : State) : Host.Outcome State Fault Refusal :=
  .next (s.issue core 4 (fun s => s.await core (.waitq (imm.toNat % 256))))

/-- STATQ (R173): 0x00 if nothing has been issued to the queue in this pound. -/
def execStatq (core : CoreId) (d : BitVec 5) (imm : BitVec 16) (s : State) : Host.Outcome State Fault Refusal :=
  .next (s.issue core 4 (fun s =>
    let q := imm.toNat % 8
    if natBit q (s.core core).issued then s.await core (.statq d.toNat q) else s.result core d.toNat 0 4))

/-- WFE (R173). -/
def execWfe (core : CoreId) (a : BitVec 5) (s : State) : Host.Outcome State Fault Refusal :=
  .next (s.issue core 4 (fun s =>
    let t := (s.core core).rg a.toNat
    if t ≤ s.now then s.advance core 4 else s.await core (.wfe t)))

/-- WFE_TIMEOUT (R173): network time has reached the time limit of a WFE. -/
def execWfeTimeout (core : CoreId) (s : State) : Host.Outcome State Fault Refusal :=
  if s.tstate core ≠ 1 then .next s
  else match (s.core core).stall with
    | .wfe t => if t ≤ s.now then .next (s.advance core 4) else .next s
    | _ => .next s

end Sys2Proof.Machine
end

