-- ==== Sys2Proof/Machine/Trans.lean ====
section
/-! DEFINITION. Transactions that arrive over links: what an open link and an unadmitted device accept, service with its answer, responses, forwarding (R51, R83, R84, R350, R361, R364, R368, R383, R386). -/

namespace Sys2Proof.Machine

/-! ## Heads (R350) -/

/-- The device ID field of the target address. -/
def headDev (h : Head) : Nat := natBits 48 14 h.addr.toNat

/-- Whether an operation code is one that R350 lists. -/
def listedOp (op : Nat) : Bool := decide (1 ≤ op ∧ op ≤ 9) || decide (0x20 ≤ op ∧ op ≤ 0x26)

/-- A head with a listed operation and every reserved field zero. -/
def headGood (h : Head) : Bool :=
  listedOp h.op.toNat && h.reservedZero && h.flags.toNat / 2 == 0 && h.msop.toNat / 32 == 0

/-- Whether a transaction of class 3, or of another class, is accepted: on an OPEN link, and by a device that no
fleet has admitted, only the Keeper's in class 3 (R51, R364, R383); by a device that is adrift, only class 3 from a recovery agent (R372). -/
def State.acceptsTx (s : State) (p b : Nat) (h : Head) (cls3 : Bool) : Bool :=
  if s.fleet.adrift then agentSends h (if cls3 then 3 else 0)
  else (s.linkSt p b != 2 && s.inFleet) || (headKeeper h && cls3)

/-! ## Forwarding (R386) -/

/-- A transaction as it goes on to another device. -/
def forwarded (cls : Nat) (h : Head) (data : List Byte) : Tx :=
  ⟨headDev h, cls, h.op.toNat, h, if data.isEmpty then 64 * h.body else data.length, data⟩

/-- A transaction for another device, from sub-port `b` of port `p`: on its active route, or dropped and answered; a response ends the request
that went out there. -/
def State.forwardTx (s : State) (p b cls : Nat) (h : Head) (data : List Byte) : State :=
  let s := s.modSub p b (fun k => { k with fwd := k.fwd.filter (fun x => isRequest h.op.toNat || x.tid != h.tid || x.src.dev.toNat != headDev h) })
  let drop := (s.bump KP_FWD_DROP 1).answerTx h stBUS_FAULT []
  match s.egress (headDev h) with
  | none => drop
  | some (q, e) =>
    let st := s.linkSt q e
    if (q == p && e == b) || (st != 3 && st != 4) || s.fleet.adrift then drop
    else if st == 4 && (cls == 1 || cls == 2) && isRequest h.op.toNat then s.answerTx h stTARGET_RESET []
    else { s with tx := s.tx ++ [forwarded cls h data] }

/-! ## Arrival -/

/-- A transaction arrives: discarded, sent on, or taken by this device. Its operation must be the command's; `cls3` says
whether it may be of class 3, which a command that does not name the class may. -/
def State.arriveTx (s : State) (p b op cls : Nat) (cls3 : Bool) (h : Head) (data : List Byte) (f : State → State) : State :=
  if !s.linkTalks p b then s
  else if !headGood h then (s.bump (LK_DROP p b) 1).answerTx h stBAD_OPCODE []
  else if h.op.toNat ≠ op then s
  else if !s.acceptsTx p b h cls3 then s.bump (LK_DROP p b) 1
  else if s.inFleet && headDev h != s.devId then s.forwardTx p b cls h data
  else f s

/-- The local address that a request names; none when it carries no global address (R16, R350). -/
def headLocal (h : Head) : Option Nat :=
  if natBit 63 h.addr.toNat ∨ !natBit 62 h.addr.toNat then none else some (natBits 0 48 h.addr.toNat)

/-- The accesses that a transfer is served in: one, or one for each 64 bytes of a longer one (R275, R350). -/
def pieces (n : Nat) : List (Nat × Nat) :=
  if n ≤ 64 ∨ n % 64 ≠ 0 then [(0, n)] else (List.range (n / 64)).map (fun i => (64 * i, 64))

/-- Reads in order, up to the first that fails. -/
def State.readRun (s : State) (m : Ident) (a : Nat) : List (Nat × Nat) → Nat × List Byte × State
  | [] => (stOK, [], s)
  | (o, n) :: t =>
    let (st, bs, s) := s.localRd m (a + o) n
    if !stInformational st then (st, [], s)
    else
      let (st2, bs2, s) := s.readRun m a t
      (st2, bs ++ bs2, s)

/-- Writes in order, up to the first that fails; none when the answer comes later. -/
def State.writeRun (s : State) (m : Ident) (a : Nat) (data : List Byte) : List (Nat × Nat) → Option Nat × State
  | [] => (some stOK, s)
  | (o, n) :: t =>
    match s.localWr m (a + o) ((data.drop o).take n) with
    | (none, s) => (none, s)
    | (some st, s) => if stInformational st then s.writeRun m a data t else (some st, s)

/-- A read for a master of another device: bound to an epoch, or of memory as it stands (R83, R84). -/
def State.serveRead (s : State) (h : Head) (n : Nat) : State :=
  match headLocal h with
  | none => s.answerTx h stBOUNDS_FAULT []
  | some a =>
    let e := if natBit 0 h.flags.toNat then some h.epoch.toNat else none
    if e.any (fun e => !s.retained e) then s.answerTx h stBOUNDS_FAULT []
    else
      let (st, bs, s) := s.readRun h.src (s.boundAddr e a) (pieces n)
      s.answerTx h st (if stInformational st then bs else [])

/-- The send that left last is a link's: its reply goes back as an acknowledgement (R335). -/
def State.sendOfLink (s : State) (p b : Nat) (h : Head) : State :=
  match s.sends.reverse with
  | x :: t => { s with sends := (({ x with link := some (8 * p + b, h) } : Send) :: t).reverse }
  | [] => s

/-- A write for a master of another device. -/
def State.serveWrite (s : State) (p b : Nat) (h : Head) (data : List Byte) : State :=
  match headLocal h with
  | none => s.answerTx h stBOUNDS_FAULT []
  | some a =>
    match s.writeRun h.src a data (pieces data.length) with
    | (some st, s) => s.answerTx h st []
    | (none, s) => s.sendOfLink p b h

/-- READ (R350). -/
def execRead (port : PortId) (sub : SubId) (h : Head) (size : Nat) (s : State) : Host.Outcome State Fault Refusal :=
  .next (s.arriveTx port sub 1 2 true h [] (fun s => s.serveRead h size))

/-- WRITE (R350). -/
def execWrite (port : PortId) (sub : SubId) (h : Head) (data : List Byte) (s : State) : Host.Outcome State Fault Refusal :=
  .next (s.arriveTx port sub 2 2 true h data (fun s => s.serveWrite port sub h data))

/-- MEMORY_SIDE_OPERATION (R289, R350): MSOP holds its type and its operation. -/
def execMemorySideOperation (port : PortId) (sub : SubId) (h : Head) (operand : BitVec 512) (s : State) : Host.Outcome State Fault Refusal :=
  .next (s.arriveTx port sub 3 2 true h (toBytes 64 operand.toNat) (fun s =>
    match headLocal h with
    | none => s.answerTx h stBOUNDS_FAULT []
    | some a =>
      let (st, s) := s.msop h.src a (natBits 0 3 h.msop.toNat) (natBits 3 2 h.msop.toNat) operand.toNat
      s.answerTx h st []))

/-- DOORBELL (R311, R350). -/
def execDoorbell (port : PortId) (sub : SubId) (h : Head) (value : Dword) (s : State) : Host.Outcome State Fault Refusal :=
  .next (s.arriveTx port sub 4 3 true h (toBytes 8 value.toNat) (fun s =>
    match (headLocal h).map target with
    | some (.reg .doorbell _) => s.serveWrite port sub h (toBytes 8 value.toNat)
    | _ => s.answerTx h stBOUNDS_FAULT []))

/-- MAILBOX_SEND (R335, R350). -/
def execMailboxSend (port : PortId) (sub : SubId) (h : Head) (message : BitVec 128) (s : State) : Host.Outcome State Fault Refusal :=
  .next (s.arriveTx port sub 5 0 false h (toBytes 16 message.toNat) (fun s =>
    match headLocal h with
    | none => s.answerTx h stBOUNDS_FAULT []
    | some a => { s with sends := s.sends ++ [⟨h.src, a, message, none, some (8 * port.val + sub.val, h)⟩] }))

/-! ## Empty notes (R338) -/

/-- A note from another device among the flits that a sub-port has delivered, for a master here: the sub-port, the flit, the addressee
and the value. A device that no fleet has admitted, or that is adrift, accepts none (R372, R383). -/
def State.noteIn (s : State) : Option (Nat × Flit × Ident × Dword) :=
  if !s.inFleet || s.fleet.adrift then none
  else (List.range 128).findSome? (fun i => (s.sub (i / 8) (i % 8)).rx.findSome? (fun f =>
    (flitNote f).bind (fun n => if s.isLocal n.1 then some (i, f, n) else none)))

/-- EMPTY_NOTE (R338): the note of a channel here that has waited longest; when there is none, one that a link has delivered. -/
def execEmptyNote (s : State) : Host.Outcome State Fault Refusal :=
  match s.notesOut with
  | (m, v) :: t => .next ({ s with notesOut := t }.takeNote m v)
  | [] => match s.noteIn with
    | some (i, f, m, v) => .next ((s.modSub (i / 8) (i % 8) (fun k => { k with rx := k.rx.erase f })).takeNote m v)
    | none => .next s

/-! ## Responses -/

/-- The sub-port on which a request of this device is outstanding. -/
def State.outstandingOn (s : State) (tid : Nat) : Option (Nat × Nat) :=
  ((List.range 128).find? (fun i => (s.sub (i / 8) (i % 8)).outstanding.contains tid)).map (fun i => (i / 8, i % 8))

/-- A response ends the request that it answers; one that answers none is discarded. -/
def State.takeResponse (s : State) (h : Head) (data : List Byte) : State :=
  let tid := h.tid.toNat
  match s.outstandingOn tid with
  | none => s
  | some (p, b) => (s.modSub p b (fun k => { k with outstanding := k.outstanding.erase tid })).completeRemote tid h.status.toNat data

/-- READ_RESPONSE (R350). -/
def execReadResponse (port : PortId) (sub : SubId) (h : Head) (data : List Byte) (s : State) : Host.Outcome State Fault Refusal :=
  .next (s.arriveTx port sub 6 2 true h data (fun s => s.takeResponse h data))

/-- WRITE_ACKNOWLEDGEMENT (R350). -/
def execWriteAcknowledgement (port : PortId) (sub : SubId) (h : Head) (s : State) : Host.Outcome State Fault Refusal :=
  .next (s.arriveTx port sub 7 2 true h [] (fun s => s.takeResponse h []))

/-- FORWARD (R386): a transaction of any operation and class for another device. -/
def execForward (port : PortId) (sub : SubId) (cls : BitVec 2) (h : Head) (data : List Byte) (s : State) : Host.Outcome State Fault Refusal :=
  .next (s.arriveTx port sub h.op.toNat cls.toNat (cls == 3#2) h data id)

end Sys2Proof.Machine
end

