-- ==== Sys2Proof/Machine/Dispatch.lean ====
section
/-! DEFINITION. One arm per command: each calls its meaning. -/

namespace Sys2Proof.Machine

/-- The effect of a command on everything but the queue of waiting commands. -/
def exec (i : Instr) (s : State) : Host.Outcome State Fault Refusal :=
  match i with
  | .registerWrite m addr size value => Sys2Proof.Machine.execRegisterWrite m addr size value s
  | .wideLowRead m addr => Sys2Proof.Machine.execWideLowRead m addr s
  | .wideHighWrite m addr value => Sys2Proof.Machine.execWideHighWrite m addr value s
  | .wideLowWrite m addr value => Sys2Proof.Machine.execWideLowWrite m addr value s
  | .basinAccess m addr size write data upset => Sys2Proof.Machine.execBasinAccess m addr size write data upset s
  | .basinPatrolScrub core word upset => Sys2Proof.Machine.execBasinPatrolScrub core word upset s
  | .hbmAccess m addr size narrow write data upset => Sys2Proof.Machine.execHbmAccess m addr size narrow write data upset s
  | .msopAdd m addr mtype operand => Sys2Proof.Machine.execMsopAdd m addr mtype operand s
  | .msopMin m addr mtype operand => Sys2Proof.Machine.execMsopMin m addr mtype operand s
  | .msopMax m addr mtype operand => Sys2Proof.Machine.execMsopMax m addr mtype operand s
  | .msopXor m addr mtype operand => Sys2Proof.Machine.execMsopXor m addr mtype operand s
  | .hbmPatrol stack addr upset => Sys2Proof.Machine.execHbmPatrol stack addr upset s
  | .refreshRateChange stack temp => Sys2Proof.Machine.execRefreshRateChange stack temp s
  | .hbmHotThrottle stack temp => Sys2Proof.Machine.execHbmHotThrottle stack temp s
  | .hbmInitDone => Sys2Proof.Machine.execHbmInitDone s
  | .aqueductTransfer m src dst failedAt => Sys2Proof.Machine.execAqueductTransfer m src dst failedAt s
  | .ppsEdge at_ => Sys2Proof.Machine.execPpsEdge at_ s
  | .ppsFail => Sys2Proof.Machine.execPpsFail s
  | .ppsRequalify => Sys2Proof.Machine.execPpsRequalify s
  | .ref10mFail absentNs ppb => Sys2Proof.Machine.execRef10mFail absentNs ppb s
  | .ref10mRequalify => Sys2Proof.Machine.execRef10mRequalify s
  | .ptpMessage port slave udp msg => Sys2Proof.Machine.execPtpMessage port slave udp msg s
  | .ptpTimeout => Sys2Proof.Machine.execPtpTimeout s
  | .timeOfDayWrite m ns => Sys2Proof.Machine.execTimeOfDayWrite m ns s
  | .sourceFailover => Sys2Proof.Machine.execSourceFailover s
  | .sourceUpgrade => Sys2Proof.Machine.execSourceUpgrade s
  | .timeDisciplineTick elapsed offset => Sys2Proof.Machine.execTimeDisciplineTick elapsed offset s
  | .ppsOutRise => Sys2Proof.Machine.execPpsOutRise s
  | .ppsOutFall => Sys2Proof.Machine.execPpsOutFall s
  | .anchorReached => Sys2Proof.Machine.execAnchorReached s
  | .voteReady => Sys2Proof.Machine.execVoteReady s
  | .voteVeto => Sys2Proof.Machine.execVoteVeto s
  | .voteCutoff => Sys2Proof.Machine.execVoteCutoff s
  | .vote worker lock v layers overcommit causes => Sys2Proof.Machine.execVote worker lock v layers overcommit causes s
  | .decision d => Sys2Proof.Machine.execDecision d s
  | .lockInstant => Sys2Proof.Machine.execLockInstant s
  | .lockHold => Sys2Proof.Machine.execLockHold s
  | .lockCommitStep => Sys2Proof.Machine.execLockCommitStep s
  | .lockEnd => Sys2Proof.Machine.execLockEnd s
  | .noDecisionTimeout => Sys2Proof.Machine.execNoDecisionTimeout s
  | .servingSlotStart port => Sys2Proof.Machine.execServingSlotStart port s
  | .issueResume core => Sys2Proof.Machine.execIssueResume core s
  | .instructionComplete core queue => Sys2Proof.Machine.execInstructionComplete core queue s
  | .alu core d a b fn => Sys2Proof.Machine.execAlu core d a b fn s
  | .addi core d a imm => Sys2Proof.Machine.execAddi core d a imm s
  | .andi core d a imm => Sys2Proof.Machine.execAndi core d a imm s
  | .ori core d a imm => Sys2Proof.Machine.execOri core d a imm s
  | .xori core d a imm => Sys2Proof.Machine.execXori core d a imm s
  | .shi core d a imm => Sys2Proof.Machine.execShi core d a imm s
  | .shlor core d a imm => Sys2Proof.Machine.execShlor core d a imm s
  | .ld core d a imm => Sys2Proof.Machine.execLd core d a imm s
  | .ldw core d a imm => Sys2Proof.Machine.execLdw core d a imm s
  | .st core d a imm => Sys2Proof.Machine.execSt core d a imm s
  | .stw core d a imm => Sys2Proof.Machine.execStw core d a imm s
  | .tillerLoadReturn core => Sys2Proof.Machine.execTillerLoadReturn core s
  | .beq core a b off => Sys2Proof.Machine.execBeq core a b off s
  | .bne core a b off => Sys2Proof.Machine.execBne core a b off s
  | .blt core a b off => Sys2Proof.Machine.execBlt core a b off s
  | .bge core a b off => Sys2Proof.Machine.execBge core a b off s
  | .bltu core a b off => Sys2Proof.Machine.execBltu core a b off s
  | .bgeu core a b off => Sys2Proof.Machine.execBgeu core a b off s
  | .jal core d off => Sys2Proof.Machine.execJal core d off s
  | .jr core d a imm => Sys2Proof.Machine.execJr core d a imm s
  | .rds core d imm => Sys2Proof.Machine.execRds core d imm s
  | .waitq core imm => Sys2Proof.Machine.execWaitq core imm s
  | .statq core d imm => Sys2Proof.Machine.execStatq core d imm s
  | .msend core d a b fn => Sys2Proof.Machine.execMsend core d a b fn s
  | .mrecv core d a b fn => Sys2Proof.Machine.execMrecv core d a b fn s
  | .wfe core a => Sys2Proof.Machine.execWfe core a s
  | .wfeTimeout core => Sys2Proof.Machine.execWfeTimeout core s
  | .gemm core t => Sys2Proof.Machine.execGemm core t s
  | .convert core t => Sys2Proof.Machine.execConvert core t s
  | .sound core t => Sys2Proof.Machine.execSound core t s
  | .vectorAdd core t => Sys2Proof.Machine.execVectorAdd core t s
  | .vectorSub core t => Sys2Proof.Machine.execVectorSub core t s
  | .vectorMul core t => Sys2Proof.Machine.execVectorMul core t s
  | .vectorFma core t => Sys2Proof.Machine.execVectorFma core t s
  | .vectorDiv core t => Sys2Proof.Machine.execVectorDiv core t s
  | .vectorSqrt core t => Sys2Proof.Machine.execVectorSqrt core t s
  | .vectorRem core t => Sys2Proof.Machine.execVectorRem core t s
  | .vectorMin core t => Sys2Proof.Machine.execVectorMin core t s
  | .vectorMax core t => Sys2Proof.Machine.execVectorMax core t s
  | .cmpeq core t => Sys2Proof.Machine.execCmpeq core t s
  | .cmplt core t => Sys2Proof.Machine.execCmplt core t s
  | .cmple core t => Sys2Proof.Machine.execCmple core t s
  | .cvt core t => Sys2Proof.Machine.execCvt core t s
  | .neg core t => Sys2Proof.Machine.execNeg core t s
  | .abs core t => Sys2Proof.Machine.execAbs core t s
  | .vectorAnd core t => Sys2Proof.Machine.execVectorAnd core t s
  | .vectorOr core t => Sys2Proof.Machine.execVectorOr core t s
  | .vectorXor core t => Sys2Proof.Machine.execVectorXor core t s
  | .shl core t => Sys2Proof.Machine.execShl core t s
  | .shr core t => Sys2Proof.Machine.execShr core t s
  | .redsum core t => Sys2Proof.Machine.execRedsum core t s
  | .redmax core t => Sys2Proof.Machine.execRedmax core t s
  | .vectorLd core t => Sys2Proof.Machine.execVectorLd core t s
  | .vectorSt core t => Sys2Proof.Machine.execVectorSt core t s
  | .ldb core t => Sys2Proof.Machine.execLdb core t s
  | .stb core t => Sys2Proof.Machine.execStb core t s
  | .srfw core t => Sys2Proof.Machine.execSrfw core t s
  | .moveAccToReg core t => Sys2Proof.Machine.execMoveAccToReg core t s
  | .moveRegToAcc core t => Sys2Proof.Machine.execMoveRegToAcc core t s
  | .moveBasinCopy core t => Sys2Proof.Machine.execMoveBasinCopy core t s
  | .moveBasinToSrf core t => Sys2Proof.Machine.execMoveBasinToSrf core t s
  | .moveSrfToBasin core t => Sys2Proof.Machine.execMoveSrfToBasin core t s
  | .moveClearRows core t => Sys2Proof.Machine.execMoveClearRows core t s
  | .fenceQueue core t => Sys2Proof.Machine.execFenceQueue core t s
  | .fenceVisible core t => Sys2Proof.Machine.execFenceVisible core t s
  | .fenceGlobal core t => Sys2Proof.Machine.execFenceGlobal core t s
  | .fenceEop core t => Sys2Proof.Machine.execFenceEop core t s
  | .writeAcknowledged m remote => Sys2Proof.Machine.execWriteAcknowledged m remote s
  | .claimTake core t => Sys2Proof.Machine.execClaimTake core t s
  | .claimTakeResume core => Sys2Proof.Machine.execClaimTakeResume core s
  | .claimDone core t => Sys2Proof.Machine.execClaimDone core t s
  | .ringDoorbell m off size value => Sys2Proof.Machine.execRingDoorbell m off size value s
  | .ringFetch ring remote => Sys2Proof.Machine.execRingFetch ring remote s
  | .ringResume m ring => Sys2Proof.Machine.execRingResume m ring s
  | .nop ring index => Sys2Proof.Machine.execNop ring index s
  | .schedule ring index image => Sys2Proof.Machine.execSchedule ring index image s
  | .config ring index => Sys2Proof.Machine.execConfig ring index s
  | .serve ring index response => Sys2Proof.Machine.execServe ring index response s
  | .copy ring index => Sys2Proof.Machine.execCopy ring index s
  | .intakeFragment port h data => Sys2Proof.Machine.execIntakeFragment port h data s
  | .intakeExpiry port srcAddr srcPort reqId => Sys2Proof.Machine.execIntakeExpiry port srcAddr srcPort reqId s
  | .intakeRefusalForget port srcAddr srcPort reqId => Sys2Proof.Machine.execIntakeRefusalForget port srcAddr srcPort reqId s
  | .dmGo m engine value => Sys2Proof.Machine.execDmGo m engine value s
  | .dmaDescriptorFetch engine => Sys2Proof.Machine.execDmaDescriptorFetch engine s
  | .dmaCopy engine => Sys2Proof.Machine.execDmaCopy engine s
  | .dmaFill engine => Sys2Proof.Machine.execDmaFill engine s
  | .dmaMsop engine => Sys2Proof.Machine.execDmaMsop engine s
  | .dmaBarge engine => Sys2Proof.Machine.execDmaBarge engine s
  | .dmaSignal engine => Sys2Proof.Machine.execDmaSignal engine s
  | .dmaDescriptorComplete engine => Sys2Proof.Machine.execDmaDescriptorComplete engine s
  | .dmaResume m engine => Sys2Proof.Machine.execDmaResume m engine s
  | .dmaAbort m engine => Sys2Proof.Machine.execDmaAbort m engine s
  | .mbMsgSend m core chan value => Sys2Proof.Machine.execMbMsgSend m core chan value s
  | .mailboxArrival => Sys2Proof.Machine.execMailboxArrival s
  | .emptyNote => Sys2Proof.Machine.execEmptyNote s
  | .mbLockRead m core chan => Sys2Proof.Machine.execMbLockRead m core chan s
  | .mbLockWrite m core chan value => Sys2Proof.Machine.execMbLockWrite m core chan value s
  | .obsWrite m core index value => Sys2Proof.Machine.execObsWrite m core index value s
  | .gnPartialWrite m core value => Sys2Proof.Machine.execGnPartialWrite m core value s
  | .gnDeviceSum => Sys2Proof.Machine.execGnDeviceSum s
  | .gnNorm sums => Sys2Proof.Machine.execGnNorm sums s
  | .gnDone norm fact nf => Sys2Proof.Machine.execGnDone norm fact nf s
  | .lossWrite m core value => Sys2Proof.Machine.execLossWrite m core value s
  | .spikeSample => Sys2Proof.Machine.execSpikeSample s
  | .linkTrained port sub failed peer => Sys2Proof.Machine.execLinkTrained port sub failed peer s
  | .keyReady port sub => Sys2Proof.Machine.execKeyReady port sub s
  | .codewordTransmit port sub at_ => Sys2Proof.Machine.execCodewordTransmit port sub at_ s
  | .codewordReceive port sub cw => Sys2Proof.Machine.execCodewordReceive port sub cw s
  | .nakReceived port sub ack => Sys2Proof.Machine.execNakReceived port sub ack s
  | .laneFail port sub lane uncorrectable correctedPpm => Sys2Proof.Machine.execLaneFail port sub lane uncorrectable correctedPpm s
  | .retrainDone port sub => Sys2Proof.Machine.execRetrainDone port sub s
  | .linkDown port sub => Sys2Proof.Machine.execLinkDown port sub s
  | .linkRetryTimer port sub => Sys2Proof.Machine.execLinkRetryTimer port sub s
  | .lkRetrain m port sub => Sys2Proof.Machine.execLkRetrain m port sub s
  | .lkRestore m port sub => Sys2Proof.Machine.execLkRestore m port sub s
  | .lkTowpath m port sub => Sys2Proof.Machine.execLkTowpath m port sub s
  | .lkFullRate m port sub => Sys2Proof.Machine.execLkFullRate m port sub s
  | .lkWake m port sub mask => Sys2Proof.Machine.execLkWake m port sub mask s
  | .portReconfigure port mode split => Sys2Proof.Machine.execPortReconfigure port mode split s
  | .rekeySwitch port sub => Sys2Proof.Machine.execRekeySwitch port sub s
  | .keyPhaseErase port sub phase => Sys2Proof.Machine.execKeyPhaseErase port sub phase s
  | .keyAging port sub => Sys2Proof.Machine.execKeyAging port sub s
  | .towpathChangeover port sub => Sys2Proof.Machine.execTowpathChangeover port sub s
  | .fullRateTrained port sub => Sys2Proof.Machine.execFullRateTrained port sub s
  | .delayTimer port sub t1 => Sys2Proof.Machine.execDelayTimer port sub t1 s
  | .delayReq port sub t1 t2 t3 => Sys2Proof.Machine.execDelayReq port sub t1 t2 t3 s
  | .delayResp port sub t2 t3 t4 => Sys2Proof.Machine.execDelayResp port sub t2 t3 t4 s
  | .timeSendTimer port sub tcw => Sys2Proof.Machine.execTimeSendTimer port sub tcw s
  | .time port sub tcw t2 errBound => Sys2Proof.Machine.execTime port sub tcw t2 errBound s
  | .ttTimeout port sub => Sys2Proof.Machine.execTtTimeout port sub s
  | .wake port sub mask => Sys2Proof.Machine.execWake port sub mask s
  | .towpathEnter port sub => Sys2Proof.Machine.execTowpathEnter port sub s
  | .fullRate port sub => Sys2Proof.Machine.execFullRate port sub s
  | .read port sub h size => Sys2Proof.Machine.execRead port sub h size s
  | .write port sub h data => Sys2Proof.Machine.execWrite port sub h data s
  | .memorySideOperation port sub h operand => Sys2Proof.Machine.execMemorySideOperation port sub h operand s
  | .doorbell port sub h value => Sys2Proof.Machine.execDoorbell port sub h value s
  | .mailboxSend port sub h message => Sys2Proof.Machine.execMailboxSend port sub h message s
  | .readResponse port sub h data => Sys2Proof.Machine.execReadResponse port sub h data s
  | .writeAcknowledgement port sub h => Sys2Proof.Machine.execWriteAcknowledgement port sub h s
  | .forward port sub cls h data => Sys2Proof.Machine.execForward port sub cls h data s
  | .ethFrame port iface frame macsecGood => Sys2Proof.Machine.execEthFrame port iface frame macsecGood s
  | .admitDevice ring index open_ chainGood report peerAccepts => Sys2Proof.Machine.execAdmitDevice ring index open_ chainGood report peerAccepts s
  | .release ring index => Sys2Proof.Machine.execRelease ring index s
  | .routes ring index => Sys2Proof.Machine.execRoutes ring index s
  | .broadcast ring index => Sys2Proof.Machine.execBroadcast ring index s
  | .snapshot ring index => Sys2Proof.Machine.execSnapshot ring index s
  | .restore ring index => Sys2Proof.Machine.execRestore ring index s
  | .replace ring index spareHoldsCores => Sys2Proof.Machine.execReplace ring index spareHoldsCores s
  | .keeperReset ring index => Sys2Proof.Machine.execKeeperReset ring index s
  | .readmit ring index => Sys2Proof.Machine.execReadmit ring index s
  | .fleetWake ring index => Sys2Proof.Machine.execFleetWake ring index s
  | .group ring index => Sys2Proof.Machine.execGroup ring index s
  | .withdraw ring index => Sys2Proof.Machine.execWithdraw ring index s
  | .fleetCmd src order => Sys2Proof.Machine.execFleetCmd src order s
  | .report worker score losses missedLocks epoch => Sys2Proof.Machine.execReport worker score losses missedLocks epoch s
  | .chunk number block index data => Sys2Proof.Machine.execChunk number block index data s
  | .broadcastWindowEnd => Sys2Proof.Machine.execBroadcastWindowEnd s
  | .missing receiver blocks => Sys2Proof.Machine.execMissing receiver blocks s
  | .missingRepeat => Sys2Proof.Machine.execMissingRepeat s
  | .imageVerify badTries => Sys2Proof.Machine.execImageVerify badTries s
  | .broadcastDeadline => Sys2Proof.Machine.execBroadcastDeadline s
  | .lease lock epoch poundUs => Sys2Proof.Machine.execLease lock epoch poundUs s
  | .leaseAck lock epoch poundUs => Sys2Proof.Machine.execLeaseAck lock epoch poundUs s
  | .leaseExpiry => Sys2Proof.Machine.execLeaseExpiry s
  | .standbyTakeover => Sys2Proof.Machine.execStandbyTakeover s
  | .adrift dev epoch => Sys2Proof.Machine.execAdrift dev epoch s
  | .repairSwitch => Sys2Proof.Machine.execRepairSwitch s
  | .replayCheck samples => Sys2Proof.Machine.execReplayCheck samples s
  | .snapshotTransferEnd toSink good => Sys2Proof.Machine.execSnapshotTransferEnd toSink good s
  | .keeperHeartbeat => Sys2Proof.Machine.execKeeperHeartbeat s
  | .adriftDetect agent missed => Sys2Proof.Machine.execAdriftDetect agent missed s
  | .vinPowerUp vinMv => Sys2Proof.Machine.execVinPowerUp vinMv s
  | .keeperRailsGood good => Sys2Proof.Machine.execKeeperRailsGood good s
  | .resonatorSettled => Sys2Proof.Machine.execResonatorSettled s
  | .bootRom selfTestGood => Sys2Proof.Machine.execBootRom selfTestGood s
  | .keeperFirmwareReady good => Sys2Proof.Machine.execKeeperFirmwareReady good s
  | .partitionSwitchOn part => Sys2Proof.Machine.execPartitionSwitchOn part s
  | .startupCheckDone found => Sys2Proof.Machine.execStartupCheckDone found s
  | .linksFirstTrainingDone => Sys2Proof.Machine.execLinksFirstTrainingDone s
  | .ready => Sys2Proof.Machine.execReady s
  | .startFail cause => Sys2Proof.Machine.execStartFail cause s
  | .resetNAssert lowNs => Sys2Proof.Machine.execResetNAssert lowNs s
  | .deviceReset m value => Sys2Proof.Machine.execDeviceReset m value s
  | .keeperOnlyReset m value => Sys2Proof.Machine.execKeeperOnlyReset m value s
  | .keeperRestarted => Sys2Proof.Machine.execKeeperRestarted s
  | .coreReset m core => Sys2Proof.Machine.execCoreReset m core s
  | .clusterReset m cluster => Sys2Proof.Machine.execClusterReset m cluster s
  | .partitionReset m part => Sys2Proof.Machine.execPartitionReset m part s
  | .resetDrainComplete scope target => Sys2Proof.Machine.execResetDrainComplete scope target s
  | .resetRelease scope target => Sys2Proof.Machine.execResetRelease scope target s
  | .pwDomEnWrite m part en => Sys2Proof.Machine.execPwDomEnWrite m part en s
  | .wakingDone part tookMs => Sys2Proof.Machine.execWakingDone part tookMs s
  | .drainingDone part => Sys2Proof.Machine.execDrainingDone part s
  | .selftestFull m => Sys2Proof.Machine.execSelftestFull m s
  | .selftestPart m parts => Sys2Proof.Machine.execSelftestPart m parts s
  | .selftestAbort m => Sys2Proof.Machine.execSelftestAbort m s
  | .selftestSliceEnd failures passed => Sys2Proof.Machine.execSelftestSliceEnd failures passed s
  | .selftestSliceTimeout => Sys2Proof.Machine.execSelftestSliceTimeout s
  | .burn m value => Sys2Proof.Machine.execBurn m value s
  | .fuseEntryBurned good => Sys2Proof.Machine.execFuseEntryBurned good s
  | .attestationRequest nonce wantKey => Sys2Proof.Machine.execAttestationRequest nonce wantKey s
  | .ephemeralKeyExpiry => Sys2Proof.Machine.execEphemeralKeyExpiry s
  | .authorisationOffer t => Sys2Proof.Machine.execAuthorisationOffer t s
  | .authorisationExpiry => Sys2Proof.Machine.execAuthorisationExpiry s
  | .revokeSigningKey index => Sys2Proof.Machine.execRevokeSigningKey index s
  | .raiseRollback value => Sys2Proof.Machine.execRaiseRollback value s
  | .replaceOperatorKeys hashes digest => Sys2Proof.Machine.execReplaceOperatorKeys hashes digest s
  | .sessionOpen keyHash exchangeGood => Sys2Proof.Machine.execSessionOpen keyHash exchangeGood s
  | .imageSlotWrite image => Sys2Proof.Machine.execImageSlotWrite image s
  | .drbgReseed => Sys2Proof.Machine.execDrbgReseed s
  | .measExtend m value => Sys2Proof.Machine.execMeasExtend m value s
  | .hmKregWrite m index value epoch => Sys2Proof.Machine.execHmKregWrite m index value epoch s
  | .i3cSetdasa address => Sys2Proof.Machine.execI3cSetdasa address s
  | .i3cEntdaa address => Sys2Proof.Machine.execI3cEntdaa address s
  | .eventReport => Sys2Proof.Machine.execEventReport s
  | .evTailWrite m value => Sys2Proof.Machine.execEvTailWrite m value s
  | .pwLimitWrite m value => Sys2Proof.Machine.execPwLimitWrite m value s
  | .pwClkWrite m value => Sys2Proof.Machine.execPwClkWrite m value s
  | .limiterSample vinMv iin10ma avgW peakW lowerMhz => Sys2Proof.Machine.execLimiterSample vinMv iin10ma avgW peakW lowerMhz s
  | .clockRaise => Sys2Proof.Machine.execClockRaise s
  | .throttleDown jmax die => Sys2Proof.Machine.execThrottleDown jmax die s
  | .throttleUp jmax die => Sys2Proof.Machine.execThrottleUp jmax die s
  | .thermalTrip jmax hmax above105Ms => Sys2Proof.Machine.execThermalTrip jmax hmax above105Ms s
  | .thermalTripRelease hottest coolMs => Sys2Proof.Machine.execThermalTripRelease hottest coolMs s
  | .uvWarn vinMv lastedUs => Sys2Proof.Machine.execUvWarn vinMv lastedUs s
  | .ovWarn vinMv lastedUs => Sys2Proof.Machine.execOvWarn vinMv lastedUs s
  | .railWarn vinMv permille lastedUs => Sys2Proof.Machine.execRailWarn vinMv permille lastedUs s
  | .uvShutdown vinMv lastedUs => Sys2Proof.Machine.execUvShutdown vinMv lastedUs s
  | .ovShutdown vinMv lastedUs => Sys2Proof.Machine.execOvShutdown vinMv lastedUs s
  | .railShutdown vinMv permille overCurrent lastedUs => Sys2Proof.Machine.execRailShutdown vinMv permille overCurrent lastedUs s
  | .overcurrentShutdown vinMv iin10ma lastedUs => Sys2Proof.Machine.execOvercurrentShutdown vinMv iin10ma lastedUs s
  | .supplyShutdownRelease vinMv steadyMs resetNLowNs below10vMs => Sys2Proof.Machine.execSupplyShutdownRelease vinMv steadyMs resetNLowNs below10vMs s
  | .cablePresent port => Sys2Proof.Machine.execCablePresent port s
  | .resetNRelease => Sys2Proof.Machine.execResetNRelease s
  | .kpResetRelease => Sys2Proof.Machine.execKpResetRelease s
  | .linkKeyExchange port sub good material => Sys2Proof.Machine.execLinkKeyExchange port sub good material s
  | .ethLinkUp port iface => Sys2Proof.Machine.execEthLinkUp port iface s
  | .ethLinkDown port iface => Sys2Proof.Machine.execEthLinkDown port iface s
  | .keeperReportTimeout dev => Sys2Proof.Machine.execKeeperReportTimeout dev s
  | .admitTimeout ring index => Sys2Proof.Machine.execAdmitTimeout ring index s
  | .ppsInFallingEdge at_ => Sys2Proof.Machine.execPpsInFallingEdge at_ s
  | .cakDelivery port iface cak => Sys2Proof.Machine.execCakDelivery port iface cak s
  | .keeperFirmwareException pc => Sys2Proof.Machine.execKeeperFirmwareException pc s

end Sys2Proof.Machine
end

