-- ==== Sys2Proof/Machine/Fetch.lean ====
section
/-! DEFINITION. Programs: the words of scalar and tile instructions as a tiller fetches them from its basin, and the fetch that the block makes when no command waits (R170, R172, R173, R175, R176). -/

namespace Sys2Proof.Machine

/-! ## Scalar words (R172, R173) -/

/-- A scalar word of a core's program as the command it is; none for an OP that R173 does not list. -/
def scalarOf (c : CoreId) (w : Word) : Option Instr :=
  let x : BitVec 5 := w.extractLsb' 21 5
  let y : BitVec 5 := w.extractLsb' 16 5
  let z : BitVec 5 := w.extractLsb' 11 5
  let fn : BitVec 11 := w.extractLsb' 0 11
  let imm : BitVec 16 := w.extractLsb' 0 16
  let off : BitVec 21 := w.extractLsb' 0 21
  match natBits 26 6 w.toNat with
  | 0x00 => some (.alu c x y z fn)
  | 0x01 => some (.addi c x y imm)
  | 0x02 => some (.andi c x y imm)
  | 0x03 => some (.ori c x y imm)
  | 0x04 => some (.xori c x y imm)
  | 0x05 => some (.shi c x y imm)
  | 0x06 => some (.shlor c x y imm)
  | 0x08 => some (.ld c x y imm)
  | 0x09 => some (.ldw c x y imm)
  | 0x0A => some (.st c x y imm)
  | 0x0B => some (.stw c x y imm)
  | 0x10 => some (.beq c x y imm)
  | 0x11 => some (.bne c x y imm)
  | 0x12 => some (.blt c x y imm)
  | 0x13 => some (.bge c x y imm)
  | 0x14 => some (.bltu c x y imm)
  | 0x15 => some (.bgeu c x y imm)
  | 0x18 => some (.jal c x off)
  | 0x19 => some (.jr c x y imm)
  | 0x1C => some (.rds c x imm)
  | 0x1D => some (.waitq c imm)
  | 0x1E => some (.statq c x imm)
  | 0x20 => some (.msend c x y z fn)
  | 0x21 => some (.mrecv c x y z fn)
  | 0x22 => some (.wfe c y)
  | _ => none

/-! ## The fetch (R170, R175, R176) -/

/-- The 32-bit word `k` words after the program counter of a core, which lies in the core's basin. -/
def State.progWord (s : State) (c k : Nat) : Word := BitVec.ofNat 32 (s.load (c * basinSize + (s.core c).pc + 4 * k) 4)

/-- The four words of a tile instruction at the program counter. -/
def State.progTile (s : State) (c : Nat) : TileWords := ⟨s.progWord c 0, s.progWord c 1, s.progWord c 2, s.progWord c 3⟩

/-- Whether an OP is the first word of a tile instruction (R173). -/
def isTileOp (op : Nat) : Bool := decide (0x30 ≤ op ∧ op ≤ 0x36)

/-- What a fetched word does, all reads of its words having succeeded. -/
def State.runWord (s : State) (c : CoreId) : Host.Outcome State Fault Refusal :=
  let w := s.progWord c 0
  if isTileOp (natBits 26 6 w.toNat) then
    let t := s.progTile c
    .next (if t.cls = 0x34 ∨ t.cls = 0x36 then s.issueOwn c t else s.issueTile c t)
  else match scalarOf c w with
    | some i => exec i s
    | none => .next (s.selfFault c stBAD_OPCODE)

/-- A core's tiller fetches the instruction at its program counter and issues it: one that cannot be read stops the core with the status
of its read, one outside the basin with BOUNDS_FAULT. -/
def State.fetch (s : State) (c : CoreId) : Host.Outcome State Fault Refusal :=
  let pc := (s.core c).pc
  if pc % 4 ≠ 0 then .next (s.selfFault c stALIGN_FAULT)
  else if basinSize < pc + 4 then .next (s.selfFault c stBOUNDS_FAULT)
  else
    let n := if isTileOp (natBits 26 6 (s.progWord c 0).toNat) then 16 else 4
    if basinSize < pc + n then .next (s.selfFault c stBOUNDS_FAULT)
    else
      let (st, s) := s.unitRd (c * basinSize + pc) n
      if st ≠ stOK then .next (s.selfFault c st) else s.runWord c

/-- The core whose tiller fetches next: the first, from core `turn` on, that runs and waits for nothing. -/
def State.nextCore (s : State) : Option CoreId :=
  ((List.finRange 1024).map (fun i => i + Fin.ofNat 1024 s.turn)).find? (fun c => s.canIssue c)

/-- What happens when no command waits: a tiller fetches and issues one instruction of its program, each in its turn (DESIGN CHOICE: the
manual gives the cores no order among themselves); with no tiller running the block idles. -/
def tick (s : State) : Host.Outcome State Fault Refusal :=
  match s.nextCore with
  | some c => State.fetch { s with turn := c.val + 1 } c
  | none => .next s

end Sys2Proof.Machine
end

