-- ==== Sys2Proof/Safety.lean ====
section
/-! DEFINITION. What counts as a safe state and a safe step of the block, in the terms that statements use. -/

namespace Sys2Proof.Machine

/-- Memory in canonical form: addresses rise strictly, and no listed byte is 0, as an unlisted one reads. -/
def Memory.wf (m : List Host.Cell) : Bool := spWf 0#8 m

/-- Every sparse map of the state in canonical form: keys rise strictly and no entry equals what an unlisted key reads as, so that
equal contents are equal data. -/
def State.canonical (s : State) : Prop :=
  spWf 0#32 s.regs = true ∧ spWf 0#32 s.capture = true ∧ Memory.wf s.mem = true ∧ spWf 0 s.ecc = true ∧ spWf 0 s.blockKey = true
    ∧ spWf Core.initial s.cores = true ∧ spWf (⟨[], [], []⟩ : Claim) s.claims = true ∧ spWf Engine.initial s.engines = true
    ∧ spWf [] s.rings = true ∧ spWf (⟨0#128⟩ : Chan) s.chans = true ∧ spWf [] s.notes = true ∧ spWf Intake.initial s.intake = true
    ∧ spWf Sub.initial s.subs = true ∧ spWf 0#256 s.caks = true ∧ spWf 0 s.lastRec = true

/-- The outcome is a next state, and the property holds of it. -/
def nextAnd (o : Host.Outcome State Fault Refusal) (p : State → Prop) : Prop :=
  match o with
  | .next t => p t
  | _ => False

/-- A step is safe when it stops with neither a fault nor a refusal. -/
def Safe (s : State) : Prop := nextAnd (step s) (fun _ => True)

end Sys2Proof.Machine
end

