-- ==== Sys2Proof/Certificates/Slice0/Obligations.lean ====
section
/-! DEFINITION. The statements for the provers. Each says what a rule of the manual says of a command or of the whole block. A command's
statement has as its conclusion the next state of the command's own effect, for every state and operands that meet its premises. -/

open Sys2Proof Sys2Proof.Machine

namespace Sys2Proof.Machine

/-- An access of `n` bytes at a local address passes the checks that every access meets, and no earlier message of the master is still on its way
to that die: the address exists, its core is present, the master has the right, nothing absorbs it and no aqueduct fails it (R16, R27, R43,
R44, R48, R432, R446). -/
abbrev PassesN (s : State) (m : Ident) (a n : Nat) (write : Bool) : Prop := s.sendsTo m a = [] ∧ (s.checkLocal m a n write).1 = stOK

/-- A read or a write of the register at a local address passes them. -/
abbrev Passes (s : State) (m : Ident) (a : Nat) (write : Bool) : Prop := PassesN s m a 4 write

/-- Registers whose write has no effect but on their own fields, by block and offset. -/
def plainPlace : Blk → Nat → Bool
  | .cd _, _ | .wh _, _ | .cc _, _ => true
  | .tm, o => o != 0x14 && o != 0x3C
  | .kp, o => !([0x30, 0x50, 0x60, 0xC00, 0xC80].contains o) && !decide (0x800 ≤ o ∧ o < 0xA00)
  | .co _, o => decide (o < 0x4000) && o != 0x200 && o != 0x208
  | _, _ => false

/-- Core `c` may issue an instruction of `n` bytes: its tiller runs and waits for nothing, and the instruction lies in its basin (R170, R173). -/
abbrev Ready (s : State) (c n : Nat) : Prop :=
  s.tstate c = 1 ∧ (s.core c).stall = .none ∧ (s.core c).pc % 4 = 0 ∧ (s.core c).pc + n ≤ 0x2000000

/-- `t` is `s` with core `c` as `k` and nothing else changed. -/
def CoreBecomes (s t : State) (c : Nat) (k : Core) : Prop :=
  t = { s with cores := t.cores } ∧ t.core c = k ∧ ∀ d : Nat, d ≠ c → t.core d = s.core d

/-- `t` holds `bs` from address `a` on, and every other byte as `s` does. -/
def Stores (s t : State) (a : Nat) (bs : List Byte) : Prop :=
  (∀ (i : Nat) (h : i < bs.length), t.byte (a + i) = bs[i]) ∧ ∀ x : Nat, x < a ∨ a + bs.length ≤ x → t.byte x = s.byte x

/-- Every register but those at the addresses of `l` holds in `t` what it holds in `s`. -/
def RegsBut (s t : State) (l : List Nat) : Prop := ∀ a : Nat, a ∉ l → t.rd a = s.rd a

/-- The addresses of `n` registers in a row from `a` on. -/
def wordsAt (a n : Nat) : List Nat := (List.range n).map (fun i => a + 4 * i)

/-- `t` is `s` but for one sub-port's own state and the registers of `l`. -/
def SubChanges (s t : State) (p b : Nat) (l : List Nat) : Prop :=
  (∀ q e : Nat, 8 * q + e ≠ 8 * p + b → t.sub q e = s.sub q e) ∧ RegsBut s t l ∧ t = { s with regs := t.regs, subs := t.subs, tx := t.tx, time := t.time }

/-- A change bound to an epoch, as the last of those that wait. -/
def Binds (s t : State) (e : Nat) (c : Change) (ref : Option (Nat × Nat)) : Prop :=
  t = { s with lock := { s.lock with changes := s.lock.changes ++ [⟨e, c, ref⟩] } }

end Sys2Proof.Machine

/-! ## The block as a whole -/

/-- A step takes the command at the front of the queue and runs it with the queue's rest. -/
def Obligations.StepRunsTheCommandInFront : Prop :=
  ∀ (c : Instr) (rest : List Instr) (s : State), step { s with pending := c :: rest } = exec c { s with pending := rest }

/-- No step ends in a fault or a refusal: the model's reading that every error of the T25 is state (notes/assumptions/4.md). -/
def Obligations.EveryStepCompletes : Prop := ∀ s : State, ∃ t : State, step s = .next t

namespace Sys2Proof.Machine

/-- A step takes one command, the oldest, and puts none into the queue; on an empty queue with no tiller ready to issue the block idles, which
is the model's choice (notes/assumptions/3.md). -/
def QueueShrinksByOne : Prop :=
  ∀ s t : State, step s = .next t → t.pending = s.pending.tail ∧ (s.pending = [] → s.nextCore = none → t = s)

/-- When no command waits and a core's tiller is the next to issue, a step fetches the word at that core's program counter, in its basin: a word that R173
lists runs as the command it spells; a tile instruction's first word is issued with the three words after it to its queue, a fence or a claim to its own unit; any other
word stops the core with BAD_OPCODE. Which tiller is next is the model's choice (notes/assumptions/3.md). -/
def ProgramsRunWordByWord : Prop :=
  ∀ (c : CoreId) (s : State), let pc := (s.core c).pc
    let u := { s with turn := c.val + 1 }
    s.pending = [] → s.nextCore = some c → pc % 4 = 0 → pc + 16 ≤ 0x2000000 → s.ecc = [] → s.coreUp c = true →
    (∀ i : Instr, scalarOf c (s.progWord c 0) = some i → step s = exec i u)
    ∧ (isTileOp (natBits 26 6 (s.progWord c 0).toNat) = true →
        step s = .next (if (s.progTile c).cls = 0x34 ∨ (s.progTile c).cls = 0x36 then u.issueOwn c (s.progTile c) else u.issueTile c (s.progTile c)))
    ∧ (isTileOp (natBits 26 6 (s.progWord c 0).toNat) = false → scalarOf c (s.progWord c 0) = none → step s = .next (u.selfFault c stBAD_OPCODE))

end Sys2Proof.Machine

/-- Every step keeps the canonical form of the registers, the memories and every other sparse map. -/
def Obligations.StepKeepsCanonicalForm : Prop := ∀ s t : State, s.canonical → step s = .next t → t.canonical

/-- The state after reset has that form. -/
def Obligations.ResetIsCanonical : Prop := State.reset.canonical

/-- The fuses only grow: no step lowers the rollback counter, clears a revocation or removes a burnt repair entry. -/
def Obligations.FusesOnlyGrow : Prop :=
  ∀ s t : State, step s = .next t →
    s.fuses.rollback ≤ t.fuses.rollback ∧ (∀ i : Nat, s.fuses.revoked.testBit i = true → t.fuses.revoked.testBit i = true)
      ∧ s.fuses.fused <+: t.fuses.fused

/-- What the spec's register tables give for reset, in every kind of block; and that memory, the queue and every unit's queue hold
nothing. -/
def Obligations.ResetReadsAsTheTablesSay : Prop :=
  let s := State.reset
  s.rf KP_PART_INFO KP_PART_INFO_CODE = 1 ∧ s.rf KP_PART_INFO KP_PART_INFO_CLK_MAX = 1000
  ∧ s.rf TM_LOCK_STATUS TM_LOCK_STATUS_STATE = 0 ∧ s.rf TM_SRC_STATUS TM_SRC_STATUS_ERR_BOUND = 0xFFFF
  ∧ s.rf KP_BOOT_STATUS KP_BOOT_STATUS_STAGE = 0 ∧ (∀ r : Fin 16, s.rd (KP_RING_CFG r) = 8)
  ∧ (∀ k : Fin 4, s.rf (PW_DOM k) PW_DOM_STATE = 0) ∧ s.pending = [] ∧ s.mem = [] ∧ s.cores = [] ∧ s.events = []

/-- A step takes one command off the queue, and where none waits a core fetches its next instruction. -/
def Obligations.StepTakesOneCommand : Prop := QueueShrinksByOne ∧ ProgramsRunWordByWord

/-! ## Registers -/

namespace Sys2Proof.Machine

/-- What a write makes of one field, by its access code (R11): fields lie in the word and do not overlap. -/
def WrittenFieldsFollow : Prop :=
  ∀ (l : List RegField) (locked : Bool) (old v : Nat), old < 2 ^ 32 → (∀ f ∈ l, f.lo + f.width ≤ 32) →
    l.Pairwise (fun f g => f.lo + f.width ≤ g.lo ∨ g.lo + g.width ≤ f.lo) → ∀ f ∈ l,
      natBits f.lo f.width (writeFields l locked old v) =
        match f.acc with
        | .ro => natBits f.lo f.width old
        | .rw => natBits f.lo f.width v
        | .wo => natBits f.lo f.width v
        | .w1c => natBits f.lo f.width old - (natBits f.lo f.width old &&& natBits f.lo f.width v)
        | .rwl => if locked then natBits f.lo f.width old else natBits f.lo f.width v

/-- What a read returns of one field: a WO field reads zero, any other its value (R11). -/
def ReadFieldsFollow : Prop :=
  ∀ (l : List RegField) (w : Nat), (∀ f ∈ l, f.lo + f.width ≤ 32) →
    l.Pairwise (fun f g => f.lo + f.width ≤ g.lo ∨ g.lo + g.width ≤ f.lo) → ∀ f ∈ l,
      natBits f.lo f.width (readFields l w) = if f.acc = .wo then 0 else natBits f.lo f.width w

/-- R14: a bit that lies in no field of its register reads zero whatever the word holds, and a write leaves it as it stands. -/
def ReservedFieldsStayZero : Prop :=
  ∀ (l : List RegField) (locked : Bool) (old v i : Nat), (∀ f ∈ l, i < f.lo ∨ f.lo + f.width ≤ i) →
    natBit i (readFields l v) = false ∧ natBit i (writeFields l locked old v) = natBit i old

/-- Completion of the register commands. A write of a plain register sets its word by its fields' codes; a write of a higher word of a
wide quantity loads its buffer; a write of the lowest word of a quantity of two words takes effect for both and empties the buffers;
a read of the lowest word returns it and loads the capture (R11, R15). -/
def PlainRegistersComplete : Prop :=
  ∀ (m : Ident) (addr : Dword) (value : Word) (b : Blk) (o : Nat) (s : State), addr.toNat < 2 ^ 48 → target addr.toNat = .reg b o →
    addr.toNat = b.base + o → addr.toNat % 4 = 0 →
    (plainPlace b o = true → wideIn o b.wides = none → Passes s m addr.toNat true →
      exec (.registerWrite m addr 4 value) s
        = .next ((s.wr addr.toNat (writeFields (b.fields o) false (s.rd addr.toNat) value.toNat)).reply stOK []))
    ∧ (∀ lo n i : Nat, plainPlace b o = true → wideIn o b.wides = some (lo, n, i + 1) → Passes s m addr.toNat true →
      exec (.wideHighWrite m addr value) s = .next ((s.setBuffer addr.toNat value.toNat).reply stOK []))
    ∧ (plainPlace b o = true → wideIn o b.wides = some (o, 2, 0) → Passes s m addr.toNat true →
      ∃ t : State, exec (.wideLowWrite m addr value) s = .next t
        ∧ t.rd addr.toNat = writeFields (b.fields o) false (s.rd addr.toNat) value.toNat % 2 ^ 32
        ∧ t.rd (addr.toNat + 4) = writeFields (b.fields (o + 4)) false (s.rd (addr.toNat + 4)) ((s.buffered (addr.toNat + 4)).getD (s.rd (addr.toNat + 4))) % 2 ^ 32
        ∧ t.buffered addr.toNat = none ∧ t.buffered (addr.toNat + 4) = none
        ∧ (∀ a : Nat, a ≠ addr.toNat → a ≠ addr.toNat + 4 → t.rd a = s.rd a)
        ∧ t = { s with regs := t.regs, wbuf := t.wbuf, resp := ⟨stOK, []⟩ })
    ∧ (∀ lo n : Nat, b ≠ .doorbell → (∀ x : Nat, b ≠ .mb x) → wideIn o b.wides = some (lo, n, 0) → Passes s m addr.toNat false →
      exec (.wideLowRead m addr) s
        = .next ((s.loadCapture b lo n).reply stOK (toBytes 4 (readFields (b.fields o) (s.regWord b o)))))

end Sys2Proof.Machine

/-- R16: an address with bit 62 clear is local and its bits 63 to 48 must be zero; one with bit 62 set is global, its bits 61 to 48 hold the
device and its bits 47 to 0 the local address, and bit 63 must be zero. An access that breaks either rule completes with BOUNDS_FAULT
and has no effect. -/
def Obligations.AddressFormsAreChecked : Prop :=
  ∀ (m : Ident) (addr : Dword) (s : State),
    (natBit 62 addr.toNat = false → natBits 48 16 addr.toNat = 0 → s.resolve addr.toNat = some (s.devId, addr.toNat))
    ∧ (natBit 62 addr.toNat = true → natBit 63 addr.toNat = false → s.resolve addr.toNat = some (natBits 48 14 addr.toNat, natBits 0 48 addr.toNat))
    ∧ ((natBit 62 addr.toNat = false ∧ natBits 48 16 addr.toNat ≠ 0) ∨ (natBit 62 addr.toNat = true ∧ natBit 63 addr.toNat = true) →
        (∀ (size : Nat) (v : Word), exec (.registerWrite m addr size v) s = .next (s.reply stBOUNDS_FAULT []))
        ∧ exec (.wideLowRead m addr) s = .next (s.reply stBOUNDS_FAULT [])
        ∧ (∀ (size : Nat) (w : Bool) (d : List Byte) (u : Upset), exec (.basinAccess m addr size w d u) s = .next (s.reply stBOUNDS_FAULT []))
        ∧ (∀ (size : Nat) (nr w : Bool) (d : List Byte) (u : Upset), exec (.hbmAccess m addr size nr w d u) s = .next (s.reply stBOUNDS_FAULT []))
        ∧ (∀ v : Word, exec (.wideHighWrite m addr v) s = .next (s.reply stBOUNDS_FAULT []) ∧ exec (.wideLowWrite m addr v) s = .next (s.reply stBOUNDS_FAULT []))
        ∧ (∀ (ty : BitVec 3) (x : BitVec 512), ∀ c ∈ [Instr.msopAdd m addr ty x, .msopMin m addr ty x, .msopMax m addr ty x, .msopXor m addr ty x],
            exec c s = .next (s.reply stBOUNDS_FAULT [])))

namespace Sys2Proof.Machine

/-- R50: an offset of a register block that holds no register reads zero and ignores writes. -/
def HolesReadZeroAndIgnoreWrites : Prop :=
  ∀ (m : Ident) (addr : Dword) (value : Word) (b : Blk) (o : Nat) (s : State), addr.toNat < 2 ^ 48 → target addr.toNat = .reg b o →
    b ≠ .doorbell → addr.toNat % 4 = 0 → addr.toNat = b.base + o → b.fields o = [] →
    (Passes s m addr.toNat false → exec (.wideLowRead m addr) s = .next (s.reply stOK [0#8, 0#8, 0#8, 0#8]))
    ∧ (Passes s m addr.toNat true → ∃ t : State, exec (.registerWrite m addr 4 value) s = .next t ∧ t.resp = ⟨stOK, []⟩
        ∧ (∀ a : Nat, t.rd a = s.rd a) ∧ t = { s with regs := t.regs, resp := t.resp })

/-- An access to a register of another size than 32 bits, or at an address that is no multiple of 4, completes with ALIGN_FAULT and has no
effect (R10). -/
def OddRegisterAccessesFault : Prop :=
  ∀ (m : Ident) (addr : Dword) (size : Nat) (value : Word) (b : Blk) (o : Nat) (s : State), addr.toNat < 2 ^ 48 → target addr.toNat = .reg b o →
    b ≠ .doorbell → s.sendsTo m addr.toNat = [] → size ≠ 4 ∨ addr.toNat % 4 ≠ 0 → exec (.registerWrite m addr size value) s = .next (s.reply stALIGN_FAULT [])

end Sys2Proof.Machine

/-- R12: a write to a locked RWL field leaves the field unchanged and is recorded as a register-access event: the binding registers of a
mailbox channel under LOCKED, INTEG of a controller under INIT_LOCK, and KP_SEC_CTRL under LOCK. -/
def Obligations.LockedFieldsStay : Prop :=
  ∀ (m : Ident) (a : Nat) (value : Word) (s : State), a < 2 ^ 48 → Passes s m a true →
    (∃ x : Nat, x < 4096 ∧ (a = MB_BIND_0 x ∨ a = MB_BIND_1 x) ∧ s.rb (MB_BIND_1 x) MB_BIND_1_LOCKED = true)
      ∨ (∃ n : Nat, n < 8 ∧ a = HM_CFG n ∧ s.rb (HM_STATUS n) HM_STATUS_INIT_LOCK = true ∧ s.isLocal m = true ∧ masterOf m.num.toNat = .keeper)
      ∨ (a = KP_SEC_CTRL ∧ s.rb KP_SEC_CTRL KP_SEC_CTRL_LOCK = true) →
    ∃ t : State, exec (.registerWrite m (BitVec.ofNat 64 a) 4 value) s = .next t ∧ t.resp = ⟨stOK, []⟩
      ∧ t.events = s.events ++ [⟨s.now, 0x00, 1, stOK, identWord m, a⟩]
      ∧ (∀ x : Nat, a = MB_BIND_0 x ∨ a = MB_BIND_1 x ∨ a = KP_SEC_CTRL → t.rd a = s.rd a)
      ∧ (∀ n : Nat, a = HM_CFG n → t.rf a HM_CFG_INTEG = s.rf a HM_CFG_INTEG)

/-- What a write makes of a field, and what a read returns of it, by its access code (R11). -/
def Obligations.FieldsFollowTheirAccessCodes : Prop := WrittenFieldsFollow ∧ ReadFieldsFollow

/-- What is reserved reads zero and ignores writes: a field of a register, and an offset of a block. -/
def Obligations.ReservedBitsStayZero : Prop := ReservedFieldsStayZero ∧ HolesReadZeroAndIgnoreWrites

/-- Completion of the register commands, plain and wide; an access of another size or at an odd address faults (R10, R11, R15). -/
def Obligations.RegisterCommandsComplete : Prop := PlainRegistersComplete ∧ OddRegisterAccessesFault

/-! ## Memory -/

/-- A write stores its bytes and leaves every other byte; a read of the same bytes returns them (basins, HBM, Keeper SRAM and MRAM alike). -/
def Obligations.StoredBytesReadBack : Prop :=
  ∀ (s : State) (a : Nat) (bs : List Byte), let t := s.setBytes a bs
    Stores s t a bs ∧ t.bytes a bs.length = bs ∧ t = { s with mem := t.mem } ∧ (Memory.wf s.mem = true → Memory.wf t.mem = true)

/-- BASIN_ACCESS on a basin of this device, past its checks (R275, R277, R278). A write, where no word that it writes only in part holds an error,
stores its bytes, ends every error of the words it writes and no other, and changes nothing else; where such a word holds an uncorrectable error the write
is not made and completes with ECC_UNCORR. A read, where no word holds an error, returns the bytes and changes nothing else; a single-bit error alone changes
neither the data returned nor the word; an uncorrectable one completes the read with ECC_UNCORR and no data. -/
def Obligations.BasinAccessesComplete : Prop :=
  ∀ (m : Ident) (addr : Dword) (size : Nat) (data : List Byte) (s : State), let a := addr.toNat
    let part := fun lvl : Nat => (s.marked 8 lvl a size).filter (fun k => !(decide (a ≤ k) && decide (k + 8 ≤ a + size)))
    a < 0x800000000 → aligned a size = true →
    (data.length = size → PassesN s m a size true →
      (part 1 = [] → part 2 = [] → ∃ t : State, exec (.basinAccess m addr size true data .none) s = .next t
        ∧ Stores s t a data ∧ (∀ k : Nat, spGet 0 t.ecc k = if a < k + 8 ∧ k < a + size then 0 else spGet 0 s.ecc k)
        ∧ t = { s with mem := t.mem, ecc := t.ecc, resp := ⟨stOK, []⟩ })
      ∧ (part 2 ≠ [] → ∃ t : State, exec (.basinAccess m addr size true data .none) s = .next t
        ∧ t.resp = ⟨stECC_UNCORR, []⟩ ∧ t.mem = s.mem ∧ t.ecc = s.ecc))
    ∧ (PassesN s m a size false →
      (s.marked 8 1 a size = [] → s.marked 8 2 a size = [] → exec (.basinAccess m addr size false [] .none) s = .next (s.reply stOK (s.bytes a size)))
      ∧ (s.marked 8 2 a size = [] → ∃ t : State, exec (.basinAccess m addr size false [] .none) s = .next t
        ∧ t.resp = ⟨stOK, s.bytes a size⟩ ∧ t.mem = s.mem ∧ t.ecc = s.ecc)
      ∧ (s.marked 8 2 a size ≠ [] → ∃ t : State, exec (.basinAccess m addr size false [] .none) s = .next t
        ∧ t.resp = ⟨stECC_UNCORR, []⟩ ∧ t.mem = s.mem ∧ t.ecc = s.ecc))

namespace Sys2Proof.Machine

/-- BASIN_PATROL_SCRUB corrects a single-bit error that stands in a word and changes nothing else (R280). -/
def BasinPatrolCorrects : Prop :=
  ∀ (core : CoreId) (word : BitVec 22) (s : State), let a := core.val * basinSize + 8 * word.toNat
    s.present core = true → s.coreUp core = true → spGet 0 s.ecc a = 1 →
    exec (.basinPatrolScrub core word .none) s = .next { s with ecc := spPut 0 s.ecc a 0 }

end Sys2Proof.Machine

/-- HBM_ACCESS on HBM of this device, past its checks, where no sector is hit by an upset and every block that the access reads is under the key in
force. A read returns the bytes and counts them; a write stores its bytes, merged where it must be, and counts them, and with integrity on counts
its read, merge and write; an access of up to 32 bytes counts on the narrow path and no other does. With integrity on, the die then holds a unit that it has read
as verified (R283, R286, R301, R304). -/
def Obligations.HbmAccessesComplete : Prop :=
  ∀ (m : Ident) (addr : Dword) (size o : Nat) (narrow : Bool) (data : List Byte) (s : State), let h := hbmHome o
    let sp := hbmSpan (s.integ h) o size
    let narrowCount := if size ≤ 32 then satAdd 0xFFFFFFFF (s.rd (HM_NARROW_CNT h)) 1 else s.rd (HM_NARROW_CNT h)
    addr.toNat < 2 ^ 48 → target addr.toNat = .hbm o → s.hbmCache.length = 8 →
    aligned addr.toNat size = true → (narrow = true → size ≤ 32) → s.ecc = [] → s.allKeyed sp.1 sp.2 = true →
    (PassesN s m addr.toNat size false → ∃ t : State, exec (.hbmAccess m addr size narrow false [] .none) s = .next t
        ∧ t.resp = ⟨stOK, s.bytes addr.toNat size⟩ ∧ t = { s with regs := t.regs, hbmCache := t.hbmCache, resp := t.resp }
        ∧ t.rd (HM_NARROW_CNT h) = narrowCount
        ∧ t.rdWide (HM_RD_BYTES_0 h) 2 = satAdd (2 ^ 64 - 1) (s.rdWide (HM_RD_BYTES_0 h) 2) size
        ∧ (s.integ h = false → t.hbmCache = s.hbmCache) ∧ (s.integ h = true → o / 512 ∈ (t.cacheOf h).units)
        ∧ RegsBut s t (HM_NARROW_CNT h :: wordsAt (HM_RD_BYTES_0 h) 2))
    ∧ (data.length = size → PassesN s m addr.toNat size true → ∃ t : State, exec (.hbmAccess m addr size narrow true data .none) s = .next t
        ∧ t.resp = ⟨stOK, []⟩ ∧ Stores s t addr.toNat data
        ∧ t = { s with mem := t.mem, blockKey := t.blockKey, regs := t.regs, hbmCache := t.hbmCache, resp := t.resp }
        ∧ t.rd (HM_NARROW_CNT h) = narrowCount
        ∧ t.rd (HM_RMW_CNT h) = (if s.integ h then satAdd 0xFFFFFFFF (s.rd (HM_RMW_CNT h)) 1 else s.rd (HM_RMW_CNT h))
        ∧ t.rdWide (HM_WR_BYTES_0 h) 2 = satAdd (2 ^ 64 - 1) (s.rdWide (HM_WR_BYTES_0 h) 2) size
        ∧ (s.integ h = false → t.hbmCache = s.hbmCache) ∧ (s.integ h = true → o / 512 ∈ (t.cacheOf h).units)
        ∧ RegsBut s t (HM_NARROW_CNT h :: HM_RMW_CNT h :: wordsAt (HM_WR_BYTES_0 h) 2))

namespace Sys2Proof.Machine

/-- A memory-side operation past its checks, no upset, every block that it reads under the key in force: the 64 bytes become the operation's
result, element by element, every other byte stays, results that are infinite or NaN are counted, and with integrity on the read, merge and
write is counted (R287 to R289, R301). -/
def MsopRuns (mk : Ident → Dword → BitVec 3 → BitVec 512 → Instr) (mop : Nat) : Prop :=
  ∀ (m : Ident) (addr : Dword) (ty : BitVec 3) (x : BitVec 512) (o : Nat) (s : State), let h := hbmHome o
    let sp := hbmSpan (s.integ h) o 64
    let r := msopAll ty.toNat mop (ofBytes (s.bytes addr.toNat 64)) x.toNat
    addr.toNat < 2 ^ 48 → target addr.toNat = .hbm o →
    addr.toNat % 64 = 0 → msopOk ty.toNat mop = true → s.ecc = [] → s.allKeyed sp.1 sp.2 = true →
    PassesN s m addr.toNat 64 true → PassesN s m addr.toNat 64 false → ∃ t : State, exec (mk m addr ty x) s = .next t
      ∧ t.resp = ⟨stOK, []⟩ ∧ Stores s t addr.toNat (toBytes 64 r)
      ∧ t = { s with mem := t.mem, blockKey := t.blockKey, regs := t.regs, hbmCache := t.hbmCache, resp := t.resp }
      ∧ t.rd (HM_MSOP_NF h) = satAdd 0xFFFFFFFF (s.rd (HM_MSOP_NF h)) (msopNf ty.toNat mop r)
      ∧ t.rd (HM_RMW_CNT h) = (if s.integ h then satAdd 0xFFFFFFFF (s.rd (HM_RMW_CNT h)) 1 else s.rd (HM_RMW_CNT h))
      ∧ t.rdWide (HM_WR_BYTES_0 h) 2 = satAdd (2 ^ 64 - 1) (s.rdWide (HM_WR_BYTES_0 h) 2) 64
      ∧ RegsBut s t (HM_MSOP_NF h :: HM_RMW_CNT h :: wordsAt (HM_WR_BYTES_0 h) 2)

/-- The four memory-side operations complete (R287 to R289). -/
def MsopsRun : Prop := MsopRuns .msopAdd 0 ∧ MsopRuns .msopMin 1 ∧ MsopRuns .msopMax 2 ∧ MsopRuns .msopXor 3

/-- INT64 elements add modulo 2^64, lane by lane (R289). -/
def MsopAddsInt64Lanes : Prop :=
  ∀ (x y i : Nat), i < 8 → natBits (64 * i) 64 (msopAll 3 0 x y) = (natBits (64 * i) 64 x + natBits (64 * i) 64 y) % 2 ^ 64

/-- What the stacks do by themselves. A patrol corrects a single-bit error, counts it and records it; the refresh rate doubles above 85 °C and
is single again at 83 °C; a stack is slowed above 95 °C until 92 °C; the end of the HBM phase leaves every byte of HBM zero, writes the core maps and ends phase 7,
or fails the start where no core is present; a transfer over the aqueducts takes its route, and one that fails at an aqueduct of that route completes with
BUS_FAULT and is recorded, under the master as its source, which is the model's choice (R41, R44, R292, R296, R303, R414, R498). -/
def StackServicesComplete : Prop :=
  (∀ (stack : WharfId) (addr : Dword) (o : Nat) (s : State), target addr.toNat = .hbm o → hbmHome o = stack.val →
    s.rf (HM_SCRUB stack) HM_SCRUB_PERIOD ≠ 0 → let k := addr.toNat / 32 * 32
    spGet 0 s.ecc k = 1 → exec (.hbmPatrol stack addr .none) s
      = .next (({ s.wf (HM_SCRUB stack) HM_SCRUB_DONE_PCT (o * 100 / 0x3000000000) with ecc := spPut 0 s.ecc k 0 }.bump (HM_CE_CNT stack) 1).post
          0x1B stOK (s.src (0xF00 + stack.val)) k))
  ∧ (∀ (stack : WharfId) (temp : Byte) (s : State),
      (85 < temp.toNat → exec (.refreshRateChange stack temp) s = .next ((s.stackTemp stack temp.toNat).wb (HM_STATUS stack) HM_STATUS_REFRESH_2X true))
      ∧ (temp.toNat ≤ 83 → (s.stackTemp stack temp.toNat).rb (HM_CFG stack) HM_CFG_REF2X = false →
        exec (.refreshRateChange stack temp) s = .next ((s.stackTemp stack temp.toNat).wb (HM_STATUS stack) HM_STATUS_REFRESH_2X false)))
  ∧ (∀ (stack : WharfId) (temp : Byte) (s : State), s.power.hbmHot.length = 8 → ∃ t : State, exec (.hbmHotThrottle stack temp) s = .next t
      ∧ (95 < temp.toNat → t.power.hbmHot[stack.val]? = some true ∧ t.rf PW_SUPPLY PW_SUPPLY_HBM_HOT = 1)
      ∧ (temp.toNat ≤ 92 → t.power.hbmHot[stack.val]? = some false)
      ∧ (92 < temp.toNat → temp.toNat ≤ 95 → t.power.hbmHot = s.power.hbmHot)
      ∧ t = { s with regs := t.regs, power := { s.power with hbmHot := t.power.hbmHot } } ∧ RegsBut s t [HM_STATUS stack, PW_TEMP, PW_SUPPLY])
  ∧ (∀ s : State, s.atPhase 7 = true → let u := (((List.range 16).foldl (fun s n => s.writeMap n)
        (((List.range 8).foldl (fun s n => s.wb (HM_STATUS n) HM_STATUS_INIT_DONE true) s).zeroHbm))).countCores
      (∀ x : Nat, hbmBase ≤ x → x < hbmBase + 0x3000000000 → u.byte x = 0#8) ∧ exec .hbmInitDone s = .next (if u.rf KP_CORE_COUNT KP_CORE_COUNT_PRESENT = 0 then u.startFail 8 else (u.firstTraining.setStage 6).setPhase 8))
  ∧ (∀ (m : Ident) (src dst : Fin 5 × Fin 5) (s : State),
      exec (.aqueductTransfer m src dst none) s
        = .next ({ s with route := dieRoute (src.1.val, src.2.val) (dst.1.val, dst.2.val) }.reply stOK [])
      ∧ ∀ k : Fin 40, crosses k.val (src.1.val, src.2.val) (dieRoute (src.1.val, src.2.val) (dst.1.val, dst.2.val)) = true →
        exec (.aqueductTransfer m src dst (some k)) s
          = .next (({ s with route := dieRoute (src.1.val, src.2.val) (dst.1.val, dst.2.val),
                             aqFail := s.aqFail ++ [(m, farEnd m (src.1.val, src.2.val) (dst.1.val, dst.2.val))] }.post 0x23 stBUS_FAULT (identWord m) k.val).reply
                     stBUS_FAULT []))

end Sys2Proof.Machine

/-- Completion of the four memory-side operations (R287 to R289); INT64 elements add modulo 2^64, lane by lane. -/
def Obligations.MemorySideOperationsComplete : Prop := MsopsRun ∧ MsopAddsInt64Lanes

/-- Completion of what basins and stacks do by themselves, and of transfers over aqueducts. -/
def Obligations.MemoryServicesComplete : Prop := BasinPatrolCorrects ∧ StackServicesComplete

/-! ## Network time -/

/-- R57: REF10M_IN fails when it is absent for more than 10 µs or departs by more than 5 ppm, and is qualified again after 10 s without a
failure condition, which count on the resonator. -/
def Obligations.Ref10mFailsAndRequalifies : Prop :=
  ∀ (absentNs : Nat) (ppb : Int) (s : State),
    (10000 < absentNs ∨ 5000 < ppb.natAbs → ∃ t : State, exec (.ref10mFail absentNs ppb) s = .next t
      ∧ t = { s.wf TM_SRC_STATUS TM_SRC_STATUS_REF_OK 0 with time := { s.time with refBadAt := s.boot.uptime, since := t.time.since } })
    ∧ (absentNs ≤ 10000 → ppb.natAbs ≤ 5000 → exec (.ref10mFail absentNs ppb) s = .next s)
    ∧ (s.rf TM_SRC_STATUS TM_SRC_STATUS_REF_OK = 0 → s.time.refBadAt + 10000000000 ≤ s.boot.uptime → ∃ t : State, exec .ref10mRequalify s = .next t
      ∧ t = { s.wf TM_SRC_STATUS TM_SRC_STATUS_REF_OK 1 with time := { s.time with since := t.time.since } })
    ∧ (s.boot.uptime < s.time.refBadAt + 10000000000 → exec .ref10mRequalify s = .next s)

namespace Sys2Proof.Machine

/-- PPS_IN (R56). An edge, rising or falling, counts among those of the last 100 ms, and a third of them fails the source. A rising edge has no other effect before
a time of day is valid; the first after it is the reference; from then on one inside ±1 µs of a whole number of seconds from the last accepted one is accepted and
becomes the reference, and one outside is refused, recorded, and counts as a failure condition. No edge for more than 1.5 s fails the source; 10 s without a failure
condition qualify it again. -/
def PpsInCommandsComplete : Prop :=
  ∀ (at_ : Nat) (s : State),
    let quiet := (s.time.ppsEdges.filter (fun x => decide (at_ < x + 100000000))).length < 2
    let seen := { s with time := { s.time with ppsEdges := at_ :: s.time.ppsEdges.filter (fun x => decide (at_ < x + 100000000)), ppsLast := at_ } }
    let d : Int := at_ - sext 16 (s.rf TM_PPS_DELAY TM_PPS_DELAY_DELAY)
    (quiet → exec (.ppsInFallingEdge at_) s = .next seen)
    ∧ (¬quiet → ∃ t : State, exec (.ppsInFallingEdge at_) s = .next t
        ∧ t = { seen.wf TM_SRC_STATUS TM_SRC_STATUS_PPS_OK 0 with time := { seen.time with ppsBadAt := max s.time.ppsBadAt at_, since := t.time.since } })
    ∧ (quiet → s.rb TM_SRC_STATUS TM_SRC_STATUS_TOD_VALID = false → exec (.ppsEdge at_) s = .next seen)
    ∧ (quiet → s.rb TM_SRC_STATUS TM_SRC_STATUS_TOD_VALID = true →
      (s.time.ppsRef = none → exec (.ppsEdge at_) s = .next { seen with time := { seen.time with ppsRef := some d } })
      ∧ ∀ r : Int, s.time.ppsRef = some r →
        (ppsInWindow r d = true → exec (.ppsEdge at_) s = .next { seen with time := { seen.time with ppsRef := some d } })
        ∧ (ppsInWindow r d = false →
            exec (.ppsEdge at_) s = .next (({ seen with time := { seen.time with ppsBadAt := max s.time.ppsBadAt at_ } }).post 0x11 stOK s.tmSrc at_)))
    ∧ (s.time.ppsLast + 1500000000 < s.now → ∃ t : State, exec .ppsFail s = .next t
        ∧ t = { s.wf TM_SRC_STATUS TM_SRC_STATUS_PPS_OK 0 with time := { s.time with ppsBadAt := max s.time.ppsBadAt s.now, since := t.time.since } })
    ∧ (s.rb TM_SRC_STATUS TM_SRC_STATUS_PPS_OK = false → s.time.ppsBadAt + 10000000000 ≤ s.now → s.now ≤ s.time.ppsLast + 1500000000 →
        s.time.ppsRef.isSome = true → ∃ t : State, exec .ppsRequalify s = .next t
        ∧ t = { s.wf TM_SRC_STATUS TM_SRC_STATUS_PPS_OK 1 with time := { s.time with since := t.time.since } })

/-- PTP_MESSAGE at a slave on interface 0 of the PTP port, in ETH_UP, over the transport that PROFILE selects (R54, R376). A Sync with its origin, or the Follow_Up of one
without, keeps the two timestamps and sends a Delay_Req; the answer to it ends the measurement: PTP_OK and TOD_VALID are set, the measurement stands as the
last, and its offset is half of (T1 - T2) + (T4 - T3). A state other than SLAVE ends PTP_OK, and so does a second without a measurement. -/
def PtpMeasuresTheOffset : Prop :=
  (∀ (port : PortId) (udp : Bool) (t1 t2 t3 t4 : Nat) (s : State), port.val = s.rf TM_SRC_CTRL TM_SRC_CTRL_PTP_PORT → s.ethPort port = true → s.linkSt port 0 = 6 →
    udp = s.rb (LK_ETH_CFG port 0) LK_ETH_CFG_PROFILE →
    let vlan := if s.rb (LK_ETH_CFG port 0) LK_ETH_CFG_VLAN_EN then some (s.rf (LK_ETH_CFG port 0) LK_ETH_CFG_VID) else none
    let asked := { s with time := { s.time with ptpT1 := some t1, ptpT2 := some t2, ptpT3 := some s.now },
                          net := { s.net with frames := s.net.frames ++ [⟨2 * port.val, .delayReq, vlan, none⟩] } }
    exec (.ptpMessage port true udp (.sync (some t1) t2)) s = .next asked
    ∧ exec (.ptpMessage port true udp (.sync none t2)) s = .next { s with time := { s.time with ptpT1 := none, ptpT2 := some t2, ptpT3 := none } }
    ∧ (s.time.ptpT2 = some t2 → exec (.ptpMessage port true udp (.followUp t1)) s = .next asked)
    ∧ (s.time.ptpT1 = some t1 → s.time.ptpT2 = some t2 → s.time.ptpT3 = some t3 → ∃ t : State, exec (.ptpMessage port true udp (.delayResp t4)) s = .next t
        ∧ t.rf TM_SRC_STATUS TM_SRC_STATUS_PTP_OK = 1 ∧ t.rf TM_SRC_STATUS TM_SRC_STATUS_TOD_VALID = 1 ∧ t.time.ptpAt = t.now
        ∧ t.time.ptpT1 = none ∧ t.time.ptpT2 = none ∧ t.time.ptpT3 = none
        ∧ t.time.offset = (if s.active = 2 then (((t1 : Int) - t2) + ((t4 : Int) - t3)) / 2 else s.time.offset)
        ∧ (s.running = true → t.rdWide TM_NOW_0 3 = s.rdWide TM_NOW_0 3)
        ∧ t = { s with regs := t.regs, time := t.time } ∧ RegsBut s t (TM_SRC_STATUS :: wordsAt TM_NOW_0 3))
    ∧ (∀ x : PtpMsg, ∃ t : State, exec (.ptpMessage port false udp x) s = .next t
        ∧ t = { s.wf TM_SRC_STATUS TM_SRC_STATUS_PTP_OK 0 with time := { s.time with since := t.time.since } }))
  ∧ (∀ s : State, s.time.ptpAt + 1000000000 < s.now → ∃ t : State, exec .ptpTimeout s = .next t
      ∧ t = { s.wf TM_SRC_STATUS TM_SRC_STATUS_PTP_OK 0 with time := { s.time with since := t.time.since } })

/-- The time of day (R55). A write by the Keeper makes it valid. In holdover with no schedule running the count takes it; on source 1 it takes the whole second nearest to it
and keeps its own fraction; on another source, or while a schedule runs, the count stays, and the difference is kept as the most recent one. A write by another master changes nothing. -/
def TimeOfDayWritesComplete : Prop :=
  (∀ (m : Ident) (ns : Nat) (s : State), s.isLocal m = true → masterOf m.num.toNat = .keeper → ns + 500000000 < 2 ^ 64 → 500000000 ≤ ns →
      ∃ t : State, exec (.timeOfDayWrite m ns) s = .next t ∧ t.rf TM_SRC_STATUS TM_SRC_STATUS_TOD_VALID = 1
        ∧ (s.running = false → s.active = 0 → t.now = ns)
        ∧ (s.running = false → s.active = 1 → t.now % 1000000000 = s.now % 1000000000 ∧ t.now ≤ ns + 500000000 ∧ ns ≤ t.now + 500000000)
        ∧ (s.running = true ∨ 1 < s.active → t.rdWide TM_NOW_0 3 = s.rdWide TM_NOW_0 3
            ∧ t.time = { s.time with todAhead := (ns : Int) - s.now, since := t.time.since })
        ∧ RegsBut s t (TM_SRC_STATUS :: wordsAt TM_NOW_0 3) ∧ t = { s with regs := t.regs, time := t.time })
  ∧ (∀ (m : Ident) (ns : Nat) (s : State), ¬(s.isLocal m = true ∧ masterOf m.num.toNat = .keeper) → exec (.timeOfDayWrite m ns) s = .next s)

/-- The time unit has changed to source `k`, or to holdover where `k` is 0, and has recorded it (R58, R59, R60). -/
def SourceChanges (s t : State) (k : Nat) : Prop :=
  t.active = k ∧ t.events = s.events ++ [⟨s.now, 0x10, 0, stOK, s.tmSrc % 2 ^ 26, s.active + 4 * k⟩]
  ∧ (k = 0 → t.time = { s.time with holdSince := s.now, holdBase := s.rf TM_SRC_STATUS TM_SRC_STATUS_ERR_BOUND })
  ∧ (k ≠ 0 → t.time = { s.time with changed := true } ∧ t.rf TM_SRC_STATUS TM_SRC_STATUS_ERR_BOUND = min 0xFFFF (s.srcBound k))
  ∧ RegsBut s t [TM_SRC_STATUS] ∧ t = { s with regs := t.regs, time := t.time, events := t.events }

/-- Source `k` is qualified, and has been for 10 s. -/
abbrev LongOk (s : State) (k : Nat) : Prop := s.srcOk k = true ∧ s.time.since.getD (k - 1) 0 ≠ 0 ∧ s.time.since.getD (k - 1) 0 + 9999999999 ≤ s.now

/-- Sources of time (R58, R59, R60). When the active source is no longer qualified, the unit changes to the first of the three that is, or to holdover where none is;
it changes up to the first source of higher preference that has been qualified for 10 s. Each change is recorded; the new source's error bound stands in ERR_BOUND. -/
def TimeSourceChangesComplete : Prop :=
  (∀ (k : Nat) (s : State), s.srcOk s.active = false → k ≤ 3 → (k ≠ 0 → s.srcOk k = true) → (∀ j : Nat, 1 ≤ j → j ≤ 3 → k = 0 ∨ j < k → s.srcOk j = false) →
      ∃ t : State, exec .sourceFailover s = .next t ∧ SourceChanges s t k)
  ∧ (∀ s : State, s.srcOk s.active = true → exec .sourceFailover s = .next s)
  ∧ (∀ (k : Nat) (s : State), 1 ≤ k → k ≤ 3 → s.active = 0 ∨ k < s.active → LongOk s k → (∀ j : Nat, 1 ≤ j → j < k → ¬LongOk s j) →
      ∃ t : State, exec .sourceUpgrade s = .next t ∧ SourceChanges s t k)

/-- A tick of the time unit (R53, R59, R60, R62). On a source with a schedule running the count rises by the time elapsed and a correction; the source's error bound stands in ERR_BOUND, TIME_LOST follows
it above 1000 ns, and the offset measured is kept. In holdover the count rises by the time elapsed alone; the bound never falls, and at 1, 10, 100 and 1000 s it is
no less than the bound at the start and the error that the table adds. -/
def TimeTicksComplete : Prop :=
  ∀ (elapsed : Nat) (offset : Int) (s : State), ∃ t : State, exec (.timeDisciplineTick elapsed offset) s = .next t
      ∧ t = { s with regs := t.regs, time := t.time, events := t.events, boot := { s.boot with uptime := s.boot.uptime + elapsed },
                     power := { s.power with limitedNs := t.power.limitedNs, throttledNs := t.power.throttledNs, hotNs := t.power.hotNs, energyNj := t.power.energyNj } }
      ∧ RegsBut s t (TM_SRC_STATUS :: PW_LIMITED_MS :: PW_THROTTLE_MS :: PW_HBM_HOT_MS :: wordsAt PW_ENERGY_0 2 ++ wordsAt TM_NOW_0 3)
      ∧ (s.active ≠ 0 → t.time.offset = offset ∧ t.time.changed = false ∧ t.rf TM_SRC_STATUS TM_SRC_STATUS_ERR_BOUND = min 0xFFFF (s.srcBound s.active)
          ∧ (1000 < min 0xFFFF (s.srcBound s.active) → t.rf TM_SRC_STATUS TM_SRC_STATUS_TIME_LOST = 1)
          ∧ (s.running = true → t.time = { s.time with offset := offset, changed := false }))
      ∧ (s.active = 0 → t.time = s.time ∧ t.rdWide TM_NOW_0 3 = (s.rdWide TM_NOW_0 3 + elapsed * 65536) % 2 ^ 80
          ∧ s.rf TM_SRC_STATUS TM_SRC_STATUS_ERR_BOUND ≤ t.rf TM_SRC_STATUS TM_SRC_STATUS_ERR_BOUND
          ∧ ∀ z ∈ [(10 ^ 9, 10), (10 ^ 10, 100), (10 ^ 11, 1000), (10 ^ 12, 12000)], t.now = s.time.holdSince + z.1 →
              min 0xFFFF (s.time.holdBase + z.2) ≤ t.rf TM_SRC_STATUS TM_SRC_STATUS_ERR_BOUND)

end Sys2Proof.Machine

/-- R61: while a schedule runs, a tick corrects the offset against the source by at most 10 ns per millisecond of the time elapsed (in units of 2^-16 ns), never
past it, and by the whole of it where that is no more; when none runs, the time unit steps to source 2 or 3 by the whole offset at once. -/
def Obligations.CorrectionIsBounded : Prop :=
  ∀ (elapsed : Nat) (offset : Int) (s : State),
    (s.running = true → ∃ (t : State) (c : Int), exec (.timeDisciplineTick elapsed offset) s = .next t
      ∧ t.rdWide TM_NOW_0 3 = ((s.rdWide TM_NOW_0 3 : Int) + (elapsed * 65536 : Nat) + c).toNat % 2 ^ 80
      ∧ c.natAbs ≤ elapsed * 65536 / 100000 ∧ c.natAbs ≤ (offset * 65536).natAbs
      ∧ (s.active ≠ 0 → (offset * 65536).natAbs ≤ elapsed * 65536 / 100000 → c = offset * 65536))
    ∧ (1 < s.active → s.running = false → ∃ t : State, exec (.timeDisciplineTick elapsed offset) s = .next t
      ∧ t.rdWide TM_NOW_0 3 = (offset * 65536 + ((s.rdWide TM_NOW_0 3 + elapsed * 65536) % 2 ^ 80 : Nat)).toNat % 2 ^ 80)

namespace Sys2Proof.Machine

/-- PPS_OUT rises at a whole second of network time, while it is enabled and a time of day is valid, and falls 100 ms later (R64). -/
def PpsOutCommandsComplete : Prop :=
  ∀ s : State,
    (s.ppsOutOn = true → s.pins.ppsOut = false → (s.now + 5) % 1000000000 ≤ 10 →
      exec .ppsOutRise s = .next { s with pins := { s.pins with ppsOut := true }, time := { s.time with ppsOutAt := (s.now + 5) / 1000000000 * 1000000000 } })
    ∧ (s.pins.ppsOut = true → s.time.ppsOutAt + 100000000 ≤ s.now → exec .ppsOutFall s = .next { s with pins := { s.pins with ppsOut := false } })

end Sys2Proof.Machine

/-- Completion of the pulses per second, in and out (R56, R64). -/
def Obligations.PpsCommandsComplete : Prop := PpsInCommandsComplete ∧ PpsOutCommandsComplete

/-- Completion of PTP messages and of writes of the time of day (R54, R55, R376). -/
def Obligations.TimeOfDayCommandsComplete : Prop := TimeOfDayWritesComplete ∧ PtpMeasuresTheOffset

/-- Completion of changes of the time source and of the discipline tick (R58, R60, R61). -/
def Obligations.TimeSourceCommandsComplete : Prop := TimeSourceChangesComplete ∧ TimeTicksComplete

/-! ## Pounds and locks -/

namespace Sys2Proof.Machine

/-- Votes of a device by itself (R70, R71, R72, R81, R204): READY when nothing bars a commit, VETO when it has a cause, each cast before the cut-off. -/
def OwnVotesComplete : Prop :=
  ∀ s : State, s.voteOpen = true →
    (s.ownVote = 0 → s.readyNow = true → exec .voteReady s = .next (s.castVote 1))
    ∧ (s.ownVote ≠ 3 → s.lock.causes ≠ 0 → exec .voteVeto s = .next (s.castVote 3))
    ∧ (s.readyNow = false → exec .voteReady s = .next s)

/-- A vote that a stand-alone device casts stands in TM_LOCK_STATUS: VOTE holds it and STATE is VOTED (R81, R92). -/
def CastVoteShows : Prop :=
  ∀ (v : Nat) (s : State), v < 4 → s.inPound = true → s.rf KP_FLEET_ID KP_FLEET_ID_ROLE = 0 →
    (s.castVote v).rf TM_LOCK_STATUS TM_LOCK_STATUS_VOTE = v ∧ (s.castVote v).lockSt = 2 ∧ s.castVote v = { s with regs := (s.castVote v).regs }

/-- The cut-off of a stand-alone device (R70, R71, R72): one that has a cause votes VETO if it has not, and one that has neither a cause nor a vote votes NOT_READY; the decision
for the coming lock is COMMIT on READY, EMPTY on VETO, HOLD on NOT_READY. -/
def CutoffDecides : Prop :=
  ∀ s : State, s.lockLive = true → s.inPound = true → s.lock.cut = false → s.pastCut = true → s.mayVote = true → s.fleet.replaying = false →
    s.rf KP_FLEET_ID KP_FLEET_ID_ROLE = 0 → s.rf KP_FLEET_STBY KP_FLEET_STBY_LEASE ≠ 2 → s.lock.decision = none → s.lock.votes = [] → s.fleet.members = [] →
    let v := if s.lock.causes ≠ 0 then 3 else if s.ownVote = 0 then 2 else s.ownVote
    ∃ (t : State) (d : Decision), exec .voteCutoff s = .next t ∧ d.lock = s.nextLock ∧ t.ownVote = v
      ∧ (v = 1 → d.outcome = .commit) ∧ (v = 2 → d.outcome = .hold) ∧ (v = 3 → d.outcome = .empty)
      ∧ RegsBut s t [TM_LOCK_STATUS] ∧ (s.ownVote = v → t.regs = s.regs)
      ∧ t = { s with regs := t.regs, lock := { s.lock with cut := true, cutCauses := s.lock.causes, decision := some d },
                     fleet := { s.fleet with repairNext := t.fleet.repairNext, rerunNext := t.fleet.rerunNext } }

/-- A vote that arrives at a manager for the coming lock from a device it governs, the first of that device, is kept, and ends the waits for it. A top manager, and a lower one that does
not know the combined vote yet, does nothing more; a lower manager that then knows it, and has passed none up, sends it up (R72, R384). -/
def FirstVotesAreKept : Prop :=
  ∀ (worker : BitVec 14) (v : Vote) (layers : BitVec 256) (ovr : Bool) (causes : BitVec 6) (s : State),
    s.lockLive = true → s.inPound = true → s.lock.cut = false → s.role = 2 ∨ s.role = 3 → s.voters.any (fun m => m.dev == worker.toNat) = true →
    s.voteOf worker.toNat = none →
    let u := { s with lock := { s.lock with votes := s.lock.votes ++ [(⟨worker.toNat, v, layers, ovr, causes.toNat⟩ : VoteRec)] } }
    let ws := u.voteWords (u.combined false) u.layerUnion u.anyOver (if u.combined false = 3 then u.causeUnion else 0)
    (s.role = 3 ∨ u.combined false = 0 → exec (.vote worker s.nextLock v layers ovr causes) s = .next (u.endWaits 0x18 worker.toNat stOK))
    ∧ (s.role = 2 → u.combined false ≠ 0 → s.lock.passed = [] → exec (.vote worker s.nextLock v layers ovr causes) s
        = .next ({ u with tx := (u.send u.manager 0 txVote ws).tx, lock := { u.lock with passed := ws } }.endWaits 0x18 worker.toNat stOK))

/-- A decision for the coming lock that reaches a worker before the lock instant is held until then; a COMMIT that reaches it less than 20 µs after that starts the lock at once. Without a
decision the lock instant only opens the window, and 20 µs after it the device is OUT_OF_STEP and LAST says so (R74, R76, R80). -/
def DecisionsAreHeld : Prop :=
  ∀ (d : Decision) (s : State), s.lockLive = true → s.inPound = true →
    (s.role = 1 → d.lock = s.nextLock → s.lock.decision = none → s.now < s.nextLock →
      exec (.decision d) s = .next { s with lock := { s.lock with decision := some d } })
    ∧ (s.role = 1 → d.lock = s.nextLock → s.lock.decision = none → s.nextLock ≤ s.now → s.now < s.nextLock + 20000 → d.outcome = .commit → s.lock.lateError = false →
      exec (.decision d) s = .next { s.wf TM_LOCK_STATUS TM_LOCK_STATUS_STATE 3 with
        lock := { s.lock with decision := some d, start := some s.now, window := true, committed := false } })
    ∧ (s.lock.start = none → s.nextLock ≤ s.now → s.lock.decision = none →
      exec .lockInstant s = .next { s with lock := { s.lock with window := true } })
    ∧ (s.lock.decision = none → s.nextLock + 20000 ≤ s.now → s.lock.deferred = [] → ∃ t : State, exec .noDecisionTimeout s = .next t
      ∧ t.lockSt = 4 ∧ t.rf TM_LOCK_STATUS TM_LOCK_STATUS_LAST = 3 ∧ t.rf KP_TRAIN_LAST KP_TRAIN_LAST_OUTCOME = 3
      ∧ t.events = s.events ++ [⟨s.now, 0x15, 2, stOK, s.tmSrc % 2 ^ 26, s.nextLock % 2 ^ 64⟩]
      ∧ RegsBut s t [TM_LOCK_STATUS, KP_TRAIN_LAST, PW_RESET_STATUS]
      ∧ t = { s with regs := t.regs, events := t.events,
                     lock := { s.lock with start := none, committed := false, lateError := false, window := false } })

/-- The lock instant with COMMIT or EMPTY decided starts the lock: STATE is LOCKING, the window opens and its 20 µs count from the lock instant; a manager sends its standby the
lease; EMPTY also stops the tillers (R76, R80, R267, R409). -/
def LockStartsAtItsInstant : Prop :=
  ∀ (d : Decision) (s : State), s.lockLive = true → s.inPound = true → s.lock.start = none → s.nextLock ≤ s.now → s.lock.decision = some d → s.lock.lateError = false →
    let u := { s with lock := { s.lock with start := some s.nextLock, window := true, committed := false } }
    (d.outcome = .commit → exec .lockInstant s = .next ((u.sendLease s.nextLock).wf TM_LOCK_STATUS TM_LOCK_STATUS_STATE 3))
    ∧ (d.outcome = .empty → exec .lockInstant s = .next ((u.sendLease s.nextLock).wf TM_LOCK_STATUS TM_LOCK_STATUS_STATE 3).stopCores)
    ∧ (s.role = 0 ∨ s.role = 1 → u.sendLease s.nextLock = u)

/-- A lock at which HOLD is decided (R78, R79, R81): TM_NEXT_LOCK moves by one pound, HOLDS rises by one, LAST and KP_TRAIN_LAST say HOLD, the pound goes on without a vote or a decision, the
epoch stays, and what the window deferred is carried out. The values are of a HOLD that orders no rerun. -/
def HeldLocksMoveByAPound : Prop :=
  ∀ (d : Decision) (s : State), s.lockLive = true → s.lock.decision = some d → s.inPound = true → s.lock.start = none → s.nextLock ≤ s.now → d.outcome = .hold →
    let u := s.holdLock d s.nextLock
    exec .lockHold s = .next u.runDeferred
    ∧ (d.wideRerun = false → d.rerun = false →
        u.nextLock = (s.nextLock + s.poundNs) % 2 ^ 64
        ∧ u.rf TM_LOCK_STATUS TM_LOCK_STATUS_HOLDS = satAdd (2 ^ TM_LOCK_STATUS_HOLDS.width - 1) (s.rf TM_LOCK_STATUS TM_LOCK_STATUS_HOLDS) 1
        ∧ u.rf TM_LOCK_STATUS TM_LOCK_STATUS_LAST = 2 ∧ u.rf KP_TRAIN_LAST KP_TRAIN_LAST_OUTCOME = 2 ∧ u.lockSt = 1 ∧ u.ownVote = 0 ∧ u.epoch = s.epoch
        ∧ u.lock.decision = none ∧ u.lock.votes = [] ∧ u.lock.cut = false ∧ u.lock.extended = true ∧ u.mem = s.mem ∧ u.cores = s.cores
        ∧ RegsBut s u (TM_LOCK_STATUS :: KP_TRAIN_LAST :: wordsAt TM_NEXT_LOCK_0 2))

/-- The commit step of a lock that has started, once the drain has completed, where no change of configuration waits (R76, R78, R82, R83): LAST says COMMIT or EMPTY, HOLDS is 0, and the new epoch stands in the
history with the slot that was the working one, at a COMMIT, or with the slot of the epoch before it. An uncorrectable error that the drain met puts the device OUT_OF_STEP (R75). -/
def CommitStepsComplete : Prop :=
  ∀ (d : Decision) (s : State), s.lockLive = true → s.lock.decision = some d → s.lockSt = 3 → s.lock.committed = false → s.drained = true →
    (s.lock.lateError = false → d.outcome ≠ .hold → s.lock.changes = [] → ∃ t : State, exec .lockCommitStep s = .next t
      ∧ t.lock.committed = true ∧ t.rf TM_LOCK_STATUS TM_LOCK_STATUS_HOLDS = 0 ∧ t.lockSt = 3
      ∧ (d.outcome = .commit → t.rf TM_LOCK_STATUS TM_LOCK_STATUS_LAST = 0 ∧ t.lock.rot = s.lock.rot + 1
          ∧ t.lock.history = (s.epoch + 1, s.lock.rot % (s.retainK + 1)) :: s.lock.history)
      ∧ (d.outcome = .empty → t.rf TM_LOCK_STATUS TM_LOCK_STATUS_LAST = 1 ∧ t.lock.rot = s.lock.rot
          ∧ t.lock.history = (s.epoch + 1, (s.lock.history.headD (0, 0)).2) :: s.lock.history))
    ∧ (s.lock.lateError = true → exec .lockCommitStep s = .next s.outOfStep)

/-- A lock ends 20 µs after it started (R65, R68, R76, R80, R81): the epoch rises by one, the next lock is one pound after that end, the pound that starts is in state POUND with no vote, its windows count from the
end, what the window deferred is carried out, and a worker reports the outcome. -/
def LocksEndAfterTheirWindow : Prop :=
  ∀ (d : Decision) (t0 : Nat) (s : State), s.lockLive = true → s.lock.decision = some d → s.lock.start = some t0 → s.lockSt = 3 → s.lock.committed = true → t0 + 20000 ≤ s.now →
    let w := (s.wrWide TM_EPOCH_0 2 (s.epoch + 1)).wrWide TM_NEXT_LOCK_0 2 ((s.nextLock + 20000 + s.poundNs) % 2 ^ 64)
    let u := { w with lock := { w.lock with history := w.lock.history.take w.retainK, past := w.lock.past.filter (fun p => decide (w.epoch < p.epoch + p.keep)),
                                            origin := t0 + 20000 } }
    let r := u.poundStart
    exec .lockEnd s = .next (((r.runDeferred.noteTimeLost.lockReport (if d.outcome = .commit then 0 else 1)
        (if d.outcome = .commit ∧ r.runDeferred.rf KP_FLEET_ID KP_FLEET_ID_DUTY = 0 then s.fleet.losses else [])).emptyAct s.lock.emptied))
    ∧ u.epoch = (s.epoch + 1) % 2 ^ 64 ∧ u.nextLock = (s.nextLock + 20000 + s.poundNs) % 2 ^ 64
    ∧ r.lockSt = 1 ∧ r.ownVote = 0 ∧ r.lock.decision = none ∧ r.lock.start = none ∧ r.lock.origin = t0 + 20000 ∧ r.lock.cut = false

end Sys2Proof.Machine

/-- The first pound starts when network time reaches the anchor: the next lock is one pound after it, the windows count from it, the pound's seed is that of the next epoch, STATE is POUND with no vote, and a RESTORE that
waits for it completes (R65, R76, R81, R388). -/
def Obligations.AnchorStartsThePound : Prop :=
  ∀ s : State, s.sched.isSome = true → s.lockSt = 0 → s.lock.anchor ≤ s.now → s.fleet.adrift = false →
    let u := s.wrWide TM_NEXT_LOCK_0 2 ((s.lock.anchor + s.poundNs) % 2 ^ 64)
    let w := { u with lock := { u.lock with origin := s.lock.anchor } }
    let r := (w.seedPound (s.epoch + 1)).poundStart
    exec .anchorReached s = .next (r.endAllWaits 0x15 stOK)
    ∧ w.nextLock = (s.lock.anchor + s.poundNs) % 2 ^ 64 ∧ r.lockSt = 1 ∧ r.ownVote = 0 ∧ r.lock.origin = s.lock.anchor ∧ r.lock.decision = none

/-- Completion of a device's own votes, what a cast vote leaves in TM_LOCK_STATUS, and the cut-off of a device that stands alone. -/
def Obligations.VotesOfTheDeviceComplete : Prop := OwnVotesComplete ∧ CastVoteShows ∧ CutoffDecides

/-- Votes at a manager and decisions at a worker are kept; a device without a decision falls out of step. -/
def Obligations.VotesAndDecisionsAreKept : Prop := FirstVotesAreKept ∧ DecisionsAreHeld

/-- A decided lock starts at its instant, and a held one moves by a pound (R76, R78). -/
def Obligations.LocksRunOrHold : Prop := LockStartsAtItsInstant ∧ HeldLocksMoveByAPound

/-- A lock commits, and ends after its window (R78, R80, R81). -/
def Obligations.LocksCommitAndEnd : Prop := CommitStepsComplete ∧ LocksEndAfterTheirWindow

/-! ## The tiller -/

namespace Sys2Proof.Machine

/-- Core `c` goes on past 4 bytes with `v` in register `d`; g0 discards the value (R172). -/
def Wrote (s t : State) (c d v : Nat) : Prop :=
  CoreBecomes s t c { (s.core c).wg d v with pc := (s.core c).pc + 4, stall := .none }

/-- A conditional branch goes by a test of two registers. -/
def BranchRuns (mk : CoreId → BitVec 5 → BitVec 5 → BitVec 16 → Instr) (cond : Dword → Dword → Bool) : Prop :=
  ∀ (core : CoreId) (a b : BitVec 5) (off : BitVec 16) (s : State), Ready s core 4 → let k := s.core core
    ∃ t : State, exec (mk core a b off) s = .next t ∧ CoreBecomes s t core
      { k with pc := if cond (k.rv a.toNat) (k.rv b.toNat) then wordsFrom k.pc off.toInt else k.pc + 4, stall := .none }

/-- A load of `n` bytes from a basin: the tiller waits with the data, and the return of the load puts it into the register. -/
def LoadRuns (mk : CoreId → BitVec 5 → BitVec 5 → BitVec 16 → Instr) (n : Nat) : Prop :=
  ∀ (core : CoreId) (d a : BitVec 5) (imm : BitVec 16) (s : State), Ready s core 4 → let x := (s.core core).ea a imm
    x < 0x800000000 → x % n = 0 → PassesN s (s.self core) x n false → s.marked 8 1 x n = [] → s.marked 8 2 x n = [] →
    ∃ t u : State, exec (mk core d a imm) s = .next t ∧ t = { s with cores := t.cores }
      ∧ exec (.tillerLoadReturn core) t = .next u ∧ Wrote s u core d.toNat (ofBytes (s.bytes x n))

/-- A store of the low `n` bytes of a register to a basin: the bytes stand in memory, the write is unacknowledged, and the tiller goes on. -/
def StoreRuns (mk : CoreId → BitVec 5 → BitVec 5 → BitVec 16 → Instr) (n : Nat) : Prop :=
  ∀ (core : CoreId) (d a : BitVec 5) (imm : BitVec 16) (s : State), Ready s core 4 → let k := s.core core; let x := k.ea a imm
    x < 0x800000000 → x % n = 0 → PassesN s (s.self core) x n true → s.marked 8 1 x n = [] → s.marked 8 2 x n = [] →
    ∃ t : State, exec (mk core d a imm) s = .next t ∧ Stores s t x (toBytes n (k.rg d.toNat))
      ∧ t.core core = { k with pc := k.pc + 4, stall := .none, unacked := k.unacked + 1 }
      ∧ (∀ c : Nat, c ≠ core → t.core c = s.core c) ∧ (∀ w : Nat, w + 8 ≤ x ∨ x + n ≤ w → spGet 0 t.ecc w = spGet 0 s.ecc w)
      ∧ t = { s with cores := t.cores, mem := t.mem, ecc := t.ecc }

end Sys2Proof.Machine

/-- Completion of the scalar instructions (R172 to R174): the result goes to g[D], the tiller goes on, and nothing else changes. A register number 0
reads zero and discards the result. -/
def Obligations.ScalarInstructionsComplete : Prop :=
  ∀ (core : CoreId) (d a b : BitVec 5) (fn : BitVec 11) (imm : BitVec 16) (s : State), Ready s core 4 →
    let x := (s.core core).rv a.toNat
    let y := (s.core core).rv b.toNat
    let n := imm.toNat % 64
    (∀ v : Dword, (fn.toNat, v) ∈ [(0, x + y), (1, x - y), (2, x &&& y), (3, x ||| y), (4, x ^^^ y), (5, x <<< (y.toNat % 64)), (6, x >>> (y.toNat % 64)),
        (7, x.sshiftRight (y.toNat % 64)), (8, x * y), (9, if x.toInt < y.toInt then 1#64 else 0#64), (10, if x.toNat < y.toNat then 1#64 else 0#64)] →
      ∃ t : State, exec (.alu core d a b fn) s = .next t ∧ Wrote s t core d.toNat v.toNat)
    ∧ (∃ t : State, exec (.addi core d a imm) s = .next t ∧ Wrote s t core d.toNat (x + imm.signExtend 64).toNat)
    ∧ (∃ t : State, exec (.andi core d a imm) s = .next t ∧ Wrote s t core d.toNat (x &&& imm.zeroExtend 64).toNat)
    ∧ (∃ t : State, exec (.ori core d a imm) s = .next t ∧ Wrote s t core d.toNat (x ||| imm.zeroExtend 64).toNat)
    ∧ (∃ t : State, exec (.xori core d a imm) s = .next t ∧ Wrote s t core d.toNat (x ^^^ imm.zeroExtend 64).toNat)
    ∧ (∃ t : State, exec (.shlor core d a imm) s = .next t ∧ Wrote s t core d.toNat (x <<< 16 ||| imm.zeroExtend 64).toNat)
    ∧ (∀ v : Dword, (imm.toNat / 64 % 4, v) ∈ [(0, x <<< n), (1, x >>> n), (2, x.sshiftRight n)] →
      ∃ t : State, exec (.shi core d a imm) s = .next t ∧ Wrote s t core d.toNat v.toNat)
    ∧ (imm.toNat / 64 % 4 = 3 → exec (.shi core d a imm) s = .next (s.selfFault core stBAD_OPCODE))

/-- Completion of the tiller's loads and stores in basins of its device, where no stored word of the range is hit by an upset (R173). -/
def Obligations.TillerLoadsAndStoresComplete : Prop := LoadRuns .ld 8 ∧ LoadRuns .ldw 4 ∧ StoreRuns .st 8 ∧ StoreRuns .stw 4

namespace Sys2Proof.Machine

/-- Completion of the branches and jumps (R173): the program counter goes by the test; a jump writes the offset of the next instruction. -/
def BranchesAndJumpsComplete : Prop :=
  BranchRuns .beq (fun x y => decide (x = y)) ∧ BranchRuns .bne (fun x y => decide (x ≠ y))
  ∧ BranchRuns .blt (fun x y => decide (x.toInt < y.toInt)) ∧ BranchRuns .bge (fun x y => decide (y.toInt ≤ x.toInt))
  ∧ BranchRuns .bltu (fun x y => decide (x.toNat < y.toNat)) ∧ BranchRuns .bgeu (fun x y => decide (y.toNat ≤ x.toNat))
  ∧ (∀ (core : CoreId) (d : BitVec 5) (off : BitVec 21) (s : State), Ready s core 4 → let k := s.core core
      ∃ t : State, exec (.jal core d off) s = .next t
        ∧ CoreBecomes s t core { k.wg d.toNat (k.pc + 4) with pc := wordsFrom k.pc off.toInt, stall := .none })
  ∧ (∀ (core : CoreId) (d a : BitVec 5) (imm : BitVec 16) (s : State), Ready s core 4 → let k := s.core core
      ∃ t : State, exec (.jr core d a imm) s = .next t
        ∧ CoreBecomes s t core { k.wg d.toNat (k.pc + 4) with pc := (k.rv a.toNat + imm.signExtend 64).toNat, stall := .none })

/-- Completion of RDS and of the waits (R173, R174). A wait whose condition holds goes on at once; one whose condition does not hold stalls the tiller. -/
def TillerWaitsComplete : Prop :=
  ∀ (core : CoreId) (d a : BitVec 5) (imm : BitVec 16) (s : State), let k := s.core core
    (Ready s core 4 →
      (∀ v : Nat, (imm.toNat, v) ∈ [(0, core.val), (1, s.devId), (2, s.epochW), (3, s.now), (4, s.rf TM_SCHED_0 TM_SCHED_0_POUND_US)] →
        ∃ t : State, exec (.rds core d imm) s = .next t ∧ Wrote s t core d.toNat v)
      ∧ (imm.toNat = 5 → ∃ (t : State) (v : Nat), exec (.rds core d imm) s = .next t ∧ t = { s with cores := t.cores, free := s.free + 1 }
          ∧ (∀ c : Nat, c ≠ core → t.core c = s.core c) ∧ t.core core = { k.wg d.toNat v with pc := k.pc + 4, stall := .none })
      ∧ (k.emptyQs (imm.toNat % 256) = true → ∃ t : State, exec (.waitq core imm) s = .next t ∧ CoreBecomes s t core { k with pc := k.pc + 4, stall := .none })
      ∧ (k.emptyQs (imm.toNat % 256) = false → ∃ t : State, exec (.waitq core imm) s = .next t
          ∧ CoreBecomes s t core { k with stall := .waitq (imm.toNat % 256) })
      ∧ (natBit (imm.toNat % 8) k.issued = false → ∃ t : State, exec (.statq core d imm) s = .next t ∧ Wrote s t core d.toNat 0)
      ∧ (natBit (imm.toNat % 8) k.issued = true → k.inQ (imm.toNat % 8) = [] →
          ∃ t : State, exec (.statq core d imm) s = .next t ∧ Wrote s t core d.toNat (s.lastSt core (imm.toNat % 8)))
      ∧ (k.rg a.toNat ≤ s.now → ∃ t : State, exec (.wfe core a) s = .next t ∧ CoreBecomes s t core { k with pc := k.pc + 4, stall := .none })
      ∧ (s.now < k.rg a.toNat → k.wake = true →
          ∃ t : State, exec (.wfe core a) s = .next t ∧ CoreBecomes s t core { k with pc := k.pc + 4, stall := .none, wake := false })
      ∧ (s.now < k.rg a.toNat → k.wake = false → ∃ t : State, exec (.wfe core a) s = .next t ∧ CoreBecomes s t core { k with stall := .wfe (k.rg a.toNat) }))
    ∧ (∀ limit : Nat, s.tstate core = 1 → k.stall = .wfe limit → limit ≤ s.now →
        ∃ t : State, exec (.wfeTimeout core) s = .next t ∧ CoreBecomes s t core { k with pc := k.pc + 4, stall := .none })

end Sys2Proof.Machine

/-- Completion of the branches, the jumps, RDS and the waits (R173, R174). -/
def Obligations.BranchesJumpsAndWaitsComplete : Prop := BranchesAndJumpsComplete ∧ TillerWaitsComplete

/-! ## Tile instructions -/

namespace Sys2Proof.Machine

/-- The entry that a tile instruction becomes, with the registers latched at issue (R135, R176). -/
def entryOf (s : State) (c : Nat) (w : TileWords) : QEntry := ⟨(s.core c).seq, queueOf w, (s.core c).pc, w, (s.core c).g, false, 0, false⟩

/-- The instruction stands in its queue, and the tiller goes on. -/
def State.queued (s : State) (c : Nat) (w : TileWords) : State :=
  (s.modCore c (fun k => { k with queue := [entryOf s c w], seq := k.seq + 1, issued := k.issued ||| 2 ^ queueOf w })).advance c 16

/-- It has started, and its entry holds the status it will return. -/
def State.held (s : State) (c seq st : Nat) : State := (s.modCore c (fun k => { k with queue := startQ seq st false k.queue })).syncQueues c

/-- Core `c` may issue a tile instruction, and nothing is queued: the instruction starts at once. -/
abbrev Idle (s : State) (c : Nat) : Prop := Ready s c 16 ∧ (s.core c).queue = []

/-- A command issues its words with one class and operation forced, and what a queue's unit makes of them stands in the next state. -/
def UnitRuns (mk : CoreId → TileWords → Instr) (words : TileWords → TileWords) (work : CoreId → QEntry → State → Nat × State)
    (good : CoreId → QEntry → State → Prop) : Prop :=
  ∀ (core : CoreId) (t : TileWords) (s : State), let w := words t; let e := entryOf s core w; let u := s.queued core w
    Idle s core → good core e s → exec (mk core t) s = .next ((work core e u).2.held core e.seq (work core e u).1)

/-- A vector operation on lanes. -/
def VectorRuns (mk : CoreId → TileWords → Instr) (vop : Nat) : Prop :=
  ∀ (core : CoreId) (t : TileWords) (i : VInstr) (s : State), let w := t.asVector vop; let e := entryOf s core w; let u := s.queued core w
    Idle s core → s.vinstr core e = some i → s.vectorBounds core i = stOK → i.vop = vop →
    let r := Core.vecOp i 0 (u.core core) ⟨0, 0, u.streams core⟩ i.nreg
    exec (mk core t) s = .next (((u.setCore core r.1).endVector core r.2).held core e.seq stOK)

/-- The conditions of a MOVE: no reserved field set, a size in range and not zero, operands in bounds (R199). -/
abbrev MoveGood (kind : Nat) (core : CoreId) (e : QEntry) (s : State) : Prop :=
  e.words.f0 16 6 = 0 ∧ e.words.f0 0 6 = 0 ∧ e.words.f1 21 11 = 0 ∧ e.words.f2 15 17 = 0 ∧ e.words.f3 0 24 = 0 ∧ e.words.f1 0 16 ≠ 0 ∧ e.words.f1 0 16 ≤ moveMax kind
    ∧ s.moveBounds core e = stOK

/-- An exact integer as an element of `w` bits: clamped to the type's range where the instruction saturates, else modulo 2^w (R130). -/
def elemOf (w : Nat) (sg sw : Bool) (x : Int) : Nat :=
  let lo : Int := if sg then -(2 ^ (w - 1) : Nat) else 0
  let hi : Int := if sg then (2 ^ (w - 1) : Nat) - 1 else (2 ^ w : Nat) - 1
  ((if sw then max lo (min hi x) else x) % (2 ^ w : Nat)).toNat

/-- Vector register `vd` of core `c` is in `u` what `f` makes of its lanes of `w` bits, and no other register, accumulator or byte of memory changes. -/
def LanesBecome (s u : State) (c vd w : Nat) (f : Nat → Nat) : Prop :=
  (∀ l : Nat, l < 2048 / w → laneOf w ((u.core c).vr vd) l = f l) ∧ (∀ r : Nat, r ≠ vd → (u.core c).vr r = (s.core c).vr r)
  ∧ (u.core c).acc = (s.core c).acc ∧ (u.core c).g = (s.core c).g ∧ u.mem = s.mem

/-- Lane `l` of the destination of a vector operation on one register of integers is a function of lane `l` of its two sources. -/
def LanesAre (mk : CoreId → TileWords → Instr) (vop : Nat) (f : Nat → Bool → Bool → Nat → Nat → Nat) : Prop :=
  ∀ (core : CoreId) (t : TileWords) (i : VInstr) (w : Nat) (sg : Bool) (s : State), let e := entryOf s core (t.asVector vop)
    Idle s core → s.vinstr core e = some i → s.vectorBounds core i = stOK → i.vop = vop → i.nreg = 1 → vtype i.type = .int w sg →
    ∃ u : State, exec (mk core t) s = .next u
      ∧ LanesBecome s u core i.vd w (fun l => f w sg i.sw (laneOf w ((s.core core).vr i.va) l) (laneOf w ((s.core core).vr i.vb) l))

/-- The same on one register of floating-point elements, under a rounding that is no draw: the result of IEEE 754 on the values of the lanes, in the format. -/
def FpLanesAre (mk : CoreId → TileWords → Instr) (vop : Nat) (f : FFmt → Rnd → FV → FV → FV → Nat) : Prop :=
  ∀ (core : CoreId) (t : TileWords) (i : VInstr) (x : FFmt) (rm : Rnd) (s : State), let e := entryOf s core (t.asVector vop)
    Idle s core → s.vinstr core e = some i → s.vectorBounds core i = stOK → i.vop = vop → i.nreg = 1 → vtype i.type = .fp x → i.sel = some rm →
    ∃ u : State, exec (mk core t) s = .next u
      ∧ LanesBecome s u core i.vd x.width (fun l => f x rm (x.decode (laneOf x.width ((s.core core).vr i.va) l)) (x.decode (laneOf x.width ((s.core core).vr i.vb) l))
          (x.decode (laneOf x.width ((s.core core).vr i.vc) l)) % 2 ^ x.width)

/-- Completion of the vector operations on lanes (R130 to R133, R197): issued to an idle core with operands in bounds, the operation runs over its
registers, sets the flags and the saturation counter, and stands in its queue with OK. -/
def VectorOperationsComplete : Prop :=
  VectorRuns .vectorAdd 0x00 ∧ VectorRuns .vectorSub 0x01 ∧ VectorRuns .vectorMul 0x02 ∧ VectorRuns .vectorFma 0x03 ∧ VectorRuns .vectorDiv 0x04
  ∧ VectorRuns .vectorSqrt 0x05 ∧ VectorRuns .vectorRem 0x06 ∧ VectorRuns .vectorMin 0x07 ∧ VectorRuns .vectorMax 0x08 ∧ VectorRuns .cmpeq 0x09
  ∧ VectorRuns .cmplt 0x0A ∧ VectorRuns .cmple 0x0B ∧ VectorRuns .neg 0x0D ∧ VectorRuns .abs 0x0E ∧ VectorRuns .vectorAnd 0x10
  ∧ VectorRuns .vectorOr 0x11 ∧ VectorRuns .vectorXor 0x12 ∧ VectorRuns .shl 0x13 ∧ VectorRuns .shr 0x14

/-- Integer lanes (R130, R197): sums, differences, products, negation, absolute value and left shifts wrap, or saturate with SW; minimum and maximum by value; comparisons give
all ones or zero; the bitwise operations; a right shift keeps the sign of a signed type. -/
def IntegerLanes : Prop :=
  let val := fun (w : Nat) (sg : Bool) (a : Nat) => (if sg && 2 ^ (w - 1) ≤ a then (a : Int) - (2 ^ w : Nat) else a)
  let mask := fun (w : Nat) (b : Bool) => if b then 2 ^ w - 1 else 0
  LanesAre .vectorAdd 0x00 (fun w sg sw a b => elemOf w sg sw (val w sg a + val w sg b))
  ∧ LanesAre .vectorSub 0x01 (fun w sg sw a b => elemOf w sg sw (val w sg a - val w sg b))
  ∧ LanesAre .vectorMul 0x02 (fun w sg sw a b => elemOf w sg sw (val w sg a * val w sg b))
  ∧ LanesAre .vectorMin 0x07 (fun w sg _ a b => if val w sg b < val w sg a then b else a)
  ∧ LanesAre .vectorMax 0x08 (fun w sg _ a b => if val w sg a < val w sg b then b else a)
  ∧ LanesAre .cmpeq 0x09 (fun w _ _ a b => mask w (decide (a = b)))
  ∧ LanesAre .cmplt 0x0A (fun w sg _ a b => mask w (decide (val w sg a < val w sg b)))
  ∧ LanesAre .cmple 0x0B (fun w sg _ a b => mask w (decide (val w sg a ≤ val w sg b)))
  ∧ LanesAre .neg 0x0D (fun w sg sw a _ => elemOf w sg sw (-val w sg a))
  ∧ LanesAre .abs 0x0E (fun w sg sw a _ => elemOf w sg sw (val w sg a).natAbs)
  ∧ LanesAre .vectorAnd 0x10 (fun _ _ _ a b => a &&& b) ∧ LanesAre .vectorOr 0x11 (fun _ _ _ a b => a ||| b)
  ∧ LanesAre .vectorXor 0x12 (fun _ _ _ a b => a ^^^ b)
  ∧ LanesAre .shl 0x13 (fun w sg sw a b => elemOf w sg sw (val w sg a * (2 ^ b : Nat)))
  ∧ LanesAre .shr 0x14 (fun w sg _ a b => (val w sg a / (2 ^ b : Nat) % (2 ^ w : Nat)).toNat)

/-- Floating-point lanes (R131, R132, R197) under a direction of rounding: each operation of IEEE 754 is carried out lane by lane; a comparison gives all ones or zero. -/
def FloatLanesFollowIeee : Prop :=
  let mask := fun (f : FFmt) (b : Bool) => if b then 2 ^ f.width - 1 else 0
  FpLanesAre .vectorAdd 0x00 (fun f rm x y _ => (f.add rm x y).1) ∧ FpLanesAre .vectorSub 0x01 (fun f rm x y _ => (f.sub rm x y).1)
  ∧ FpLanesAre .vectorMul 0x02 (fun f rm x y _ => (f.mul rm x y).1) ∧ FpLanesAre .vectorFma 0x03 (fun f rm x y z => (f.fma rm x y z).1)
  ∧ FpLanesAre .vectorDiv 0x04 (fun f rm x y _ => (f.div rm x y).1) ∧ FpLanesAre .vectorSqrt 0x05 (fun f rm x _ _ => (f.sqrt rm x).1)
  ∧ FpLanesAre .vectorRem 0x06 (fun f _ x y _ => (f.rem x y).1) ∧ FpLanesAre .vectorMin 0x07 (fun f _ x y _ => (f.min x y).1)
  ∧ FpLanesAre .vectorMax 0x08 (fun f _ x y _ => (f.max x y).1) ∧ FpLanesAre .cmpeq 0x09 (fun f _ x y _ => mask f (fvEq x y).1)
  ∧ FpLanesAre .cmplt 0x0A (fun f _ x y _ => mask f (fvLt x y).1) ∧ FpLanesAre .cmple 0x0B (fun f _ x y _ => mask f (fvLe x y).1)

/-- Completion of CVT, the reductions, SRFW, and the loads and stores of the vector unit (R131, R161, R197, R198). -/
def VectorMovesAndReductionsComplete : Prop :=
  (∀ i : VInstr, UnitRuns .cvt (·.asVector 0x0C)
      (fun c _ u => let r := Core.vecCvt i u.free 0 (u.core c) ⟨0, 0, u.streams c⟩ i.nreg; (stOK, ({ u with free := u.free + i.nreg }.setCore c r.1).endVector c r.2))
      (fun c e s => s.vinstr c e = some i ∧ i.vop = 0x0C ∧ s.vectorBounds c i = stOK))
  ∧ (∀ i : VInstr, UnitRuns .redsum (·.asVector 0x18) (fun c _ u => (stOK, u.vecReduce c i ⟨0, 0, u.streams c⟩))
      (fun c e s => s.vinstr c e = some i ∧ i.vop = 0x18 ∧ s.vectorBounds c i = stOK))
  ∧ (∀ i : VInstr, UnitRuns .redmax (·.asVector 0x19) (fun c _ u => (stOK, u.vecReduce c i ⟨0, 0, u.streams c⟩))
      (fun c e s => s.vinstr c e = some i ∧ i.vop = 0x19 ∧ s.vectorBounds c i = stOK))
  ∧ (∀ i : VInstr, UnitRuns .srfw (·.asVector 0x28) (fun c _ u => (stOK, u.vecSrfw c i))
      (fun c e s => s.vinstr c e = some i ∧ i.vop = 0x28 ∧ s.vectorBounds c i = stOK))
  ∧ (∀ i : VInstr, UnitRuns .vectorLd (·.asVector 0x20)
      (fun c _ u => (stOK, u.modCore c (fun k => (List.range i.nreg).foldl (fun k r => k.setVr (i.vd + r) (u.load (i.addr + 256 * r) 256)) k)))
      (fun c e s => s.vinstr c e = some i ∧ i.vop = 0x20 ∧ s.vectorBounds c i = stOK ∧ s.basinReach i.addr (256 * i.nreg) = stOK ∧ s.ecc = []))
  ∧ (∀ i : VInstr, UnitRuns .vectorSt (·.asVector 0x21) (fun c _ u => u.vecSt c i)
      (fun c e s => s.vinstr c e = some i ∧ i.vop = 0x21 ∧ s.vectorBounds c i = stOK ∧ s.basinReach i.addr (256 * i.nreg) = stOK ∧ s.ecc = []))
  ∧ (∀ i : VInstr, UnitRuns .ldb (·.asVector 0x22)
      (fun c _ u => let r := u.vecLdb c i 0 0 ⟨0, 0, u.streams c⟩ i.nreg; (stOK, r.2.1.endVector c r.2.2))
      (fun c e s => s.vinstr c e = some i ∧ i.vop = 0x22 ∧ s.vectorBounds c i = stOK
        ∧ (let u := s.queued c e.words; u.checkBarges c i.addr isBargeFmt false (List.range i.nreg) = (stOK, u) ∧ (u.vecLdb c i 0 0 ⟨0, 0, u.streams c⟩ i.nreg).1 = stOK)))
  ∧ (∀ i : VInstr, UnitRuns .stb (·.asVector 0x23) (fun c _ u => u.vecStb c i ⟨0, 0, u.streams c⟩)
      (fun c e s => s.vinstr c e = some i ∧ i.vop = 0x23 ∧ s.vectorBounds c i = stOK ∧ (s.record c (2 * natBits 6 13 i.imm) false).isSome = true))

/-- What CVT between integer types, the reductions of one register of integers, SRFW, ST and LDB leave (R93, R130, R161, R197, R198): a converted lane is the source lane's value in the new
type, saturated only by a narrowing conversion with SW; REDSUM leaves the sum of the lanes, and REDMAX the greatest of them, in lane 0 and zeros above; SRFW writes
the lanes to scale registers in a row; ST stores the registers, and no other byte of memory changes; LDB of one barge writes its finite elements rounded to FP32. -/
def VectorMovesLeaveTheirResults : Prop :=
  let val := fun (w : Nat) (sg : Bool) (a : Nat) => (if sg && 2 ^ (w - 1) ≤ a then (a : Int) - (2 ^ w : Nat) else a)
  let at_ := fun (core : CoreId) (t : TileWords) (i : VInstr) (vop : Nat) (s : State) => let e := entryOf s core (t.asVector vop)
    Idle s core ∧ s.vinstr core e = some i ∧ s.vectorBounds core i = stOK ∧ i.vop = vop
  ∀ (core : CoreId) (t : TileWords) (i : VInstr) (s : State), let k := s.core core
    (∀ (w w' : Nat) (sg sg' : Bool), at_ core t i 0x0C s → i.nreg = 1 → vtype i.type = .int w sg → vtype (i.imm % 8) = .int w' sg' →
      ∃ u : State, exec (.cvt core t) s = .next u ∧ u.mem = s.mem ∧ (∀ r : Nat, r ≠ i.vd → (u.core core).vr r = k.vr r)
        ∧ ∀ l : Nat, l < 2048 / w → l < 2048 / w' → laneOf w' ((u.core core).vr i.vd) l = elemOf w' sg' (i.sw && decide (w' < w)) (val w sg (laneOf w (k.vr i.va) l)))
    ∧ (∀ (w : Nat) (sg : Bool), at_ core t i 0x18 s → i.nreg = 1 → i.sw = false → vtype i.type = .int w sg →
      ∃ u : State, exec (.redsum core t) s = .next u ∧ u.mem = s.mem ∧ (∀ r : Nat, r ≠ i.vd → (u.core core).vr r = k.vr r)
        ∧ (u.core core).vr i.vd = ((List.range (2048 / w)).map (fun l => laneOf w (k.vr i.va) l)).sum % 2 ^ w)
    ∧ (∀ (w : Nat) (sg : Bool), at_ core t i 0x19 s → i.nreg = 1 → vtype i.type = .int w sg →
      ∃ u : State, exec (.redmax core t) s = .next u ∧ u.mem = s.mem ∧ (∀ r : Nat, r ≠ i.vd → (u.core core).vr r = k.vr r)
        ∧ (∃ l : Nat, l < 2048 / w ∧ (u.core core).vr i.vd = laneOf w (k.vr i.va) l)
        ∧ ∀ l : Nat, l < 2048 / w → val w sg (laneOf w (k.vr i.va) l) ≤ val w sg ((u.core core).vr i.vd))
    ∧ (at_ core t i 0x28 s → ∃ u : State, exec (.srfw core t) s = .next u ∧ u.mem = s.mem
        ∧ ∀ n : Nat, n < 64 * i.nreg → u.rd (CO_SRF core (natBits 0 13 i.imm + n)) = laneOf 32 (k.vr (i.va + n / 64)) (n % 64))
    ∧ (at_ core t i 0x21 s → s.basinReach i.addr (256 * i.nreg) = stOK → s.ecc = [] → ∃ u : State, exec (.vectorSt core t) s = .next u
        ∧ Stores s u i.addr ((List.range i.nreg).flatMap (fun r => toBytes 256 (k.vr (i.va + r)))) ∧ (u.core core).vreg = k.vreg)
    ∧ (∀ rm : Rnd, at_ core t i 0x22 s → i.nreg = 1 → i.sel = some rm → let u := s.queued core (t.asVector 0x22)
        u.checkBarges core i.addr isBargeFmt false [0] = (stOK, u) → (s.barge i.addr 0).invalid = false → i.vd + bargeRegs (s.barge i.addr 0).fmt ≤ 32 →
        ∃ w : State, exec (.ldb core t) s = .next w ∧ w.mem = s.mem
          ∧ ∀ (l : Nat) (x : Dy), l < fmtCount (s.barge i.addr 0).fmt → (s.barge i.addr 0).value l = .fin x →
            laneOf 32 ((w.core core).vr (i.vd + l / 64)) (l % 64) = (fp32F.round rm x false).1 % 2 ^ 32)

end Sys2Proof.Machine

/-- Completion of the six kinds of MOVE (R152, R199). -/
def Obligations.MovesComplete : Prop :=
  let lay := fun e : QEntry => natBit 22 e.words.w0.toNat
  let n := fun e : QEntry => e.words.f1 0 16
  let en := fun e : QEntry => e.words.f2 0 15
  let ra := fun e : QEntry => e.rg (e.words.f0 11 5)
  let rb := fun e : QEntry => e.rg (e.words.f0 6 5)
  UnitRuns .moveAccToReg (·.asMove 0) (fun c e u => (stOK, u.modCore c (fun k => k.moveAccToReg (lay e) (n e) (en e) (e.words.f1 16 5)))) (MoveGood 0)
  ∧ UnitRuns .moveRegToAcc (·.asMove 1) (fun c e u => (stOK, u.modCore c (fun k => k.moveRegToAcc (n e) (en e) (e.words.f1 16 5)))) (MoveGood 1)
  ∧ UnitRuns .moveBasinCopy (·.asMove 2) (fun _ e u => (stOK, u.setBytes (rb e) (u.bytes (ra e) (64 * n e))))
      (fun c e s => MoveGood 2 c e s ∧ s.basinReach (ra e) (64 * n e) = stOK ∧ s.basinReach (rb e) (64 * n e) = stOK ∧ s.ecc = [])
  ∧ UnitRuns .moveBasinToSrf (·.asMove 3)
      (fun c e u => (stOK, (List.range (n e)).foldl (fun s i => s.wr (CO_SRF c (en e + i)) (s.load (ra e + 4 * i) 4)) u))
      (fun c e s => MoveGood 3 c e s ∧ s.basinReach (ra e) (4 * n e) = stOK ∧ s.ecc = [])
  ∧ UnitRuns .moveSrfToBasin (·.asMove 4) (fun c e u => (stOK, u.setBytes (rb e) ((List.range (n e)).flatMap (fun i => toBytes 4 (u.rd (CO_SRF c (en e + i)))))))
      (fun c e s => MoveGood 4 c e s ∧ s.basinReach (rb e) (4 * n e) = stOK ∧ s.ecc = [])
  ∧ UnitRuns .moveClearRows (·.asMove 5)
      (fun c e u => (stOK, u.modCore c (fun k => { k with acc := accFill (clearedEntry (lay e)) (en e) (regionLen (lay e) (n e)) [] k.acc }))) (MoveGood 5)

/-- Completion of GEMM, CONVERT and SOUND in their plain forms, with a fixed shape and no pointer list, where the encoding, the keys, the operands and the
region pass their checks (R128, R178, R180, R183, R185, R193, R200): a GEMM binds the region's key and clears the region where ZERO says so, then the tile's own work runs, its trap is
recorded, and its status stands in the queue; a GEMM changes no byte of memory, no vector or scalar register and no other core. -/
def Obligations.MatrixInstructionsComplete : Prop :=
  let opA := fun e : QEntry => (⟨e.rg (e.words.f0 11 5), e.words.f2 24 4, e.words.kMax⟩ : Opnd)
  let opB := fun e : QEntry => (⟨e.rg (e.words.f0 6 5), e.words.f2 28 4, e.words.kMax⟩ : Opnd)
  let key := fun e : QEntry => keyOf e.words (e.words.f2 0 15)
  let plain := fun (c : CoreId) (e : QEntry) (s : State) => gemmEncOk e.words = true ∧ e.words.dyn = false ∧ natBit 19 e.words.w0.toNat = false
    ∧ s.tileBounds c e.words (opA e) (opB e) (e.words.f2 0 15) = stOK
  let start := fun (c : CoreId) (e : QEntry) (u : State) => u.modCore c (fun k =>
    let k := k.bindKey (e.words.f3 8 8) (key e)
    if natBit 22 e.words.w0.toNat then { k with acc := accFill (clearedEntry e.words.backward) (e.words.f2 0 15) (regionLen e.words.backward e.words.mMax) [] k.acc } else k)
  UnitRuns .gemm (·.asClass 0x30)
      (fun c e u => let r := (start c e u).tileWork c e e.words (opA e) (opB e) (e.words.f2 0 15); (r.1, r.2.2.trapEvent c r.2.1 r.1))
      (fun c e s => plain c e s ∧ (s.core c).keyOk (e.words.f3 8 8) (key e) (natBit 22 e.words.w0.toNat) = true ∧ s.tileBad c e e.words (opA e) (opB e) = false)
  ∧ (∀ (core : CoreId) (t : TileWords) (s : State), let e := entryOf s core (t.asClass 0x30)
      Idle s core → plain core e s → (s.core core).keyOk (e.words.f3 8 8) (key e) (natBit 22 e.words.w0.toNat) = true → s.tileBad core e e.words (opA e) (opB e) = false →
      ∃ u : State, exec (.gemm core t) s = .next u ∧ u.mem = s.mem ∧ (∀ c : Nat, c ≠ core → u.core c = s.core c)
        ∧ (u.core core).vreg = (s.core core).vreg ∧ (u.core core).g = (s.core core).g ∧ (u.core core).pc = (s.core core).pc + 16)
  ∧ (∀ recs : List Rec, UnitRuns .convert (·.asClass 0x31) (fun c e u => u.convertWork c e e.words.mMax e.words.nMax recs)
      (fun c e s => convertEncOk e.words = true ∧ e.words.dyn = false ∧ s.convertBounds c e.words (e.rg (e.words.f0 11 5)) = stOK
        ∧ s.recordsFrom c (e.words.f3 0 13) (natBit 24 e.words.w0.toNat) (natBit 23 e.words.w0.toNat) 0 e.words.nMax = some recs))
  ∧ UnitRuns .sound (·.asClass 0x35)
      (fun c e u => u.soundTile c e (opA e) (opB e) (e.words.f2 0 15) (natBits 0 16 (e.rg (e.words.f0 1 5)))) plain

namespace Sys2Proof.Machine

/-- Completion of the fences (R202, R203), and of the acknowledgement that ends a wait. A fence whose condition holds goes on; EOP with no token held ends
the program; a fence whose condition does not hold stalls the tiller; an acknowledged write counts no more. -/
def FencesComplete : Prop :=
  ∀ (core : CoreId) (t : TileWords) (s : State), let k := s.core core
    let clean := fun w : TileWords => w.f0 0 16 = 0 ∧ w.w1 = 0#32 ∧ w.w2 = 0#32 ∧ w.f3 0 24 = 0 ∧ k.emptyQs w.waitm = true
    (Ready s core 16 →
      (∀ x ∈ [(Instr.fenceQueue core t, 0), (Instr.fenceVisible core t, 1), (Instr.fenceGlobal core t, 2)], let w := t.asOwn 0x36 x.2
        clean w → (s.fenceMet core x.2 (w.f0 16 8) = true → ∃ u : State, exec x.1 s = .next u ∧ CoreBecomes s u core { k with pc := k.pc + 16, stall := .none })
          ∧ (s.fenceMet core x.2 (w.f0 16 8) = false → ∃ u : State, exec x.1 s = .next u ∧ CoreBecomes s u core { k with stall := .tile w }))
      ∧ (clean (t.asOwn 0x36 3) → s.fenceMet core 3 ((t.asOwn 0x36 3).f0 16 8) = true → s.rf (CO_TSTATUS core) CO_TSTATUS_TOKENS = 0 →
          ∃ u : State, exec (.fenceEop core t) s = .next u ∧ u.core core = { k with pc := k.pc + 16, stall := .none } ∧ u.tstate core = 2
            ∧ (∀ c : Nat, c ≠ core → u.core c = s.core c) ∧ RegsBut s u [CO_TSTATUS core] ∧ u = { s with cores := u.cores, regs := u.regs }))
    ∧ (∀ m : Ident, s.isLocal m = true → masterOf m.num.toNat = .tiller core → k.stall = .none →
        (∃ u : State, exec (.writeAcknowledged m false) s = .next u ∧ CoreBecomes s u core { k with unacked := k.unacked - 1 })
        ∧ ∃ u : State, exec (.writeAcknowledged m true) s = .next u ∧ CoreBecomes s u core { k with unackedRemote := k.unackedRemote - 1 })
    ∧ (∀ (m : Ident) (e : Nat), s.isLocal m = true → masterOf m.num.toNat = .engine e → 2048 ≤ e →
        exec (.writeAcknowledged m false) s = .next (s.setEngine e { s.engine e with unacked := (s.engine e).unacked - 1 }))

/-- Completion of the claims (R205 to R208): a TAKE with indices left, and none on the reclaim list, gets the next one, writes its token, and counts it as held; a DONE whose token is good
counts it and ends the holding, and any other is CLAIM_STALE and changes nothing; a waiting TAKE gets what a later look gives. -/
def ClaimsComplete : Prop :=
  ∀ (core : CoreId) (t : TileWords) (s : State), let k := s.core core; let die := core.val / 64
    let clean := fun w : TileWords => w.f0 16 1 = 0 ∧ w.f0 0 6 = 0 ∧ w.w1 = 0#32 ∧ w.w2 = 0#32 ∧ w.f3 0 24 = 0 ∧ k.emptyQs w.waitm = true
      ∧ (natBit 23 w.w0.toNat = true → w.f0 17 6 < 16) ∧ s.claimLimit (natBit 23 w.w0.toNat) die (w.f0 17 6) ≠ 0
    let goesOn := fun (d v : Nat) => { k.wg d v with pc := k.pc + 16, stall := .none }
    (Ready s core 16 →
      (let w := t.asOwn 0x34 0; let dev := natBit 23 w.w0.toNat; let ctr := w.f0 17 6; let x := s.claim (claimKey dev die ctr)
        let next := s.rf (claimReg dev die ctr 1) KP_CLAIM_PROGRESS_NEXT
        let n := (spGet 0 x.issue next + 1) % 16
        clean w → s.rf (CO_TSTATUS core) CO_TSTATUS_TOKENS < 4 → x.reclaim = [] → next < s.claimLimit dev die ctr →
        ∃ u : State, exec (.claimTake core t) s = .next u ∧ u.core core = goesOn (w.f0 11 5) (mkToken next n ctr dev (s.claimArm dev die ctr) s.epochW)
          ∧ u.rf (claimReg dev die ctr 1) KP_CLAIM_PROGRESS_NEXT = next + 1 ∧ u.rf (CO_TSTATUS core) CO_TSTATUS_TOKENS = s.rf (CO_TSTATUS core) CO_TSTATUS_TOKENS + 1
          ∧ spGet 0 (u.claim (claimKey dev die ctr)).issue next = n ∧ spGet 0 (u.claim (claimKey dev die ctr)).holder next = core.val + 1
          ∧ (∀ c : Nat, c ≠ core → u.core c = s.core c) ∧ RegsBut s u [claimReg dev die ctr 1, claimReg dev die ctr 3, CO_TSTATUS core]
          ∧ u = { s with cores := u.cores, regs := u.regs, claims := u.claims })
      ∧ (let w := t.asOwn 0x34 1; let dev := natBit 23 w.w0.toNat; let ctr := w.f0 17 6; let x := s.claim (claimKey dev die ctr)
        let tok := k.rg (w.f0 6 5); let i := natBits 0 16 tok
        let good := natBits 56 8 tok = 0 ∧ natBit 26 tok = dev ∧ natBits 20 6 tok = ctr ∧ i < s.claimLimit dev die ctr ∧ natBits 32 24 tok = s.epochW % 2 ^ 24
          ∧ natBits 27 5 tok = s.claimArm dev die ctr ∧ natBits 16 4 tok = spGet 0 x.issue i ∧ spGet 0 x.holder i = core.val + 1
        clean w → s.fenceMet core 1 0 = true →
        (good → ∃ u : State, exec (.claimDone core t) s = .next u ∧ u.core core = goesOn (w.f0 11 5) stOK
          ∧ u.rf (claimReg dev die ctr 1) KP_CLAIM_PROGRESS_DONE
              = satAdd (2 ^ KP_CLAIM_PROGRESS_DONE.width - 1) (s.rf (claimReg dev die ctr 1) KP_CLAIM_PROGRESS_DONE) 1
          ∧ u.rf (CO_TSTATUS core) CO_TSTATUS_TOKENS = s.rf (CO_TSTATUS core) CO_TSTATUS_TOKENS - 1 ∧ spGet 0 (u.claim (claimKey dev die ctr)).holder i = 0
          ∧ (∀ c : Nat, c ≠ core → u.core c = s.core c) ∧ RegsBut s u [claimReg dev die ctr 1, claimReg dev die ctr 3, CO_TSTATUS core]
          ∧ u = { s with cores := u.cores, regs := u.regs, claims := u.claims })
        ∧ (¬good → ∃ u : State, exec (.claimDone core t) s = .next u ∧ CoreBecomes s u core (goesOn (w.f0 11 5) stCLAIM_STALE))))
    ∧ (∀ (w : TileWords) (u : State), s.tstate core = 1 → k.stall = .tile w → w.cls = 0x34 → w.f0 24 2 = 0 → s.runClaim core w = some u →
        exec (.claimTakeResume core) s = .next u)

/-- Completion of the queues' own events (R135, R177): an instruction ends with its status and leaves its queue; a stalled instruction enters a queue that has
room again. -/
def QueueEventsComplete : Prop :=
  ∀ (core : CoreId) (q : Fin 8) (e : QEntry) (s : State), let k := s.core core
    (k.queue = [e] → e.q = q.val → e.started = true → stInformational e.status = true → k.stall = .none → ∃ u : State, exec (.instructionComplete core ⟨q, e.second⟩) s = .next u
      ∧ u.core core = { k with queue := [] } ∧ (∀ c : Nat, c ≠ core → u.core c = s.core c) ∧ u.lastSt core q = e.status
      ∧ RegsBut s u [CO_QDEPTH core, CO_UNIT_BUSY core, CO_LASTST_0 core, CO_LASTST_1 core] ∧ u = { s with cores := u.cores, regs := u.regs })
    ∧ (k.stall = .queueFull e → s.tstate core = 1 → (k.inQ e.q).length < 8 → e.q < 5 → exec (.issueResume core) s = .next (s.enqueue core { e with seq := k.seq } 16))

end Sys2Proof.Machine

/-- Completion of every instruction of the vector unit, issued to an idle core. -/
def Obligations.VectorInstructionsComplete : Prop := VectorOperationsComplete ∧ VectorMovesAndReductionsComplete ∧ VectorMovesLeaveTheirResults

/-- What the lanes of arithmetic operations hold: integers modulo a power of two, floating-point numbers by IEEE 754. -/
def Obligations.IntegerLanesWrap : Prop := IntegerLanes ∧ FloatLanesFollowIeee

/-- Completion of fences, claims and the queues' own events. -/
def Obligations.FencesClaimsAndQueuesComplete : Prop := FencesComplete ∧ ClaimsComplete ∧ QueueEventsComplete

/-! ## Rings, serving and DMA -/

namespace Sys2Proof.Machine

/-- Completion of the doorbell, the fetch and the resume of a ring (R307, R311 to R314). An accepted doorbell moves PROD, and halts the ring where it announces
more than the ring has slots; one from another master than the ring's owner, of a disabled ring or behind PROD is counted and changes nothing else. A fetch
takes one descriptor, of this device or, once its read of class 3 has been answered, of another. RESUME sets a halted ring running. -/
def RingQueueCommandsComplete : Prop :=
  ∀ (m : Ident) (ring : Fin 16) (value : Dword) (s : State), let new := natBits 0 32 value.toNat; let ahead := (new + 2 ^ 32 - s.rd (KP_RING_CONS ring)) % 2 ^ 32
    let cmd := Instr.ringDoorbell m (BitVec.ofNat 12 (8 * ring.val)) 8 value
    (PassesN s m (doorbellBase + 8 * ring.val) 8 true → let owns := s.rf (KP_RING_OWNER ring) KP_RING_OWNER_OWNER = identWord m; let on := s.rb (KP_RING_CFG ring) KP_RING_CFG_EN = true
      let u := (s.wr (KP_RING_PROD ring) new).syncRing ring
      (owns → on → s.ringAhead ring ≤ ahead →
        (ahead ≤ s.ringSlots ring → exec cmd s = .next (u.reply stOK []))
        ∧ (s.ringSlots ring < ahead → exec cmd s = .next ((u.ringHalt ring stBOUNDS_FAULT).reply stOK [])))
      ∧ (¬owns ∨ ¬on ∨ ahead < s.ringAhead ring → exec cmd s = .next ((s.bumpF (KP_RING_STATUS ring) KP_RING_STATUS_IGNORED 1).reply stOK [])))
    ∧ (s.ringReady ring = true → let g := s.ringAddr ring (s.rd (KP_RING_CONS ring)); let k := s.self 0xD00
      (∀ (a : Nat) (bs : List Byte) (u : State), s.resolve g = some (s.devId, a) → (s.checkLocal k a 64 false).1 = stOK →
        s.memRd a 64 = (stOK, bs, u) → exec (.ringFetch ring none) s = .next (u.ringTake ring (ofBytes bs)))
      ∧ (∀ dev a : Nat, s.resolve g = some (dev, a) → dev ≠ s.devId →
        (∀ v : BitVec 512, exec (.ringFetch ring (some (0#8, v))) s = .next ((s.remoteForget k [(g, 64)]).ringTake ring v.toNat))
        ∧ (∀ bs : List Byte, s.remoteGot k g 64 = some (stOK, bs) → exec (.ringFetch ring none) s = .next ((s.remoteForget k [(g, 64)]).ringTake ring (ofBytes bs)))
        ∧ (s.remoteGot k g 64 = none → exec (.ringFetch ring none) s = .next (s.remoteAsk k 3 g 64 none))))
    ∧ (Passes s m (KP_RING_CTRL ring) true → s.rf (KP_RING_STATUS ring) KP_RING_STATUS_STATE = 2 →
        exec (.ringResume m ring) s = .next ((s.wf (KP_RING_STATUS ring) KP_RING_STATUS_STATE 1).reply stOK []))

/-- A fetched descriptor whose OP R309 lists stands last in its ring under its index, and CONS counts it (R307, R311); the other rings, every register but CONS
and the intake ports' status, and of the intake ports everything but their busy lines, stay. -/
def FetchedDescriptorsStandInOrder : Prop :=
  ∀ (r : Fin 16) (v : Nat) (s : State), ringOpOk (natBits 0 8 v) = true → let t := s.ringTake r v
    t.ring r = s.ring r ++ [⟨s.rd (KP_RING_CONS r), descWords v, false, none, false, none⟩]
      ∧ t.rd (KP_RING_CONS r) = (s.rd (KP_RING_CONS r) + 1) % 2 ^ 32 ∧ (∀ x : Nat, x ≠ r.val → t.ring x = s.ring x) ∧ RegsBut s t (KP_RING_CONS r :: (List.range 16).map (fun p => WH_INTAKE_STATUS (p / 2) (p % 2)))
      ∧ (∀ p : Nat, t.port p = { s.port p with low := (t.port p).low }) ∧ t = { s with regs := t.regs, rings := t.rings, intake := t.intake }

/-- Completion of NOP, SCHEDULE and CONFIG, each on the descriptor that its ring lets begin (R308 to R311). NOP completes. A SCHEDULE whose image can run is
current at once on an IDLE device, and bound to its epoch on a running one; a CONFIG's entries are bound to its epoch. -/
def RingDescriptorsComplete : Prop :=
  ∀ (ring : Fin 16) (index : Word) (d : RingExec) (s : State),
    (s.ringBegin ring index.toNat 0 = some d → exec (.nop ring index) s = .next (s.ringComplete ring d stOK))
    ∧ (∀ im : ScheduleImage, s.ringBegin ring index.toNat 1 = some d → s.dmaRangeOk (s.self 0xD00) (d.word 2) (max 1 (natBits 0 32 (d.word 3))) false = true →
      (s.lockSt = 0 → d.eb = false → s.schedBad im true = false →
        exec (.schedule ring index im) s = .next (((s.measExtend 4 (digestBytes im.digest)).adoptSched im).afterRestore.ringComplete ring d stOK))
      ∧ (s.lockSt ≠ 0 → s.lockSt ≠ 4 → d.eb = true → s.epochPast d.target = false → s.schedBad im false = false →
        exec (.schedule ring index im) s
          = .next (((s.measExtend 4 (digestBytes im.digest)).bind d.target (.schedule im) (some (ring, d.index))).ringStart ring d)))
    ∧ (∀ (l : List (Nat × Nat)) (u : State), let n := natBits 0 16 (d.word 3); let places := listPieces (d.word 2) n; let k := s.self 0xD00
      s.ringBegin ring index.toNat 2 = some d → d.eb = true → n ≠ 0 → n ≤ 1024 → s.epochPast d.target = false →
      (s.allGot k places = true → s.configList (d.word 2) n = (stOK, l, u) → u.portsBad l = false →
        let w := ((configChanges l).foldl (fun s c => s.bind d.target c (some (ring, d.index))) u).ringStart ring d
        exec (.config ring index) s = .next (if places.any (fun x => s.isRemote x.1) then w.remoteForget k places else w))
      ∧ (s.allGot k places = false → exec (.config ring index) s = .next (s.askAll k 3 none places)))

/-- Completion of SERVE and COPY (R83, R84, R309 to R311, R319, R483). SERVE answers an admitted request: with its response while the request can be read and its
epoch is retained, else with the status and no data. COPY begins on an engine of the runtime's choice, not while a lock runs: it asks for a source on another
device first, and completes with its status once its writes to another device have been answered. -/
def ServeAndCopyComplete : Prop :=
  ∀ (ring : Fin 16) (index : Word) (d : RingExec) (s : State),
    (∀ (response : List Byte) (st : Nat) (u : State), (s.ring ring).find? (fun d => d.index == index.toNat && d.op == 3 && d.served) = some d →
      s.requestRead ring d ((d.reqTotal + 64 + 63) / 64) = (st, u) → let e := d.epoch.getD u.epoch; let p := (u.replyTo d).2.2
      (st = stOK → d.epoch.all (fun e => u.retained e) = true →
        exec (.serve ring index response) s = .next ((u.respond p (u.serveHeader d 2 stOK e) response).serveDone ring d stOK))
      ∧ (st = stOK → d.epoch.all (fun e => u.retained e) = false →
        exec (.serve ring index response) s = .next ((u.respond p (u.serveHeader d 2 stBOUNDS_FAULT e) []).serveDone ring d stBOUNDS_FAULT))
      ∧ (st ≠ stOK → exec (.serve ring index response) s = .next ((u.respond p (u.serveHeader d 2 st e) []).serveDone ring d st)))
    ∧ (s.ringBegin ring index.toNat 4 = some d → s.lockSt ≠ 3 →
      let e := d.engine.getD (2048 + s.draw.1 % 128); let w := if d.engine.isSome then s else s.draw.2; let far := w.copyRemote d
      (w.allGot (w.engineId e) far = false →
        exec (.copy ring index) s = .next ((w.askAll (w.engineId e) 2 (if d.eb then some d.target else none) far).ringSet ring { d with engine := some e }))
      ∧ (∀ (st : Nat) (u : State), w.allGot (w.engineId e) far = true → w.copyMove e d = (st, u) → let z := w.copyMoved u e far
        ((z.engine e).remote = 0 ∨ st ≠ stOK → exec (.copy ring index) s = .next ((z.copyCount e st).ringComplete ring d st))
        ∧ ((z.engine e).remote ≠ 0 → st = stOK → exec (.copy ring index) s = .next (z.ringSet ring { d with begun := true, engine := some e }))))
    ∧ (∀ e : Nat, s.ringBegin ring index.toNat 4 = none → (s.ring ring).find? (fun d => d.index == index.toNat && d.op == 4 && d.begun) = some d → d.engine = some e →
      (s.engine e).remote = 0 → let st := stWorst stOK (s.engine e).worst
      exec (.copy ring index) s = .next (((s.setEngine e { s.engine e with worst := stOK_EMPTY }).copyCount e st).ringComplete ring d st))

/-- Completion of the fragments that reach a serving intake (R318 to R320). The first opens its request with a reservation, or meets a busy reply; a further one
adds its bytes, and a duplicate nothing; the one that completes the request sends it to the ring; one that breaks a check has its request refused, with a
status; and a request that was refused gets no second answer. -/
def FragmentsComplete : Prop :=
  ∀ (port : PortId) (h : ServeHeader) (data : List Byte) (s : State), let p := port.val; let k := s.port p; let cmd := Instr.intakeFragment port h data
    let refused := k.refused.any (fun x => (x.1, x.2.1, x.2.2.1) == (h.srcAddr.toNat, h.srcPort.toNat, h.reqId.toNat)) = true
    s.intakeOn p = true → s.portOn p = true →
    (refused → exec cmd s = .next s)
    ∧ (¬refused → let st := s.fragmentStatus p h
      (st ≠ stOK → exec cmd s = .next (((s.discard p h).bump (WH_INTAKE_REFUSED (p / 2) (p % 2)) 1).answer p h 3 st))
      ∧ (∀ x : Reassembly, st = stOK → k.reasm.find? (fun x => x.of h) = some x →
        (x.fidx.contains h.fidx.toNat = true → exec cmd s = .next s)
        ∧ (∀ (bs : List Byte) (u : State), x.fidx.contains h.fidx.toNat = false → s.fresh x h.offset.toNat data = (bs, u) →
          let y := { x with frags := x.frags ++ [(h.offset.toNat, bs)], fidx := x.fidx ++ [h.fidx.toNat] }
          (y.complete = true → exec cmd s = .next (u.reassembled p y))
          ∧ (y.complete = false → exec cmd s = .next (u.setPort p { u.port p with reasm := (u.port p).reasm.map (fun z => if z.of h then y else z) }))))
      ∧ (st = stOK → k.reasm.find? (fun x => x.of h) = none → let n := poolBytes h.total.toNat
        let busy := s.portRbLow p = true ∨ 1024 ≤ k.reasm.length ∨ s.poolFree p < n
        (busy → exec cmd s = .next (s.busyReply p h))
        ∧ (∀ (b : Nat) (u : State), ¬busy → s.poolPlace p n = (some b, u) →
          let x : Reassembly := ⟨h.srcAddr.toNat, h.srcPort.toNat, h.reqId.toNat, u.now, h, [], [], b, n⟩
          exec cmd s = .next (((u.setPort p { u.port p with reasm := (u.port p).reasm ++ [x], pool := (u.port p).pool ++ [(b, n)] }).syncPort p).addFragment p x h data))
        ∧ (∀ u : State, ¬busy → s.poolPlace p n = (none, u) → exec cmd s = .next (u.busyReply p h))))

/-- Completion of the serving intake's own events (R91, R318). A request that is not complete 10 ms after its first fragment goes, and is counted; a busy reply is
forgotten after 10 ms; a serving slot, no sooner than the slot period after the last on its port (the model's reading: log 44), admits the request that waits,
those of class 0 within the quota. -/
def IntakeServicesComplete : Prop :=
  ∀ (port : PortId) (s : State), let p := port.val
    (∀ (a : BitVec 128) (u : BitVec 16) (id : Dword) (x : Reassembly),
      (s.port p).reasm.find? (fun x => x.client == a.toNat && x.clientPort == u.toNat && x.reqId == id.toNat) = some x → x.first + 10000000 ≤ s.now →
      exec (.intakeExpiry port a u id) s = .next ((s.discard p x.header).bump (WH_INTAKE_EXPIRED (p / 2) (p % 2)) 1))
    ∧ (∀ (a : BitVec 128) (u : BitVec 16) (id : Dword), ∃ t : State, exec (.intakeRefusalForget port a u id) s = .next t ∧ t = { s with intake := t.intake }
      ∧ t.port p = { s.port p with
          refused := (s.port p).refused.filter (fun x => !(x.1 == a.toNat && x.2.1 == u.toNat && x.2.2.1 == id.toNat && decide (x.2.2.2 + 10000000 ≤ s.now))) }
      ∧ ∀ q : Nat, q ≠ p → t.port q = s.port q)
    ∧ (∀ (r : Fin 16) (d : RingExec) (im : ScheduleImage), s.sched = some im → s.slotDue p = true → s.ring r = [d] → (∀ x : Nat, x ≠ r.val → s.ring x = []) →
      d.op = 3 → d.served = false → d.begun = false → (s.replyTo d).2.2 = p →
      let u := s.setPort p { s.port p with slotAt := s.now + 1 }
      (d.reqClass = 0 → im.quota = 0 →
        exec (.servingSlotStart port) s = .next ((u.setPort p { u.port p with waited := (u.port p).waited + 1 }).ringSet r { d with begun := true }))
      ∧ ((d.reqClass = 0 → 0 < im.quota) → (u.requestRead r d 1).1 = stOK → (s.planOf d.reqPlan).isSome = true → s.retained (s.bindEpoch d) = true →
        exec (.servingSlotStart port) s = .next (u.ringSet r { d with begun := true, served := true, epoch := some (s.bindEpoch d) })))

end Sys2Proof.Machine

/-- Completion of the DMA engines' control (R324, R328 to R330, R515): DM_GO queues a chain, on a wharf engine, by a tiller on an engine of its own and by the
Keeper or a control processor on the engine of a core that does not run; a fetch holds the checked descriptor, and asks for one on another device first; each
completed descriptor is counted, and the last of a chain ends it; RESUME ends a halt, and ABORT takes the engine's chains with it. -/
def Obligations.DmaControlCompletes : Prop :=
  ∀ (m : Ident) (e : EngineId) (value : Word) (s : State), let g := s.engine e
    (Passes s m (DM_GO e) true → g.chains.length < 8 →
      (2048 ≤ e.val → exec (.dmGo m e value) s = .next ((s.addChain e ⟨s.rdWide (DM_CHAIN_0 e) 2, natBits 0 16 value.toNat + 1, none⟩).reply stOK []))
      ∧ (∀ c : Nat, engineCore e = some c → s.isLocal m = true →
        let k := s.core c; let start := c * basinSize + natBits 0 25 value.toNat; let n := natBits 25 7 value.toNat + 1
        (m.num.toNat = c → let x : QEntry := ⟨k.seq, 5 + e.val % 2, k.pc, ⟨0#32, 0#32, 0#32, 0#32⟩, [], false, 0, false⟩
          exec (.dmGo m e value) s = .next (((((s.setCore c { k with queue := k.queue ++ [x], seq := k.seq + 1, issued := k.issued ||| 2 ^ (5 + e.val % 2) }).syncQueues c).addChain e
            ⟨start, n, some k.seq⟩)).reply stOK []))
        ∧ (masterOf m.num.toNat = .keeper ∨ (∃ i : Nat, masterOf m.num.toNat = .control i) → s.tstate c ≠ 1 →
          exec (.dmGo m e value) s = .next ((s.addChain e ⟨start, n, none⟩).reply stOK []))))
    ∧ (s.rf (DM_STATUS e) DM_STATUS_STATE = 1 → g.chains ≠ [] → g.desc = none → g.index ≠ 0 ∨ s.lockSt ≠ 3 → let place := [(g.descAddr, 32)]
      (∀ (v : Nat) (u : State), s.allGot (s.engineId e) place = true → s.dmaFetch e g.descAddr = (stOK, v, u) →
        let d : DmaDesc := (natBits 0 64 v, natBits 64 64 v, natBits 128 64 v, natBits 192 64 v)
        (u.dmaCheck e d).1 = stOK → exec (.dmaDescriptorFetch e) s = .next (u.setEngine e { u.engine e with desc := some d }))
      ∧ (2048 ≤ e.val → g.descAddr % 32 = 0 → s.allGot (s.engineId e) place = false →
        exec (.dmaDescriptorFetch e) s = .next (s.askAll (s.engineId e) 2 none place)))
    ∧ (∀ (st : Nat) (k : Chain) (rest : List Chain), g.moved = some st → g.chains = k :: rest → let u := s.bump (DM_DONE_CNT e) 1
      (g.index + 1 < k.count →
        exec (.dmaDescriptorComplete e) s = .next (u.setEngine e { g with index := g.index + 1, desc := none, moved := none, worst := stWorst g.worst st }))
      ∧ (k.count ≤ g.index + 1 → let w := u.setEngine e { g with chains := rest, index := 0, desc := none, moved := none, worst := stOK_EMPTY }
        exec (.dmaDescriptorComplete e) s
          = .next ((if rest.isEmpty then w.wf (DM_STATUS e) DM_STATUS_STATE 0 else w).endChainEntry e (stWorst g.worst st) k)))
    ∧ (Passes s m (DM_CTRL e) true → s.rf (DM_STATUS e) DM_STATUS_STATE = 2 →
      exec (.dmaResume m e) s = .next ((s.wf (DM_STATUS e) DM_STATUS_STATE 1).reply stOK []) ∧ exec (.dmaAbort m e) s = .next ((s.dmaAbortAll e).reply stOK []))

/-- Completion of the five DMA operations (R327). A COPY or FILL of one piece, and a SIGNAL, in basins of the device: the bytes stand at the destination, the
write is unacknowledged, and no byte elsewhere changes. An MSOP combines its operand at the destination; a BARGE moves a whole group, checked where the
descriptor asks; the rows of a descriptor are carried out in order; an empty descriptor is done with OK_EMPTY; and source data of another device is asked for
first. -/
def Obligations.DmaOperationsComplete : Prop :=
  ∀ (e : EngineId) (d : DmaDesc) (s : State), let g := s.engine e; let me := s.engineId e; let ok := fun (a n : Nat) (w : Bool) => (s.checkLocal me a n w).1 = stOK
    let cmd : Nat → Instr := fun op => if op = 0 then .dmaCopy e else if op = 1 then .dmaFill e else if op = 2 then .dmaMsop e else .dmaBarge e
    let moves := fun (c : Instr) (bs : List Byte) => ∃ t : State, exec c s = .next t ∧ Stores s t (dDst d) bs
      ∧ t.engine e = { g with moved := some stOK, unacked := g.unacked + 1 } ∧ (∀ x : Nat, x ≠ e.val → t.engine x = s.engine x)
      ∧ RegsBut s t [DM_UNACKED e, DM_STATUS e] ∧ t = { s with mem := t.mem, ecc := t.ecc, engines := t.engines, regs := t.regs }
    let done := fun (u : State) => Host.Outcome.next (φ := Fault) (ρ := Refusal) (u.setEngine e { u.engine e with moved := some stOK })
    (dDst d < 0x800000000 → dDst d % 64 = 0 → dLen d = 64 → dRows d = 1 → dNarrow d = false → ok (dDst d) 64 true →
      (s.dmaMay e 0 = some d → dSrc d < 0x800000000 → ok (dSrc d) 64 false → (∀ x ∈ s.ecc, x.1 + 8 ≤ dSrc d ∨ dSrc d + 64 ≤ x.1) → moves (.dmaCopy e) (s.bytes (dSrc d) 64))
      ∧ (s.dmaMay e 1 = some d → moves (.dmaFill e) (List.replicate 8 (toBytes 8 (dSrc d))).flatten))
    ∧ (dDst d < 0x800000000 → dDst d % 8 = 0 → ok (dDst d) 8 true → s.dmaMay e 4 = some d → moves (.dmaSignal e) (toBytes 8 (dSrc d)))
    ∧ (dRows d = 1 → s.dmaRemote d = [] → let desc := some g.descAddr
      (∀ (bs : List Byte) (u w : State), s.dmaMay e 2 = some d → dLen d = 64 → s.dmaRd e (dSrc d) 64 = (stOK, bs, u) →
        u.msop (u.engineId e) (dDst d) (dMtype d) (dMop d) (ofBytes bs) = (stOK, w) → (∃ l : Nat, u.resolve (dDst d) = some (u.devId, l)) →
        exec (.dmaMsop e) s = done (w.dmaUnack e false))
      ∧ (∀ (bs : List Byte) (u w : State), s.dmaMay e 3 = some d → dLen d = 1 → s.getGroup e (dSrc d) = (.ok, bs, u) → (dCrc d = true → badBarge bs = none) →
        u.putGroup e (dCls d) (dDst d) desc (dDst d, 576) bs = (.ok, w) → exec (.dmaBarge e) s = done w))
    ∧ (∀ (op : Nat) (u : State), op < 4 → s.dmaMay e op = some d →
      (dLen d ≠ 0 → s.allGot me (s.dmaRemote d) = true → s.dmaRows e d 0 (dRows d) = (.ok, u) →
        exec (cmd op) s = done (if (s.dmaRemote d).isEmpty then u else u.remoteForget me (s.dmaRemote d)))
      ∧ (s.allGot me (s.dmaRemote d) = false → exec (cmd op) s = .next (s.askAll me (dCls d) none (s.dmaRemote d)))
      ∧ (dLen d = 0 → exec (cmd op) s = .next (s.setEngine e { g with moved := some stOK_EMPTY })))

/-! ## Mailboxes and training -/

namespace Sys2Proof.Machine

/-- Completion of sends and their arrival (R334 to R336, R340). A send waits in its queue and for its arrival, here or, over the links, on another device. One that its
channel's binding admits is delivered to an empty slot; one to an absent core or without the right, to a core in reset, not bound, or to a full slot is refused
with its status, and the last two are counted. -/
def MailboxSendsComplete : Prop :=
  (∀ (core : CoreId) (d a b : BitVec 5) (dev l : Nat) (s : State), let k := s.core core; let msg := k.rg a.toNat + k.rg b.toNat * 2 ^ 64
    let x : QEntry := ⟨k.seq, 7, k.pc, ⟨0#32, 0#32, 0#32, 0#32⟩, [], false, 0, false⟩
    Ready s core 4 → s.resolve (k.rg d.toNat) = some (dev, l) → (dev ≠ s.devId → s.egressStatus dev 0 = stOK) → ∃ t : State, exec (.msend core d a b 0#11) s = .next t
      ∧ t.core core = { k with queue := k.queue ++ [x], seq := k.seq + 1, issued := k.issued ||| 128, stall := .msend d.toNat }
      ∧ (∀ c : Nat, c ≠ core → t.core c = s.core c) ∧ RegsBut s t [CO_QDEPTH core, CO_UNIT_BUSY core]
      ∧ (dev = s.devId → t.sends = s.sends ++ [⟨s.self core, l, BitVec.ofNat 128 msg, some core.val, none⟩] ∧ t = { s with cores := t.cores, regs := t.regs, sends := t.sends })
      ∧ (dev ≠ s.devId → t.tx = s.tx ++ [⟨dev, 0, txMailbox, ⟨BitVec.ofNat 64 (k.rg d.toNat), s.self core, BitVec.ofNat 8 txMailbox, 0#8, 1, BitVec.ofNat 32 (0x1000 + core.val), 0#48, 0#8,
          0#8, true⟩, 16, toBytes 16 msg⟩] ∧ t = { s with cores := t.cores, regs := t.regs, tx := t.tx }))
  ∧ (∀ (m : Ident) (core : CoreId) (chan : Fin 4) (value : Word) (s : State), let x := 4 * core.val + chan.val
    Passes s m (MB_MSG_0 x) true → exec (.mbMsgSend m core chan value) s = .next ((s.regStore (.mb x) 0x10 value.toNat).mbSend m x))
  ∧ (∀ (d : Send) (rest : List Send) (x : Nat) (s : State), s.sends = d :: rest → x < 4096 → target d.addr = .reg (.mb x) 0 →
      let u := { s with sends := rest }; let may := s.present (x / 4) = true ∧ s.permits d.src (.reg (.mb x) 0x10) true = true
      (¬may → exec .mailboxArrival s = .next (u.sendRefused d x stBOUNDS_FAULT (x / 256)))
      ∧ (may → s.inReset (x / 4) = true → exec .mailboxArrival s = .next (u.sendRefused d x stTARGET_RESET (x / 256)))
      ∧ (may → s.inReset (x / 4) = false → s.bound x d.src = false → exec .mailboxArrival s = .next ((u.bump (MB_REFUSED x) 1).sendRefused d x stBOUNDS_FAULT (x / 256)))
      ∧ (may → s.inReset (x / 4) = false → s.bound x d.src = true → s.full x = true →
        exec .mailboxArrival s = .next ((u.bump (MB_OVERRUN x) 1).sendRefused d x stBOUNDS_FAULT (x / 256)))
      ∧ (may → s.inReset (x / 4) = false → s.bound x d.src = true → s.full x = false → exec .mailboxArrival s = .next (u.deliver x d)))

/-- Completion of receipts, empty notes and lock registers (R337 to R339). A receipt of a channel empties its slot and hands over its two words, one of the notes takes
the note that has waited longest; where there is nothing, it waits or hands over OK_EMPTY, as its bit 2 says. An empty note, of a channel here or
delivered by a link, reaches its sender: a core that has room for it, the Keeper, a control processor, or a device over the links (the layout of a note on a link is
the model's: log 49). A free lock register is taken by its reader and freed by its holder alone. -/
def MailboxServicesComplete : Prop :=
  (∀ (core : CoreId) (d a b : BitVec 5) (fn : BitVec 11) (s : State), let x := 4 * core.val + fn.toNat % 4; let cmd := Instr.mrecv core d a b fn
    Ready s core 4 → fn.toNat < 16 → let nothing := if fn.toNat < 8 then s.full x = false ∨ s.rb (MB_STATUS x) MB_STATUS_WAITING = true else s.notesOf core = []
      (fn.toNat < 8 → s.full x = true → s.rb (MB_STATUS x) MB_STATUS_WAITING = false →
        exec cmd s = .next ((s.emptySlot x).received core d.toNat a.toNat b.toNat ((s.chan x).toNat % 2 ^ 64) ((s.chan x).toNat / 2 ^ 64) stOK))
      ∧ (∀ (n : Dword) (rest : List Dword), 8 ≤ fn.toNat → s.notesOf core = n :: rest →
        exec cmd s = .next ((s.setNotes core rest).received core d.toNat a.toNat b.toNat n.toNat 0 stOK))
      ∧ (nothing → fn.toNat / 4 % 2 = 0 → exec cmd s = .next (s.received core d.toNat a.toNat b.toNat 0 0 stOK_EMPTY))
      ∧ (nothing → fn.toNat / 4 % 2 = 1 → exec cmd s = .next (s.modCore core (fun k => { k with stall := .mrecv d.toNat a.toNat b.toNat fn.toNat }))))
  ∧ (∀ (m : Ident) (v : Dword) (rest : List (Ident × Dword)) (s : State), let u := { s with notesOut := rest }
      (s.notesOut = (m, v) :: rest →
        (s.isLocal m = false → exec .emptyNote s = .next (u.sendNote m v))
        ∧ (∀ c : Nat, s.isLocal m = true → masterOf m.num.toNat = .tiller c →
          ((s.notesOf c).length < 8 → exec .emptyNote s = .next ((u.setNotes c (s.notesOf c ++ [v])).arrive c))
          ∧ (8 ≤ (s.notesOf c).length → exec .emptyNote s = .next (u.bump (MB_NOTE_LOST (4 * c)) 1)))
        ∧ (s.isLocal m = true → (masterOf m.num.toNat = .keeper ∨ ∃ i : Nat, masterOf m.num.toNat = .control i) →
          exec .emptyNote s = .next { u with interrupts := s.interrupts ++ [(m, v)] }))
      ∧ (∀ (i : Nat) (f : Flit), s.notesOut = [] → s.noteIn = some (i, f, m, v) → s.isLocal m = true →
        let w := s.modSub (i / 8) (i % 8) (fun k => { k with rx := k.rx.erase f })
        (∀ c : Nat, masterOf m.num.toNat = .tiller c →
          ((s.notesOf c).length < 8 → exec .emptyNote s = .next ((w.setNotes c (s.notesOf c ++ [v])).arrive c))
          ∧ (8 ≤ (s.notesOf c).length → exec .emptyNote s = .next (w.bump (MB_NOTE_LOST (4 * c)) 1)))
        ∧ ((masterOf m.num.toNat = .keeper ∨ ∃ j : Nat, masterOf m.num.toNat = .control j) →
          exec .emptyNote s = .next { w with interrupts := s.interrupts ++ [(m, v)] })))
  ∧ (∀ (m : Ident) (core : CoreId) (chan : Fin 4) (value : Word) (s : State), let x := 4 * core.val + chan.val; let own := 0x80000000 + identWord m
    (Passes s m (MB_LOCK x) false →
      (s.rd (MB_LOCK x) = 0 →
        exec (.mbLockRead m core chan) s = .next (((s.wr (MB_LOCK x) own).wb (MB_STATUS x) MB_STATUS_HELD true).reply stOK [0#8, 0#8, 0#8, 0#8]))
      ∧ (s.rd (MB_LOCK x) = own → exec (.mbLockRead m core chan) s = .next (s.reply stOK [0#8, 0#8, 0#8, 0#8]))
      ∧ (s.rd (MB_LOCK x) ≠ 0 → s.rd (MB_LOCK x) ≠ own → exec (.mbLockRead m core chan) s = .next (s.reply stOK (toBytes 4 (s.rd (MB_LOCK x))))))
    ∧ (Passes s m (MB_LOCK x) true →
      (value = 0#32 → s.rd (MB_LOCK x) = own → exec (.mbLockWrite m core chan value) s = .next (((s.wr (MB_LOCK x) 0).wb (MB_STATUS x) MB_STATUS_HELD false).reply stOK []))
      ∧ (value ≠ 0#32 ∨ s.rd (MB_LOCK x) ≠ own → exec (.mbLockWrite m core chan value) s = .next (s.reply stOK []))))

end Sys2Proof.Machine

/-- Completion of the training commands (R241, R256, R257, R262, R264). An observation, a partial and a loss are held by their registers. Once every partial has come,
the device's sum is formed, and a worker sends it up; once every sum has come, a stand-alone device and the top manager form the norm and the factor, and a
lower manager sends the total up; the result reaches every core that takes part and, through a manager, its devices; the Keeper evaluates the samples in
order. -/
def Obligations.TrainingCommandsComplete : Prop :=
  (∀ (m : Ident) (core : CoreId) (i : Fin 2048) (value : Word) (s : State), Passes s m (CO_OBS core i) true → s.tstate core ≠ 1 →
    exec (.obsWrite m core i value) s = .next ((s.regStore (.co core) (0x4000 + 4 * i.val) value.toNat).reply stOK []))
  ∧ (∀ (m : Ident) (core : CoreId) (value : Word) (s : State),
    (Passes s m (CO_GN_PART_0 core) true → exec (.gnPartialWrite m core value) s = .next (((s.regStore (.co core) 0x208 value.toNat).gnPartWrite m core).reply stOK []))
    ∧ (Passes s m (CO_LOSS_0 core) true → exec (.lossWrite m core value) s = .next (((s.regStore (.co core) 0x200 value.toNat).lossWritten m core).reply stOK [])))
  ∧ (∀ s : State, s.gnEn = true → s.inPound = true → s.train.sum = none → s.gnReady = true → let u := { s with train := { s.train with sum := some s.devSum } }.wrWide KP_GN_SUM_0 2 s.devSum
      (s.role ≠ 1 → exec .gnDeviceSum s = .next u) ∧ (s.role = 1 → exec .gnDeviceSum s = .next (u.send u.manager 1 txGnSum [s.devId, s.devSum])))
  ∧ (∀ (sums : List (BitVec 14 × Dword)) (d : Nat) (s : State), s.train.sum = some d → s.train.result = none → s.inPound = true →
      (s.role = 0 → exec (.gnNorm sums) s = .next { s with train := { s.train with result := some (gnResult d (s.rdWide KP_GN_MAX_0 2)) } })
      ∧ (s.summed.all (fun w => sums.any (fun x => x.1.toNat == w)) = true → let total := s.mgrSum d sums
        (s.role = 2 → exec (.gnNorm sums) s = .next (s.send s.manager 1 txGnSum [s.devId, total]))
        ∧ (s.role = 3 → let z := gnResult total (s.rdWide KP_GN_MAX_0 2)
          exec (.gnNorm sums) s = .next ({ s with train := { s.train with result := some z } }.gnSendDown z))))
  ∧ (∀ (norm fact : Dword) (nf : Bool) (s : State), s.gnEn = true → s.inPound = true → s.train.delivered = false → s.train.sum.isSome = true →
      (s.role = 0 ∨ s.role = 3 → s.train.result.isSome = true) → let z := s.train.result.getD (norm.toNat, fact.toNat, nf)
      let u := s.train.taking.foldl (fun s c => s.gnDeliver c z) s; let w : State := { u with train := { u.train with delivered := true } }
      exec (.gnDone norm fact nf) s = .next ((if w.role = 2 then w.gnSendDown z else w).sample 1 z.1))
  ∧ (∀ (ch x : Nat) (rest : List (Nat × Nat)) (s : State), s.train.samples = (ch, x) :: rest →
      exec .spikeSample s = .next ({ s with train := { s.train with samples := rest } }.evaluate ch x))

/-- Completion of the rings: doorbell, fetch in order, resume, and the descriptors NOP, SCHEDULE, CONFIG, SERVE and COPY. -/
def Obligations.RingCommandsComplete : Prop := RingQueueCommandsComplete ∧ FetchedDescriptorsStandInOrder ∧ RingDescriptorsComplete ∧ ServeAndCopyComplete

/-- Completion of the serving intake: fragments, refusals, expiry, admission and the serving slot. -/
def Obligations.IntakeCommandsComplete : Prop := FragmentsComplete ∧ IntakeServicesComplete

/-- Completion of the mailboxes: sends, arrivals, receipts, notes and locks. -/
def Obligations.MailboxCommandsComplete : Prop := MailboxSendsComplete ∧ MailboxServicesComplete

/-! ## Links -/

namespace Sys2Proof.Machine

/-- Completion of what trains a link and gives it its keys (R359, R361 to R364, R366, R372, R462). Training ends in OPEN with the widest usable group of lanes, or DOWN without
one. A key exchange installs the keys of an OPEN link and queues KEY_READY; on an UP or towpath link it installs those of the inactive phase, and the switch is
bound to the next lock (the model's choice: log 58); one that fails, or on a device that is adrift, installs none. An OPEN link that has sent and received KEY_READY is UP after the
codeword that acknowledges the peer's, its own acknowledged. -/
def LinkFirstTrainingCompletes : Prop :=
  ∀ (port : PortId) (sub : SubId) (s : State),
    (∀ (failed : BitVec 8) (peer : BitVec 14), s.linkSt port sub = 1 → s.subExists port sub = true →
      let u := s.wf (LK_LANES port) LK_LANES_FAILED (s.rf (LK_LANES port) LK_LANES_FAILED ||| (failed.toNat &&& laneMask (sub.val * s.nominal port) (s.nominal port)))
      (∀ k first : Nat, u.laneGroup port sub 3 = some (k, first) → exec (.linkTrained port sub failed peer) s
        = .next (((((u.wf (LK_STATE port sub) LK_STATE_WIDTH k).setActive port sub (laneMask first (2 ^ k))).openLink port sub)).wf (LK_STATE port sub) LK_STATE_PEER peer.toNat))
      ∧ (u.laneGroup port sub 3 = none → exec (.linkTrained port sub failed peer) s = .next (u.linkDown port sub (fun _ => stBUS_FAULT))))
    ∧ (∀ (good : Bool) (material : BitVec 320), let u := { s with sec := { s.sec with ephemeral := none } }; let ph := (s.rb (LK_STATE port sub) LK_STATE_KPH).toNat
      (good = false ∨ s.fleet.adrift = true → exec (.linkKeyExchange port sub good material) s = .next u)
      ∧ (s.linkSt port sub = 2 → good = true → s.fleet.adrift = false → exec (.linkKeyExchange port sub good material) s
        = .next (((u.modSub port sub (fun k => { k with keys := k.keys.set ph (some material), readySent := true })).control port sub 7 0)))
      ∧ (s.linkSt port sub = 3 ∨ s.linkSt port sub = 4 → good = true → s.fleet.adrift = false → exec (.linkKeyExchange port sub good material) s
        = .next ((u.modSub port sub (fun k => { k with keys := k.keys.set (1 - ph) (some material) })).bind s.nextChange (.rekey (8 * port.val + sub.val)) none)))
    ∧ (s.linkSt port sub = 2 → exec (.keyReady port sub) s = .next (s.modSub port sub (fun k => { k with readyPeer := true })))
    ∧ (∀ at_ : Nat, let k := s.sub port sub; s.linkSt port sub = 2 → k.readySent = true → k.readyPeer = true → k.keyReadyWaits = false → k.queue = [] → s.tx = [] →
      k.resend = none → s.replayRoom port sub = true → ∃ t : State, exec (.codewordTransmit port sub at_) s = .next t ∧ t.linkSt port sub = 3
        ∧ (t.sub port sub).txNum = 0 ∧ (t.sub port sub).rxNum = 0 ∧ (t.sub port sub).replay = [] ∧ (t.sub port sub).keys = k.keys
        ∧ SubChanges s t port sub (LK_STATE port sub :: LK_C0_LATE port sub :: wordsAt (LK_KEYCNT_0 port sub) 2) ∧ t.tx = s.tx ∧ t.time = s.time)

/-- Completion of lane failures, retrains and losses, of a port's reconfiguration, and of its Ethernet interfaces (R343, R346, R359 to R361, R363, R374). A failed lane retrains an UP
link, and moves one in towpath to the lowest lane that is left; a retrain ends as the link was, on the widest usable group, with an event where that is narrower,
or DOWN without a usable lane or after 100 ms; a DOWN link trains again after a second. A change of MODE or SPLIT stops new transactions, and is made once the port has drained. -/
def LinkRecoveryCommandsComplete : Prop :=
  ∀ (port : PortId) (sub : SubId) (s : State),
    (∀ (lane : Fin 8) (un ppm : Nat), s.subExists port sub = true → lane.val / s.nominal port = sub.val → 4 ≤ un ∨ 100 < ppm →
      let u := s.wf (LK_LANES port) LK_LANES_FAILED (s.rf (LK_LANES port) LK_LANES_FAILED ||| 2 ^ lane.val)
      (u.linkSt port sub = 3 → exec (.laneFail port sub lane un ppm) s = .next (u.startRetrain port sub))
      ∧ (u.linkSt port sub = 4 → exec (.laneFail port sub lane un ppm) s = .next (u.towLane port sub))
      ∧ (u.linkSt port sub ≠ 3 → u.linkSt port sub ≠ 4 → exec (.laneFail port sub lane un ppm) s = .next u))
    ∧ (s.linkSt port sub = 5 → let back := (s.sub port sub).back
      (back = 4 → exec (.retrainDone port sub) s = .next ((s.toTowpath port sub).actLatched port sub))
      ∧ (∀ k first : Nat, back ≠ 4 → s.laneGroup port sub 3 = some (k, first) →
        let u := (((s.wf (LK_STATE port sub) LK_STATE_WIDTH k).setActive port sub (laneMask first (2 ^ k)))).setLink port sub (if back = 2 then 2 else 3)
        exec (.retrainDone port sub) s
          = .next ((if 2 ^ u.rf (LK_STATE port sub) LK_STATE_WIDTH < u.nominal port then u.post 0x20 stOK (u.lkSrc port) (u.lkDetail port sub) else u).actLatched port sub))
      ∧ (back ≠ 4 → s.laneGroup port sub 3 = none → exec (.retrainDone port sub) s = .next (s.linkDown port sub (fun _ => stBUS_FAULT))))
    ∧ (s.linkSt port sub = 5 ∧ (s.sub port sub).trainAt + 100000000 ≤ s.now ∨ (1 ≤ s.linkSt port sub ∧ s.linkSt port sub ≤ 5 ∧ s.laneGroup port sub 0 = none) →
      exec (.linkDown port sub) s = .next (s.linkDown port sub (fun _ => stBUS_FAULT)))
    ∧ (s.linkSt port sub = 0 → s.subExists port sub = true → s.portOn port = true → (s.sub port sub).downAt + 1000000000 ≤ s.now →
      exec (.linkRetryTimer port sub) s = .next (s.setLink port sub 1))
    ∧ (∀ mode split : BitVec 2, s.net.reconf.any (fun x => x.1 == port.val) = false → s.portCfgOk port mode.toNat split.toNat = true →
      let w := s.beginReconfigure port mode.toNat split.toNat; let empty := ∀ b : Nat, b < 8 → (s.sub port b).replay = []
      (empty → exec (.portReconfigure port mode split) s = .next (w.reconfigurePort port mode.toNat split.toNat))
      ∧ (¬empty → exec (.portReconfigure port mode split) s = .next w))
    ∧ (∀ (mode split : BitVec 2) (m v t0 : Nat), s.net.reconf = [(port.val, m, v, t0)] → s.portDrained port t0 = true →
      exec (.portReconfigure port mode split) s = .next (s.reconfigurePort port m v))
    ∧ (∀ iface : Fin 2, s.ethPort port = true → let lanes := laneMask (4 * iface.val) 4; let old := s.rf (LK_LANES port) LK_LANES_ACTIVE
      (s.portOn port = true → exec (.ethLinkUp port iface) s
        = .next (((s.wf (LK_LANES port) LK_LANES_ACTIVE (old ||| lanes)).setLink port iface 6).wf (LK_STATE port iface) LK_STATE_WIDTH 2))
      ∧ (s.linkSt port iface = 6 → exec (.ethLinkDown port iface) s = .next ((s.wf (LK_LANES port) LK_LANES_ACTIVE (old - (old &&& lanes))).setLink port iface 0)))

/-- Completion of the writes of LK_CTRL and of the control flits that act on a link (R362, R368 to R373). On an UP link RETRAIN and RESTORE retrain it, TOWPATH begins its way to
towpath, and WAKE queues the flit; on a towpath link FULL_RATE begins its way back and is told to the peer. A flit acts on an UP or towpath link, and is latched while the link's state is
changing. -/
def LinkControlCommandsComplete : Prop :=
  ∀ (port : PortId) (sub : SubId) (s : State),
    (∀ (m : Ident) (mask : BitVec 4), s.subExists port sub = true → Passes s m (LK_CTRL port sub) true → let own := laneMask (sub.val * s.nominal port) (s.nominal port)
      let f := s.rf (LK_LANES port) LK_LANES_FAILED
      (s.linkSt port sub = 3 → exec (.lkRetrain m port sub) s = .next ((s.startRetrain port sub).reply stOK [])
        ∧ exec (.lkRestore m port sub) s = .next (((s.wf (LK_LANES port) LK_LANES_FAILED (f - (f &&& own))).startRetrain port sub).reply stOK [])
        ∧ exec (.lkTowpath m port sub) s = .next ((s.takeControl port sub 5 1).reply stOK []))
      ∧ (s.linkSt port sub = 3 ∨ s.linkSt port sub = 4 ∨ s.linkSt port sub = 5 → exec (.lkWake m port sub mask) s = .next ((s.control port sub 4 mask.toNat).reply stOK []))
      ∧ (s.linkSt port sub = 4 → s.portOn port = true → exec (.lkFullRate m port sub) s = .next (((s.takeControl port sub 6 0).control port sub 6 0).reply stOK []))
      ∧ (s.linkSt port sub = 4 → s.portOn port = false → exec (.lkFullRate m port sub) s = .next ((s.takeControl port sub 6 0).reply stOK [])))
    ∧ (s.linkMoves port sub = false → s.linkSt port sub = 3 ∨ s.linkSt port sub = 4 → (∀ mask : BitVec 4, exec (.wake port sub mask) s = .next (s.wakeMask mask.toNat))
      ∧ exec (.towpathEnter port sub) s = .next (s.peerTowpath port sub) ∧ exec (.fullRate port sub) s = .next (s.wantFull port sub))
    ∧ (s.linkMoves port sub = true → let latched := fun typ mask : Nat => s.modSub port sub (fun k => { k with latched := k.latched ++ [(typ, mask)] })
      (∀ mask : BitVec 4, exec (.wake port sub mask) s = .next (latched 4 mask.toNat)) ∧ exec (.fullRate port sub) s = .next (latched 6 0)
      ∧ ((s.sub port sub).towSince = none → exec (.towpathEnter port sub) s = .next (latched 5 0))
      ∧ ((s.sub port sub).towSince ≠ none → s.linkSt port sub = 3 → exec (.towpathEnter port sub) s = .next (s.peerTowpath port sub)))

/-- Completion of the changes between full rate and towpath (R368 to R370, R372, R373). With its replay acknowledged, or 100 µs after it began, and nothing to send again, an end queues
TOWPATH_ENTER; once that flit has left, or the peer's has come, the link is in towpath, and what was latched acts. Once trained, a link is UP again, unless the device is adrift. -/
def TowpathChangesComplete : Prop :=
  ∀ (port : PortId) (sub : SubId) (s : State), let k := s.sub port sub
    (∀ t0 : Nat, k.towSince = some t0 → s.linkSt port sub = 3 → k.resend = none → let left := k.enterSent = true ∧ k.queue.any Flit.towpathEnter = false
      (k.towPeer = true ∨ left → exec (.towpathChangeover port sub) s = .next ((s.toTowpath port sub).actLatched port sub))
      ∧ (k.towPeer = false → k.enterSent = false → k.replay = [] ∨ t0 + 100000 ≤ s.now →
        exec (.towpathChangeover port sub) s = .next ((s.control port sub 5 0).modSub port sub (fun k => { k with enterSent := true }))))
    ∧ (s.linkSt port sub = 4 → k.fullSince.isSome = true → s.portOn port = true → s.fleet.adrift = false →
      (∀ w first : Nat, s.laneGroup port sub 3 = some (w, first) → exec (.fullRateTrained port sub) s
        = .next (((((s.wf (LK_STATE port sub) LK_STATE_WIDTH w).setActive port sub (laneMask first (2 ^ w))).setLink port sub 3).modSub port sub
            (fun k => { k with fullSince := none })).actLatched port sub))
      ∧ (s.laneGroup port sub 3 = none → exec (.fullRateTrained port sub) s = .next (s.linkDown port sub (fun _ => stBUS_FAULT))))

/-- Completion of the keys' commands (R366, R367). The transmitter changes phase and counts anew; a phase that is not in use is erased 1 ms after its last
codeword was acknowledged; after 2^42 codewords the link falls back to OPEN. -/
def LinkKeyCommandsComplete : Prop :=
  ∀ (port : PortId) (sub : SubId) (s : State), let k := s.sub port sub; let ph := s.rb (LK_STATE port sub) LK_STATE_KPH
    (k.switchDue = true → s.linkSt port sub = 3 ∨ s.linkSt port sub = 4 → (k.keys.getD (!ph).toNat none).isSome = true → ∃ t : State, exec (.rekeySwitch port sub) s = .next t
      ∧ t.rb (LK_STATE port sub) LK_STATE_KPH = !ph ∧ t.rdWide (LK_KEYCNT_0 port sub) 2 = 0
      ∧ t.sub port sub = { k with switchDue := false, oldNum := some k.txNum, oldAckAt := none }
      ∧ SubChanges s t port sub (LK_STATE port sub :: wordsAt (LK_KEYCNT_0 port sub) 2) ∧ t.tx = s.tx ∧ t.time = s.time)
    ∧ (∀ (phase : Bool) (t0 : Nat), k.oldAckAt = some t0 → phase ≠ ph → t0 + 1000000 ≤ s.now → ∃ t : State, exec (.keyPhaseErase port sub phase) s = .next t
      ∧ t.sub port sub = { k with keys := k.keys.set phase.toNat none, oldNum := none, oldAckAt := none } ∧ SubChanges s t port sub [] ∧ t.tx = s.tx ∧ t.time = s.time)
    ∧ (s.linkSt port sub = 3 ∨ s.linkSt port sub = 4 → 2 ^ 42 ≤ s.rdWide (LK_KEYCNT_0 port sub) 2 → let u := s.setLink port sub 2
      exec (.keyAging port sub) s = .next (u.post 0x22 stOK (u.lkSrc port) (u.lkDetail port sub)))

/-- Completion of the codewords that leave (R349, R352, R357, R365). On an UP or towpath link a block of new codewords, one on each active lane at the most, leaves with the next numbers, each
with ten flits, the key phase in use and its integrity check value, kept for replay and counted under its key; a codeword that is to be sent again leaves as it was, before
any new one. -/
def CodewordsLeaveInOrder : Prop :=
  ∀ (port : PortId) (sub : SubId) (at_ : Nat) (s : State), let k := s.sub port sub; let ph := s.rb (LK_STATE port sub) LK_STATE_KPH; let lanes := s.rf (LK_STATE port sub) LK_STATE_WIDTH
    s.linkSt port sub = 3 ∨ s.linkSt port sub = 4 →
    (k.resend = none → s.replayRoom port sub = true → ∃ (t : State) (l : List Sent), exec (.codewordTransmit port sub at_) s = .next t ∧ 1 ≤ l.length ∧ l.length ≤ 2 ^ lanes
      ∧ (t.sub port sub).txNum = k.txNum + l.length ∧ (t.sub port sub).replay = k.replay ++ l ∧ (t.sub port sub).line.length = l.length
      ∧ (∀ (i : Nat) (h : i < l.length), l[i].num = k.txNum + i ∧ l[i].cw.seq.toNat = (k.txNum + i) % 2 ^ 20 ∧ l[i].cw.flits.length = 10 ∧ l[i].cw.kph = ph
        ∧ l[i].cw.icv = cwIcv l[i].cw (k.keys.getD ph.toNat none) 0 (k.txNum + i))
      ∧ t.rdWide (LK_KEYCNT_0 port sub) 2 = (s.rdWide (LK_KEYCNT_0 port sub) 2 + l.length) % 2 ^ 64
      ∧ (t.sub port sub).keys = k.keys ∧ (t.sub port sub).rxNum = k.rxNum ∧ SubChanges s t port sub (LK_C0_LATE port sub :: wordsAt (LK_KEYCNT_0 port sub) 2) ∧ t.time = s.time)
    ∧ (∀ (n : Nat) (x : Sent), lanes = 0 → k.resend = some n → k.replay.find? (fun x => x.num == n) = some x → ∃ t : State, exec (.codewordTransmit port sub at_) s = .next t
      ∧ (t.sub port sub).line = [cwSymbols x.cw (cwText x.cw (k.keys.getD x.cw.kph.toNat none) x.num)] ∧ (t.sub port sub).txNum = k.txNum ∧ (t.sub port sub).replay = k.replay
      ∧ (t.sub port sub).resend = (if x.num + 1 < k.txNum then some (x.num + 1) else none) ∧ SubChanges s t port sub [] ∧ t.time = s.time)

/-- Completion of the codewords that arrive on an UP or towpath link, and of a NAK (R355, R357, R358, R365). A good codeword in sequence is delivered, its flits' buffers are free again and its credits
are taken; a good one out of sequence is dropped; one with more than 16 bad symbols, or that its integrity check value does not pass, is counted, dropped and asked for again; a NAK has everything from ACK + 1
on sent again, and one that asks for a codeword the eighth time retrains the sub-port. -/
def CodewordsArriveInOrder : Prop :=
  ∀ (port : PortId) (sub : SubId) (s : State), let k := s.sub port sub; s.linkSt port sub = 3 ∨ s.linkSt port sub = 4 →
    (∀ cw : Codeword, cw.symbolErrors ≤ 16 → s.icvPasses port sub cw = true → let fs := cw.flits.filter (fun f => f.kind != .idle)
      (cw.seq.toNat = k.rxNum % 2 ^ 20 → ∃ t : State, exec (.codewordReceive port sub cw) s = .next t ∧ (t.sub port sub).rxNum = k.rxNum + 1
        ∧ (t.sub port sub).rx = fs ∧ (t.sub port sub).freed = (List.range 4).map (fun c => k.freed.getD c 0 + (fs.filter (fun f => f.cls.toNat == c)).length)
        ∧ (t.sub port sub).credits = k.credits.set cw.cclass.toNat (k.credits.getD cw.cclass.toNat 0 + cw.credit.toNat)
        ∧ (t.sub port sub).txNum = k.txNum ∧ (t.sub port sub).keys = k.keys ∧ SubChanges s t port sub [LK_CORR port sub] ∧ t.tx = s.tx ∧ t.time = s.time)
      ∧ (cw.seq.toNat ≠ k.rxNum % 2 ^ 20 → ∃ t : State, exec (.codewordReceive port sub cw) s = .next t ∧ t.sub port sub = { k with nakDue := (t.sub port sub).nakDue }
        ∧ SubChanges s t port sub [LK_CORR port sub] ∧ t.tx = s.tx ∧ t.time = s.time))
    ∧ (∀ cw : Codeword,
      (16 < cw.symbolErrors → exec (.codewordReceive port sub cw) s = .next ((s.bump (LK_UNCORR port sub) 1).setSub port sub { k with nakDue := true }))
      ∧ (cw.symbolErrors = 0 → s.icvPasses port sub cw = false →
        exec (.codewordReceive port sub cw) s = .next ((s.bump (LK_ICV_FAIL port sub) 1).setSub port sub { k with nakDue := true })))
    ∧ (∀ ack : BitVec 20, let u := (((s.bump (LK_RETRY port sub) 1).acked port sub ack.toNat).modSub port sub
        (fun k => { k with replay := k.replay.map (fun x => { x with resent := x.resent + 1 }), resend := (k.replay.head?).map Sent.num }));
      let eighth := (u.sub port sub).replay.any (fun x => decide (8 ≤ x.resent)) = true
      (¬eighth → exec (.nakReceived port sub ack) s = .next u)
      ∧ (eighth → exec (.nakReceived port sub ack) s
        = .next ((u.modSub port sub (fun k => { k with replay := k.replay.map (fun x => { x with resent := 0 }) })).startRetrain port sub)))

/-- Completion of delay measurement and time transfer (R377, R378). DELAY_REQ carries t1, its answer t2 and t3; a first result is the round trip in LK_RTT; a manager sends its time and its bound; a time
source's TIME sets TT_OK, and 10 ms without one clears it. -/
def LinkTimeCommandsComplete : Prop :=
  ∀ (port : PortId) (sub : SubId) (t1 t2 t3 t4 : BitVec 80) (s : State),
    (s.linkTalks port sub = true →
      exec (.delayTimer port sub t1) s = .next ((s.control port sub 1 (t1.toNat * 2 ^ 8)).modSub port sub (fun k => { k with reqT1 := some t1.toNat }))
      ∧ exec (.delayReq port sub t1 t2 t3) s = .next (s.control port sub 2 (t2.toNat * 2 ^ 8 + t3.toNat * 2 ^ 88))
      ∧ ((s.sub port sub).reqT1 = some t1.toNat → (s.sub port sub).delays = [] → ∃ t : State, exec (.delayResp port sub t2 t3 t4) s = .next t
          ∧ t.rd (LK_RTT port sub) = (toPs (((t4.toNat : Int) - t1.toNat) - ((t3.toNat : Int) - t2.toNat)) / 1000).toNat % 2 ^ 32
          ∧ (t.sub port sub).reqT1 = none ∧ SubChanges s t port sub [LK_DELAY port sub, LK_RTT port sub, LK_STATE port sub] ∧ t.tx = s.tx ∧ t.time = s.time))
    ∧ (2 ≤ s.role → s.linkSt port sub = 3 ∨ s.linkSt port sub = 4 →
      exec (.timeSendTimer port sub t1) s = .next (s.control port sub 3 (t1.toNat * 2 ^ 8 + s.rf TM_SRC_STATUS TM_SRC_STATUS_ERR_BOUND * 2 ^ 88)))
    ∧ (∀ bound : BitVec 16, s.rb (LK_STATE port sub) LK_STATE_TT_SRC = true → s.linkSt port sub = 3 ∨ s.linkSt port sub = 4 → ∃ t : State,
      exec (.time port sub t1 t2 bound) s = .next t ∧ t.rb (LK_STATE port sub) LK_STATE_TT_OK = true ∧ (t.sub port sub).ttAt = s.now
        ∧ SubChanges s t port sub (LK_STATE port sub :: TM_SRC_STATUS :: wordsAt TM_NOW_0 3) ∧ t.tx = s.tx)
    ∧ ((s.sub port sub).ttAt + 10000000 < s.now → exec (.ttTimeout port sub) s = .next (s.wb (LK_STATE port sub) LK_STATE_TT_OK false).syncEwe)

/-- A good transaction of an operation for this device, on a link that accepts it. -/
abbrev Arrives (s : State) (p b op : Nat) (cls3 : Bool) (h : Head) : Prop :=
  s.linkTalks p b = true ∧ headGood h = true ∧ h.op.toNat = op ∧ s.acceptsTx p b h cls3 = true ∧ (s.inFleet = true → headDev h = s.devId)

/-- The epoch to which a request is bound. -/
def boundTo (h : Head) : Option Nat := if natBit 0 h.flags.toNat then some h.epoch.toNat else none

/-- Completion of the requests and responses of a link (R83, R335, R350): a request is served, a read bound to a retained epoch from the slot that holds it, and answered in its class, with its
transaction number and its status; a mailbox send waits for its arrival; a response ends the request that it answers. -/
def RequestCommandsComplete : Prop :=
  ∀ (port : PortId) (sub : SubId) (h : Head) (s : State),
    (∀ a : Nat, headLocal h = some a →
      (∀ (size st : Nat) (bs : List Byte) (u : State), Arrives s port sub 1 true h → (∀ e : Nat, boundTo h = some e → s.retained e = true) →
        s.readRun h.src (s.boundAddr (boundTo h) a) (pieces size) = (st, bs, u) →
        exec (.read port sub h size) s = .next (u.sendResponse h 2 txResponse st (if stInformational st then bs else [])))
      ∧ (∀ (data : List Byte) (st : Nat) (u : State), Arrives s port sub 2 true h → s.writeRun h.src a data (pieces data.length) = (some st, u) →
        exec (.write port sub h data) s = .next (u.sendResponse h 2 txAck st []))
      ∧ (∀ (x : BitVec 512) (st : Nat) (u : State), Arrives s port sub 3 true h → s.msop h.src a (natBits 0 3 h.msop.toNat) (natBits 3 2 h.msop.toNat) x.toNat = (st, u) →
        exec (.memorySideOperation port sub h x) s = .next (u.sendResponse h 2 txAck st []))
      ∧ (∀ (o : Nat) (value : Dword) (st : Nat) (u : State), Arrives s port sub 4 true h → target a = .reg .doorbell o → s.localWr h.src a (toBytes 8 value.toNat) = (some st, u) →
        exec (.doorbell port sub h value) s = .next (u.sendResponse h 3 txAck st []))
      ∧ (∀ message : BitVec 128, Arrives s port sub 5 false h →
        exec (.mailboxSend port sub h message) s = .next { s with sends := s.sends ++ [⟨h.src, a, message, none, some (8 * port.val + sub.val, h)⟩] }))
    ∧ (∀ (p b : Nat) (data : List Byte), s.outstandingOn h.tid.toNat = some (p, b) → let u := s.modSub p b (fun k => { k with outstanding := k.outstanding.erase h.tid.toNat })
      (Arrives s port sub 6 true h → exec (.readResponse port sub h data) s = .next (u.completeRemote h.tid.toNat h.status.toNat data))
      ∧ (Arrives s port sub 7 true h → exec (.writeAcknowledgement port sub h) s = .next (u.completeRemote h.tid.toNat h.status.toNat [])))

/-- Completion of forwarding and of Ethernet frames (R374, R375, R386): a transaction for another device leaves on the active route, or is counted as dropped and, where it is a request, answered, without one; a
frame for the interface is counted, and its neighbour discovery or echo answered; another is counted as dropped; where MACsec is on, a frame but PTP's that its tag does not pass is counted and goes no further. -/
def ForwardingAndFramesComplete : Prop :=
  ∀ (port : PortId) (sub : SubId) (s : State),
    (∀ (cls : BitVec 2) (h : Head) (data : List Byte), s.linkTalks port sub = true → headGood h = true → s.acceptsTx port sub h (cls == 3#2) = true → s.inFleet = true →
      headDev h ≠ s.devId → s.fleet.adrift = false →
      let w := s.modSub port sub (fun k => { k with fwd := k.fwd.filter (fun x => isRequest h.op.toNat || x.tid != h.tid || x.src.dev.toNat != headDev h) })
      (∀ q e : Nat, s.egress (headDev h) = some (q, e) → (s.linkSt q e = 3 ∨ (s.linkSt q e = 4 ∧ (cls = 0#2 ∨ cls = 3#2))) → (q ≠ port.val ∨ e ≠ sub.val) →
        exec (.forward port sub cls h data) s = .next { w with tx := w.tx ++ [forwarded cls.toNat h data] })
      ∧ (s.egress (headDev h) = none → exec (.forward port sub cls h data) s = .next ((w.bump KP_FWD_DROP 1).answerTx h stBUS_FAULT [])))
    ∧ (∀ (iface : Fin 2) (f : EthFrame) (good : Bool), s.linkSt port iface = 6 → s.ethPort port = true → let guarded := s.rb (LK_ETH_CFG port iface) LK_ETH_CFG_MSEC = true ∧ f.kind ≠ .ptp
      let cmd := Instr.ethFrame port iface f good
      (¬guarded →
        (s.frameMine port iface f = false → exec cmd s = .next (s.bump (LK_ETH_DROP port iface) 1))
        ∧ (s.frameMine port iface f = true → let u := s.bump (LK_ETH_RX port iface) 1
          (f.kind ≠ .neighbourOrEcho → exec cmd s = .next u)
          ∧ (f.kind = .neighbourOrEcho → s.boot.keeperDown = false → exec cmd s = .next (u.sendFrame port iface .icmpAnswer))))
      ∧ (guarded →
        (f.sec.bind (s.macsecTake port iface good) = none → exec cmd s = .next (s.bump (LK_ETH_MSEC_FAIL port iface) 1))
        ∧ (∀ z : State, f.sec.bind (s.macsecTake port iface good) = some z → exec cmd s = .next (z.takeFrame port iface f))))

end Sys2Proof.Machine

/-- R84: a read of a link, a COPY, or a request of the serving path, bound to an epoch that is no longer retained or not yet published, completes with
BOUNDS_FAULT: the answer holds no data, and the COPY moves none. Not retained is an epoch that is to come, and one that the retention of the schedule, and of the schedule before it, has left behind. -/
def Obligations.EpochBoundReadsNeedRetention : Prop :=
  ∀ (e : Nat) (s : State),
    (s.epoch < e → s.retained e = false)
    ∧ (e + max 1 (s.rf TM_SCHED_0 TM_SCHED_0_RETAIN) ≤ s.epoch → s.pastEpoch e = none → s.retained e = false)
    ∧ (s.retained e = false →
      (∀ (port : PortId) (sub : SubId) (h : Head) (size : Nat), Arrives s port sub 1 true h → natBit 0 h.flags.toNat = true → h.epoch.toNat = e →
        exec (.read port sub h size) s = .next (s.sendResponse h 2 txResponse stBOUNDS_FAULT []))
      ∧ (∀ (ring : Fin 16) (index : Word) (d : RingExec), s.ringBegin ring index.toNat 4 = some d → d.eb = true → d.target = e → s.lockSt ≠ 3 →
        let g := d.engine.getD (2048 + s.draw.1 % 128); let w := if d.engine.isSome then s else s.draw.2
        w.allGot (w.engineId g) (w.copyRemote d) = true →
        ∃ u : State, exec (.copy ring index) s = .next (u.ringComplete ring d stBOUNDS_FAULT)
          ∧ u.mem = s.mem ∧ u.cores = s.cores ∧ u.tx = s.tx ∧ u.ecc = s.ecc ∧ u.blockKey = s.blockKey)
      ∧ (∀ (port : PortId) (r : Fin 16) (d : RingExec) (im : ScheduleImage), s.sched = some im → s.slotDue port = true → (d.reqClass = 0 → 0 < im.quota) → s.ring r = [d] →
        (∀ x : Nat, x ≠ r.val → s.ring x = []) → d.op = 3 → d.served = false → d.begun = false → (s.replyTo d).2.2 = port → (s.planOf d.reqPlan).isSome = true → s.bindEpoch d = e →
        let u := s.setPort port { s.port port with slotAt := s.now + 1 }; (u.requestRead r d 1).1 = stOK →
        exec (.servingSlotStart port) s = .next
          (((u.bump (WH_INTAKE_REFUSED (port / 2) (port % 2)) 1).answer port (u.serveHeader d 3 stBOUNDS_FAULT e) 3 stBOUNDS_FAULT).serveDone r d stBOUNDS_FAULT)))

/-- Completion of the training of links, first and again. -/
def Obligations.LinkTrainingCommandsComplete : Prop := LinkFirstTrainingCompletes ∧ LinkRecoveryCommandsComplete

/-- Completion of link control, of the towpath, of the keys of a link, and of delay and time over it. -/
def Obligations.LinkControlAndKeysComplete : Prop := LinkControlCommandsComplete ∧ TowpathChangesComplete ∧ LinkKeyCommandsComplete ∧ LinkTimeCommandsComplete

/-- Completion of codewords: how they leave, how they are received, and how they are sent again. -/
def Obligations.CodewordCommandsComplete : Prop := CodewordsLeaveInOrder ∧ CodewordsArriveInOrder

/-- Completion of requests, responses, forwarded transactions and Ethernet frames. -/
def Obligations.TransactionCommandsComplete : Prop := RequestCommandsComplete ∧ ForwardingAndFramesComplete

/-! ## Fleets -/

namespace Sys2Proof.Machine

/-- A fleet descriptor of operation `op` is next to start in a ring, at a manager whose lease, if it has one, stands (R388, R410). -/
abbrev FleetStarts (s : State) (r i op : Nat) (d : RingExec) : Prop :=
  s.ringBegin r i op = some d ∧ 2 ≤ s.role ∧ s.rf KP_FLEET_STBY KP_FLEET_STBY_LEASE ≠ 2

/-- The places of the admission record that an ADMIT names, where another device holds it. -/
def recordPlaces (s : State) (d : RingExec) : List (Nat × Nat) := if s.isRemote (d.word 4) then (List.range 35).map (fun k => (d.word 4 + 8 * k, 8)) else []

/-- `w`, with the Keeper's reads of another device's memory at the places of `l` used. -/
def State.used (s : State) (l : List (Nat × Nat)) (w : State) : State := if l.any (fun x => s.isRemote x.1) then w.remoteForget (s.self 0xD00) l else w

/-- Completion of ADMIT (R388, R463 to R465). A manager reads the record, of another device once it has been sent; a read that fails ends the descriptor with its status. On an OPEN link a report
that the record matches, of a peer that accepts, makes the candidate a member, and the descriptor waits for its report; one that does not match ends it with
INTEGRITY_FAIL, a malformed record with BAD_OPCODE, and an ID that is the manager's own with a status that R388 does not give (free: log 70). While the link is not OPEN it waits, and ends
with BUS_FAULT after 12 s. -/
def AdmissionsComplete : Prop :=
  ∀ (ring : Fin 16) (index : Word) (chain : Bool) (p : Report) (accepts : Bool) (d : RingExec) (s : State),
    (FleetStarts s ring.val index.toNat 0x10 d → s.fleet.waits = [] → let l := recordPlaces s d; let cmd := fun o : Bool => Instr.admitDevice ring index o chain p accepts
      (∀ o : Bool, s.allGot (s.self 0xD00) l = false → exec (cmd o) s = .next (s.askAll (s.self 0xD00) 3 none l))
      ∧ (∀ (st : Nat) (bs : List Byte) (u : State), s.allGot (s.self 0xD00) l = true → s.keeperRead 8 (d.word 4) 35 = (st, bs, u) → u.fleet.waits = [] →
        let x := recordOf bs; let v := u.random.2
        let match_ := chain = true ∧ p.signatureGood = true ∧ p.nonce.toNat = u.random.1 % 2 ^ 256 ∧ recordMatches x p = true ∧ accepts = true
        (∀ o : Bool, st ≠ stOK → exec (cmd o) s = .next (s.used l (u.admitFail ring.val d st)))
        ∧ (st = stOK →
          exec (cmd false) s = .next (s.used l ((u.addWait 0x10 u.now ring.val d.index).ringStart ring.val d))
          ∧ (match_ → recordBad x = false → natBits 0 14 (d.word 3) ≠ v.devId → exec (cmd true) s = .next (s.used l ((v.admitOk ring.val d x).ringStart ring.val d)))
          ∧ (¬match_ → exec (cmd true) s = .next (s.used l (v.admitFail ring.val d stINTEGRITY_FAIL)))
          ∧ (match_ → recordBad x = true → exec (cmd true) s = .next (s.used l (v.admitFail ring.val d stBAD_OPCODE)))
          ∧ (match_ → recordBad x = false → natBits 0 14 (d.word 3) = v.devId → ∃ st : Nat, st < 256 ∧ exec (cmd true) s = .next (s.used l (v.draw.2.admitFail ring.val d st))))))
    ∧ (∀ t0 : Nat, s.fleet.waits = [(0x10, t0, ring.val, index.toNat)] → s.ringFind ring.val index.toNat = some d → t0 + 12000000000 ≤ s.now →
      exec (.admitTimeout ring index) s = .next (({ s with fleet := { s.fleet with waits := [] } } : State).admitFail ring.val d stBUS_FAULT))

/-- Completion of the descriptors of a manager that bind a change to an epoch, or load banks (R385, R387, R388, R391, R394). RELEASE binds; ROUTES loads the banks of its list, once they have been read, and
binds their switch, here and at the devices listed; GROUP orders and binds what the table gives, whose layout is free; BROADCAST starts the window, names its first receivers and binds its end. -/
def BoundDescriptorsComplete : Prop :=
  ∀ (ring : Fin 16) (index : Word) (d : RingExec) (s : State),
    (FleetStarts s ring.val index.toNat 0x11 d → d.eb = true → s.epochPast d.target = false → ∃ u : State,
      Binds s u d.target (.release d.device) (some (ring.val, d.index)) ∧ exec (.release ring index) s = .next (u.ringStart ring.val d))
    ∧ (FleetStarts s ring.val index.toNat 0x12 d → (d.eb = true → s.epochPast d.target = false) → let n := natBits 0 16 (d.word 3); let l := s.bankPieces (d.word 2) n
      (s.allGot (s.self 0xD00) l = false → exec (.routes ring index) s = .next (s.askAll (s.self 0xD00) 3 none l))
      ∧ (∀ (devs : List Nat) (u : State), s.allGot (s.self 0xD00) l = true → s.loadBanks (d.word 2) n = (stOK, devs, u) →
        let w := devs.eraseDups.foldl (fun s dev => if dev = s.devId then s.bind d.target .routes none else s.orderTo dev 4 [1, d.target]) u
        exec (.routes ring index) s = .next (s.used l ((if d.eb then w else u).ringComplete ring.val d stOK))))
    ∧ (FleetStarts s ring.val index.toNat 0x1A d → d.eb = true → s.epochPast d.target = false → ∃ (i : Nat) (ws : List Nat) (u v : State),
      i < 4 ∧ ws.length = 19 ∧ u = s.draw.2.orderAll 5 (i :: ws ++ [d.target]) ∧ Binds u v d.target (.group i ws) none
        ∧ exec (.group ring index) s = .next (v.ringComplete ring.val d stOK))
    ∧ (∀ dev a : Nat, FleetStarts s ring.val index.toNat 0x13 d → d.eb = true → s.epochPast d.target = false → s.resolve (d.word 2) = some (dev, a) →
      natBits 0 32 (d.word 3) ≠ 0 → s.dmaRangeOk (s.self 0xD00) (d.word 2) (natBits 0 32 (d.word 3)) false = true → ∃ (u v : State) (k : Bcast),
        u.fleet.bcast = some k ∧ k.blocks = (natBits 0 32 (d.word 3) + 262143) / 262144 ∧ k.windowStart = d.word 4 ∧ k.windowEnd = d.word 4 + natBits 0 32 (d.word 5) * 1000
        ∧ k.deadline = k.windowEnd + natBits 32 32 (d.word 5) * 1000 ∧ k.activation = d.target ∧ k.children = s.castChildren ∧ k.children.length ≤ 4
        ∧ u = { s with fleet := { s.fleet with bcast := some k }, tx := u.tx, free := u.free }
        ∧ Binds u v d.target .castEnd (some (ring.val, d.index)) ∧ exec (.broadcast ring index) s = .next (v.ringStart ring.val d))

/-- Completion of the descriptors of a manager that order something of devices (R371, R388, R399, R401, R403, R406, R407), each through the lower managers where one of them governs the device. SNAPSHOT asks every device
for the targets named; RESTORE has the fleet fall back; WITHDRAW completes at once where it names this device alone, and otherwise waits for the devices; REPLACE declares the device failed and has the next decision carry
the repair, or reports where no spare holds its cores; KEEPER_RESET and READMIT order and wait, a device whose epoch is behind having failed instead; FLEET_WAKE sends a flit to a neighbour and an order to another. -/
def OrderDescriptorsComplete : Prop :=
  ∀ (ring : Fin 16) (index : Word) (d : RingExec) (s : State),
    (FleetStarts s ring.val index.toNat 0x14 d → let ref := (ring.val, d.index)
      (natBits 0 2 (d.word 2) = 0 → exec (.snapshot ring index) s = .next (s.ringComplete ring.val d stOK))
      ∧ (natBits 0 2 (d.word 2) = 1 → exec (.snapshot ring index) s = .next (((s.orderAll 7 [1]).ringStart ring.val d).snapAsk 0 ref))
      ∧ (natBits 0 2 (d.word 2) = 2 → exec (.snapshot ring index) s = .next (((s.orderAll 7 [2]).ringStart ring.val d).snapAsk 1 ref))
      ∧ (natBits 0 2 (d.word 2) = 3 → exec (.snapshot ring index) s = .next ((((s.orderAll 7 [3]).ringStart ring.val d).snapAsk 0 ref).snapAsk 1 ref)))
    ∧ (FleetStarts s ring.val index.toNat 0x15 d → exec (.restore ring index) s
      = .next (((s.ringStart ring.val d).restoreAll (natBits 0 48 (d.word 2))).addWait 0x15 (natBits 0 48 (d.word 2)) ring.val d.index))
    ∧ (FleetStarts s ring.val index.toNat 0x1B d → let all := natBit 14 (d.word 2) = true
      (¬all → d.device = s.devId → exec (.withdraw ring index) s = .next (s.withdraw.ringComplete ring.val d stOK))
      ∧ (¬all → d.device ≠ s.devId → exec (.withdraw ring index) s = .next (((s.orderTo d.device 9 []).addWait 0x1B d.device ring.val d.index).ringStart ring.val d))
      ∧ (all → s.governed = [] → exec (.withdraw ring index) s = .next (s.withdraw.ringComplete ring.val d stOK))
      ∧ (all → s.governed ≠ [] → exec (.withdraw ring index) s
        = .next (((s.governed.map (fun m => m.dev)).foldl (fun s x => (s.orderTo x 9 []).addWait 0x1B x ring.val d.index) s.withdraw).ringStart ring.val d)))
    ∧ (FleetStarts s ring.val index.toNat 0x16 d → let z := (s.declareFailed d.device).draw.2; let old := s.fleet.replace.bind (fun x => x.ref)
      (∃ (st : Nat) (w : State), st < 256 ∧ (old = none → w = z) ∧ (∀ ref : Nat × Nat, old = some ref → w = z.refDone ref st)
        ∧ exec (.replace ring index true) s = .next (({ w with fleet := { w.fleet with
          replace := some ⟨d.device, natBits 16 14 (d.word 2), some (ring.val, d.index)⟩, repairNext := some (natBits 16 14 (d.word 2), d.device) } } : State).ringStart ring.val d))
      ∧ exec (.replace ring index false) s = .next ((s.postFleet d.device).ringComplete ring.val d stBAD_OPCODE))
    ∧ (FleetStarts s ring.val index.toNat 0x17 d → ∃ u : State, u = s.orderTo d.device 14 [] ∧ exec (.keeperReset ring index) s
      = .next (({ u with fleet := { u.fleet with asked := u.fleet.asked ++ [(d.device, u.now, ring.val, d.index)] } } : State).ringStart ring.val d))
    ∧ (FleetStarts s ring.val index.toNat 0x18 d → let behind := s.governed.any (fun m => m.dev == d.device && decide (m.epoch < s.epoch)) = true
      (behind → exec (.readmit ring index) s = .next ((s.declareFailed d.device).ringComplete ring.val d stBAD_OPCODE))
      ∧ (¬behind → ∃ u : State, u = s.orderTo d.device 10 [] ∧ exec (.readmit ring index) s
        = .next ((({ u with fleet := { u.fleet with rerunNext := true } } : State).addWait 0x18 d.device ring.val d.index).ringStart ring.val d)))
    ∧ (FleetStarts s ring.val index.toNat 0x19 d → let mask := natBits 16 4 (d.word 2)
      (∀ p b : Nat, s.egress d.device = some (p, b) → s.egressStatus d.device 3 = stOK →
        (s.rf (LK_STATE p b) LK_STATE_PEER = d.device → exec (.fleetWake ring index) s = .next ((s.control p b 4 mask).ringComplete ring.val d stOK))
        ∧ (s.rf (LK_STATE p b) LK_STATE_PEER ≠ d.device → exec (.fleetWake ring index) s = .next ((s.orderTo d.device 11 [mask]).ringComplete ring.val d stOK)))
      ∧ (s.egress d.device = none → exec (.fleetWake ring index) s = .next (s.ringComplete ring.val d stBUS_FAULT)))

end Sys2Proof.Machine

/-- Completion of FLEET_CMD (R69, R268, R383, R389, R406): an order that the device accepts from its sender is obeyed while the Keeper runs and hears; an assignment before
admission gives the device its ID, its role, its manager, its duty and KR_AUTH, the epoch and the training counts, and leaves memory, the cores and the fuses; a KEEPER_RESET that KR_AUTH allows
resets the Keeper alone; an order from anyone else changes nothing. -/
def Obligations.FleetOrdersComplete : Prop :=
  ∀ (src : Ident) (o : FleetOrder) (s : State),
    (s.acceptsOrder src o = true → o ≠ .keeperReset → s.keeperUp = true → s.fleet.adrift = false → exec (.fleetCmd src o) s = .next (s.obey src o))
    ∧ (∀ (id : BitVec 14) (role duty : BitVec 2) (kr : Bool) (r : BitVec 256) (epoch step cursor : BitVec 48), s.inFleet = false → s.keeperUp = true → s.fleet.adrift = false →
      ∃ t : State, exec (.fleetCmd src (.assign id role duty kr r epoch step cursor)) s = .next t
        ∧ t.devId = id.toNat ∧ t.role = role.toNat ∧ t.manager = (if role = 0#2 ∨ role = 3#2 then id.toNat else src.dev.toNat)
        ∧ t.rf KP_FLEET_ID KP_FLEET_ID_DUTY = duty.toNat ∧ t.rb KP_FLEET_CFG KP_FLEET_CFG_KR_AUTH = kr
        ∧ t.epoch = epoch.toNat ∧ t.rdWide KP_STEP_0 2 = step.toNat ∧ t.rdWide KP_CURSOR_0 2 = cursor.toNat
        ∧ RegsBut s t (KP_FLEET_ID :: KP_FLEET_CFG :: wordsAt (KP_MEAS 6 0) 8 ++ (List.range 16).map KP_RING_OWNER ++ wordsAt TM_EPOCH_0 2 ++ wordsAt KP_STEP_0 2 ++ wordsAt KP_CURSOR_0 2)
        ∧ t = { s with regs := t.regs, sec := { s.sec with records := s.sec.records ++ [r] }, lock := { s.lock with history := [(epoch.toNat, 0)], past := [] } })
    ∧ (s.acceptsOrder src .keeperReset = true → s.rb KP_FLEET_CFG KP_FLEET_CFG_KR_AUTH = true → exec (.fleetCmd src .keeperReset) s = .next s.keeperReset)
    ∧ (s.inFleet = true → src.dev.toNat ≠ s.manager → s.rf KP_FLEET_STBY KP_FLEET_STBY_LEASE ≠ 3 → exec (.fleetCmd src o) s = .next s)

namespace Sys2Proof.Machine

/-- Completion of what a manager hears and does of its devices (R389, R402 to R406), of snapshot transfers (R399) and of heartbeats (R405, R406). A report is kept, ends what waits for it, and tells of a
device that has missed locks and is behind, which has failed; a device that is adrift has failed; one that gives no report within 10 s of a KEEPER_RESET is released; a repair switches the banks and changes the IDs; a replay
that matches lets the next decision carry RERUN, and one that does not has the fleet fall back; a transfer's end sets KP_SNAP_STATUS and, where it is good, the epoch kept; ten missed heartbeats set the device adrift. -/
def FleetSupervisionCompletes : Prop :=
  ∀ (dev : BitVec 14) (s : State),
    (∀ (score : Byte) (losses : List Dword) (note : LockNote) (epoch : BitVec 48) (m : Member), 2 ≤ s.role → s.member dev.toNat = some m →
      let a := (s.modMember dev.toNat (fun m => { m with
        score := score.toNat, epoch := epoch.toNat, losses := if losses.isEmpty then m.losses else (losses :: m.losses).take 2 })).endAsked dev.toNat stOK
      let b := if note.idle then a.endWaits 0x1B dev.toNat stOK else a
      let c := if b.epoch ≤ epoch.toNat ∨ (b.member dev.toNat).any (fun m => m.duty == 1) = true then b.endWaits 0x110 dev.toNat stOK else b
      exec (.report dev score losses note epoch) s = .next (if note.missed ≠ 0 ∧ epoch.toNat < c.epoch then c.declareFailed dev.toNat else c))
    ∧ (∀ epoch : BitVec 48, 2 ≤ s.role → exec (.adrift dev epoch) s = .next ((s.modMember dev.toNat (fun m => { m with epoch := epoch.toNat })).declareFailed dev.toNat))
    ∧ (∀ t0 r i : Nat, s.fleet.asked = [(dev.toNat, t0, r, i)] → t0 + 10000000000 ≤ s.now → ∃ st : Nat, st < 256 ∧
      exec (.keeperReportTimeout dev) s = .next ((s.draw.2.endAsked dev.toNat st).releaseMember dev.toNat))
    ∧ (∀ (t0 : Nat) (id : Option (Nat × Nat)), s.fleet.repairAt = some (t0, id) → t0 ≤ s.now → ∃ u : State, u = ({ s with fleet := { s.fleet with repairAt := none } } : State).switchBank
      ∧ u.rb KP_ROUTE KP_ROUTE_BANK = !s.rb KP_ROUTE KP_ROUTE_BANK
      ∧ (id = none → exec .repairSwitch s = .next u) ∧ ∀ old new : Nat, id = some (old, new) → exec .repairSwitch s = .next (u.changeIds old new))
    ∧ (∀ (x : Replacement) (samples : List Dword), s.fleet.replace = some x → s.fleet.repairNext = none → x.ref = none → s.rb KP_FLEET_CFG KP_FLEET_CFG_REPLAY = true →
      let u := { s with fleet := { s.fleet with replace := none } }
      (samples = s.lossRecord x.failed → ∃ t : State, exec (.replayCheck samples) s = .next t ∧ RegsBut s t [KP_FLEET_STATUS]
        ∧ t = { s with regs := t.regs, fleet := { s.fleet with replace := none, rerunNext := true, members := t.fleet.members } })
      ∧ (samples ≠ s.lossRecord x.failed → exec (.replayCheck samples) s = .next (u.draw.2.restoreAll u.draw.2.snapEpoch)))
    ∧ (∀ (sink good : Bool) (e r : Nat), (s.fleet.snaps.getD sink.toNat Snap.initial).running = some (e, r) → (s.fleet.snaps.getD sink.toNat Snap.initial).runRefs = [] →
      sink.toNat < s.fleet.snaps.length → ∃ t : State, exec (.snapshotTransferEnd sink good) s = .next t ∧ (t.fleet.snaps.getD sink.toNat Snap.initial).running = none
        ∧ t.rf KP_SNAP_STATUS KP_SNAP_STATUS_STATE = (if good then 2 else 3)
        ∧ (good = true → t.snapEpoch = e % 2 ^ 64 ∧ RegsBut s t (KP_SNAP_STATUS :: wordsAt KP_SNAP_EPOCH_0 2)
            ∧ t = { s with regs := t.regs, fleet := { s.fleet with snaps := t.fleet.snaps, kept := t.fleet.kept }, free := t.free })
        ∧ (good = false → ∃ u : State, t = u.post 0x27 stOK (u.src 0xD00) e ∧ RegsBut s u [KP_SNAP_STATUS]
            ∧ u = { s with regs := u.regs, fleet := { s.fleet with snaps := u.fleet.snaps }, free := u.free }))
    ∧ (s.keeperUp = true → s.fleet.adrift = false → exec .keeperHeartbeat s = .next { s with fleet := { s.fleet with beats := List.replicate 8 0 } })
    ∧ (∀ (agent : WharfId) (missed : Nat), let u := { s with fleet := { s.fleet with beats := s.fleet.beats.set agent missed } }
      (missed < 10 → exec (.adriftDetect agent missed) s = .next u)
      ∧ (10 ≤ missed → s.fleet.adrift = false → exec (.adriftDetect agent missed) s = .next (u.goAdrift agent)))

end Sys2Proof.Machine

/-- Completion of a broadcast at its receivers and at its sender (R391 to R393). A new chunk is stored at its place, held, and forwarded to the children whose links
are open; a duplicate adds nothing; every receiver says at the end of the window what it lacks, and one that lacks chunks every 100 ms until the deadline; the sender unicasts from what a receiver lacks until it has 64 chunks of each block; a complete receiver
verifies the image, hands it to its dies, writes it to its other slot and binds its activation, and has failed where a chunk comes to its die bad four times; one not complete at the deadline has failed. -/
def Obligations.BroadcastCommandsComplete : Prop :=
  ∀ (k : Bcast) (s : State), s.fleet.bcast = some k →
    (∀ (number : Byte) (block : BitVec 16) (index : Byte) (data : List Byte), k.source = none → number.toNat = k.number → block.toNat < k.blocks → index.toNat < 80 →
      let held := k.got.contains (128 * block.toNat + index.toNat) = true; let bytes := (data ++ List.replicate 4096 0#8).take 4096
      let u := (s.memWr (k.place block.toNat index.toNat) bytes).2.setCast { k with got := k.got ++ [128 * block.toNat + index.toNat] }
      (held → exec (.chunk number block index data) s = .next s)
      ∧ (¬held → exec (.chunk number block index data) s
        = .next (k.children.foldl (fun s c => if s.childOpen c then s.sendChunk c k block.toNat index.toNat bytes else s) u)))
    ∧ (k.source = none → k.windowEnd ≤ s.now → k.missingAt = 0 → exec .broadcastWindowEnd s = .next (s.sendMissing k))
    ∧ (k.source = none → k.verified = false → k.failed = false → k.lacking ≠ [] → k.missingAt ≠ 0 → k.missingAt + 100000000 ≤ s.now → s.now < k.deadline →
      exec .missingRepeat s = .next (s.sendMissing k))
    ∧ (∀ (receiver : BitVec 14) (m : Member) (blocks : List (BitVec 16 × BitVec 80)), 2 ≤ s.role → s.member receiver.toNat = some m →
      exec (.missing receiver blocks) s = .next (blocks.foldl (fun s x => if x.1.toNat < k.blocks then s.fillBlock receiver.toNat k x.1.toNat x.2.toNat else s)
        (s.modMember receiver.toNat (fun m => { m with lacking := !blocks.isEmpty }))))
    ∧ (∀ badTries : Nat, k.source = none → k.verified = false → k.failed = false → k.lacking = [] → s.keeperUp = true → let z := s.writeImage (1 - s.slot) (s.castImage k)
      let u := z.setCast { k with verified := true }
      exec (.imageVerify badTries) s = .next (if z.imageOk (1 - z.slot) = true ∧ badTries < 4 then (if u.epochPast k.activation = true then u else u.bind k.activation .image none)
        else s.setCast { k with failed := true }))
    ∧ (k.source = none → k.verified = false → k.deadline ≤ s.now → exec .broadcastDeadline s = .next (s.setCast { k with failed := true }))

namespace Sys2Proof.Machine

/-- Leases (R409, R410). A standby that hears a LEASE holds it to three pounds, each with its lock, after the lock instant named, and acknowledges; the
manager holds the same expiry when the acknowledgement comes; at its expiry it stops acting, and at the first lock instant after it the standby acts: it takes the manager's ID and
every device is told of its rings' owner (R316) and readmitted. Which role it takes is free (log 76). -/
def LeaseCommandsComplete : Prop :=
  ∀ (lock : Nat) (epoch : BitVec 48) (poundUs : Nat) (s : State), let e := (lock + 3 * (poundUs * 1000 + 20000)) % 2 ^ 64
    (s.rf KP_FLEET_ID KP_FLEET_ID_DUTY = 2 → s.leaseSt ≠ 3 → s.keeperUp = true → ∃ t : State, exec (.lease lock epoch poundUs) s = .next t
      ∧ t.rdWide KP_LEASE_EXP_0 2 = e ∧ t.leaseSt = 1 ∧ RegsBut s t (KP_FLEET_STBY :: wordsAt KP_LEASE_EXP_0 2)
      ∧ t.tx = (s.send s.manager 0 txLeaseAck [lock, epoch.toNat, poundUs]).tx ∧ t = { s with regs := t.regs, fleet := { s.fleet with lease := some (lock, poundUs) }, tx := t.tx })
    ∧ (2 ≤ s.role → s.leaseSt < 2 → ∃ t : State, exec (.leaseAck lock epoch poundUs) s = .next t ∧ t.rdWide KP_LEASE_EXP_0 2 = e ∧ t.leaseSt = 1
      ∧ RegsBut s t (KP_FLEET_STBY :: wordsAt KP_LEASE_EXP_0 2) ∧ t = { s with regs := t.regs })
    ∧ (2 ≤ s.role → s.leaseSt = 1 → s.rdWide KP_LEASE_EXP_0 2 ≤ s.now → exec .leaseExpiry s = .next ((s.wf KP_FLEET_STBY KP_FLEET_STBY_LEASE 2).postFleet s.devId))
    ∧ (s.fleet.lease = some (lock, poundUs) → s.rf KP_FLEET_ID KP_FLEET_ID_DUTY = 2 → s.leaseSt = 1 → takeoverAt lock poundUs ≤ s.now → ∃ (role mgr : Nat) (u t : State),
      (role = 2 ∨ role = 3 ∧ mgr = s.manager) ∧ u = ((s.draw.2.wf KP_FLEET_STBY KP_FLEET_STBY_LEASE 3).fence s.manager).takeId s.manager ∧ u.devId = s.manager
      ∧ (let a := ((u.wf KP_FLEET_ID KP_FLEET_ID_ROLE role).wf KP_FLEET_ID KP_FLEET_ID_MGR_ID mgr).orderAll 13 [s.manager]
        t = ((a.governed.foldl (fun s m => s.nameOwners m.dev) a).orderAll 10 []).readmitOwn)
      ∧ exec .standbyTakeover s = .next { t with fleet := { t.fleet with rerunNext := true } })

end Sys2Proof.Machine

/-- Completion of the descriptors of a manager. -/
def Obligations.FleetDescriptorsComplete : Prop := AdmissionsComplete ∧ BoundDescriptorsComplete ∧ OrderDescriptorsComplete

/-- Completion of a manager's watch over its devices, of snapshot transfers and heartbeats, and of leases and the takeover. -/
def Obligations.FleetSupervisionAndLeasesComplete : Prop := FleetSupervisionCompletes ∧ LeaseCommandsComplete

/-! ## Start-up, resets, power domains, self-test -/

namespace Sys2Proof.Machine

/-- The phases of a start that needs no image (R413, R414): input power of 40.0 V, rails, resonator, partitions in order, links, ready. -/
def StartPhasesComplete : Prop :=
  ∀ s : State,
    (∀ vin : BitVec 16, s.boot.phase = 0 → s.boot.hold = .none → 40000 ≤ vin.toNat →
      (s.pins.resetN = true → exec (.vinPowerUp vin) s = .next (s.wf PW_IN PW_IN_VIN vin.toNat).tZero)
      ∧ (s.pins.resetN = false → exec (.vinPowerUp vin) s = .next (s.wf PW_IN PW_IN_VIN vin.toNat)))
    ∧ (s.atPhase 1 = true → exec (.keeperRailsGood true) s = .next { s with pins := { s.pins with pwrGood := true }, boot := { s.boot with phase := 2 } }
      ∧ exec (.keeperRailsGood false) s = .next (s.startFail 7))
    ∧ (s.atPhase 2 = true → exec .resonatorSettled s = .next { s with boot := { s.boot with phase := 3 } })
    ∧ (∀ part : PartId, s.atPhase 5 = true → s.rf (PW_DOM part) PW_DOM_STATE = 0 → (∀ k : Fin 4, k < part → s.domOn k = true) → ∃ t : State,
      exec (.partitionSwitchOn part) s = .next t ∧ t.rf (PW_DOM part) PW_DOM_STATE = 1 ∧ t.rb (PW_DOM part) PW_DOM_EN = true ∧ RegsBut s t [PW_DOM part] ∧ t = { s with regs := t.regs })
    ∧ (s.atPhase 8 = true → exec .linksFirstTrainingDone s = .next { s with boot := { s.boot with phase := 9 } })
    ∧ (s.atPhase 9 = true → ∃ t : State, exec .ready s = .next t ∧ t.stage = 7 ∧ t.rf KP_BOOT_STATUS KP_BOOT_STATUS_READY_MS = min 0xFFFF (s.boot.uptime / 1000000)
      ∧ RegsBut s t [KP_BOOT_STATUS] ∧ t = { s with regs := t.regs, boot := { s.boot with phase := 10 } })

/-- The boot ROM, the firmware and the start-up check (R297, R415, R419 to R421): an image that verifies is in force and measured, and none fails the start with
cause 1; the disabled set is what is fused, what the soft record marks but for HBM lanes, and what the check finds; what it finds joins the soft record; a wharf's
logic, an aqueduct, or more lanes of an HBM channel than it has spares fail the start with their causes, and else HBM is initialised. -/
def StartChecksComplete : Prop :=
  ∀ s : State,
    (s.atPhase 3 = true → let z := { s with sec := { s.sec with drbgRequests := 0 } }
      exec (.bootRom false) s = .next (s.startFail 2)
      ∧ exec (.bootRom true) s = .next (match z.bootSlot with
          | none => z.startFail 1
          | some x => ((z.bootImage x.1 x.2).setStage 1).setPhase 4))
    ∧ (s.atPhase 4 = true → exec (.keeperFirmwareReady true) s = .next ((s.measFirmware.setStage 2).setPhase 5)
      ∧ exec (.keeperFirmwareReady false) s = .next (s.startFail 2))
    ∧ (∀ found : List Finding, s.atPhase 6 = true → let all := (s.fuses.fused ++ s.fuses.soft.filter (fun f => !isLane f) ++ found).eraseDups
      let u := (List.range 8).foldl (fun s n => s.trainStack all n)
        ((found.foldl (fun s f => s.checkFinding f) ({ s with boot := { s.boot with disabled := all } } : State)).addSoft found);
      let wharf := found.any (fun f => match f with | .wharfLogic _ => true | _ => false)
      let aqueduct := found.any (fun f => match f with | .aqueduct _ => true | _ => false)
      let lanes := (List.range 8).any (fun n => (List.range 16).any (fun c => channelBad all n c))
      exec (.startupCheckDone found) s = .next (if wharf then u.startFail 3 else if aqueduct then u.startFail 4 else if lanes then u.startFail 5
        else (u.startHbm.setStage 4).setPhase 7))

/-- A start that fails is recorded with its cause, and every partition is OFF (R416). -/
def FailedStartsStop : Prop :=
  ∀ s : State, (∀ cause : Byte, s.starting = true → 1 ≤ cause.toNat → cause.toNat ≤ 9 → exec (.startFail cause) s = .next (s.startFail cause.toNat))
    ∧ ∀ n : Nat, n < 16 → (s.startFail n).stage = 15 ∧ (s.startFail n).rf KP_BOOT_STATUS KP_BOOT_STATUS_CAUSE = n
      ∧ ∀ k : Fin 4, (s.startFail n).rf (PW_DOM k) PW_DOM_STATE = 0 ∧ (s.startFail n).rb (PW_DOM k) PW_DOM_EN = false

end Sys2Proof.Machine

/-- Completion of the start-up, from input power to ready, and of its failures. -/
def Obligations.StartUpCommandsComplete : Prop := StartPhasesComplete ∧ StartChecksComplete ∧ FailedStartsStop

namespace Sys2Proof.Machine

/-- A device reset (R417): the fuses, the MRAM and the commands that wait stay; every register holds its reset value for the part fitted, but for those that show
fuses, the fatal file, the self-test that the reset ended and the fresh nonce; every other byte of memory, the cores, rings, links, transactions and events are as
after power-up. -/
def DeviceResetKeepsFusesAndMram : Prop :=
  ∀ (h : Hold) (n : Nat) (s : State), let t := s.deviceReset h n
    t.fuses = s.fuses ∧ RegsBut (State.resetOf s.fuses.part) t ([EV_FATAL, EV_ALERT, KP_SEC_STATUS, KP_REPAIR_STATUS, KP_TEST_STATUS] ++ wordsAt (KP_AUTH_NONCE 0) 8)
    ∧ t.pending = s.pending ∧ (∀ a : Nat, mramBase ≤ a → a < mramBase + 0x4000000 → t.byte a = s.byte a)
    ∧ (∀ a : Nat, a < mramBase → t.byte a = State.reset.byte a) ∧ t.cores = [] ∧ t.rings = [] ∧ t.subs = [] ∧ t.tx = [] ∧ t.events = []
    ∧ t.lockSt = 0 ∧ t.stage = 0 ∧ t.boot.phase = 0 ∧ t.boot.hold = h ∧ (∀ k : Fin 4, t.rf (PW_DOM k) PW_DOM_STATE = 0)

/-- Completion of resets of the whole device and of the Keeper alone (R413, R417, R435, R443): RESET_N counts from 10.00 µs on; KP_RESET takes the key 0xB007, and
DEVICE acts when KEEPER is set too; the start begins again when what holds the reset is gone; a Keeper-only reset clears the measurements and leaves memory and the
cores, and the Keeper comes back OUT_OF_STEP. -/
def DeviceResetCommandsComplete : Prop :=
  ∀ (m : Ident) (s : State),
    (∀ lowNs : Nat, (lowNs < 10000 → exec (.resetNAssert lowNs) s = .next s)
      ∧ (10000 ≤ lowNs → let low : State := { s with pins := { s.pins with resetN := false } }
        (s.boot.hold = .pin ∨ s.boot.hold = .kpReset ∨ s.boot.hold = .none ∧ s.boot.phase ≠ 0 → exec (.resetNAssert lowNs) s = .next (low.deviceReset .pin 0))
        ∧ ((∃ k : Nat, s.boot.hold = .supply k) ∨ s.boot.hold = .trip ∨ s.boot.hold = .none ∧ s.boot.phase = 0 → exec (.resetNAssert lowNs) s = .next low)))
    ∧ (let high : State := { s with pins := { s.pins with resetN := true } }
      (s.boot.hold = .pin ∨ s.boot.hold = .none ∧ s.boot.phase = 0 ∧ 40000 ≤ s.rf PW_IN PW_IN_VIN → exec .resetNRelease s = .next high.tZero)
      ∧ (¬(s.boot.hold = .pin ∨ s.boot.hold = .none ∧ s.boot.phase = 0 ∧ 40000 ≤ s.rf PW_IN PW_IN_VIN) → exec .resetNRelease s = .next high))
    ∧ (s.boot.hold = .kpReset → (s.pins.resetN = true → exec .kpResetRelease s = .next s.tZero)
      ∧ (s.pins.resetN = false → exec .kpResetRelease s = .next { s with boot := { s.boot with hold := .pin } }))
    ∧ (∀ v : Word, Passes s m KP_RESET true →
      (natBits 16 16 v.toNat = 0xB007 → natBit 0 v.toNat = true → exec (.deviceReset m v) s = .next ((s.deviceReset .kpReset 0).reply stOK []))
      ∧ (natBits 16 16 v.toNat = 0xB007 → natBit 0 v.toNat = false → natBit 1 v.toNat = true → exec (.keeperOnlyReset m v) s = .next (s.keeperReset.reply stOK []))
      ∧ (natBits 16 16 v.toNat ≠ 0xB007 → exec (.deviceReset m v) s = .next ((s.regEvent m KP_RESET).reply stOK [])
        ∧ exec (.keeperOnlyReset m v) s = .next ((s.regEvent m KP_RESET).reply stOK [])))
    ∧ (s.keeperReset.boot.keeperDown = true ∧ s.keeperReset.stage = 0 ∧ (∀ i : Fin 8, s.keeperReset.rdWide (KP_MEAS i 0) 8 = 0) ∧ s.keeperReset.sec.session = none
      ∧ s.keeperReset.sec.auth = none ∧ s.keeperReset.mem = s.mem ∧ s.keeperReset.cores = s.cores)
    ∧ (s.boot.keeperDown = true → exec .keeperRestarted s = .next (match s.bootSlot with
        | none => s.startFail 1
        | some x => let u := ((s.bootImage x.1 x.2).measFirmware).measAgain
          (({ u with boot := { u.boot with keeperDown := false }, fleet := { u.fleet with adrift := false, beats := List.replicate 8 0 } } : State).setStage
            (phaseStage u.boot.phase)).setLockSt 4))

end Sys2Proof.Machine

/-- Completion of resets of a core, a cluster and a partition (R432, R434, R440, R442): a request within the lock window waits for its end; outside it, it does
nothing where the domain is OFF or a reset in progress holds its units already, and else opens a boundary where the domain is ON: a core's state becomes IN_RESET,
its queue empties and memory stays; a drained boundary settles, and a settled one is released. A target out of range is recorded as an event. -/
def Obligations.PartialResetsComplete : Prop :=
  ∀ (m : Ident) (s : State),
    (∀ target : BitVec 10, Passes s m PW_RESET true →
      exec (.coreReset m target) s = .next ((s.requestReset 0 target.toNat).reply stOK [])
      ∧ (target.toNat < 64 → exec (.clusterReset m target) s = .next ((s.requestReset 1 target.toNat).reply stOK []))
      ∧ (target.toNat < 4 → exec (.partitionReset m target) s = .next ((s.requestReset 2 target.toNat).reply stOK []))
      ∧ (64 ≤ target.toNat → exec (.clusterReset m target) s = .next ((s.regEvent m PW_RESET).reply stOK []))
      ∧ (4 ≤ target.toNat → exec (.partitionReset m target) s = .next ((s.regEvent m PW_RESET).reply stOK [])))
    ∧ (∀ scope target : Nat, let u := (s.wf PW_RESET_STATUS PW_RESET_STATUS_SCOPE scope).wf PW_RESET_STATUS PW_RESET_STATUS_TARGET target
      (s.lock.window = true → s.requestReset scope target = ({ u with lock := { u.lock with deferred := u.lock.deferred ++ [.reset scope target] } } : State).syncResets)
      ∧ (s.lock.window = false → s.rf (PW_DOM (scopePart scope target)) PW_DOM_STATE = 0 ∨ s.joins scope target = true → s.requestReset scope target = u)
      ∧ (s.lock.window = false → s.rf (PW_DOM (scopePart scope target)) PW_DOM_STATE = 2 → s.joins scope target = false →
        s.requestReset scope target = u.openReset scope target))
    ∧ (∀ c : Fin 1024, s.lock.window = false → s.domOn (corePart c) = true → s.boot.resets = [] → s.present c = true → ∃ t : State, t = s.requestReset 0 c
      ∧ t.boot.resets = [⟨0, c, false⟩] ∧ t.tstate c = 4 ∧ t.rb PW_RESET_STATUS PW_RESET_STATUS_BUSY = true
      ∧ ((∀ i : Fin 2, s.rf (DM_STATUS (2 * c + i)) DM_STATUS_STATE ≠ 2) → (t.core c).queue = [] ∧ t.mem = s.mem))
    ∧ (∀ (scope : Fin 3) (target : Fin 1024), s.boot.resets.contains ⟨scope, target, false⟩ = true → s.scopeDrained scope target = true →
      let u := s.settleScope scope target true
      exec (.resetDrainComplete scope target) s = .next (u.setResets (u.boot.resets.map (fun b => if b = ⟨scope, target, false⟩ then { b with drained := true } else b))))
    ∧ (∀ (scope : Fin 3) (target : Fin 1024), s.boot.resets.contains ⟨scope, target, true⟩ = true → scope ≠ 2 ∨ s.testHolds target = false →
      exec (.resetRelease scope target) s = .next (s.releaseScope scope target))

/-- Completion of the changes of power domains (R436, R437, R440). A write of EN within the lock window waits for its end. Else EN wakes an OFF domain and its absence
drains one that is ON; in DRAINING and WAKING the opposite request is latched, and a change of EN then cancels it. WAKING ends ON with the basins zero, or drains at
once; DRAINING ends OFF, with the basins lost, or wakes at once. -/
def Obligations.PowerDomainsChange : Prop :=
  ∀ (m : Ident) (part : PartId) (s : State),
    (Passes s m (PW_DOM part) true → s.lock.window = true → ∀ en : Bool,
      exec (.pwDomEnWrite m part en) s = .next ((({ s with lock := { s.lock with deferred := s.lock.deferred ++ [.power part en] } } : State).syncResets).reply stOK []))
    ∧ (Passes s m (PW_DOM part) true → s.lock.window = false → s.testHolds part = false → let st := s.rf (PW_DOM part) PW_DOM_STATE
      (∀ new : Nat, (st = 0 ∧ new = 1) ∨ (st = 3 ∧ new = 4) ∨ (st = 5 ∧ new = 1) → ∃ t : State, exec (.pwDomEnWrite m part true) s = .next t ∧ t.resp = ⟨stOK, []⟩
        ∧ t.rf (PW_DOM part) PW_DOM_STATE = new ∧ t.rb (PW_DOM part) PW_DOM_EN = true ∧ RegsBut s t [PW_DOM part] ∧ t = { s with regs := t.regs, resp := t.resp })
      ∧ (∀ new : Nat, (st = 1 ∧ new = 5) ∨ (st = 4 ∧ new = 3) → ∃ t : State, exec (.pwDomEnWrite m part false) s = .next t ∧ t.resp = ⟨stOK, []⟩
        ∧ t.rf (PW_DOM part) PW_DOM_STATE = new ∧ t.rb (PW_DOM part) PW_DOM_EN = false ∧ RegsBut s t [PW_DOM part] ∧ t = { s with regs := t.regs, resp := t.resp })
      ∧ (st = 2 → s.partInReset part = false → exec (.pwDomEnWrite m part false) s = .next (((s.wb (PW_DOM part) PW_DOM_EN false).startDrain part).reply stOK []))
      ∧ (st = 2 → s.partInReset part = true → exec (.pwDomEnWrite m part false) s = .next ((s.wb (PW_DOM part) PW_DOM_EN false).reply stOK [])))
    ∧ (∀ tookMs : Nat, let u := (((s.loseBasins part).wf (PW_DOM part) PW_DOM_WAKE_MS (min 255 tookMs)).domUp part).partitionsOn
      (s.rf (PW_DOM part) PW_DOM_STATE = 1 → exec (.wakingDone part tookMs) s = .next u)
      ∧ (s.rf (PW_DOM part) PW_DOM_STATE = 5 → exec (.wakingDone part tookMs) s = .next (u.startDrain part)))
    ∧ (∀ n : Fin 16, diePart n = part.val → ∀ a : Nat, 64 * n.val * basinSize ≤ a → a < 64 * (n.val + 1) * basinSize → (s.loseBasins part).byte a = 0#8)
    ∧ (s.scopeDrained 2 part = true →
      let u := ((s.settleScope 2 part false).clearScope 2 part).loseBasins part
      let v := { u with boot := { u.boot with latched := u.boot.latched.filter (fun x => x != part.val) } }
      let off := ((v.setResets (v.boot.resets.filter (fun b => scopePart b.scope b.target != part.val))).wf (PW_DOM part) PW_DOM_STATE 0).partTowpath part
      (s.rf (PW_DOM part) PW_DOM_STATE = 3 → exec (.drainingDone part) s = .next off)
      ∧ (s.rf (PW_DOM part) PW_DOM_STATE = 4 → exec (.drainingDone part) s = .next ((off.wf (PW_DOM part) PW_DOM_STATE 1).bumpF (PW_DOM part) PW_DOM_WAKES 1)))

/-- Completion of self-test and fuse repair (R424, R425, R428, R429): START is taken from the Keeper or a control processor while no test runs, FULL only in IDLE, and
PART only for domains that are ON, and else recorded as an event; an ended slice adds what failed and what passed, and the next one runs; BURN takes the Keeper's
authorisation, in IDLE; an entry that reads back goes from the soft record to the fuses, one that does not stays and sets BURN_FAIL, and beyond 256 in the e-fuse
array an entry stays soft. (BURN during a test: R440; during a burn: the model's choice, log 64.) -/
def Obligations.SelfTestCommandsComplete : Prop :=
  ∀ (m : Ident) (s : State),
    (Passes s m KP_TEST_CTRL true → isKeeperOrControl m = true →
      (s.boot.test = none → s.lockSt = 0 → ∃ t : State, exec (.selftestFull m) s = .next t ∧ t.rf KP_TEST_STATUS KP_TEST_STATUS_STATE = 1
        ∧ RegsBut s t [KP_TEST_STATUS]
        ∧ t = { s with regs := t.regs, boot := { s.boot with test := some ⟨true, 0, 0, [], [], s.now⟩ }, resp := ⟨stOK, []⟩ })
      ∧ (∀ parts : BitVec 4, s.boot.test = none → (maskParts parts.toNat).all (fun k => s.domOn k) = true →
        exec (.selftestPart m parts) s = .next ((s.startTest false parts.toNat).reply stOK []))
      ∧ (s.boot.test ≠ none → exec (.selftestFull m) s = .next ((s.regEvent m KP_TEST_CTRL).reply stOK [])
        ∧ ∀ parts : BitVec 4, exec (.selftestPart m parts) s = .next ((s.regEvent m KP_TEST_CTRL).reply stOK []))
      ∧ (s.lockSt ≠ 0 → exec (.selftestFull m) s = .next ((s.regEvent m KP_TEST_CTRL).reply stOK []))
      ∧ (∀ parts : BitVec 4, (∃ k : Fin 4, natBit k parts.toNat = true ∧ s.domOn k = false) →
        exec (.selftestPart m parts) s = .next ((s.regEvent m KP_TEST_CTRL).reply stOK [])))
    ∧ (Passes s m KP_TEST_CTRL true → (s.boot.test ≠ none → exec (.selftestAbort m) s = .next ((s.endTest 3).reply stOK []))
      ∧ (s.boot.test = none → exec (.selftestAbort m) s = .next (s.reply stOK [])))
    ∧ (∀ (t : SelfTest) (failures passed : List Finding), s.boot.test = some t →
      exec (.selftestSliceEnd failures passed) s = .next ((if failures = [] then s else s.bumpF KP_TEST_STATUS KP_TEST_STATUS_FAILED 1).nextSlice
        { t with fails := (t.fails ++ failures).eraseDups, passed := t.passed ++ passed.filter (fun f => !failures.contains f) })
      ∧ (t.ran + 1 < t.slices → s.nextSlice t = ({ s with boot := { s.boot with test := some { t with ran := t.ran + 1 } } } : State).wf KP_TEST_STATUS KP_TEST_STATUS_SLICE (t.ran + 1)))
    ∧ (∀ v : Word, Passes s m KP_REPAIR_CTRL true → natBits 16 16 v.toNat ≠ 0xB007 ∨ (natBit 0 v.toNat = true
        ∧ (masterOf m.num.toNat ≠ .keeper ∨ s.holds 1 = none ∨ s.lockSt ≠ 0 ∨ s.boot.test ≠ none ∨ s.boot.burning ≠ [])) →
      exec (.burn m v) s = .next ((s.regEvent m KP_REPAIR_CTRL).reply stOK []))
    ∧ (∀ (v : Word) (a : Auth), Passes s m KP_REPAIR_CTRL true → natBits 16 16 v.toNat = 0xB007 → natBit 0 v.toNat = true → masterOf m.num.toNat = .keeper →
      s.holds 1 = some a → s.lockSt = 0 → s.boot.test = none → s.boot.burning = [] → ∃ t : State, exec (.burn m v) s = .next t ∧ t.rb KP_REPAIR_STATUS KP_REPAIR_STATUS_BURN_BUSY = !s.fuses.soft.isEmpty
        ∧ t.rb KP_SEC_STATUS KP_SEC_STATUS_AUTH_VALID = false ∧ RegsBut s t [KP_REPAIR_STATUS, KP_SEC_STATUS]
        ∧ t = { s with regs := t.regs, boot := { s.boot with burning := s.fuses.soft }, sec := { s.sec with auth := none }, resp := ⟨stOK, []⟩ })
    ∧ (∀ (f : Finding) (rest : List Finding), s.boot.burning = f :: rest →
      (isEFuse f = false ∨ s.eFuses < 256 → ∃ t : State, exec (.fuseEntryBurned true) s = .next t ∧ RegsBut s t [KP_REPAIR_STATUS]
        ∧ t.rb KP_REPAIR_STATUS KP_REPAIR_STATUS_BURN_BUSY = !rest.isEmpty
        ∧ t = { s with regs := t.regs, boot := { s.boot with burning := rest },
                       fuses := { s.fuses with fused := s.fuses.fused ++ [f], soft := s.fuses.soft.filter (fun x => x != f) } })
      ∧ (isEFuse f = false ∨ s.eFuses < 256 → ∃ t : State, exec (.fuseEntryBurned false) s = .next t ∧ RegsBut s t [KP_REPAIR_STATUS]
        ∧ t.rb KP_REPAIR_STATUS KP_REPAIR_STATUS_BURN_FAIL = true
        ∧ t = { s with regs := t.regs, boot := { s.boot with burning := rest }, events := t.events })
      ∧ (isEFuse f = true → 256 ≤ s.eFuses → ∃ t : State, exec (.fuseEntryBurned true) s = .next t ∧ RegsBut s t [KP_REPAIR_STATUS]
        ∧ t = { s with regs := t.regs, boot := { s.boot with burning := rest } }))

/-- R426: a slice whose time runs out is marked incomplete, what failed and what passed stay as they were, no failure is counted, and the test goes on with
the next slice, or ends after the last one. -/
def Obligations.TimedOutSlicesAreIncomplete : Prop :=
  ∀ (t : SelfTest) (s : State), s.boot.test = some t → ∃ u : State,
    u.rf KP_TEST_STATUS KP_TEST_STATUS_INCOMPL = min (2 ^ KP_TEST_STATUS_INCOMPL.width - 1) (s.rf KP_TEST_STATUS KP_TEST_STATUS_INCOMPL + 1)
    ∧ u.rf KP_TEST_STATUS KP_TEST_STATUS_FAILED = s.rf KP_TEST_STATUS KP_TEST_STATUS_FAILED ∧ RegsBut s u [KP_TEST_STATUS]
    ∧ u = { s with regs := u.regs, boot := { s.boot with test := some { t with ran := t.ran + 1 } } }
    ∧ (t.ran + 1 < t.slices → exec .selftestSliceTimeout s = .next u)
    ∧ (t.slices ≤ t.ran + 1 → exec .selftestSliceTimeout s = .next (u.finishTest { t with ran := t.ran + 1 }))

/-- Completion of device resets and Keeper-only resets, and what a device reset leaves. -/
def Obligations.DeviceResetsComplete : Prop := DeviceResetKeepsFusesAndMram ∧ DeviceResetCommandsComplete

/-! ## Security -/

/-- Completion of the Keeper's security commands (R305, R451, R455, R456, R459, R460, R466, R467, R508): a report of 496 bytes for a nonce, 16 in a second; an
ephemeral key for 1 s; an authorisation taken where its token holds, and held 10 minutes; what an authorisation lets be revoked, raised or replaced; operator
sessions and the CAKs they deliver; the image slot not in use; reseeding after 2^20 requests; key-region entries bound to an epoch, and an entry that is not valid
recorded as an event too (a change for an epoch that is past answers BOUNDS_FAULT: the model's choice, log 65); the I3C address. -/
def Obligations.SecurityCommandsComplete : Prop :=
  ∀ s : State,
    (∀ (nonce : BitVec 256) (wantKey : Bool), s.keeperUp = true → let recent := s.sec.attested.filter (fun t => decide (s.now < t + 1000000000))
      (recent.length < 16 → ∃ (t : State) (key sig : Nat), exec (.attestationRequest nonce wantKey) s = .next t ∧ t.resp.status = stOK ∧ t.resp.data.length = 496
        ∧ t.resp.data = t.reportBody nonce key ++ digestBytes (Config.sm3 (t.reportBody nonce key)) ++ toBytes 64 sig ∧ (wantKey = false → key = 0)
        ∧ (wantKey = true → t.sec.ephemeral = some s.now) ∧ (wantKey = false → t.sec.ephemeral = s.sec.ephemeral)
        ∧ t = { s with free := t.free, resp := t.resp,
                       sec := { s.sec with attested := recent ++ [s.now], drbgRequests := t.sec.drbgRequests, ephemeral := t.sec.ephemeral } })
      ∧ (16 ≤ recent.length → ∃ t : State, exec (.attestationRequest nonce wantKey) s = .next t ∧ t = { s with sec := { s.sec with attested := recent }, resp := ⟨stBAD_OPCODE, []⟩ }))
    ∧ (∀ t0 : Nat, s.sec.ephemeral = some t0 → t0 + 1000000000 ≤ s.now → exec .ephemeralKeyExpiry s = .next { s with sec := { s.sec with ephemeral := none } })
    ∧ (∀ t : Token, s.sec.session.isSome = true → s.keeperUp = true →
      exec (.authorisationOffer t) s = .next (if s.tokenOk t = true then (s.setAuth (some ⟨t.op.toNat, t.arg.toNat, s.now⟩)).newNonce else s.newNonce))
    ∧ (∀ a : Auth, s.sec.auth = some a →
      (a.since + 600000000000 ≤ s.now → ∃ t : State, exec .authorisationExpiry s = .next t ∧ t.rb KP_SEC_STATUS KP_SEC_STATUS_AUTH_VALID = false
        ∧ RegsBut s t [KP_SEC_STATUS] ∧ t = { s with regs := t.regs, sec := { s.sec with auth := none } })
      ∧ (∀ index : Fin 4, a.op = 2 → a.arg = index.val → s.hdr s.slot 13 1 ≠ index.val → ∃ t : State, exec (.revokeSigningKey index) s = .next t
        ∧ t.rb KP_SEC_STATUS KP_SEC_STATUS_AUTH_VALID = false ∧ RegsBut s t [KP_SEC_STATUS]
        ∧ t = { s with regs := t.regs, sec := { s.sec with auth := none }, fuses := { s.fuses with revoked := s.fuses.revoked ||| 2 ^ index.val } })
      ∧ (∀ value : Byte, a.op = 3 → a.arg = value.toNat → value.toNat ≤ s.rf KP_SEC_STATUS KP_SEC_STATUS_SVN_ACTIVE → s.rf KP_BOOT_STATUS KP_BOOT_STATUS_STAGE = 7 →
        ∃ t : State, exec (.raiseRollback value) s = .next t ∧ t.rb KP_SEC_STATUS KP_SEC_STATUS_AUTH_VALID = false ∧ RegsBut s t [KP_SEC_STATUS]
        ∧ t = { s with regs := t.regs, sec := { s.sec with auth := none }, fuses := { s.fuses with rollback := max s.fuses.rollback value.toNat } }))
    ∧ (∀ (hashes : List (BitVec 256)) (digest : BitVec 256), hashes.length ≤ 4 → s.keeperUp = true → (s.holds 4).isSome = true ∨ s.fuses.operatorKeys = [] → ∃ t : State,
      exec (.replaceOperatorKeys hashes digest) s = .next t ∧ RegsBut s t (KP_SEC_STATUS :: wordsAt (KP_MEAS 6 0) 8)
      ∧ t = { s with regs := t.regs, fuses := { s.fuses with operatorKeys := hashes }, sec := { s.sec with auth := if (s.holds 4).isSome = true then none else s.sec.auth } })
    ∧ (∀ keyHash : BitVec 256, s.keeperUp = true → s.fuses.operatorKeys.contains keyHash = true →
      exec (.sessionOpen keyHash true) s = .next { s with sec := { s.sec with session := some keyHash, ephemeral := none } } ∧ exec (.sessionOpen keyHash false) s = .next s)
    ∧ (∀ (port : PortId) (iface : Fin 2) (cak : BitVec 256), s.sec.session.isSome = true → s.keeperUp = true → ∃ t : State, exec (.cakDelivery port iface cak) s = .next t
      ∧ spGet 0#256 t.caks (2 * port.val + iface.val) = cak ∧ t = { s with caks := t.caks })
    ∧ (∀ image : List Byte, image.length ≤ slotSize → exec (.imageSlotWrite image) s = .next ((s.setBytes (slotBase (1 - s.slot)) image).syncSvn))
    ∧ (2 ^ 20 ≤ s.sec.drbgRequests → exec .drbgReseed s = .next { s with sec := { s.sec with drbgRequests := 0 } })
    ∧ (∀ (m : Ident) (index : Fin 16) (value : Word) (epoch : BitVec 48), Passes s m (HM_KREG 0 index) true →
      let u := if kregBad value.toNat then s.regEvent m (HM_KREG 0 index) else s
      (s.epochPast epoch.toNat = false → ∃ t : State, Binds u t epoch.toNat (.kreg 8 index value.toNat) none ∧ exec (.hmKregWrite m index value epoch) s = .next (t.reply stOK []))
      ∧ (s.epochPast epoch.toNat = true → exec (.hmKregWrite m index value epoch) s = .next (u.reply stBOUNDS_FAULT [])))
    ∧ (∀ address : BitVec 7, exec (.i3cSetdasa address) s = .next { s with sec := { s.sec with i3cAddr := address.toNat } }
      ∧ exec (.i3cEntdaa address) s = .next { s with sec := { s.sec with i3cAddr := address.toNat } })

/-! ## Events -/

/-- Completion of events (R472 to R477, R485): the report that has waited longest is applied; below ALERT, one that is due is recorded in the ring when there is room,
EV_HEAD rises and its class's PEND is zero; without room it counts as lost; one that is not due only counts in PEND; EV_TAIL is written where it names a record of the
ring, and a write elsewhere is recorded as an event; an exception of the Keeper's firmware is posted with its program counter. -/
def Obligations.EventCommandsComplete : Prop :=
  ∀ s : State,
    (∀ (e : Event) (rest : List Event), s.events = e :: rest → s.boot.keeperDown = false → s.fleet.adrift = false →
      exec .eventReport s = .next (({ s with events := rest } : State).applyEvent e)
      ∧ (e.sev < 2 → e.cls < 0x30 → s.evDue e = true → s.evRoom = true → ∃ t : State, exec .eventReport s = .next t
        ∧ Stores s t (evRing + 32 * (s.rd EV_HEAD % 4096)) (s.recordBytes e (s.rf (EV_PEND e.cls) EV_PEND_PEND))
        ∧ t.rd EV_HEAD = (s.rd EV_HEAD + 1) % 2 ^ 32 ∧ t.rf (EV_PEND e.cls) EV_PEND_PEND = 0 ∧ t.rd (EV_CNT e.cls) = min (2 ^ 32 - 1) (s.rd (EV_CNT e.cls) + 1)
        ∧ RegsBut s t (EV_HEAD :: EV_PEND e.cls :: EV_CNT e.cls :: EV_CAP e.cls :: wordsAt (EV_FIRST e.cls 0) 8 ++ wordsAt (EV_LAST e.cls 0) 8)
        ∧ t = { s with regs := t.regs, mem := t.mem, events := rest, lastRec := spPut 0 s.lastRec e.cls (e.time + 1) })
      ∧ (e.sev < 2 → e.cls < 0x30 → s.evDue e = false → ∃ t : State, exec .eventReport s = .next t ∧ t.rd (EV_CNT e.cls) = min (2 ^ 32 - 1) (s.rd (EV_CNT e.cls) + 1)
        ∧ RegsBut s t (EV_PEND e.cls :: EV_CNT e.cls :: EV_CAP e.cls :: wordsAt (EV_FIRST e.cls 0) 8 ++ wordsAt (EV_LAST e.cls 0) 8)
        ∧ t = { s with regs := t.regs, events := rest })
      ∧ (e.sev < 2 → e.cls < 0x30 → s.evDue e = true → s.evRoom = false → ∃ t : State, exec .eventReport s = .next t ∧ t.rd EV_LOST = min (2 ^ 32 - 1) (s.rd EV_LOST + 1)
        ∧ t.rd (EV_LOST_CLASS e.cls) = min (2 ^ 32 - 1) (s.rd (EV_LOST_CLASS e.cls) + 1) ∧ t.rd (EV_CNT e.cls) = min (2 ^ 32 - 1) (s.rd (EV_CNT e.cls) + 1)
        ∧ RegsBut s t (EV_LOST :: EV_LOST_CLASS e.cls :: EV_PEND e.cls :: EV_CNT e.cls :: EV_CAP e.cls :: wordsAt (EV_FIRST e.cls 0) 8 ++ wordsAt (EV_LAST e.cls 0) 8)
        ∧ t = { s with regs := t.regs, events := rest }))
    ∧ (∀ (m : Ident) (v : Word), Passes s m EV_TAIL true →
      ((s.rd EV_HEAD + 2 ^ 32 - v.toNat) % 2 ^ 32 ≤ 4096 → exec (.evTailWrite m v) s = .next ((s.wr EV_TAIL v.toNat).reply stOK []))
      ∧ (4096 < (s.rd EV_HEAD + 2 ^ 32 - v.toNat) % 2 ^ 32 → exec (.evTailWrite m v) s = .next ((s.regEvent m EV_TAIL).reply stOK [])))
    ∧ (∀ pc : Dword, exec (.keeperFirmwareException pc) s = .next (s.post 0x34 stOK (s.src 0xD00) pc.toNat))

/-! ## Power and temperature -/

/-- Completion of the clock's and the limit's commands (R3, R489, R493 to R495, R498, R512, R513): what is written is held to its bounds; the effective limit is the
least of the three of R489; the limiter lowers the clock in steps of 5 MHz and raises it by one below 97 % of the limit; the ceiling falls by 25 MHz above 95 °C and
rises by 25 MHz at 92 °C and below. -/
def Obligations.ClockAndLimitCommandsComplete : Prop :=
  ∀ s : State,
    (∀ (m : Ident) (v : Word), Passes s m PW_LIMIT true → ∃ t : State, exec (.pwLimitWrite m v) s = .next t ∧ t.rf PW_LIMIT PW_LIMIT_LIMIT = max 10 (min (v.toNat % 256) s.pwrMax)
      ∧ t.rf PW_LIMIT PW_LIMIT_EFFECTIVE = min (min (t.rf PW_LIMIT PW_LIMIT_LIMIT * 100) (s.pwrMax * 100)) (120 * s.rf PW_IN PW_IN_VIN / 1000)
      ∧ RegsBut s t [PW_LIMIT] ∧ t = { s with regs := t.regs, resp := ⟨stOK, []⟩ })
    ∧ (∀ (m : Ident) (v : Word), Passes s m PW_CLK true → ∃ t : State, exec (.pwClkWrite m v) s = .next t ∧ t.rf PW_CLK PW_CLK_REQ = max 200 (min (natBits 0 12 v.toNat) s.clkMax)
      ∧ t.rb PW_CLK PW_CLK_SSC_EN = natBit 12 v.toNat ∧ t.rf PW_CLK PW_CLK_ACTUAL = max 200 (min t.otherBound s.power.limiter)
      ∧ RegsBut s t [PW_CLK] ∧ t = { s with regs := t.regs, resp := ⟨stOK, []⟩ })
    ∧ (∀ (vinMv iin avgW peakW : BitVec 16) (lower : BitVec 12), let down := lower.toNat / 5 * 5
      ∃ t : State, exec (.limiterSample vinMv iin avgW peakW lower) s = .next t ∧ t.rf PW_IN PW_IN_VIN = vinMv.toNat ∧ t.rf PW_IN PW_IN_IIN = iin.toNat
        ∧ t.rf PW_POWER PW_POWER_AVG = avgW.toNat ∧ t.rf PW_POWER PW_POWER_PEAK = peakW.toNat
        ∧ t.rf PW_LIMIT PW_LIMIT_EFFECTIVE = min (min (s.rf PW_LIMIT PW_LIMIT_LIMIT * 100) (s.pwrMax * 100)) (120 * vinMv.toNat / 1000)
        ∧ t.power.limiter = (if down = 0 then s.power.limiter else max 200 (min s.otherBound s.power.limiter - down))
        ∧ t.rf PW_CLK PW_CLK_ACTUAL = max 200 (min s.otherBound t.power.limiter)
        ∧ RegsBut s t [PW_IN, PW_POWER, PW_LIMIT, PW_CLK, PW_SUPPLY]
        ∧ t = { s with regs := t.regs, power := { s.power with limiter := t.power.limiter, warned := t.power.warned }, events := t.events })
    ∧ (s.rf PW_POWER PW_POWER_AVG * 100 ≤ s.rf PW_LIMIT PW_LIMIT_EFFECTIVE * 97 → ∃ t : State, exec .clockRaise s = .next t
      ∧ RegsBut s t [PW_CLK] ∧ t = { s with regs := t.regs, power := { s.power with limiter := if s.otherBound ≤ s.power.limiter + 5 then s.clkMax else s.power.limiter + 5 } })
    ∧ (s.rf PW_LIMIT PW_LIMIT_EFFECTIVE * 97 < s.rf PW_POWER PW_POWER_AVG * 100 → exec .clockRaise s = .next s)
    ∧ (∀ (j : Byte) (die : Fin 25),
      (∃ t : State, exec (.throttleDown j die) s = .next t ∧ t.rf PW_TEMP PW_TEMP_JMAX = j.toNat ∧ RegsBut s t [PW_TEMP, PW_DIE_TEMP die, PW_CLK]
        ∧ t = { s with regs := t.regs, power := { s.power with ceiling := if 95 < j.toNat then max 200 (s.power.ceiling - 25) else s.power.ceiling },
                       events := t.events, fleet := { s.fleet with risk := t.fleet.risk } })
      ∧ ∃ t : State, exec (.throttleUp j die) s = .next t ∧ t.rf PW_TEMP PW_TEMP_JMAX = j.toNat ∧ RegsBut s t [PW_TEMP, PW_DIE_TEMP die, PW_CLK]
        ∧ t = { s with regs := t.regs, power := { s.power with ceiling := if j.toNat ≤ 92 then min s.clkMax (s.power.ceiling + 25) else s.power.ceiling },
                       fleet := { s.fleet with risk := t.fleet.risk } })
    ∧ (∀ port : PortId, exec (.cablePresent port) s = .next { s with power := { s.power with mod := s.power.mod ||| 2 ^ port.val } })

namespace Sys2Proof.Machine

/-- `t` follows a shutdown of the part: held in reset, its rails gone, fuses and the commands that wait as they were. -/
abbrev ShutDown (s t : State) (hold : Hold) : Prop :=
  t.boot.hold = hold ∧ t.boot.phase = 0 ∧ t.pins.pwrGood = false ∧ t.fuses = s.fuses ∧ t.pending = s.pending ∧ t.cores = []

end Sys2Proof.Machine

/-- Completion of the supply's and the temperature's warnings, shutdowns and trips (R490 to R492, R499): each at its threshold and after its time. A shutdown and a trip
hold the part in reset with its rails gone, its fuses as they were, until what releases them. -/
def Obligations.SupplyCommandsComplete : Prop :=
  ∀ (vin : BitVec 16) (us : Nat) (s : State),
    (vin.toNat < 41000 → 1000 ≤ us → exec (.uvWarn vin us) s = .next ((s.wb PW_SUPPLY PW_SUPPLY_UV true).warn 1 vin.toNat))
    ∧ (59000 < vin.toNat → 1000 ≤ us → exec (.ovWarn vin us) s = .next ((s.wb PW_SUPPLY PW_SUPPLY_OV true).warn 2 vin.toNat))
    ∧ (∀ permille : Nat, permille < 950 ∨ 1050 < permille → 10 ≤ us → exec (.railWarn vin permille us) s = .next ((s.wb PW_SUPPLY PW_SUPPLY_RAIL true).warn 3 vin.toNat))
    ∧ (41000 ≤ vin.toNat → exec (.uvWarn vin us) s = .next (s.unwarn 1)) ∧ (vin.toNat ≤ 59000 → exec (.ovWarn vin us) s = .next (s.unwarn 2))
    ∧ (∀ permille : Nat, 950 ≤ permille → permille ≤ 1050 → exec (.railWarn vin permille us) s = .next (s.unwarn 3))
    ∧ (∀ kind : Fin 3, s.power.warned.getD kind 0 = 0 → (s.warn (kind + 1) vin.toNat).events.length = s.events.length + 1
      ∧ (s.warn (kind + 1) vin.toNat).rd PW_SUPPLY_CNT = min (2 ^ 32 - 1) (s.rd PW_SUPPLY_CNT + 1))
    ∧ (s.powered = true → s.boot.hold = .none ∨ s.boot.hold = .pin →
      (vin.toNat < 38000 → 100 ≤ us → ∃ t : State, exec (.uvShutdown vin us) s = .next t ∧ ShutDown s t (.supply 1))
      ∧ (63000 < vin.toNat → 10 ≤ us → ∃ t : State, exec (.ovShutdown vin us) s = .next t ∧ ShutDown s t (.supply 2))
      ∧ (∀ (permille : Nat) (ovr : Bool), ovr = true ∨ permille < 900 ∨ 1100 < permille → 100 ≤ us → ∃ t : State, exec (.railShutdown vin permille ovr us) s = .next t ∧ ShutDown s t (.supply 3))
      ∧ (∀ iin : BitVec 16, 14000 < iin.toNat → 10 ≤ us → ∃ t : State, exec (.overcurrentShutdown vin iin us) s = .next t ∧ ShutDown s t (.supply 4)))
    ∧ (∀ kind steadyMs lowNs belowMs : Nat, s.boot.hold = .supply kind →
      (kind = 1 → 40000 ≤ vin.toNat → 100 ≤ steadyMs → s.pins.resetN = true → exec (.supplyShutdownRelease vin steadyMs lowNs belowMs) s = .next s.releaseHold)
      ∧ (kind ≠ 1 → 10000 ≤ lowNs ∧ s.pins.resetN = true ∨ 1000 ≤ belowMs ∧ 40000 ≤ vin.toNat → exec (.supplyShutdownRelease vin steadyMs lowNs belowMs) s = .next s.releaseHold))
    ∧ (∀ (jmax hmax : Byte) (ms : Nat), s.powered = true → s.pins.thermTripN = true → s.boot.hold = .none → 110 ≤ jmax.toNat ∨ (105 < jmax.toNat ∧ 100 ≤ ms) ∨ 105 ≤ hmax.toNat →
      ∃ t : State, exec (.thermalTrip jmax hmax ms) s = .next t ∧ ShutDown s t .trip ∧ t.pins.thermTripN = false)
    ∧ (∀ (hottest : Byte) (coolMs : Nat), s.pins.thermTripN = false → s.boot.hold = .trip → hottest.toNat ≤ 80 → 10000 ≤ coolMs →
      exec (.thermalTripRelease hottest coolMs) s = .next ({ s with pins := { s.pins with thermTripN := true } } : State).releaseHold)
end

