-- ==== Sys2Proof/Laws/Sparse.lean ====
section
/-! SUPPORT. The sparse maps: a read after a write, and that every operation keeps the canonical form. -/

namespace Sys2Proof.Machine

/-! ## Canonical form -/

theorem spWfFrom_le {α : Type} [DecidableEq α] (d : α) {lo lo' : Nat} (h : lo' ≤ lo) {m : Sparse α} (w : spWfFrom d lo m = true) :
    spWfFrom d lo' m = true := by
  cases m with
  | nil => rfl
  | cons x t => obtain ⟨k, v⟩ := x; simp only [spWfFrom, Bool.and_eq_true, decide_eq_true_eq] at *; exact ⟨⟨by omega, w.1.2⟩, w.2⟩

theorem spWfFrom_filter {α : Type} [DecidableEq α] (d : α) (p : Nat × α → Bool) {m : Sparse α} :
    ∀ {lo : Nat}, spWfFrom d lo m = true → spWfFrom d lo (m.filter p) = true := by
  induction m with
  | nil => intro lo _; rfl
  | cons x t ih =>
    intro lo w
    obtain ⟨k, v⟩ := x
    simp only [spWfFrom, Bool.and_eq_true, decide_eq_true_eq] at w
    by_cases hp : p (k, v) = true
    · simp only [List.filter_cons, hp, if_true, spWfFrom, Bool.and_eq_true, decide_eq_true_eq]; exact ⟨w.1, ih w.2⟩
    · simp only [List.filter_cons, hp, Bool.false_eq_true, if_false]; exact spWfFrom_le d (by omega) (ih w.2)

theorem spWfFrom_ins {α : Type} [DecidableEq α] {d : α} {i : Nat} {v : α} (hv : v ≠ d) {m : Sparse α} :
    ∀ {lo : Nat}, lo ≤ i → spWfFrom d lo m = true → spWfFrom d lo (spIns m i v) = true := by
  induction m with
  | nil => intro lo h _; simp [spIns, spWfFrom, h, hv]
  | cons x t ih =>
    intro lo h w
    obtain ⟨k, u⟩ := x
    simp only [spWfFrom, Bool.and_eq_true, decide_eq_true_eq] at w
    unfold spIns
    split
    · simp only [spWfFrom, Bool.and_eq_true, decide_eq_true_eq]; exact ⟨⟨h, hv⟩, ⟨by omega, w.1.2⟩, w.2⟩
    · split
      · subst i; simp only [spWfFrom, Bool.and_eq_true, decide_eq_true_eq]; exact ⟨⟨h, hv⟩, w.2⟩
      · simp only [spWfFrom, Bool.and_eq_true, decide_eq_true_eq]; exact ⟨w.1, ih (by omega) w.2⟩

theorem spWf_filter {α : Type} [DecidableEq α] {d : α} {m : Sparse α} (p : Nat × α → Bool) (w : spWf d m = true) : spWf d (m.filter p) = true :=
  spWfFrom_filter d p w

theorem spWf_put {α : Type} [DecidableEq α] {d : α} {m : Sparse α} (i : Nat) (v : α) (w : spWf d m = true) : spWf d (spPut d m i v) = true := by
  unfold spPut; split
  · exact spWf_filter _ w
  · exact spWfFrom_ins ‹_› (Nat.zero_le _) w

theorem spWfFrom_map {α : Type} [DecidableEq α] {d : α} {f : α → α} {m : Sparse α} : ∀ {lo : Nat}, spWfFrom d lo m = true →
    spWfFrom d lo ((m.map (fun x => (x.1, f x.2))).filter (fun x => x.2 != d)) = true := by
  induction m with
  | nil => intro lo _; rfl
  | cons x t ih =>
    intro lo w
    obtain ⟨k, v⟩ := x
    simp only [spWfFrom, Bool.and_eq_true, decide_eq_true_eq] at w
    by_cases hv : f v = d
    · simp only [List.map_cons, List.filter_cons, hv, bne_self_eq_false, Bool.false_eq_true, if_false]
      exact spWfFrom_le d (by omega) (ih w.2)
    · have hb : (f v != d) = true := by simp [hv]
      simp only [List.map_cons, List.filter_cons, hb, if_true, spWfFrom, Bool.and_eq_true, decide_eq_true_eq]
      exact ⟨⟨w.1.1, hv⟩, ih w.2⟩

/-! ## Reads -/

theorem spGet_filter_ne {α : Type} (d : α) (i : Nat) : ∀ m : Sparse α, spGet d (m.filter (fun x => x.1 != i)) i = d
  | [] => rfl
  | (k, v) :: t => by
    by_cases h : k = i
    · subst h; simp only [List.filter_cons, bne_self_eq_false, Bool.false_eq_true, if_false]; exact spGet_filter_ne d k t
    · have hb : (k != i) = true := by simpa using h
      simp only [List.filter_cons, hb, if_true, spGet]
      rw [if_neg (fun e => h e.symm)]; exact spGet_filter_ne d i t

theorem spGet_filter_other {α : Type} (d : α) {i j : Nat} (hj : j ≠ i) : ∀ m : Sparse α, spGet d (m.filter (fun x => x.1 != i)) j = spGet d m j
  | [] => rfl
  | (k, v) :: t => by
    by_cases h : k = i
    · subst h; simp only [List.filter_cons, bne_self_eq_false, Bool.false_eq_true, if_false, spGet, if_neg hj]
      exact spGet_filter_other d hj t
    · have hb : (k != i) = true := by simpa using h
      simp only [List.filter_cons, hb, if_true, spGet, spGet_filter_other d hj t]

theorem spGet_ins_same {α : Type} (d : α) (i : Nat) (v : α) : ∀ m : Sparse α, spGet d (spIns m i v) i = v
  | [] => by simp [spIns, spGet]
  | (k, w) :: t => by
    unfold spIns
    split
    · simp [spGet]
    · split
      · simp [spGet]
      · rename_i h; simp only [spGet, if_neg h]; exact spGet_ins_same d i v t

theorem spGet_ins_other {α : Type} (d : α) {i j : Nat} (v : α) (hj : j ≠ i) : ∀ m : Sparse α, spGet d (spIns m i v) j = spGet d m j
  | [] => by simp [spIns, spGet, hj]
  | (k, w) :: t => by
    unfold spIns
    split
    · simp [spGet, hj]
    · split
      · rename_i h; subst h; simp [spGet, hj]
      · simp only [spGet, spGet_ins_other d v hj t]

@[simp] theorem spGet_put_same {α : Type} [DecidableEq α] (d : α) (m : Sparse α) (i : Nat) (v : α) : spGet d (spPut d m i v) i = v := by
  unfold spPut
  split
  · rename_i h; rw [spGet_filter_ne, h]
  · exact spGet_ins_same d i v m

theorem spGet_put_other {α : Type} [DecidableEq α] (d : α) (m : Sparse α) {i j : Nat} (v : α) (h : j ≠ i) :
    spGet d (spPut d m i v) j = spGet d m j := by
  unfold spPut
  split
  · exact spGet_filter_other d h m
  · exact spGet_ins_other d v h m

end Sys2Proof.Machine
end

