-- ==== Sys2Proof/Laws/State.lean ====
section
/-! SUPPORT. The state's small lemmas: what each update of the state leaves alone, what a register, a field, a core or a byte reads after a
write of it or of another, and a register write or read of this device past its checks. -/

namespace Sys2Proof.Machine

/-! ## What `wr` leaves alone -/

@[simp] theorem State.wr_pending (s : State) (a v : Nat) : (s.wr a v).pending = s.pending := rfl
@[simp] theorem State.wr_capture (s : State) (a v : Nat) : (s.wr a v).capture = s.capture := rfl
@[simp] theorem State.wr_wbuf (s : State) (a v : Nat) : (s.wr a v).wbuf = s.wbuf := rfl
@[simp] theorem State.wr_mem (s : State) (a v : Nat) : (s.wr a v).mem = s.mem := rfl
@[simp] theorem State.wr_ecc (s : State) (a v : Nat) : (s.wr a v).ecc = s.ecc := rfl
@[simp] theorem State.wr_blockKey (s : State) (a v : Nat) : (s.wr a v).blockKey = s.blockKey := rfl
@[simp] theorem State.wr_keyGen (s : State) (a v : Nat) : (s.wr a v).keyGen = s.keyGen := rfl
@[simp] theorem State.wr_resp (s : State) (a v : Nat) : (s.wr a v).resp = s.resp := rfl
@[simp] theorem State.wr_pins (s : State) (a v : Nat) : (s.wr a v).pins = s.pins := rfl
@[simp] theorem State.wr_route (s : State) (a v : Nat) : (s.wr a v).route = s.route := rfl
@[simp] theorem State.wr_time (s : State) (a v : Nat) : (s.wr a v).time = s.time := rfl
@[simp] theorem State.wr_lock (s : State) (a v : Nat) : (s.wr a v).lock = s.lock := rfl
@[simp] theorem State.wr_sched (s : State) (a v : Nat) : (s.wr a v).sched = s.sched := rfl
@[simp] theorem State.wr_cores (s : State) (a v : Nat) : (s.wr a v).cores = s.cores := rfl
@[simp] theorem State.wr_claims (s : State) (a v : Nat) : (s.wr a v).claims = s.claims := rfl
@[simp] theorem State.wr_engines (s : State) (a v : Nat) : (s.wr a v).engines = s.engines := rfl
@[simp] theorem State.wr_rings (s : State) (a v : Nat) : (s.wr a v).rings = s.rings := rfl
@[simp] theorem State.wr_chans (s : State) (a v : Nat) : (s.wr a v).chans = s.chans := rfl
@[simp] theorem State.wr_sends (s : State) (a v : Nat) : (s.wr a v).sends = s.sends := rfl
@[simp] theorem State.wr_notes (s : State) (a v : Nat) : (s.wr a v).notes = s.notes := rfl
@[simp] theorem State.wr_notesOut (s : State) (a v : Nat) : (s.wr a v).notesOut = s.notesOut := rfl
@[simp] theorem State.wr_interrupts (s : State) (a v : Nat) : (s.wr a v).interrupts = s.interrupts := rfl
@[simp] theorem State.wr_intake (s : State) (a v : Nat) : (s.wr a v).intake = s.intake := rfl
@[simp] theorem State.wr_datagrams (s : State) (a v : Nat) : (s.wr a v).datagrams = s.datagrams := rfl
@[simp] theorem State.wr_tx (s : State) (a v : Nat) : (s.wr a v).tx = s.tx := rfl
@[simp] theorem State.wr_subs (s : State) (a v : Nat) : (s.wr a v).subs = s.subs := rfl
@[simp] theorem State.wr_caks (s : State) (a v : Nat) : (s.wr a v).caks = s.caks := rfl
@[simp] theorem State.wr_train (s : State) (a v : Nat) : (s.wr a v).train = s.train := rfl
@[simp] theorem State.wr_fleet (s : State) (a v : Nat) : (s.wr a v).fleet = s.fleet := rfl
@[simp] theorem State.wr_boot (s : State) (a v : Nat) : (s.wr a v).boot = s.boot := rfl
@[simp] theorem State.wr_fuses (s : State) (a v : Nat) : (s.wr a v).fuses = s.fuses := rfl
@[simp] theorem State.wr_sec (s : State) (a v : Nat) : (s.wr a v).sec = s.sec := rfl
@[simp] theorem State.wr_power (s : State) (a v : Nat) : (s.wr a v).power = s.power := rfl
@[simp] theorem State.wr_events (s : State) (a v : Nat) : (s.wr a v).events = s.events := rfl
@[simp] theorem State.wr_lastRec (s : State) (a v : Nat) : (s.wr a v).lastRec = s.lastRec := rfl
@[simp] theorem State.wr_fatalNew (s : State) (a v : Nat) : (s.wr a v).fatalNew = s.fatalNew := rfl
@[simp] theorem State.wr_free (s : State) (a v : Nat) : (s.wr a v).free = s.free := rfl
@[simp] theorem State.wr_aqFail (s : State) (a v : Nat) : (s.wr a v).aqFail = s.aqFail := rfl
@[simp] theorem State.wr_remotes (s : State) (a v : Nat) : (s.wr a v).remotes = s.remotes := rfl
@[simp] theorem State.wr_turn (s : State) (a v : Nat) : (s.wr a v).turn = s.turn := rfl
@[simp] theorem State.wr_hbmCache (s : State) (a v : Nat) : (s.wr a v).hbmCache = s.hbmCache := rfl
@[simp] theorem State.wr_net (s : State) (a v : Nat) : (s.wr a v).net = s.net := rfl

/-! ## What `wf` leaves alone -/

@[simp] theorem State.wf_pending (s : State) (a : Nat) (f : Fld) (v : Nat) : (s.wf a f v).pending = s.pending := rfl
@[simp] theorem State.wf_capture (s : State) (a : Nat) (f : Fld) (v : Nat) : (s.wf a f v).capture = s.capture := rfl
@[simp] theorem State.wf_wbuf (s : State) (a : Nat) (f : Fld) (v : Nat) : (s.wf a f v).wbuf = s.wbuf := rfl
@[simp] theorem State.wf_mem (s : State) (a : Nat) (f : Fld) (v : Nat) : (s.wf a f v).mem = s.mem := rfl
@[simp] theorem State.wf_ecc (s : State) (a : Nat) (f : Fld) (v : Nat) : (s.wf a f v).ecc = s.ecc := rfl
@[simp] theorem State.wf_blockKey (s : State) (a : Nat) (f : Fld) (v : Nat) : (s.wf a f v).blockKey = s.blockKey := rfl
@[simp] theorem State.wf_keyGen (s : State) (a : Nat) (f : Fld) (v : Nat) : (s.wf a f v).keyGen = s.keyGen := rfl
@[simp] theorem State.wf_resp (s : State) (a : Nat) (f : Fld) (v : Nat) : (s.wf a f v).resp = s.resp := rfl
@[simp] theorem State.wf_pins (s : State) (a : Nat) (f : Fld) (v : Nat) : (s.wf a f v).pins = s.pins := rfl
@[simp] theorem State.wf_route (s : State) (a : Nat) (f : Fld) (v : Nat) : (s.wf a f v).route = s.route := rfl
@[simp] theorem State.wf_time (s : State) (a : Nat) (f : Fld) (v : Nat) : (s.wf a f v).time = s.time := rfl
@[simp] theorem State.wf_lock (s : State) (a : Nat) (f : Fld) (v : Nat) : (s.wf a f v).lock = s.lock := rfl
@[simp] theorem State.wf_sched (s : State) (a : Nat) (f : Fld) (v : Nat) : (s.wf a f v).sched = s.sched := rfl
@[simp] theorem State.wf_cores (s : State) (a : Nat) (f : Fld) (v : Nat) : (s.wf a f v).cores = s.cores := rfl
@[simp] theorem State.wf_claims (s : State) (a : Nat) (f : Fld) (v : Nat) : (s.wf a f v).claims = s.claims := rfl
@[simp] theorem State.wf_engines (s : State) (a : Nat) (f : Fld) (v : Nat) : (s.wf a f v).engines = s.engines := rfl
@[simp] theorem State.wf_rings (s : State) (a : Nat) (f : Fld) (v : Nat) : (s.wf a f v).rings = s.rings := rfl
@[simp] theorem State.wf_chans (s : State) (a : Nat) (f : Fld) (v : Nat) : (s.wf a f v).chans = s.chans := rfl
@[simp] theorem State.wf_sends (s : State) (a : Nat) (f : Fld) (v : Nat) : (s.wf a f v).sends = s.sends := rfl
@[simp] theorem State.wf_notes (s : State) (a : Nat) (f : Fld) (v : Nat) : (s.wf a f v).notes = s.notes := rfl
@[simp] theorem State.wf_notesOut (s : State) (a : Nat) (f : Fld) (v : Nat) : (s.wf a f v).notesOut = s.notesOut := rfl
@[simp] theorem State.wf_interrupts (s : State) (a : Nat) (f : Fld) (v : Nat) : (s.wf a f v).interrupts = s.interrupts := rfl
@[simp] theorem State.wf_intake (s : State) (a : Nat) (f : Fld) (v : Nat) : (s.wf a f v).intake = s.intake := rfl
@[simp] theorem State.wf_datagrams (s : State) (a : Nat) (f : Fld) (v : Nat) : (s.wf a f v).datagrams = s.datagrams := rfl
@[simp] theorem State.wf_tx (s : State) (a : Nat) (f : Fld) (v : Nat) : (s.wf a f v).tx = s.tx := rfl
@[simp] theorem State.wf_subs (s : State) (a : Nat) (f : Fld) (v : Nat) : (s.wf a f v).subs = s.subs := rfl
@[simp] theorem State.wf_caks (s : State) (a : Nat) (f : Fld) (v : Nat) : (s.wf a f v).caks = s.caks := rfl
@[simp] theorem State.wf_train (s : State) (a : Nat) (f : Fld) (v : Nat) : (s.wf a f v).train = s.train := rfl
@[simp] theorem State.wf_fleet (s : State) (a : Nat) (f : Fld) (v : Nat) : (s.wf a f v).fleet = s.fleet := rfl
@[simp] theorem State.wf_boot (s : State) (a : Nat) (f : Fld) (v : Nat) : (s.wf a f v).boot = s.boot := rfl
@[simp] theorem State.wf_fuses (s : State) (a : Nat) (f : Fld) (v : Nat) : (s.wf a f v).fuses = s.fuses := rfl
@[simp] theorem State.wf_sec (s : State) (a : Nat) (f : Fld) (v : Nat) : (s.wf a f v).sec = s.sec := rfl
@[simp] theorem State.wf_power (s : State) (a : Nat) (f : Fld) (v : Nat) : (s.wf a f v).power = s.power := rfl
@[simp] theorem State.wf_events (s : State) (a : Nat) (f : Fld) (v : Nat) : (s.wf a f v).events = s.events := rfl
@[simp] theorem State.wf_lastRec (s : State) (a : Nat) (f : Fld) (v : Nat) : (s.wf a f v).lastRec = s.lastRec := rfl
@[simp] theorem State.wf_fatalNew (s : State) (a : Nat) (f : Fld) (v : Nat) : (s.wf a f v).fatalNew = s.fatalNew := rfl
@[simp] theorem State.wf_free (s : State) (a : Nat) (f : Fld) (v : Nat) : (s.wf a f v).free = s.free := rfl
@[simp] theorem State.wf_aqFail (s : State) (a : Nat) (f : Fld) (v : Nat) : (s.wf a f v).aqFail = s.aqFail := rfl
@[simp] theorem State.wf_remotes (s : State) (a : Nat) (f : Fld) (v : Nat) : (s.wf a f v).remotes = s.remotes := rfl
@[simp] theorem State.wf_turn (s : State) (a : Nat) (f : Fld) (v : Nat) : (s.wf a f v).turn = s.turn := rfl
@[simp] theorem State.wf_hbmCache (s : State) (a : Nat) (f : Fld) (v : Nat) : (s.wf a f v).hbmCache = s.hbmCache := rfl
@[simp] theorem State.wf_net (s : State) (a : Nat) (f : Fld) (v : Nat) : (s.wf a f v).net = s.net := rfl

/-! ## What `wb` leaves alone -/

@[simp] theorem State.wb_pending (s : State) (a : Nat) (f : Fld) (b : Bool) : (s.wb a f b).pending = s.pending := rfl
@[simp] theorem State.wb_capture (s : State) (a : Nat) (f : Fld) (b : Bool) : (s.wb a f b).capture = s.capture := rfl
@[simp] theorem State.wb_wbuf (s : State) (a : Nat) (f : Fld) (b : Bool) : (s.wb a f b).wbuf = s.wbuf := rfl
@[simp] theorem State.wb_mem (s : State) (a : Nat) (f : Fld) (b : Bool) : (s.wb a f b).mem = s.mem := rfl
@[simp] theorem State.wb_ecc (s : State) (a : Nat) (f : Fld) (b : Bool) : (s.wb a f b).ecc = s.ecc := rfl
@[simp] theorem State.wb_blockKey (s : State) (a : Nat) (f : Fld) (b : Bool) : (s.wb a f b).blockKey = s.blockKey := rfl
@[simp] theorem State.wb_keyGen (s : State) (a : Nat) (f : Fld) (b : Bool) : (s.wb a f b).keyGen = s.keyGen := rfl
@[simp] theorem State.wb_resp (s : State) (a : Nat) (f : Fld) (b : Bool) : (s.wb a f b).resp = s.resp := rfl
@[simp] theorem State.wb_pins (s : State) (a : Nat) (f : Fld) (b : Bool) : (s.wb a f b).pins = s.pins := rfl
@[simp] theorem State.wb_route (s : State) (a : Nat) (f : Fld) (b : Bool) : (s.wb a f b).route = s.route := rfl
@[simp] theorem State.wb_time (s : State) (a : Nat) (f : Fld) (b : Bool) : (s.wb a f b).time = s.time := rfl
@[simp] theorem State.wb_lock (s : State) (a : Nat) (f : Fld) (b : Bool) : (s.wb a f b).lock = s.lock := rfl
@[simp] theorem State.wb_sched (s : State) (a : Nat) (f : Fld) (b : Bool) : (s.wb a f b).sched = s.sched := rfl
@[simp] theorem State.wb_cores (s : State) (a : Nat) (f : Fld) (b : Bool) : (s.wb a f b).cores = s.cores := rfl
@[simp] theorem State.wb_claims (s : State) (a : Nat) (f : Fld) (b : Bool) : (s.wb a f b).claims = s.claims := rfl
@[simp] theorem State.wb_engines (s : State) (a : Nat) (f : Fld) (b : Bool) : (s.wb a f b).engines = s.engines := rfl
@[simp] theorem State.wb_rings (s : State) (a : Nat) (f : Fld) (b : Bool) : (s.wb a f b).rings = s.rings := rfl
@[simp] theorem State.wb_chans (s : State) (a : Nat) (f : Fld) (b : Bool) : (s.wb a f b).chans = s.chans := rfl
@[simp] theorem State.wb_sends (s : State) (a : Nat) (f : Fld) (b : Bool) : (s.wb a f b).sends = s.sends := rfl
@[simp] theorem State.wb_notes (s : State) (a : Nat) (f : Fld) (b : Bool) : (s.wb a f b).notes = s.notes := rfl
@[simp] theorem State.wb_notesOut (s : State) (a : Nat) (f : Fld) (b : Bool) : (s.wb a f b).notesOut = s.notesOut := rfl
@[simp] theorem State.wb_interrupts (s : State) (a : Nat) (f : Fld) (b : Bool) : (s.wb a f b).interrupts = s.interrupts := rfl
@[simp] theorem State.wb_intake (s : State) (a : Nat) (f : Fld) (b : Bool) : (s.wb a f b).intake = s.intake := rfl
@[simp] theorem State.wb_datagrams (s : State) (a : Nat) (f : Fld) (b : Bool) : (s.wb a f b).datagrams = s.datagrams := rfl
@[simp] theorem State.wb_tx (s : State) (a : Nat) (f : Fld) (b : Bool) : (s.wb a f b).tx = s.tx := rfl
@[simp] theorem State.wb_subs (s : State) (a : Nat) (f : Fld) (b : Bool) : (s.wb a f b).subs = s.subs := rfl
@[simp] theorem State.wb_caks (s : State) (a : Nat) (f : Fld) (b : Bool) : (s.wb a f b).caks = s.caks := rfl
@[simp] theorem State.wb_train (s : State) (a : Nat) (f : Fld) (b : Bool) : (s.wb a f b).train = s.train := rfl
@[simp] theorem State.wb_fleet (s : State) (a : Nat) (f : Fld) (b : Bool) : (s.wb a f b).fleet = s.fleet := rfl
@[simp] theorem State.wb_boot (s : State) (a : Nat) (f : Fld) (b : Bool) : (s.wb a f b).boot = s.boot := rfl
@[simp] theorem State.wb_fuses (s : State) (a : Nat) (f : Fld) (b : Bool) : (s.wb a f b).fuses = s.fuses := rfl
@[simp] theorem State.wb_sec (s : State) (a : Nat) (f : Fld) (b : Bool) : (s.wb a f b).sec = s.sec := rfl
@[simp] theorem State.wb_power (s : State) (a : Nat) (f : Fld) (b : Bool) : (s.wb a f b).power = s.power := rfl
@[simp] theorem State.wb_events (s : State) (a : Nat) (f : Fld) (b : Bool) : (s.wb a f b).events = s.events := rfl
@[simp] theorem State.wb_lastRec (s : State) (a : Nat) (f : Fld) (b : Bool) : (s.wb a f b).lastRec = s.lastRec := rfl
@[simp] theorem State.wb_fatalNew (s : State) (a : Nat) (f : Fld) (b : Bool) : (s.wb a f b).fatalNew = s.fatalNew := rfl
@[simp] theorem State.wb_free (s : State) (a : Nat) (f : Fld) (b : Bool) : (s.wb a f b).free = s.free := rfl
@[simp] theorem State.wb_aqFail (s : State) (a : Nat) (f : Fld) (b : Bool) : (s.wb a f b).aqFail = s.aqFail := rfl
@[simp] theorem State.wb_remotes (s : State) (a : Nat) (f : Fld) (b : Bool) : (s.wb a f b).remotes = s.remotes := rfl
@[simp] theorem State.wb_turn (s : State) (a : Nat) (f : Fld) (b : Bool) : (s.wb a f b).turn = s.turn := rfl
@[simp] theorem State.wb_hbmCache (s : State) (a : Nat) (f : Fld) (b : Bool) : (s.wb a f b).hbmCache = s.hbmCache := rfl
@[simp] theorem State.wb_net (s : State) (a : Nat) (f : Fld) (b : Bool) : (s.wb a f b).net = s.net := rfl

/-! ## What `bump` leaves alone -/

@[simp] theorem State.bump_pending (s : State) (a n : Nat) : (s.bump a n).pending = s.pending := rfl
@[simp] theorem State.bump_capture (s : State) (a n : Nat) : (s.bump a n).capture = s.capture := rfl
@[simp] theorem State.bump_wbuf (s : State) (a n : Nat) : (s.bump a n).wbuf = s.wbuf := rfl
@[simp] theorem State.bump_mem (s : State) (a n : Nat) : (s.bump a n).mem = s.mem := rfl
@[simp] theorem State.bump_ecc (s : State) (a n : Nat) : (s.bump a n).ecc = s.ecc := rfl
@[simp] theorem State.bump_blockKey (s : State) (a n : Nat) : (s.bump a n).blockKey = s.blockKey := rfl
@[simp] theorem State.bump_keyGen (s : State) (a n : Nat) : (s.bump a n).keyGen = s.keyGen := rfl
@[simp] theorem State.bump_resp (s : State) (a n : Nat) : (s.bump a n).resp = s.resp := rfl
@[simp] theorem State.bump_pins (s : State) (a n : Nat) : (s.bump a n).pins = s.pins := rfl
@[simp] theorem State.bump_route (s : State) (a n : Nat) : (s.bump a n).route = s.route := rfl
@[simp] theorem State.bump_time (s : State) (a n : Nat) : (s.bump a n).time = s.time := rfl
@[simp] theorem State.bump_lock (s : State) (a n : Nat) : (s.bump a n).lock = s.lock := rfl
@[simp] theorem State.bump_sched (s : State) (a n : Nat) : (s.bump a n).sched = s.sched := rfl
@[simp] theorem State.bump_cores (s : State) (a n : Nat) : (s.bump a n).cores = s.cores := rfl
@[simp] theorem State.bump_claims (s : State) (a n : Nat) : (s.bump a n).claims = s.claims := rfl
@[simp] theorem State.bump_engines (s : State) (a n : Nat) : (s.bump a n).engines = s.engines := rfl
@[simp] theorem State.bump_rings (s : State) (a n : Nat) : (s.bump a n).rings = s.rings := rfl
@[simp] theorem State.bump_chans (s : State) (a n : Nat) : (s.bump a n).chans = s.chans := rfl
@[simp] theorem State.bump_sends (s : State) (a n : Nat) : (s.bump a n).sends = s.sends := rfl
@[simp] theorem State.bump_notes (s : State) (a n : Nat) : (s.bump a n).notes = s.notes := rfl
@[simp] theorem State.bump_notesOut (s : State) (a n : Nat) : (s.bump a n).notesOut = s.notesOut := rfl
@[simp] theorem State.bump_interrupts (s : State) (a n : Nat) : (s.bump a n).interrupts = s.interrupts := rfl
@[simp] theorem State.bump_intake (s : State) (a n : Nat) : (s.bump a n).intake = s.intake := rfl
@[simp] theorem State.bump_datagrams (s : State) (a n : Nat) : (s.bump a n).datagrams = s.datagrams := rfl
@[simp] theorem State.bump_tx (s : State) (a n : Nat) : (s.bump a n).tx = s.tx := rfl
@[simp] theorem State.bump_subs (s : State) (a n : Nat) : (s.bump a n).subs = s.subs := rfl
@[simp] theorem State.bump_caks (s : State) (a n : Nat) : (s.bump a n).caks = s.caks := rfl
@[simp] theorem State.bump_train (s : State) (a n : Nat) : (s.bump a n).train = s.train := rfl
@[simp] theorem State.bump_fleet (s : State) (a n : Nat) : (s.bump a n).fleet = s.fleet := rfl
@[simp] theorem State.bump_boot (s : State) (a n : Nat) : (s.bump a n).boot = s.boot := rfl
@[simp] theorem State.bump_fuses (s : State) (a n : Nat) : (s.bump a n).fuses = s.fuses := rfl
@[simp] theorem State.bump_sec (s : State) (a n : Nat) : (s.bump a n).sec = s.sec := rfl
@[simp] theorem State.bump_power (s : State) (a n : Nat) : (s.bump a n).power = s.power := rfl
@[simp] theorem State.bump_events (s : State) (a n : Nat) : (s.bump a n).events = s.events := rfl
@[simp] theorem State.bump_lastRec (s : State) (a n : Nat) : (s.bump a n).lastRec = s.lastRec := rfl
@[simp] theorem State.bump_fatalNew (s : State) (a n : Nat) : (s.bump a n).fatalNew = s.fatalNew := rfl
@[simp] theorem State.bump_free (s : State) (a n : Nat) : (s.bump a n).free = s.free := rfl
@[simp] theorem State.bump_aqFail (s : State) (a n : Nat) : (s.bump a n).aqFail = s.aqFail := rfl
@[simp] theorem State.bump_remotes (s : State) (a n : Nat) : (s.bump a n).remotes = s.remotes := rfl
@[simp] theorem State.bump_turn (s : State) (a n : Nat) : (s.bump a n).turn = s.turn := rfl
@[simp] theorem State.bump_hbmCache (s : State) (a n : Nat) : (s.bump a n).hbmCache = s.hbmCache := rfl
@[simp] theorem State.bump_net (s : State) (a n : Nat) : (s.bump a n).net = s.net := rfl

/-! ## What `bumpF` leaves alone -/

@[simp] theorem State.bumpF_pending (s : State) (a : Nat) (f : Fld) (n : Nat) : (s.bumpF a f n).pending = s.pending := rfl
@[simp] theorem State.bumpF_capture (s : State) (a : Nat) (f : Fld) (n : Nat) : (s.bumpF a f n).capture = s.capture := rfl
@[simp] theorem State.bumpF_wbuf (s : State) (a : Nat) (f : Fld) (n : Nat) : (s.bumpF a f n).wbuf = s.wbuf := rfl
@[simp] theorem State.bumpF_mem (s : State) (a : Nat) (f : Fld) (n : Nat) : (s.bumpF a f n).mem = s.mem := rfl
@[simp] theorem State.bumpF_ecc (s : State) (a : Nat) (f : Fld) (n : Nat) : (s.bumpF a f n).ecc = s.ecc := rfl
@[simp] theorem State.bumpF_blockKey (s : State) (a : Nat) (f : Fld) (n : Nat) : (s.bumpF a f n).blockKey = s.blockKey := rfl
@[simp] theorem State.bumpF_keyGen (s : State) (a : Nat) (f : Fld) (n : Nat) : (s.bumpF a f n).keyGen = s.keyGen := rfl
@[simp] theorem State.bumpF_resp (s : State) (a : Nat) (f : Fld) (n : Nat) : (s.bumpF a f n).resp = s.resp := rfl
@[simp] theorem State.bumpF_pins (s : State) (a : Nat) (f : Fld) (n : Nat) : (s.bumpF a f n).pins = s.pins := rfl
@[simp] theorem State.bumpF_route (s : State) (a : Nat) (f : Fld) (n : Nat) : (s.bumpF a f n).route = s.route := rfl
@[simp] theorem State.bumpF_time (s : State) (a : Nat) (f : Fld) (n : Nat) : (s.bumpF a f n).time = s.time := rfl
@[simp] theorem State.bumpF_lock (s : State) (a : Nat) (f : Fld) (n : Nat) : (s.bumpF a f n).lock = s.lock := rfl
@[simp] theorem State.bumpF_sched (s : State) (a : Nat) (f : Fld) (n : Nat) : (s.bumpF a f n).sched = s.sched := rfl
@[simp] theorem State.bumpF_cores (s : State) (a : Nat) (f : Fld) (n : Nat) : (s.bumpF a f n).cores = s.cores := rfl
@[simp] theorem State.bumpF_claims (s : State) (a : Nat) (f : Fld) (n : Nat) : (s.bumpF a f n).claims = s.claims := rfl
@[simp] theorem State.bumpF_engines (s : State) (a : Nat) (f : Fld) (n : Nat) : (s.bumpF a f n).engines = s.engines := rfl
@[simp] theorem State.bumpF_rings (s : State) (a : Nat) (f : Fld) (n : Nat) : (s.bumpF a f n).rings = s.rings := rfl
@[simp] theorem State.bumpF_chans (s : State) (a : Nat) (f : Fld) (n : Nat) : (s.bumpF a f n).chans = s.chans := rfl
@[simp] theorem State.bumpF_sends (s : State) (a : Nat) (f : Fld) (n : Nat) : (s.bumpF a f n).sends = s.sends := rfl
@[simp] theorem State.bumpF_notes (s : State) (a : Nat) (f : Fld) (n : Nat) : (s.bumpF a f n).notes = s.notes := rfl
@[simp] theorem State.bumpF_notesOut (s : State) (a : Nat) (f : Fld) (n : Nat) : (s.bumpF a f n).notesOut = s.notesOut := rfl
@[simp] theorem State.bumpF_interrupts (s : State) (a : Nat) (f : Fld) (n : Nat) : (s.bumpF a f n).interrupts = s.interrupts := rfl
@[simp] theorem State.bumpF_intake (s : State) (a : Nat) (f : Fld) (n : Nat) : (s.bumpF a f n).intake = s.intake := rfl
@[simp] theorem State.bumpF_datagrams (s : State) (a : Nat) (f : Fld) (n : Nat) : (s.bumpF a f n).datagrams = s.datagrams := rfl
@[simp] theorem State.bumpF_tx (s : State) (a : Nat) (f : Fld) (n : Nat) : (s.bumpF a f n).tx = s.tx := rfl
@[simp] theorem State.bumpF_subs (s : State) (a : Nat) (f : Fld) (n : Nat) : (s.bumpF a f n).subs = s.subs := rfl
@[simp] theorem State.bumpF_caks (s : State) (a : Nat) (f : Fld) (n : Nat) : (s.bumpF a f n).caks = s.caks := rfl
@[simp] theorem State.bumpF_train (s : State) (a : Nat) (f : Fld) (n : Nat) : (s.bumpF a f n).train = s.train := rfl
@[simp] theorem State.bumpF_fleet (s : State) (a : Nat) (f : Fld) (n : Nat) : (s.bumpF a f n).fleet = s.fleet := rfl
@[simp] theorem State.bumpF_boot (s : State) (a : Nat) (f : Fld) (n : Nat) : (s.bumpF a f n).boot = s.boot := rfl
@[simp] theorem State.bumpF_fuses (s : State) (a : Nat) (f : Fld) (n : Nat) : (s.bumpF a f n).fuses = s.fuses := rfl
@[simp] theorem State.bumpF_sec (s : State) (a : Nat) (f : Fld) (n : Nat) : (s.bumpF a f n).sec = s.sec := rfl
@[simp] theorem State.bumpF_power (s : State) (a : Nat) (f : Fld) (n : Nat) : (s.bumpF a f n).power = s.power := rfl
@[simp] theorem State.bumpF_events (s : State) (a : Nat) (f : Fld) (n : Nat) : (s.bumpF a f n).events = s.events := rfl
@[simp] theorem State.bumpF_lastRec (s : State) (a : Nat) (f : Fld) (n : Nat) : (s.bumpF a f n).lastRec = s.lastRec := rfl
@[simp] theorem State.bumpF_fatalNew (s : State) (a : Nat) (f : Fld) (n : Nat) : (s.bumpF a f n).fatalNew = s.fatalNew := rfl
@[simp] theorem State.bumpF_free (s : State) (a : Nat) (f : Fld) (n : Nat) : (s.bumpF a f n).free = s.free := rfl
@[simp] theorem State.bumpF_aqFail (s : State) (a : Nat) (f : Fld) (n : Nat) : (s.bumpF a f n).aqFail = s.aqFail := rfl
@[simp] theorem State.bumpF_remotes (s : State) (a : Nat) (f : Fld) (n : Nat) : (s.bumpF a f n).remotes = s.remotes := rfl
@[simp] theorem State.bumpF_turn (s : State) (a : Nat) (f : Fld) (n : Nat) : (s.bumpF a f n).turn = s.turn := rfl
@[simp] theorem State.bumpF_hbmCache (s : State) (a : Nat) (f : Fld) (n : Nat) : (s.bumpF a f n).hbmCache = s.hbmCache := rfl
@[simp] theorem State.bumpF_net (s : State) (a : Nat) (f : Fld) (n : Nat) : (s.bumpF a f n).net = s.net := rfl

/-! ## What `setCore` leaves alone -/

@[simp] theorem State.setCore_pending (s : State) (c : Nat) (k : Core) : (s.setCore c k).pending = s.pending := rfl
@[simp] theorem State.setCore_regs (s : State) (c : Nat) (k : Core) : (s.setCore c k).regs = s.regs := rfl
@[simp] theorem State.setCore_capture (s : State) (c : Nat) (k : Core) : (s.setCore c k).capture = s.capture := rfl
@[simp] theorem State.setCore_wbuf (s : State) (c : Nat) (k : Core) : (s.setCore c k).wbuf = s.wbuf := rfl
@[simp] theorem State.setCore_mem (s : State) (c : Nat) (k : Core) : (s.setCore c k).mem = s.mem := rfl
@[simp] theorem State.setCore_ecc (s : State) (c : Nat) (k : Core) : (s.setCore c k).ecc = s.ecc := rfl
@[simp] theorem State.setCore_blockKey (s : State) (c : Nat) (k : Core) : (s.setCore c k).blockKey = s.blockKey := rfl
@[simp] theorem State.setCore_keyGen (s : State) (c : Nat) (k : Core) : (s.setCore c k).keyGen = s.keyGen := rfl
@[simp] theorem State.setCore_resp (s : State) (c : Nat) (k : Core) : (s.setCore c k).resp = s.resp := rfl
@[simp] theorem State.setCore_pins (s : State) (c : Nat) (k : Core) : (s.setCore c k).pins = s.pins := rfl
@[simp] theorem State.setCore_route (s : State) (c : Nat) (k : Core) : (s.setCore c k).route = s.route := rfl
@[simp] theorem State.setCore_time (s : State) (c : Nat) (k : Core) : (s.setCore c k).time = s.time := rfl
@[simp] theorem State.setCore_lock (s : State) (c : Nat) (k : Core) : (s.setCore c k).lock = s.lock := rfl
@[simp] theorem State.setCore_sched (s : State) (c : Nat) (k : Core) : (s.setCore c k).sched = s.sched := rfl
@[simp] theorem State.setCore_claims (s : State) (c : Nat) (k : Core) : (s.setCore c k).claims = s.claims := rfl
@[simp] theorem State.setCore_engines (s : State) (c : Nat) (k : Core) : (s.setCore c k).engines = s.engines := rfl
@[simp] theorem State.setCore_rings (s : State) (c : Nat) (k : Core) : (s.setCore c k).rings = s.rings := rfl
@[simp] theorem State.setCore_chans (s : State) (c : Nat) (k : Core) : (s.setCore c k).chans = s.chans := rfl
@[simp] theorem State.setCore_sends (s : State) (c : Nat) (k : Core) : (s.setCore c k).sends = s.sends := rfl
@[simp] theorem State.setCore_notes (s : State) (c : Nat) (k : Core) : (s.setCore c k).notes = s.notes := rfl
@[simp] theorem State.setCore_notesOut (s : State) (c : Nat) (k : Core) : (s.setCore c k).notesOut = s.notesOut := rfl
@[simp] theorem State.setCore_interrupts (s : State) (c : Nat) (k : Core) : (s.setCore c k).interrupts = s.interrupts := rfl
@[simp] theorem State.setCore_intake (s : State) (c : Nat) (k : Core) : (s.setCore c k).intake = s.intake := rfl
@[simp] theorem State.setCore_datagrams (s : State) (c : Nat) (k : Core) : (s.setCore c k).datagrams = s.datagrams := rfl
@[simp] theorem State.setCore_tx (s : State) (c : Nat) (k : Core) : (s.setCore c k).tx = s.tx := rfl
@[simp] theorem State.setCore_subs (s : State) (c : Nat) (k : Core) : (s.setCore c k).subs = s.subs := rfl
@[simp] theorem State.setCore_caks (s : State) (c : Nat) (k : Core) : (s.setCore c k).caks = s.caks := rfl
@[simp] theorem State.setCore_train (s : State) (c : Nat) (k : Core) : (s.setCore c k).train = s.train := rfl
@[simp] theorem State.setCore_fleet (s : State) (c : Nat) (k : Core) : (s.setCore c k).fleet = s.fleet := rfl
@[simp] theorem State.setCore_boot (s : State) (c : Nat) (k : Core) : (s.setCore c k).boot = s.boot := rfl
@[simp] theorem State.setCore_fuses (s : State) (c : Nat) (k : Core) : (s.setCore c k).fuses = s.fuses := rfl
@[simp] theorem State.setCore_sec (s : State) (c : Nat) (k : Core) : (s.setCore c k).sec = s.sec := rfl
@[simp] theorem State.setCore_power (s : State) (c : Nat) (k : Core) : (s.setCore c k).power = s.power := rfl
@[simp] theorem State.setCore_events (s : State) (c : Nat) (k : Core) : (s.setCore c k).events = s.events := rfl
@[simp] theorem State.setCore_lastRec (s : State) (c : Nat) (k : Core) : (s.setCore c k).lastRec = s.lastRec := rfl
@[simp] theorem State.setCore_fatalNew (s : State) (c : Nat) (k : Core) : (s.setCore c k).fatalNew = s.fatalNew := rfl
@[simp] theorem State.setCore_free (s : State) (c : Nat) (k : Core) : (s.setCore c k).free = s.free := rfl
@[simp] theorem State.setCore_aqFail (s : State) (c : Nat) (k : Core) : (s.setCore c k).aqFail = s.aqFail := rfl
@[simp] theorem State.setCore_remotes (s : State) (c : Nat) (k : Core) : (s.setCore c k).remotes = s.remotes := rfl
@[simp] theorem State.setCore_turn (s : State) (c : Nat) (k : Core) : (s.setCore c k).turn = s.turn := rfl
@[simp] theorem State.setCore_hbmCache (s : State) (c : Nat) (k : Core) : (s.setCore c k).hbmCache = s.hbmCache := rfl
@[simp] theorem State.setCore_net (s : State) (c : Nat) (k : Core) : (s.setCore c k).net = s.net := rfl

/-! ## What `setByte` leaves alone -/

@[simp] theorem State.setByte_pending (s : State) (a : Nat) (b : Byte) : (s.setByte a b).pending = s.pending := rfl
@[simp] theorem State.setByte_regs (s : State) (a : Nat) (b : Byte) : (s.setByte a b).regs = s.regs := rfl
@[simp] theorem State.setByte_capture (s : State) (a : Nat) (b : Byte) : (s.setByte a b).capture = s.capture := rfl
@[simp] theorem State.setByte_wbuf (s : State) (a : Nat) (b : Byte) : (s.setByte a b).wbuf = s.wbuf := rfl
@[simp] theorem State.setByte_ecc (s : State) (a : Nat) (b : Byte) : (s.setByte a b).ecc = s.ecc := rfl
@[simp] theorem State.setByte_blockKey (s : State) (a : Nat) (b : Byte) : (s.setByte a b).blockKey = s.blockKey := rfl
@[simp] theorem State.setByte_keyGen (s : State) (a : Nat) (b : Byte) : (s.setByte a b).keyGen = s.keyGen := rfl
@[simp] theorem State.setByte_resp (s : State) (a : Nat) (b : Byte) : (s.setByte a b).resp = s.resp := rfl
@[simp] theorem State.setByte_pins (s : State) (a : Nat) (b : Byte) : (s.setByte a b).pins = s.pins := rfl
@[simp] theorem State.setByte_route (s : State) (a : Nat) (b : Byte) : (s.setByte a b).route = s.route := rfl
@[simp] theorem State.setByte_time (s : State) (a : Nat) (b : Byte) : (s.setByte a b).time = s.time := rfl
@[simp] theorem State.setByte_lock (s : State) (a : Nat) (b : Byte) : (s.setByte a b).lock = s.lock := rfl
@[simp] theorem State.setByte_sched (s : State) (a : Nat) (b : Byte) : (s.setByte a b).sched = s.sched := rfl
@[simp] theorem State.setByte_cores (s : State) (a : Nat) (b : Byte) : (s.setByte a b).cores = s.cores := rfl
@[simp] theorem State.setByte_claims (s : State) (a : Nat) (b : Byte) : (s.setByte a b).claims = s.claims := rfl
@[simp] theorem State.setByte_engines (s : State) (a : Nat) (b : Byte) : (s.setByte a b).engines = s.engines := rfl
@[simp] theorem State.setByte_rings (s : State) (a : Nat) (b : Byte) : (s.setByte a b).rings = s.rings := rfl
@[simp] theorem State.setByte_chans (s : State) (a : Nat) (b : Byte) : (s.setByte a b).chans = s.chans := rfl
@[simp] theorem State.setByte_sends (s : State) (a : Nat) (b : Byte) : (s.setByte a b).sends = s.sends := rfl
@[simp] theorem State.setByte_notes (s : State) (a : Nat) (b : Byte) : (s.setByte a b).notes = s.notes := rfl
@[simp] theorem State.setByte_notesOut (s : State) (a : Nat) (b : Byte) : (s.setByte a b).notesOut = s.notesOut := rfl
@[simp] theorem State.setByte_interrupts (s : State) (a : Nat) (b : Byte) : (s.setByte a b).interrupts = s.interrupts := rfl
@[simp] theorem State.setByte_intake (s : State) (a : Nat) (b : Byte) : (s.setByte a b).intake = s.intake := rfl
@[simp] theorem State.setByte_datagrams (s : State) (a : Nat) (b : Byte) : (s.setByte a b).datagrams = s.datagrams := rfl
@[simp] theorem State.setByte_tx (s : State) (a : Nat) (b : Byte) : (s.setByte a b).tx = s.tx := rfl
@[simp] theorem State.setByte_subs (s : State) (a : Nat) (b : Byte) : (s.setByte a b).subs = s.subs := rfl
@[simp] theorem State.setByte_caks (s : State) (a : Nat) (b : Byte) : (s.setByte a b).caks = s.caks := rfl
@[simp] theorem State.setByte_train (s : State) (a : Nat) (b : Byte) : (s.setByte a b).train = s.train := rfl
@[simp] theorem State.setByte_fleet (s : State) (a : Nat) (b : Byte) : (s.setByte a b).fleet = s.fleet := rfl
@[simp] theorem State.setByte_boot (s : State) (a : Nat) (b : Byte) : (s.setByte a b).boot = s.boot := rfl
@[simp] theorem State.setByte_fuses (s : State) (a : Nat) (b : Byte) : (s.setByte a b).fuses = s.fuses := rfl
@[simp] theorem State.setByte_sec (s : State) (a : Nat) (b : Byte) : (s.setByte a b).sec = s.sec := rfl
@[simp] theorem State.setByte_power (s : State) (a : Nat) (b : Byte) : (s.setByte a b).power = s.power := rfl
@[simp] theorem State.setByte_events (s : State) (a : Nat) (b : Byte) : (s.setByte a b).events = s.events := rfl
@[simp] theorem State.setByte_lastRec (s : State) (a : Nat) (b : Byte) : (s.setByte a b).lastRec = s.lastRec := rfl
@[simp] theorem State.setByte_fatalNew (s : State) (a : Nat) (b : Byte) : (s.setByte a b).fatalNew = s.fatalNew := rfl
@[simp] theorem State.setByte_free (s : State) (a : Nat) (b : Byte) : (s.setByte a b).free = s.free := rfl
@[simp] theorem State.setByte_aqFail (s : State) (a : Nat) (b : Byte) : (s.setByte a b).aqFail = s.aqFail := rfl
@[simp] theorem State.setByte_remotes (s : State) (a : Nat) (b : Byte) : (s.setByte a b).remotes = s.remotes := rfl
@[simp] theorem State.setByte_turn (s : State) (a : Nat) (b : Byte) : (s.setByte a b).turn = s.turn := rfl
@[simp] theorem State.setByte_hbmCache (s : State) (a : Nat) (b : Byte) : (s.setByte a b).hbmCache = s.hbmCache := rfl
@[simp] theorem State.setByte_net (s : State) (a : Nat) (b : Byte) : (s.setByte a b).net = s.net := rfl

/-! ## What `reply` leaves alone -/

@[simp] theorem State.reply_pending (s : State) (st : Nat) (d : List Byte) : (s.reply st d).pending = s.pending := rfl
@[simp] theorem State.reply_regs (s : State) (st : Nat) (d : List Byte) : (s.reply st d).regs = s.regs := rfl
@[simp] theorem State.reply_capture (s : State) (st : Nat) (d : List Byte) : (s.reply st d).capture = s.capture := rfl
@[simp] theorem State.reply_wbuf (s : State) (st : Nat) (d : List Byte) : (s.reply st d).wbuf = s.wbuf := rfl
@[simp] theorem State.reply_mem (s : State) (st : Nat) (d : List Byte) : (s.reply st d).mem = s.mem := rfl
@[simp] theorem State.reply_ecc (s : State) (st : Nat) (d : List Byte) : (s.reply st d).ecc = s.ecc := rfl
@[simp] theorem State.reply_blockKey (s : State) (st : Nat) (d : List Byte) : (s.reply st d).blockKey = s.blockKey := rfl
@[simp] theorem State.reply_keyGen (s : State) (st : Nat) (d : List Byte) : (s.reply st d).keyGen = s.keyGen := rfl
@[simp] theorem State.reply_pins (s : State) (st : Nat) (d : List Byte) : (s.reply st d).pins = s.pins := rfl
@[simp] theorem State.reply_route (s : State) (st : Nat) (d : List Byte) : (s.reply st d).route = s.route := rfl
@[simp] theorem State.reply_time (s : State) (st : Nat) (d : List Byte) : (s.reply st d).time = s.time := rfl
@[simp] theorem State.reply_lock (s : State) (st : Nat) (d : List Byte) : (s.reply st d).lock = s.lock := rfl
@[simp] theorem State.reply_sched (s : State) (st : Nat) (d : List Byte) : (s.reply st d).sched = s.sched := rfl
@[simp] theorem State.reply_cores (s : State) (st : Nat) (d : List Byte) : (s.reply st d).cores = s.cores := rfl
@[simp] theorem State.reply_claims (s : State) (st : Nat) (d : List Byte) : (s.reply st d).claims = s.claims := rfl
@[simp] theorem State.reply_engines (s : State) (st : Nat) (d : List Byte) : (s.reply st d).engines = s.engines := rfl
@[simp] theorem State.reply_rings (s : State) (st : Nat) (d : List Byte) : (s.reply st d).rings = s.rings := rfl
@[simp] theorem State.reply_chans (s : State) (st : Nat) (d : List Byte) : (s.reply st d).chans = s.chans := rfl
@[simp] theorem State.reply_sends (s : State) (st : Nat) (d : List Byte) : (s.reply st d).sends = s.sends := rfl
@[simp] theorem State.reply_notes (s : State) (st : Nat) (d : List Byte) : (s.reply st d).notes = s.notes := rfl
@[simp] theorem State.reply_notesOut (s : State) (st : Nat) (d : List Byte) : (s.reply st d).notesOut = s.notesOut := rfl
@[simp] theorem State.reply_interrupts (s : State) (st : Nat) (d : List Byte) : (s.reply st d).interrupts = s.interrupts := rfl
@[simp] theorem State.reply_intake (s : State) (st : Nat) (d : List Byte) : (s.reply st d).intake = s.intake := rfl
@[simp] theorem State.reply_datagrams (s : State) (st : Nat) (d : List Byte) : (s.reply st d).datagrams = s.datagrams := rfl
@[simp] theorem State.reply_tx (s : State) (st : Nat) (d : List Byte) : (s.reply st d).tx = s.tx := rfl
@[simp] theorem State.reply_subs (s : State) (st : Nat) (d : List Byte) : (s.reply st d).subs = s.subs := rfl
@[simp] theorem State.reply_caks (s : State) (st : Nat) (d : List Byte) : (s.reply st d).caks = s.caks := rfl
@[simp] theorem State.reply_train (s : State) (st : Nat) (d : List Byte) : (s.reply st d).train = s.train := rfl
@[simp] theorem State.reply_fleet (s : State) (st : Nat) (d : List Byte) : (s.reply st d).fleet = s.fleet := rfl
@[simp] theorem State.reply_boot (s : State) (st : Nat) (d : List Byte) : (s.reply st d).boot = s.boot := rfl
@[simp] theorem State.reply_fuses (s : State) (st : Nat) (d : List Byte) : (s.reply st d).fuses = s.fuses := rfl
@[simp] theorem State.reply_sec (s : State) (st : Nat) (d : List Byte) : (s.reply st d).sec = s.sec := rfl
@[simp] theorem State.reply_power (s : State) (st : Nat) (d : List Byte) : (s.reply st d).power = s.power := rfl
@[simp] theorem State.reply_events (s : State) (st : Nat) (d : List Byte) : (s.reply st d).events = s.events := rfl
@[simp] theorem State.reply_lastRec (s : State) (st : Nat) (d : List Byte) : (s.reply st d).lastRec = s.lastRec := rfl
@[simp] theorem State.reply_fatalNew (s : State) (st : Nat) (d : List Byte) : (s.reply st d).fatalNew = s.fatalNew := rfl
@[simp] theorem State.reply_free (s : State) (st : Nat) (d : List Byte) : (s.reply st d).free = s.free := rfl
@[simp] theorem State.reply_aqFail (s : State) (st : Nat) (d : List Byte) : (s.reply st d).aqFail = s.aqFail := rfl
@[simp] theorem State.reply_remotes (s : State) (st : Nat) (d : List Byte) : (s.reply st d).remotes = s.remotes := rfl
@[simp] theorem State.reply_turn (s : State) (st : Nat) (d : List Byte) : (s.reply st d).turn = s.turn := rfl
@[simp] theorem State.reply_hbmCache (s : State) (st : Nat) (d : List Byte) : (s.reply st d).hbmCache = s.hbmCache := rfl
@[simp] theorem State.reply_net (s : State) (st : Nat) (d : List Byte) : (s.reply st d).net = s.net := rfl

/-! ## Registers -/

/-- A register reads back the low 32 bits of what was written to it. -/
@[simp] theorem State.rd_wr_same (s : State) (a v : Nat) : (s.wr a v).rd a = v % 2 ^ 32 := by
  simp [State.rd, State.wr]

/-- A register reads as before after a write of another. -/
theorem State.rd_wr_other (s : State) {a b : Nat} (v : Nat) (h : b ≠ a) : (s.wr a v).rd b = s.rd b := by
  simp only [State.rd, State.wr, spGet_put_other 0#32 s.regs _ h]

/-- A register's word is of 32 bits. -/
theorem State.rd_lt (s : State) (a : Nat) : s.rd a < 2 ^ 32 := (spGet 0#32 s.regs a).isLt

/-! ## Fields -/

/-- The bits above a field, the field, the bits below it. -/
theorem natPut_parts (lo w x v : Nat) : natPut lo w x v = (x / 2 ^ (lo + w) * 2 ^ w + v % 2 ^ w) * 2 ^ lo + x % 2 ^ lo := by
  unfold natPut natBits
  rw [Nat.pow_add]
  have h1 := Nat.div_add_mod x (2 ^ lo)
  have h2 := Nat.div_add_mod (x / 2 ^ lo) (2 ^ w)
  rw [Nat.div_div_eq_div_mul] at h2
  have h3 : x - x / 2 ^ lo % 2 ^ w * 2 ^ lo = x / (2 ^ lo * 2 ^ w) * 2 ^ w * 2 ^ lo + x % 2 ^ lo := by
    have : x / 2 ^ lo * 2 ^ lo = (2 ^ w * (x / (2 ^ lo * 2 ^ w)) + x / 2 ^ lo % 2 ^ w) * 2 ^ lo := by rw [h2]
    rw [Nat.add_mul, Nat.mul_comm (2 ^ w)] at this
    rw [Nat.mul_comm] at h1
    omega
  rw [h3, Nat.add_mul]
  omega

theorem natBits_natPut_same (lo w x v : Nat) : natBits lo w (natPut lo w x v) = v % 2 ^ w := by
  rw [natPut_parts, natBits, Nat.mul_comm _ (2 ^ lo), Nat.mul_add_div (Nat.two_pow_pos lo), Nat.div_eq_of_lt (Nat.mod_lt _ (Nat.two_pow_pos lo)),
    Nat.add_zero, Nat.mul_comm, Nat.mul_add_mod, Nat.mod_mod]

theorem natPut_lt {n lo w x : Nat} (v : Nat) (h : lo + w ≤ n) (hx : x < 2 ^ n) : natPut lo w x v < 2 ^ n := by
  rw [natPut_parts]
  have hn : 2 ^ n = 2 ^ (n - (lo + w)) * 2 ^ w * 2 ^ lo := by rw [← Nat.pow_add, ← Nat.pow_add]; congr 1; omega
  have h1 : x / 2 ^ (lo + w) < 2 ^ (n - (lo + w)) := by
    rw [Nat.div_lt_iff_lt_mul (Nat.two_pow_pos _), ← Nat.pow_add, show n - (lo + w) + (lo + w) = n by omega]; exact hx
  have h2 := Nat.mod_lt v (Nat.two_pow_pos w)
  have h3 := Nat.mod_lt x (Nat.two_pow_pos lo)
  have h4 : x / 2 ^ (lo + w) * 2 ^ w + v % 2 ^ w + 1 ≤ 2 ^ (n - (lo + w)) * 2 ^ w := by
    calc _ ≤ (x / 2 ^ (lo + w) + 1) * 2 ^ w := by rw [Nat.add_mul]; omega
      _ ≤ _ := Nat.mul_le_mul_right _ h1
  have h5 : (x / 2 ^ (lo + w) * 2 ^ w + v % 2 ^ w + 1) * 2 ^ lo ≤ 2 ^ (n - (lo + w)) * 2 ^ w * 2 ^ lo := Nat.mul_le_mul_right _ h4
  rw [hn]
  rw [Nat.add_mul] at h5
  omega

theorem natBits_natPut_other {lo w lo' w' : Nat} (x v : Nat) (h : lo' + w' ≤ lo ∨ lo + w ≤ lo') :
    natBits lo' w' (natPut lo w x v) = natBits lo' w' x := by
  rw [natPut_parts]
  unfold natBits
  rcases h with h | h
  · obtain ⟨k, rfl⟩ := Nat.exists_eq_add_of_le h
    have he : ∀ q : Nat, q * 2 ^ (lo' + w' + k) = 2 ^ lo' * (2 ^ w' * (q * 2 ^ k)) := by intro q; rw [Nat.pow_add, Nat.pow_add]; ring
    rw [he, Nat.mul_add_div (Nat.two_pow_pos lo'), Nat.mul_add_mod]
    rw [show 2 ^ (lo' + w' + k) = 2 ^ lo' * (2 ^ w' * 2 ^ k) by rw [Nat.pow_add, Nat.pow_add]; ring, Nat.mod_mul_right_div_self,
      Nat.mod_mul_right_mod]
  · obtain ⟨k, rfl⟩ := Nat.exists_eq_add_of_le h
    have hb : (x / 2 ^ (lo + w) * 2 ^ w + v % 2 ^ w) * 2 ^ lo + x % 2 ^ lo
        = 2 ^ (lo + w) * (x / 2 ^ (lo + w)) + (v % 2 ^ w * 2 ^ lo + x % 2 ^ lo) := by rw [Nat.pow_add]; ring
    have hl : v % 2 ^ w * 2 ^ lo + x % 2 ^ lo < 2 ^ (lo + w) := by
      have h2 := Nat.mod_lt v (Nat.two_pow_pos w)
      have h3 := Nat.mod_lt x (Nat.two_pow_pos lo)
      calc _ < v % 2 ^ w * 2 ^ lo + 2 ^ lo := by omega
        _ = (v % 2 ^ w + 1) * 2 ^ lo := by rw [Nat.add_mul, Nat.one_mul]
        _ ≤ 2 ^ w * 2 ^ lo := Nat.mul_le_mul_right _ h2
        _ = 2 ^ (lo + w) := by rw [Nat.pow_add, Nat.mul_comm]
    rw [hb, Nat.pow_add 2 (lo + w) k, ← Nat.div_div_eq_div_mul, Nat.mul_add_div (Nat.two_pow_pos _), Nat.div_eq_of_lt hl, Nat.add_zero,
      Nat.div_div_eq_div_mul]

/-- A field reads back the low bits of what was written to it. -/
theorem State.rf_wf_same (s : State) (a : Nat) (f : Fld) (v : Nat) (h : f.lo + f.width ≤ 32) : (s.wf a f v).rf a f = v % 2 ^ f.width := by
  rw [State.rf, State.wf, State.rd_wr_same, Nat.mod_eq_of_lt (natPut_lt v h (s.rd_lt a)), natBits_natPut_same]

/-- A field reads as before after a write of another field of its register. -/
theorem State.rf_wf_disjoint (s : State) (a : Nat) (f g : Fld) (v : Nat) (hf : f.lo + f.width ≤ 32)
    (h : g.lo + g.width ≤ f.lo ∨ f.lo + f.width ≤ g.lo) : (s.wf a f v).rf a g = s.rf a g := by
  rw [State.rf, State.wf, State.rd_wr_same, Nat.mod_eq_of_lt (natPut_lt v hf (s.rd_lt a)), natBits_natPut_other _ _ h, State.rf]

/-- A field reads as before after a write of another register. -/
theorem State.rf_wr_other (s : State) {a b : Nat} (g : Fld) (v : Nat) (h : b ≠ a) : (s.wr a v).rf b g = s.rf b g := by
  rw [State.rf, State.rd_wr_other s v h, State.rf]

theorem State.rf_wf_other (s : State) {a b : Nat} (f g : Fld) (v : Nat) (h : b ≠ a) : (s.wf a f v).rf b g = s.rf b g :=
  State.rf_wr_other s g _ h

/-! ## Cores -/

@[simp] theorem State.core_setCore_same (s : State) (c : Nat) (k : Core) : (s.setCore c k).core c = k := by
  simp [State.core, State.setCore]

theorem State.core_setCore_other (s : State) {c d : Nat} (k : Core) (h : d ≠ c) : (s.setCore c k).core d = s.core d := by
  simp only [State.core, State.setCore, spGet_put_other Core.initial s.cores _ h]

/-! ## Bytes of memory -/

@[simp] theorem State.byte_setByte_same (s : State) (a : Nat) (b : Byte) : (s.setByte a b).byte a = b := by
  simp [State.byte, State.setByte]

theorem State.byte_setByte_other (s : State) {a x : Nat} (b : Byte) (h : x ≠ a) : (s.setByte a b).byte x = s.byte x := by
  simp only [State.byte, State.setByte, spGet_put_other 0#8 s.mem _ h]

/-- Bytes outside the stored range read as before. -/
theorem State.byte_setBytes_outside (s : State) (a : Nat) (bs : List Byte) (x : Nat) (h : x < a ∨ a + bs.length ≤ x) :
    (s.setBytes a bs).byte x = s.byte x := by
  induction bs generalizing s a with
  | nil => rfl
  | cons b t ih =>
    simp only [List.length_cons] at h
    rw [State.setBytes, ih _ _ (by omega), State.byte_setByte_other _ _ (by omega)]

/-- Bytes inside the stored range read what was stored. -/
theorem State.byte_setBytes_inside (s : State) (a : Nat) (bs : List Byte) (i : Nat) (h : i < bs.length) :
    (s.setBytes a bs).byte (a + i) = bs[i] := by
  induction bs generalizing s a i with
  | nil => simp at h
  | cons b t ih =>
    rw [State.setBytes]
    cases i with
    | zero => rw [State.byte_setBytes_outside _ _ _ _ (by omega)]; simp
    | succ j => rw [show a + (j + 1) = a + 1 + j by omega, ih _ _ _ (by simpa using h)]; rfl

/-- `n` bytes from an address, one by one. -/
theorem State.bytes_length (s : State) (a n : Nat) : (s.bytes a n).length = n := by
  induction n generalizing a with
  | zero => rfl
  | succ n ih => simp [State.bytes, ih]

theorem State.bytes_getElem (s : State) (a n i : Nat) (h : i < (s.bytes a n).length) : (s.bytes a n)[i] = s.byte (a + i) := by
  induction n generalizing a i with
  | zero => simp [State.bytes] at h
  | succ n ih =>
    cases i with
    | zero => rfl
    | succ j => simp only [State.bytes, List.getElem_cons_succ]; rw [ih]; congr 1; omega

/-- Stored bytes read back. -/
theorem State.bytes_setBytes_same (s : State) (a : Nat) (bs : List Byte) : (s.setBytes a bs).bytes a bs.length = bs := by
  apply List.ext_getElem (State.bytes_length _ _ _)
  intro i h1 h2
  rw [State.bytes_getElem, State.byte_setBytes_inside _ _ _ _ h2]

/-- Storing bytes changes memory alone. -/
theorem State.setBytes_eq (s : State) (a : Nat) (bs : List Byte) : s.setBytes a bs = { s with mem := (s.setBytes a bs).mem } := by
  induction bs generalizing s a with
  | nil => rfl
  | cons b t ih => rw [State.setBytes, ih]; rfl

/-! ## Numbers and bytes -/

@[simp] theorem toBytes_length (n x : Nat) : (toBytes n x).length = n := by
  induction n generalizing x with
  | zero => rfl
  | succ n ih => simp [toBytes, ih]

/-- Little-endian bytes spell the number again. -/
theorem ofBytes_toBytes (n x : Nat) : ofBytes (toBytes n x) = x % 2 ^ (8 * n) := by
  induction n generalizing x with
  | zero => simp [toBytes, ofBytes, Nat.mod_one]
  | succ n ih =>
    rw [toBytes, ofBytes, ih, BitVec.toNat_ofNat, show 8 * (n + 1) = 8 + 8 * n by omega, Nat.pow_add]
    exact (Nat.mod_mul).symm

end Sys2Proof.Machine
end

