-- ==== Sys2Proof/Laws/Access.lean ====
section
/-! SUPPORT. An access that passes its checks: what the checks leave alone, where the registers of each block lie, and a write of a register by its command. -/

namespace Sys2Proof.Machine

/-- A check that passes changes nothing. -/
theorem checkLocal_ok {s : State} {m : Ident} {a n : Nat} {w : Bool} (h : (s.checkLocal m a n w).1 = stOK) : s.checkLocal m a n w = (stOK, s) := by
  unfold State.checkLocal at *
  dsimp only at *
  split
  · rename_i h1; simp only [h1, if_true] at h; exact absurd h (by simp [stOK, stBOUNDS_FAULT])
  · rename_i h1; rw [if_neg h1] at h
    split
    · rename_i h2; rw [if_pos h2] at h; exact absurd h (by simp [stOK, stBOUNDS_FAULT])
    · rename_i h2; rw [if_neg h2] at h
      split
      · rename_i h3; rw [if_pos h3] at h; exact absurd h (by simp [stOK, stBOUNDS_FAULT])
      · rename_i h3; rw [if_neg h3] at h
        split
        · rename_i h4; rw [if_pos h4] at h; exact absurd h (by simp [stOK, stBOUNDS_FAULT])
        · rename_i h4; rw [if_neg h4] at h
          split
          · rename_i h5; rw [if_pos h5] at h; exact absurd h (by simp [stOK, stTARGET_RESET])
          · rename_i h5; rw [if_neg h5] at h
            split
            · rename_i h6; rw [if_pos h6] at h; exact absurd h (by simp [stOK, stBUS_FAULT])
            · rfl

/-- A local address names this device (R16). -/
theorem resolve_local (s : State) {a : Nat} (h : a < 2 ^ 48) : s.resolve a = some (s.devId, a) := by
  unfold State.resolve
  have h1 : natBit 63 a = false := by
    unfold natBit; rw [Nat.div_eq_of_lt (Nat.lt_of_lt_of_le h (Nat.pow_le_pow_right (by decide) (by decide)))]; rfl
  have h2 : natBit 62 a = false := by
    unfold natBit; rw [Nat.div_eq_of_lt (Nat.lt_of_lt_of_le h (Nat.pow_le_pow_right (by decide) (by decide)))]; rfl
  rw [h1, h2, if_neg (by decide), if_neg (by decide), if_pos h]

/-- A register write past its checks, by offset: the register's own effect, and OK to the sender; a mailbox message is answered later. -/
theorem regWr_ok {s : State} {m : Ident} {a v o : Nat} {b : Blk} (ha : a % 4 = 0) (hp : (s.checkLocal m a 4 true).1 = stOK)
    (hi : s.integDenied m b o v = false) (hm : ∀ x, b = .mb x → o ≠ 0x10) : s.regWr m b o a 4 v = (some stOK, s.regWrite m b o v) := by
  unfold State.regWr
  rw [checkLocal_ok hp]
  simp only [ha, ne_eq, not_true_eq_false, or_self, if_false, hi, Bool.false_eq_true]
  split
  · rename_i x; rw [if_neg (hm x rfl)]
  · rfl

/-- With none of a master's messages on their way to the die, its access there waits for nothing (R43). -/
theorem flushSends_none {s : State} {m : Ident} {a : Nat} (h : s.sendsTo m a = []) : s.flushSends m a = s := by
  rw [State.flushSends, h]; rfl

/-- A write of one register of this device past its checks. -/
theorem put32_reg {s : State} {m : Ident} {a v o : Nat} {b : Blk} (hl : a < 2 ^ 48) (ht : target a = .reg b o) (hb : b ≠ .doorbell)
    (ha : a % 4 = 0) (hp : (s.checkLocal m a 4 true).1 = stOK) (hi : s.integDenied m b o (v % 2 ^ 32) = false)
    (hm : ∀ x, b = .mb x → o ≠ 0x10) (hf : s.sendsTo m a = []) : s.put32 m a v = (s.regWrite m b o (v % 2 ^ 32)).reply stOK [] := by
  rw [State.put32, State.busWrite, resolve_local s hl]
  simp only [ne_eq, not_true_eq_false, if_false]
  have : s.localWr m a (toBytes 4 v) = (some stOK, s.regWrite m b o (v % 2 ^ 32)) := by
    unfold State.localWr
    rw [flushSends_none hf]
    dsimp only
    rw [ht, ofBytes_toBytes, toBytes_length]
    cases b <;> first | exact absurd rfl hb | exact regWr_ok ha hp hi hm
  rw [this]

/-! ## Where registers lie (R52) -/

theorem within?_some {base size a : Nat} (h : base ≤ a ∧ a < base + size) : within? base size a = some (a - base) := if_pos h

theorem within?_none {base size a : Nat} (h : ¬(base ≤ a ∧ a < base + size)) : within? base size a = none := if_neg h

theorem target_reg {a : Nat} (h : 0x8000000000 ≤ a) : target a = regBlock a := by
  rw [target, if_neg (by omega), within?_none (by simp only [hbmBase]; omega), within?_none (by simp only [ksramBase]; omega),
    within?_none (by simp only [mramBase]; omega)]
  simp only [h, if_true]

theorem target_kp {o : Nat} (h : o < 0x10000) : target (kpBase + o) = .reg .kp o := by
  rw [target_reg (by simp only [kpBase]; omega), regBlock,
    within?_some (by simp only [kpBase]; omega)]
  simp only [Nat.add_sub_cancel_left]

theorem target_tm {o : Nat} (h : o < 0x10000) : target (tmBase + o) = .reg .tm o := by
  rw [target_reg (by simp only [tmBase]; omega), regBlock,
    within?_none (by simp only [tmBase, kpBase]; omega),
    within?_some (by simp only [tmBase]; omega)]
  simp only [Nat.add_sub_cancel_left]

theorem target_pw {o : Nat} (h : o < 0x10000) : target (pwBase + o) = .reg .pw o := by
  rw [target_reg (by simp only [pwBase]; omega), regBlock,
    within?_none (by simp only [pwBase, kpBase]; omega),
    within?_none (by simp only [pwBase, tmBase]; omega),
    within?_some (by simp only [pwBase]; omega)]
  simp only [Nat.add_sub_cancel_left]

theorem target_ev {o : Nat} (h : o < 0x10000) : target (evBase + o) = .reg .ev o := by
  rw [target_reg (by simp only [evBase]; omega), regBlock,
    within?_none (by simp only [evBase, kpBase]; omega),
    within?_none (by simp only [evBase, tmBase]; omega),
    within?_none (by simp only [evBase, pwBase]; omega),
    within?_some (by simp only [evBase]; omega)]
  simp only [Nat.add_sub_cancel_left]

theorem target_co {c o : Nat} (hc : c < 1024) (h : o < 0x10000) : target (coBase c + o) = .reg (.co c) o := by
  rw [target_reg (by simp only [coBase]; omega), regBlock,
    within?_none (by simp only [coBase, kpBase]; omega),
    within?_none (by simp only [coBase, tmBase]; omega),
    within?_none (by simp only [coBase, pwBase]; omega),
    within?_none (by simp only [coBase, evBase]; omega),
    within?_none (by simp only [coBase, doorbellBase]; omega),
    within?_none (by simp only [coBase, cdBase]; omega),
    within?_some (by simp only [coBase]; omega)]
  simp only [coBase, Target.reg.injEq, Blk.co.injEq]
  omega

theorem target_hm {n o : Nat} (hn : n < 8) (h : o < 0x10000) : target (hmBase n + o) = .reg (.hm n) o := by
  rw [target_reg (by simp only [hmBase]; omega), regBlock,
    within?_none (by simp only [hmBase, kpBase]; omega),
    within?_none (by simp only [hmBase, tmBase]; omega),
    within?_none (by simp only [hmBase, pwBase]; omega),
    within?_none (by simp only [hmBase, evBase]; omega),
    within?_none (by simp only [hmBase, doorbellBase]; omega),
    within?_none (by simp only [hmBase, cdBase]; omega),
    within?_none (by simp only [hmBase, coBase]; omega),
    within?_none (by simp only [hmBase, whBase]; omega),
    within?_some (by simp only [hmBase]; omega)]
  simp only [hmBase, Target.reg.injEq, Blk.hm.injEq]
  omega

theorem target_lk {p o : Nat} (hp : p < 16) (h : o < 0x10000) : target (lkBase p + o) = .reg (.lk p) o := by
  rw [target_reg (by simp only [lkBase]; omega), regBlock,
    within?_none (by simp only [lkBase, kpBase]; omega),
    within?_none (by simp only [lkBase, tmBase]; omega),
    within?_none (by simp only [lkBase, pwBase]; omega),
    within?_none (by simp only [lkBase, evBase]; omega),
    within?_none (by simp only [lkBase, doorbellBase]; omega),
    within?_none (by simp only [lkBase, cdBase]; omega),
    within?_none (by simp only [lkBase, coBase]; omega),
    within?_none (by simp only [lkBase, whBase]; omega),
    within?_none (by simp only [lkBase, hmBase]; omega),
    within?_some (by simp only [lkBase]; omega)]
  simp only [lkBase, Target.reg.injEq, Blk.lk.injEq]
  omega

theorem target_mb {x o : Nat} (hx : x < 4096) (h : o < 0x400) : target (mbBase x + o) = .reg (.mb x) o := by
  rw [target_reg (by simp only [mbBase]; omega), regBlock,
    within?_none (by simp only [mbBase, kpBase]; omega),
    within?_none (by simp only [mbBase, tmBase]; omega),
    within?_none (by simp only [mbBase, pwBase]; omega),
    within?_none (by simp only [mbBase, evBase]; omega),
    within?_none (by simp only [mbBase, doorbellBase]; omega),
    within?_none (by simp only [mbBase, cdBase]; omega),
    within?_none (by simp only [mbBase, coBase]; omega),
    within?_none (by simp only [mbBase, whBase]; omega),
    within?_none (by simp only [mbBase, hmBase]; omega),
    within?_none (by simp only [mbBase, lkBase]; omega),
    within?_none (by simp only [mbBase]; omega),
    within?_none (by simp only [mbBase]; omega),
    within?_some (by simp only [mbBase]; omega)]
  simp only [mbBase, Target.reg.injEq, Blk.mb.injEq]
  omega

theorem target_dm {e o : Nat} (hx : e < 2176) (h : o < 0x800) : target (dmBase e + o) = .reg (.dm e) o := by
  by_cases he : e < 2048
  · rw [target_reg (by simp only [dmBase, he, if_true]; omega), regBlock,
      within?_none (by simp only [dmBase, he, if_true, kpBase]; omega),
      within?_none (by simp only [dmBase, he, if_true, tmBase]; omega),
      within?_none (by simp only [dmBase, he, if_true, pwBase]; omega),
      within?_none (by simp only [dmBase, he, if_true, evBase]; omega),
      within?_none (by simp only [dmBase, he, if_true, doorbellBase]; omega),
      within?_none (by simp only [dmBase, he, if_true, cdBase]; omega),
      within?_none (by simp only [dmBase, he, if_true, coBase]; omega),
      within?_none (by simp only [dmBase, he, if_true, whBase]; omega),
      within?_none (by simp only [dmBase, he, if_true, hmBase]; omega),
      within?_none (by simp only [dmBase, he, if_true, lkBase]; omega),
      within?_some (by simp only [dmBase, he, if_true]; omega)]
    simp only [dmBase, he, if_true, Target.reg.injEq, Blk.dm.injEq]
    omega
  · rw [target_reg (by simp only [dmBase, he, if_false]; omega), regBlock,
      within?_none (by simp only [dmBase, he, if_false, kpBase]; omega),
      within?_none (by simp only [dmBase, he, if_false, tmBase]; omega),
      within?_none (by simp only [dmBase, he, if_false, pwBase]; omega),
      within?_none (by simp only [dmBase, he, if_false, evBase]; omega),
      within?_none (by simp only [dmBase, he, if_false, doorbellBase]; omega),
      within?_none (by simp only [dmBase, he, if_false, cdBase]; omega),
      within?_none (by simp only [dmBase, he, if_false, coBase]; omega),
      within?_none (by simp only [dmBase, he, if_false, whBase]; omega),
      within?_none (by simp only [dmBase, he, if_false, hmBase]; omega),
      within?_none (by simp only [dmBase, he, if_false, lkBase]; omega),
      within?_none (by simp only [dmBase, he, if_false]; omega), within?_some (by simp only [dmBase, he, if_false]; omega)]
    simp only [dmBase, he, if_false]
    rw [if_pos (by omega)]
    simp only [Target.reg.injEq, Blk.dm.injEq]
    omega

end Sys2Proof.Machine
end

