-- ==== Sys2Proof/Laws/Keeps.lean ====
section
/-! SUPPORT. What every operation and every command keeps: the queue behind it, the canonical form of the sparse maps, and the
one-way state of the fuses (R420, R429, R454, R455). The lemmas about each definition stand in the files Keeps… beside this one. -/

namespace Sys2Proof.Machine

/-- `t` keeps what every command keeps of `s`: the queue, canonical maps, rollback counters, revocations and fused rows that only
grow, and the count of free values drawn. -/
structure Keeps (s t : State) : Prop where
  pending : t.pending = s.pending
  canon : s.canonical → t.canonical
  rollback : s.fuses.rollback ≤ t.fuses.rollback
  revoked : ∀ i, s.fuses.revoked.testBit i = true → t.fuses.revoked.testBit i = true
  fused : s.fuses.fused <+: t.fuses.fused
  free : s.free ≤ t.free

variable {s0 s t : State}

theorem keeps_refl (s : State) : Keeps s s := ⟨rfl, id, Nat.le_refl _, fun _ h => h, List.prefix_rfl, Nat.le_refl _⟩

/-- A state that differs from another only in fields outside the canonical maps, the fuses, the queue and the counter of free values. -/
theorem keeps_other {v0 v1 v2 v3 v4 v5 v6 v7 v8 v9 v10 v11 v12 v13 v14 v15 v16 v17 v18 v19 v20 v21 v22 v23 v24} (h : Keeps s0 s) :
    Keeps s0 { s with wbuf := v0, keyGen := v1, resp := v2, pins := v3, route := v4, time := v5, lock := v6, sched := v7, sends := v8, notesOut := v9, interrupts := v10, datagrams := v11, tx := v12, train := v13, fleet := v14, boot := v15, sec := v16, power := v17, events := v18, fatalNew := v19, turn := v20, aqFail := v21, remotes := v22, net := v23, hbmCache := v24 } :=
  ⟨h.pending, h.canon, h.rollback, h.revoked, h.fused, h.free⟩

theorem keeps_regs {m} (h : Keeps s0 s) (hm : spWf 0#32 s.regs = true → spWf 0#32 m = true) : Keeps s0 { s with regs := m } :=
  ⟨h.pending, fun w => by
    obtain ⟨w0, w1, w2, w3, w4, w5, w6, w7, w8, w9, w10, w11, w12, w13, w14⟩ := h.canon w
    exact ⟨hm w0, w1, w2, w3, w4, w5, w6, w7, w8, w9, w10, w11, w12, w13, w14⟩, h.rollback, h.revoked, h.fused, h.free⟩

theorem keeps_capture {m} (h : Keeps s0 s) (hm : spWf 0#32 s.capture = true → spWf 0#32 m = true) : Keeps s0 { s with capture := m } :=
  ⟨h.pending, fun w => by
    obtain ⟨w0, w1, w2, w3, w4, w5, w6, w7, w8, w9, w10, w11, w12, w13, w14⟩ := h.canon w
    exact ⟨w0, hm w1, w2, w3, w4, w5, w6, w7, w8, w9, w10, w11, w12, w13, w14⟩, h.rollback, h.revoked, h.fused, h.free⟩

theorem keeps_mem {m} (h : Keeps s0 s) (hm : Memory.wf s.mem = true → Memory.wf m = true) : Keeps s0 { s with mem := m } :=
  ⟨h.pending, fun w => by
    obtain ⟨w0, w1, w2, w3, w4, w5, w6, w7, w8, w9, w10, w11, w12, w13, w14⟩ := h.canon w
    exact ⟨w0, w1, hm w2, w3, w4, w5, w6, w7, w8, w9, w10, w11, w12, w13, w14⟩, h.rollback, h.revoked, h.fused, h.free⟩

theorem keeps_ecc {m} (h : Keeps s0 s) (hm : spWf 0 s.ecc = true → spWf 0 m = true) : Keeps s0 { s with ecc := m } :=
  ⟨h.pending, fun w => by
    obtain ⟨w0, w1, w2, w3, w4, w5, w6, w7, w8, w9, w10, w11, w12, w13, w14⟩ := h.canon w
    exact ⟨w0, w1, w2, hm w3, w4, w5, w6, w7, w8, w9, w10, w11, w12, w13, w14⟩, h.rollback, h.revoked, h.fused, h.free⟩

theorem keeps_blockKey {m} (h : Keeps s0 s) (hm : spWf 0 s.blockKey = true → spWf 0 m = true) : Keeps s0 { s with blockKey := m } :=
  ⟨h.pending, fun w => by
    obtain ⟨w0, w1, w2, w3, w4, w5, w6, w7, w8, w9, w10, w11, w12, w13, w14⟩ := h.canon w
    exact ⟨w0, w1, w2, w3, hm w4, w5, w6, w7, w8, w9, w10, w11, w12, w13, w14⟩, h.rollback, h.revoked, h.fused, h.free⟩

theorem keeps_cores {m} (h : Keeps s0 s) (hm : spWf Core.initial s.cores = true → spWf Core.initial m = true) : Keeps s0 { s with cores := m } :=
  ⟨h.pending, fun w => by
    obtain ⟨w0, w1, w2, w3, w4, w5, w6, w7, w8, w9, w10, w11, w12, w13, w14⟩ := h.canon w
    exact ⟨w0, w1, w2, w3, w4, hm w5, w6, w7, w8, w9, w10, w11, w12, w13, w14⟩, h.rollback, h.revoked, h.fused, h.free⟩

theorem keeps_claims {m} (h : Keeps s0 s) (hm : spWf (⟨[], [], []⟩ : Claim) s.claims = true → spWf (⟨[], [], []⟩ : Claim) m = true) : Keeps s0 { s with claims := m } :=
  ⟨h.pending, fun w => by
    obtain ⟨w0, w1, w2, w3, w4, w5, w6, w7, w8, w9, w10, w11, w12, w13, w14⟩ := h.canon w
    exact ⟨w0, w1, w2, w3, w4, w5, hm w6, w7, w8, w9, w10, w11, w12, w13, w14⟩, h.rollback, h.revoked, h.fused, h.free⟩

theorem keeps_engines {m} (h : Keeps s0 s) (hm : spWf Engine.initial s.engines = true → spWf Engine.initial m = true) : Keeps s0 { s with engines := m } :=
  ⟨h.pending, fun w => by
    obtain ⟨w0, w1, w2, w3, w4, w5, w6, w7, w8, w9, w10, w11, w12, w13, w14⟩ := h.canon w
    exact ⟨w0, w1, w2, w3, w4, w5, w6, hm w7, w8, w9, w10, w11, w12, w13, w14⟩, h.rollback, h.revoked, h.fused, h.free⟩

theorem keeps_rings {m} (h : Keeps s0 s) (hm : spWf [] s.rings = true → spWf [] m = true) : Keeps s0 { s with rings := m } :=
  ⟨h.pending, fun w => by
    obtain ⟨w0, w1, w2, w3, w4, w5, w6, w7, w8, w9, w10, w11, w12, w13, w14⟩ := h.canon w
    exact ⟨w0, w1, w2, w3, w4, w5, w6, w7, hm w8, w9, w10, w11, w12, w13, w14⟩, h.rollback, h.revoked, h.fused, h.free⟩

theorem keeps_chans {m} (h : Keeps s0 s) (hm : spWf (⟨0#128⟩ : Chan) s.chans = true → spWf (⟨0#128⟩ : Chan) m = true) : Keeps s0 { s with chans := m } :=
  ⟨h.pending, fun w => by
    obtain ⟨w0, w1, w2, w3, w4, w5, w6, w7, w8, w9, w10, w11, w12, w13, w14⟩ := h.canon w
    exact ⟨w0, w1, w2, w3, w4, w5, w6, w7, w8, hm w9, w10, w11, w12, w13, w14⟩, h.rollback, h.revoked, h.fused, h.free⟩

theorem keeps_notes {m} (h : Keeps s0 s) (hm : spWf [] s.notes = true → spWf [] m = true) : Keeps s0 { s with notes := m } :=
  ⟨h.pending, fun w => by
    obtain ⟨w0, w1, w2, w3, w4, w5, w6, w7, w8, w9, w10, w11, w12, w13, w14⟩ := h.canon w
    exact ⟨w0, w1, w2, w3, w4, w5, w6, w7, w8, w9, hm w10, w11, w12, w13, w14⟩, h.rollback, h.revoked, h.fused, h.free⟩

theorem keeps_intake {m} (h : Keeps s0 s) (hm : spWf Intake.initial s.intake = true → spWf Intake.initial m = true) : Keeps s0 { s with intake := m } :=
  ⟨h.pending, fun w => by
    obtain ⟨w0, w1, w2, w3, w4, w5, w6, w7, w8, w9, w10, w11, w12, w13, w14⟩ := h.canon w
    exact ⟨w0, w1, w2, w3, w4, w5, w6, w7, w8, w9, w10, hm w11, w12, w13, w14⟩, h.rollback, h.revoked, h.fused, h.free⟩

theorem keeps_subs {m} (h : Keeps s0 s) (hm : spWf Sub.initial s.subs = true → spWf Sub.initial m = true) : Keeps s0 { s with subs := m } :=
  ⟨h.pending, fun w => by
    obtain ⟨w0, w1, w2, w3, w4, w5, w6, w7, w8, w9, w10, w11, w12, w13, w14⟩ := h.canon w
    exact ⟨w0, w1, w2, w3, w4, w5, w6, w7, w8, w9, w10, w11, hm w12, w13, w14⟩, h.rollback, h.revoked, h.fused, h.free⟩

theorem keeps_caks {m} (h : Keeps s0 s) (hm : spWf 0#256 s.caks = true → spWf 0#256 m = true) : Keeps s0 { s with caks := m } :=
  ⟨h.pending, fun w => by
    obtain ⟨w0, w1, w2, w3, w4, w5, w6, w7, w8, w9, w10, w11, w12, w13, w14⟩ := h.canon w
    exact ⟨w0, w1, w2, w3, w4, w5, w6, w7, w8, w9, w10, w11, w12, hm w13, w14⟩, h.rollback, h.revoked, h.fused, h.free⟩

theorem keeps_lastRec {m} (h : Keeps s0 s) (hm : spWf 0 s.lastRec = true → spWf 0 m = true) : Keeps s0 { s with lastRec := m } :=
  ⟨h.pending, fun w => by
    obtain ⟨w0, w1, w2, w3, w4, w5, w6, w7, w8, w9, w10, w11, w12, w13, w14⟩ := h.canon w
    exact ⟨w0, w1, w2, w3, w4, w5, w6, w7, w8, w9, w10, w11, w12, w13, hm w14⟩, h.rollback, h.revoked, h.fused, h.free⟩

theorem keeps_fuses {f : Fuses} (h : Keeps s0 s) (h1 : s.fuses.rollback ≤ f.rollback)
    (h2 : ∀ i, s.fuses.revoked.testBit i = true → f.revoked.testBit i = true) (h3 : s.fuses.fused <+: f.fused) :
    Keeps s0 { s with fuses := f } :=
  ⟨h.pending, h.canon, Nat.le_trans h.rollback h1, fun i hi => h2 i (h.revoked i hi), h.fused.trans h3, h.free⟩

theorem keeps_fuses_same {f : Fuses} (h : Keeps s0 s) (h1 : f.rollback = s.fuses.rollback) (h2 : f.revoked = s.fuses.revoked)
    (h3 : f.fused = s.fuses.fused) : Keeps s0 { s with fuses := f } :=
  keeps_fuses h (by omega) (fun i h => by rw [h2]; exact h) ⟨[], by simp [h3]⟩

theorem keeps_draw (h : Keeps s0 s) : Keeps s0 s.draw.2 :=
  ⟨h.pending, h.canon, h.rollback, h.revoked, h.fused, Nat.le_succ_of_le h.free⟩

theorem keeps_of_snd {α : Type} {p : α × State} {a : α} (e : p = (a, t)) (h : Keeps s0 p.2) : Keeps s0 t := by subst e; exact h

theorem keeps_of_snd_snd {α β : Type} {p : α × β × State} {a : α} {b : β} (e : p = (a, b, t)) (h : Keeps s0 p.2.2) : Keeps s0 t := by
  subst e; exact h

theorem keeps_foldl {α : Type} {f : State → α → State} {l : List α} (hf : ∀ s x, Keeps s0 s → Keeps s0 (f s x)) (h : Keeps s0 s) :
    Keeps s0 (l.foldl f s) := by
  induction l generalizing s with
  | nil => exact h
  | cons x t ih => exact ih (hf _ _ h)

theorem keeps_foldl_snd {α β : Type} {f : β × State → α → β × State} {l : List α} {x : β × State}
    (hf : ∀ x y, Keeps s0 x.2 → Keeps s0 (f x y).2) (h : Keeps s0 x.2) : Keeps s0 (l.foldl f x).2 := by
  induction l generalizing x with
  | nil => exact h
  | cons y t ih => exact ih (hf _ _ h)

theorem keeps_of_mid {α β : Type} {p : α × State × β} {a : α} {b : β} (e : p = (a, t, b)) (h : Keeps s0 p.2.1) : Keeps s0 t := by
  subst e; exact h

/-- An optional state, where there is one, keeps what a state must. -/
def KeepsO (s0 : State) (o : Option State) : Prop := ∀ t, o = some t → Keeps s0 t

theorem keepsO_none : KeepsO s0 none := fun _ e => nomatch e

theorem keepsO_some (h : Keeps s0 s) : KeepsO s0 (some s) := fun _ e => Option.some.inj e ▸ h

theorem keeps_of_some {o : Option State} (e : o = some t) (h : KeepsO s0 o) : Keeps s0 t := h t e

theorem keeps_getD {o : Option State} (h : KeepsO s0 o) (k : Keeps s0 s) : Keeps s0 (o.getD s) := by
  cases o with
  | none => exact k
  | some t => exact h t rfl

theorem keeps_cut {x : State} {G : Prop} (h : Keeps s0 x) (k : Keeps s0 x → G) : G := k h

theorem keeps_ite {c : Prop} [Decidable c] {x y : State} (hx : Keeps s0 x) (hy : Keeps s0 y) : Keeps s0 (if c then x else y) := by
  split
  · exact hx
  · exact hy

theorem keeps_free {n} (h : Keeps s0 s) : Keeps s0 { s with free := s.free + n } :=
  ⟨h.pending, h.canon, h.rollback, h.revoked, h.fused, Nat.le_trans h.free (Nat.le_add_right _ _)⟩

theorem nextAnd_next {p : State → Prop} (h : p t) : nextAnd (.next t) p := h

end Sys2Proof.Machine
end

