-- ==== Sys2Proof/Laws/KeepsOps.lean ====
section
/-! SUPPORT. What each definition keeps (Laws/Keeps.lean): registers, fields, bytes of memory, memory-side operations. -/

namespace Sys2Proof.Machine

variable {s0 s t : State}

theorem keeps_wr {a v} (h : Keeps s0 s) : Keeps s0 (s.wr a v) := keeps_regs h (spWf_put _ _)

theorem keeps_wrWide {a x2 x3} (h : Keeps s0 s) : Keeps s0 (State.wrWide s a x2 x3) := by
  fun_induction State.wrWide s a x2 x3
  repeat' first
    | with_reducible assumption | with_reducible apply keeps_wr

theorem keeps_wf {a f v} (h : Keeps s0 s) : Keeps s0 (State.wf s a f v) := by
  unfold State.wf
  repeat' first
    | with_reducible assumption | with_reducible apply keeps_wr

theorem keeps_wb {a f b} (h : Keeps s0 s) : Keeps s0 (State.wb s a f b) := by
  unfold State.wb
  repeat' first
    | with_reducible assumption | with_reducible apply keeps_wf

theorem keeps_riskInput {kind v} (h : Keeps s0 s) : Keeps s0 (State.riskInput s kind v) := by
  unfold State.riskInput
  repeat' first
    | with_reducible exact keeps_other (by with_reducible assumption)

theorem keeps_bump {a n} (h : Keeps s0 s) : Keeps s0 (State.bump s a n) := by
  unfold State.bump
  repeat' first
    | with_reducible assumption | with_reducible apply keeps_wr

theorem keeps_postSev {cls sev status source detail} (h : Keeps s0 s) : Keeps s0 (State.postSev s cls sev status source detail) := by
  unfold State.postSev
  repeat' first
    | with_reducible assumption | with_reducible apply keeps_riskInput | with_reducible apply keeps_bump
    | with_reducible exact keeps_other (by with_reducible assumption)
    | (extract_lets +onlyGivenNames x; refine keeps_cut (s0 := s0) (x := x) ?_ (fun h => ?_); rotate_left; clear_value x; rotate_right; subst x) | split

theorem keeps_post {cls status source detail} (h : Keeps s0 s) : Keeps s0 (State.post s cls status source detail) := by
  unfold State.post
  repeat' first
    | with_reducible assumption | with_reducible apply keeps_postSev

theorem keeps_setCore {c k} (h : Keeps s0 s) : Keeps s0 (s.setCore c k) := keeps_cores h (spWf_put _ _)

theorem keeps_damaged {st src a} (h : Keeps s0 s) : Keeps s0 (State.damaged s st src a) := by
  unfold State.damaged
  repeat' first
    | with_reducible assumption | with_reducible apply keeps_post | split

theorem keeps_basinRd {a n} (h : Keeps s0 s) : Keeps s0 (State.basinRd s a n).2 := by
  unfold State.basinRd
  repeat' first
    | with_reducible assumption | with_reducible apply keeps_post | with_reducible apply keeps_damaged
    | (extract_lets +onlyGivenNames x; refine keeps_cut (s0 := s0) (x := x) ?_ (fun h => ?_); rotate_left; clear_value x; rotate_right; subst x)
    | intro _ _ _ | (extract_lets +onlyGivenNames x; clear_value x) | with_reducible apply keeps_foldl | split

theorem keeps_veto {causes} (h : Keeps s0 s) : Keeps s0 (State.veto s causes) := by
  unfold State.veto
  repeat' first
    | with_reducible exact keeps_other (by with_reducible assumption)

theorem keeps_uncorrectable (h : Keeps s0 s) : Keeps s0 (State.uncorrectable s) := by
  unfold State.uncorrectable
  repeat' first
    | with_reducible assumption | with_reducible apply keeps_veto | with_reducible exact keeps_other (by with_reducible assumption)
    | (extract_lets +onlyGivenNames x; clear_value x) | split

theorem keeps_bumpF {a f n} (h : Keeps s0 s) : Keeps s0 (State.bumpF s a f n) := by
  unfold State.bumpF
  repeat' first
    | with_reducible assumption | with_reducible apply keeps_wf

theorem keeps_setByte {a b} (h : Keeps s0 s) : Keeps s0 (s.setByte a b) := keeps_mem h (spWf_put _ _)

theorem keeps_setBytes {a x2} (h : Keeps s0 s) : Keeps s0 (State.setBytes s a x2) := by
  fun_induction State.setBytes s a x2
  repeat' first
    | with_reducible assumption | with_reducible apply keeps_setByte | apply_assumption

theorem keeps_clearMarks {g lo n} (h : Keeps s0 s) : Keeps s0 (State.clearMarks s g lo n) := by
  unfold State.clearMarks
  repeat' first
    | with_reducible exact keeps_ecc (by with_reducible assumption) (spWf_filter _)

theorem keeps_basinWr {a bs} (h : Keeps s0 s) : Keeps s0 (State.basinWr s a bs).2 := by
  unfold State.basinWr
  repeat' first
    | with_reducible assumption | with_reducible apply keeps_damaged | with_reducible apply keeps_post | with_reducible apply keeps_setBytes
    | with_reducible apply keeps_clearMarks
    | (extract_lets +onlyGivenNames x; refine keeps_cut (s0 := s0) (x := x) ?_ (fun h => ?_); rotate_left; clear_value x; rotate_right; subst x)
    | intro _ _ _ | (extract_lets +onlyGivenNames x; clear_value x) | with_reducible apply keeps_foldl | split

theorem keeps_sendAs {num dev cls op words} (h : Keeps s0 s) : Keeps s0 (State.sendAs s num dev cls op words) := by
  unfold State.sendAs
  repeat' first
    | with_reducible exact keeps_other (by with_reducible assumption)

theorem keeps_send {dev cls op words} (h : Keeps s0 s) : Keeps s0 (State.send s dev cls op words) := by
  unfold State.send
  repeat' first
    | with_reducible assumption | with_reducible apply keeps_sendAs

theorem keeps_sendResponse {h1 cls op st data} (h : Keeps s0 s) : Keeps s0 (State.sendResponse s h1 cls op st data) := by
  unfold State.sendResponse
  repeat' first
    | with_reducible exact keeps_other (by with_reducible assumption)

theorem keeps_reply {status data} (h : Keeps s0 s) : Keeps s0 (State.reply s status data) := by
  unfold State.reply
  repeat' first
    | with_reducible exact keeps_other (by with_reducible assumption)

theorem keeps_remoteAnswer {tid st data} (h : Keeps s0 s) : Keeps s0 (State.remoteAnswer s tid st data) := by
  unfold State.remoteAnswer
  repeat' first
    | with_reducible assumption | with_reducible exact keeps_other (by with_reducible assumption) | split

theorem keeps_sendReq {dev cls op addr size m tid msop body} (h : Keeps s0 s) : Keeps s0 (State.sendReq s dev cls op addr size m tid msop body).2 := by
  unfold State.sendReq
  repeat' first
    | with_reducible assumption | with_reducible exact keeps_other (by with_reducible assumption) | (extract_lets +onlyGivenNames x; clear_value x)
    | split

theorem keeps_bindTx {ep} (h : Keeps s0 s) : Keeps s0 (State.bindTx s ep) := by
  unfold State.bindTx
  repeat' first
    | with_reducible assumption | with_reducible exact keeps_other (by with_reducible assumption) | split

theorem keeps_remoteAsk {m cls a n ep} (h : Keeps s0 s) : Keeps s0 (State.remoteAsk s m cls a n ep) := by
  unfold State.remoteAsk
  split
  · exact h
  · extract_lets tid add
    have hadd : ∀ s x, Keeps s0 s → Keeps s0 (add s x) := fun s x h => keeps_other h
    clear_value add
    split
    · exact hadd _ _ h
    · split
      · exact hadd _ _ h
      · dsimp only
        refine hadd _ _ ?_
        split
        · exact keeps_bindTx (keeps_sendReq h)
        · exact keeps_sendReq h

theorem keeps_askAll {m cls ep l} (h : Keeps s0 s) : Keeps s0 (State.askAll s m cls ep l) := by
  unfold State.askAll
  repeat' first
    | with_reducible assumption | with_reducible apply keeps_remoteAsk | intro _ _ _ | with_reducible apply keeps_foldl

theorem keeps_deny {m a} (h : Keeps s0 s) : Keeps s0 (State.deny s m a) := by
  unfold State.deny
  repeat' first
    | with_reducible assumption | with_reducible apply keeps_post | with_reducible apply keeps_wr | with_reducible apply keeps_bump

theorem keeps_aqFailed {m a} (h : Keeps s0 s) : Keeps s0 (State.aqFailed s m a) := by
  unfold State.aqFailed
  repeat' first
    | with_reducible exact keeps_other (by with_reducible assumption)

theorem keeps_checkLocal {m a n write} (h : Keeps s0 s) : Keeps s0 (State.checkLocal s m a n write).2 := by
  unfold State.checkLocal
  repeat' first
    | with_reducible assumption | with_reducible apply keeps_deny | with_reducible apply keeps_aqFailed | (extract_lets +onlyGivenNames x; clear_value x)
    | split

theorem keeps_cacheUnits {h1 us} (h : Keeps s0 s) : Keeps s0 (State.cacheUnits s h1 us) := by
  unfold State.cacheUnits
  repeat' first
    | with_reducible exact keeps_other (by with_reducible assumption)

theorem keeps_hbmCheck {o n} (h : Keeps s0 s) : Keeps s0 (State.hbmCheck s o n).2 := by
  unfold State.hbmCheck
  repeat' first
    | with_reducible assumption | with_reducible apply keeps_damaged | with_reducible apply keeps_post | with_reducible apply keeps_bump
    | with_reducible apply keeps_cacheUnits
    | (extract_lets +onlyGivenNames x; refine keeps_cut (s0 := s0) (x := x) ?_ (fun h => ?_); rotate_left; clear_value x; rotate_right; subst x)
    | intro _ _ _ | (extract_lets +onlyGivenNames x; clear_value x) | with_reducible apply keeps_foldl | split

theorem keeps_setKeys {o x2} (h : Keeps s0 s) : Keeps s0 (State.setKeys s o x2) := by
  fun_induction State.setKeys s o x2
  repeat' first
    | with_reducible assumption | with_reducible exact keeps_blockKey (by with_reducible assumption) (spWf_put _ _) | apply_assumption

theorem keeps_rekeySpan {o n} (h : Keeps s0 s) : Keeps s0 (State.rekeySpan s o n) := by
  unfold State.rekeySpan
  repeat' first
    | with_reducible assumption | with_reducible apply keeps_setKeys | with_reducible apply keeps_setBytes | split

theorem keeps_hbmPut {o sp bs} (h : Keeps s0 s) : Keeps s0 (State.hbmPut s o sp bs) := by
  unfold State.hbmPut
  repeat' first
    | with_reducible assumption | with_reducible apply keeps_setBytes | with_reducible apply keeps_clearMarks | with_reducible apply keeps_setKeys
    | with_reducible apply keeps_wrWide

theorem keeps_hbmWr {o bs whole} (h : Keeps s0 s) : Keeps s0 (State.hbmWr s o bs whole).2 := by
  unfold State.hbmWr
  repeat' first
    | with_reducible assumption | with_reducible apply keeps_bump | with_reducible apply keeps_hbmCheck | with_reducible apply keeps_rekeySpan
    | with_reducible apply keeps_hbmPut | (with_reducible apply keeps_of_snd; with_reducible assumption)
    | (extract_lets +onlyGivenNames x; refine keeps_cut (s0 := s0) (x := x) ?_ (fun h => ?_); rotate_left; clear_value x; rotate_right; subst x)
    | (extract_lets +onlyGivenNames x; clear_value x) | split

theorem keeps_countNarrow {o n st} (h : Keeps s0 s) : Keeps s0 (State.countNarrow s o n st) := by
  unfold State.countNarrow
  repeat' first
    | with_reducible assumption | with_reducible apply keeps_bump | split

theorem keeps_memWrIn {a bs whole} (h : Keeps s0 s) : Keeps s0 (State.memWrIn s a bs whole).2 := by
  unfold State.memWrIn
  repeat' first
    | with_reducible assumption | with_reducible apply keeps_basinWr | with_reducible apply keeps_hbmWr | with_reducible apply keeps_countNarrow
    | with_reducible apply keeps_setBytes | split

theorem keeps_poundError {m st} (h : Keeps s0 s) : Keeps s0 (State.poundError s m st) := by
  unfold State.poundError
  repeat' first
    | with_reducible assumption | with_reducible apply keeps_uncorrectable | split

theorem keeps_hbmRd {o n} (h : Keeps s0 s) : Keeps s0 (State.hbmRd s o n).2.2 := by
  unfold State.hbmRd
  repeat' first
    | with_reducible assumption | with_reducible apply keeps_hbmCheck | with_reducible apply keeps_wrWide
    | (with_reducible apply keeps_of_snd; with_reducible assumption) | (extract_lets +onlyGivenNames x; clear_value x) | split

theorem keeps_memRd {a n} (h : Keeps s0 s) : Keeps s0 (State.memRd s a n).2.2 := by
  unfold State.memRd
  repeat' first
    | with_reducible assumption | with_reducible apply keeps_basinRd | with_reducible apply keeps_hbmRd | with_reducible apply keeps_countNarrow | split

theorem keeps_localGet {m a n} (h : Keeps s0 s) : Keeps s0 (State.localGet s m a n).2.2 := by
  unfold State.localGet
  repeat' first
    | with_reducible assumption | with_reducible apply keeps_checkLocal | with_reducible apply keeps_memRd | with_reducible apply keeps_poundError
    | (with_reducible apply keeps_of_snd; with_reducible assumption) | split

theorem keeps_msopAt {o mtype mop operand} (h : Keeps s0 s) : Keeps s0 (State.msopAt s o mtype mop operand).2 := by
  unfold State.msopAt
  repeat' first
    | with_reducible assumption | with_reducible apply keeps_bump | with_reducible apply keeps_hbmCheck | with_reducible apply keeps_rekeySpan
    | with_reducible apply keeps_hbmPut | (with_reducible apply keeps_of_snd; with_reducible assumption)
    | (extract_lets +onlyGivenNames x; refine keeps_cut (s0 := s0) (x := x) ?_ (fun h => ?_); rotate_left; clear_value x; rotate_right; subst x)
    | (extract_lets +onlyGivenNames x; clear_value x) | split

theorem keeps_msop {m addr mtype mop operand} (h : Keeps s0 s) : Keeps s0 (State.msop s m addr mtype mop operand).2 := by
  unfold State.msop
  repeat' first
    | with_reducible assumption | with_reducible apply keeps_checkLocal | with_reducible apply keeps_msopAt | with_reducible apply keeps_poundError
    | (with_reducible apply keeps_of_snd; with_reducible assumption) | split

theorem keeps_remoteForget {m l} (h : Keeps s0 s) : Keeps s0 (State.remoteForget s m l) := by
  unfold State.remoteForget
  repeat' first
    | with_reducible exact keeps_other (by with_reducible assumption)

theorem keeps_store {a n v} (h : Keeps s0 s) : Keeps s0 (State.store s a n v) := by
  unfold State.store
  repeat' first
    | with_reducible assumption | with_reducible apply keeps_setBytes

theorem keeps_clearCaptures {lo hi} (h : Keeps s0 s) : Keeps s0 (State.clearCaptures s lo hi) :=
  keeps_other (keeps_capture h (spWf_filter _))

theorem keeps_recapture {a n} (h : Keeps s0 s) : Keeps s0 (State.recapture s a n) := by
  unfold State.recapture
  repeat' first
    | with_reducible assumption | with_reducible apply keeps_clearCaptures
    | with_reducible exact keeps_capture (by with_reducible assumption) (spWf_put _ _) | intro _ _ _ | with_reducible apply keeps_foldl

theorem keeps_memWr {a bs} (h : Keeps s0 s) : Keeps s0 (State.memWr s a bs).2 := by
  unfold State.memWr
  repeat' first
    | with_reducible assumption | with_reducible apply keeps_memWrIn

theorem keeps_clearMem {lo hi} (h : Keeps s0 s) : Keeps s0 (State.clearMem s lo hi) :=
  keeps_ecc (keeps_mem h (spWf_filter _)) (spWf_filter _)

theorem keeps_remoteDrop {m} (h : Keeps s0 s) : Keeps s0 (State.remoteDrop s m) := by
  unfold State.remoteDrop
  repeat' first
    | with_reducible exact keeps_other (by with_reducible assumption)

theorem keeps_clearRegs {lo hi} (h : Keeps s0 s) : Keeps s0 (State.clearRegs s lo hi) :=
  keeps_other (keeps_capture (keeps_regs h (spWf_filter _)) (spWf_filter _))

theorem keeps_loadRegs {l} (h : Keeps s0 s) : Keeps s0 (State.loadRegs s l) := by
  unfold State.loadRegs
  repeat' first
    | with_reducible assumption | with_reducible apply keeps_wr | intro _ _ _ | with_reducible apply keeps_foldl

theorem keeps_regEvent {m a} (h : Keeps s0 s) : Keeps s0 (State.regEvent s m a) := by
  unfold State.regEvent
  repeat' first
    | with_reducible assumption | with_reducible apply keeps_post

theorem keeps_syncRefresh {n} (h : Keeps s0 s) : Keeps s0 (State.syncRefresh s n) := by
  unfold State.syncRefresh
  repeat' first
    | with_reducible assumption | with_reducible apply keeps_wb | (extract_lets +onlyGivenNames x; clear_value x) | split

theorem keeps_msopCmd {m addr mtype mop operand} (h : Keeps s0 s) : Keeps s0 (State.msopCmd s m addr mtype mop operand) := by
  unfold State.msopCmd
  repeat' first
    | with_reducible assumption | with_reducible apply keeps_reply | with_reducible apply keeps_sendReq | with_reducible apply keeps_msop
    | (with_reducible apply keeps_of_snd; with_reducible assumption) | split

theorem keeps_execMsopMin {m addr mtype operand} (h : Keeps s0 s) : nextAnd (execMsopMin m addr mtype operand s) (Keeps s0) := by
  unfold execMsopMin
  repeat' first
    | with_reducible assumption | with_reducible apply nextAnd_next | with_reducible apply keeps_msopCmd

theorem keeps_dropCaches (h : Keeps s0 s) : Keeps s0 (State.dropCaches s) := by
  unfold State.dropCaches
  repeat' first
    | with_reducible exact keeps_other (by with_reducible assumption)

theorem keeps_stackTemp {n temp} (h : Keeps s0 s) : Keeps s0 (State.stackTemp s n temp) := by
  unfold State.stackTemp
  repeat' first
    | with_reducible assumption | with_reducible apply keeps_wf

theorem keeps_addUpset {g a u} (h : Keeps s0 s) : Keeps s0 (State.addUpset s g a u) := by
  unfold State.addUpset
  repeat' first
    | with_reducible assumption | with_reducible exact keeps_ecc (by with_reducible assumption) (spWf_put _ _)
    | (extract_lets +onlyGivenNames x; clear_value x) | split

theorem keeps_sendXor {dev a bs} (h : Keeps s0 s) : Keeps s0 (State.sendXor s dev a bs) := by
  unfold State.sendXor
  repeat' first
    | with_reducible assumption | with_reducible apply keeps_sendReq

theorem keeps_sendUnit {dev size f src dst} (h : Keeps s0 s) : Keeps s0 (State.sendUnit s dev size f src dst) := by
  unfold State.sendUnit
  repeat' first
    | with_reducible assumption | with_reducible apply keeps_sendXor | intro _ _ _ | with_reducible apply keeps_foldl | split

theorem keeps_rebuildStripe {g slot dev i j t1} (h : Keeps s0 s) : Keeps s0 (State.rebuildStripe s g slot dev i j t1) := by
  unfold State.rebuildStripe
  repeat' first
    | with_reducible assumption | with_reducible apply keeps_sendUnit | (extract_lets +onlyGivenNames x; have q := fun a => x a; clear q; subst x)
    | (extract_lets +onlyGivenNames x; clear_value x) | split

theorem keeps_rebuildSend {g dev i j} (h : Keeps s0 s) : Keeps s0 (State.rebuildSend s g dev i j) := by
  unfold State.rebuildSend
  repeat' first
    | with_reducible assumption | with_reducible apply keeps_rebuildStripe | intro _ _ _ | with_reducible apply keeps_foldl | split

theorem keeps_execHbmHotThrottle {stack temp} (h : Keeps s0 s) : nextAnd (execHbmHotThrottle stack temp s) (Keeps s0) := by
  unfold execHbmHotThrottle
  repeat' first
    | with_reducible assumption | with_reducible apply nextAnd_next | with_reducible apply keeps_stackTemp | with_reducible apply keeps_wb
    | (extract_lets +onlyGivenNames x; clear_value x)
    | (with_reducible apply keeps_other; first | with_reducible apply keeps_syncRefresh | with_reducible apply keeps_stackTemp | with_reducible apply keeps_wb)

theorem keeps_rebuildFill {g j} (h : Keeps s0 s) : Keeps s0 (State.rebuildFill s g j) := by
  unfold State.rebuildFill
  repeat' first
    | with_reducible assumption | with_reducible apply keeps_wf | with_reducible apply keeps_memWr
    | (extract_lets +onlyGivenNames x; refine keeps_cut (s0 := s0) (x := x) ?_ (fun h => ?_); rotate_left; clear_value x; rotate_right; subst x)
    | intro _ _ _ | (extract_lets +onlyGivenNames x; clear_value x) | with_reducible apply keeps_foldl | split

theorem keeps_rebuild {dev} (h : Keeps s0 s) : Keeps s0 (State.rebuild s dev) := by
  unfold State.rebuild
  repeat' first
    | with_reducible assumption | with_reducible apply keeps_rebuildFill | with_reducible apply keeps_rebuildSend | intro _ _ _
    | with_reducible apply keeps_foldl | split

theorem keeps_execBasinPatrolScrub {core word upset} (h : Keeps s0 s) : nextAnd (execBasinPatrolScrub core word upset s) (Keeps s0) := by
  unfold execBasinPatrolScrub
  repeat' first
    | with_reducible assumption | with_reducible apply nextAnd_next | with_reducible apply keeps_addUpset
    | with_reducible exact keeps_ecc (by with_reducible assumption) (spWf_put _ _)
    | (extract_lets +onlyGivenNames x; refine keeps_cut (s0 := s0) (x := x) ?_ (fun h => ?_); rotate_left; clear_value x; rotate_right; subst x)
    | (extract_lets +onlyGivenNames x; clear_value x) | split

theorem keeps_execMsopAdd {m addr mtype operand} (h : Keeps s0 s) : nextAnd (execMsopAdd m addr mtype operand s) (Keeps s0) := by
  unfold execMsopAdd
  repeat' first
    | with_reducible assumption | with_reducible apply nextAnd_next | with_reducible apply keeps_msopCmd

theorem keeps_execMsopMax {m addr mtype operand} (h : Keeps s0 s) : nextAnd (execMsopMax m addr mtype operand s) (Keeps s0) := by
  unfold execMsopMax
  repeat' first
    | with_reducible assumption | with_reducible apply nextAnd_next | with_reducible apply keeps_msopCmd

theorem keeps_execMsopXor {m addr mtype operand} (h : Keeps s0 s) : nextAnd (execMsopXor m addr mtype operand s) (Keeps s0) := by
  unfold execMsopXor
  repeat' first
    | with_reducible assumption | with_reducible apply nextAnd_next | with_reducible apply keeps_msopCmd

theorem keeps_execHbmPatrol {stack addr upset} (h : Keeps s0 s) : nextAnd (execHbmPatrol stack addr upset s) (Keeps s0) := by
  unfold execHbmPatrol
  repeat' first
    | with_reducible assumption | with_reducible apply nextAnd_next | with_reducible apply keeps_addUpset | with_reducible apply keeps_wf
    | with_reducible apply keeps_post | with_reducible apply keeps_bump | with_reducible apply keeps_damaged
    | with_reducible exact keeps_ecc (by with_reducible assumption) (spWf_put _ _)
    | (extract_lets +onlyGivenNames x; refine keeps_cut (s0 := s0) (x := x) ?_ (fun h => ?_); rotate_left; clear_value x; rotate_right; subst x)
    | (extract_lets +onlyGivenNames x; clear_value x) | split

theorem keeps_execRefreshRateChange {stack temp} (h : Keeps s0 s) : nextAnd (execRefreshRateChange stack temp s) (Keeps s0) := by
  unfold execRefreshRateChange
  repeat' first
    | with_reducible assumption | with_reducible apply nextAnd_next | with_reducible apply keeps_syncRefresh | with_reducible apply keeps_stackTemp

theorem keeps_execAqueductTransfer {m src dst failedAt} (h : Keeps s0 s) : nextAnd (execAqueductTransfer m src dst failedAt s) (Keeps s0) := by
  unfold execAqueductTransfer
  repeat' first
    | with_reducible assumption | with_reducible apply nextAnd_next | with_reducible apply keeps_reply | with_reducible apply keeps_post
    | with_reducible exact keeps_other (by with_reducible assumption)
    | (extract_lets +onlyGivenNames x; refine keeps_cut (s0 := s0) (x := x) ?_ (fun h => ?_); rotate_left; clear_value x; rotate_right; subst x)
    | (extract_lets +onlyGivenNames x; clear_value x) | split

theorem keeps_putBarge {a i b} (h : Keeps s0 s) : Keeps s0 (State.putBarge s a i b) := by
  unfold State.putBarge
  repeat' first
    | with_reducible assumption | with_reducible apply keeps_store | with_reducible apply keeps_setBytes

end Sys2Proof.Machine
end

