-- ==== Sys2Proof/Laws/KeepsTile.lean ====
section
/-! SUPPORT. What each definition keeps (Laws/Keeps.lean): the tiller's queues, the tile units and the tile instructions. -/

namespace Sys2Proof.Machine

variable {s0 s t : State}

theorem keeps_modCore {c f} (h : Keeps s0 s) : Keeps s0 (State.modCore s c f) := by
  unfold State.modCore
  repeat' first
    | with_reducible assumption | with_reducible apply keeps_setCore

theorem keeps_syncQueues {c} (h : Keeps s0 s) : Keeps s0 (State.syncQueues s c) := by
  unfold State.syncQueues
  repeat' first
    | with_reducible assumption | with_reducible apply keeps_wr

theorem keeps_unitRd {a n} (h : Keeps s0 s) : Keeps s0 (State.unitRd s a n).2 := by
  unfold State.unitRd
  repeat' first
    | with_reducible assumption | with_reducible apply keeps_basinRd | with_reducible apply keeps_uncorrectable
    | (with_reducible apply keeps_of_snd; with_reducible assumption) | split

theorem keeps_readBtab {c t1 useK} (h : Keeps s0 s) : Keeps s0 (State.readBtab s c t1 useK).2 := by
  unfold State.readBtab
  repeat' first
    | with_reducible assumption | with_reducible apply keeps_unitRd | (with_reducible apply keeps_of_snd; with_reducible assumption) | split

theorem keeps_trapEvent {c first st} (h : Keeps s0 s) : Keeps s0 (State.trapEvent s c first st) := by
  unfold State.trapEvent
  repeat' first
    | with_reducible assumption | with_reducible apply keeps_post | split

theorem keeps_checkBarge {c a i accepts echk} (h : Keeps s0 s) : Keeps s0 (State.checkBarge s c a i accepts echk).2 := by
  unfold State.checkBarge
  repeat' first
    | with_reducible assumption | with_reducible apply keeps_unitRd | with_reducible apply keeps_post | with_reducible apply keeps_uncorrectable
    | with_reducible apply keeps_bump | (with_reducible apply keeps_of_snd; with_reducible assumption)
    | (extract_lets +onlyGivenNames x; have q := fun a => x a; clear q; subst x) | (extract_lets +onlyGivenNames x; clear_value x) | split

theorem keeps_checkBarges {c a accepts echk ix} (h : Keeps s0 s) : Keeps s0 (State.checkBarges s c a accepts echk ix).2 := by
  unfold State.checkBarges
  repeat' first
    | with_reducible assumption | with_reducible apply keeps_checkBarge | intro _ _ _ | with_reducible apply keeps_foldl_snd

theorem keeps_checkOpnd {c o rows k accepts echk} (h : Keeps s0 s) : Keeps s0 (State.checkOpnd s c o rows k accepts echk).2 := by
  unfold State.checkOpnd
  repeat' first
    | with_reducible assumption | with_reducible apply keeps_checkBarges | with_reducible apply keeps_unitRd | intro _ _ _
    | with_reducible apply keeps_foldl_snd | split

theorem keeps_loseRows {c base n} (h : Keeps s0 s) : Keeps s0 (State.loseRows s c base n) :=
  keeps_free (keeps_modCore (f := fun k => { k with acc := (List.range n).foldl (fun a i =>
    accPut a (base + i) (BitVec.ofNat 128 (Config.freeBits (s.free + i)))) k.acc }) h)

theorem keeps_tileWork {c e t1 a b cbase} (h : Keeps s0 s) : Keeps s0 (State.tileWork s c e t1 a b cbase).2.2 := by
  unfold State.tileWork
  generalize s.selected c e t1 = x
  obtain ⟨⟨m, n, k⟩, sm, sn, sk⟩ := x
  dsimp only
  have h1 := keeps_checkOpnd (c := c) (o := a) (rows := sm) (k := k) (accepts := fmtOk (t1.f0 24 2) a.kind) (echk := natBit 18 t1.w0.toNat) h
  generalize s.checkOpnd c a sm k (fmtOk (t1.f0 24 2) a.kind) (natBit 18 t1.w0.toNat) = x at h1 ⊢
  obtain ⟨st1, s1⟩ := x
  dsimp only at h1 ⊢
  have h2 := keeps_checkOpnd (c := c) (o := b) (rows := sn) (k := k) (accepts := fmtOk (t1.f0 24 2) b.kind) (echk := natBit 18 t1.w0.toNat) h1
  generalize s1.checkOpnd c b sn k (fmtOk (t1.f0 24 2) b.kind) (natBit 18 t1.w0.toNat) = x at h2 ⊢
  obtain ⟨st2, s2⟩ := x
  dsimp only at h2 ⊢
  generalize (if st1 = stOK then st2 else if st2 = stOK then st1 else stWorst st1 st2) = st
  split
  · exact keeps_loseRows h2
  · generalize (if natBit 23 t1.w0.toNat = true then _ else _ : Run) = r
    have h3 := keeps_bump (a := CO_CNT_OVERRANGE c) (n := r.overs) (keeps_bump (a := CO_CNT_REFRAME c) (n := r.reframes)
      (keeps_modCore (c := c) (f := fun x => { x with acc := r.acc }) h2))
    split <;> exact h3

theorem keeps_gemmList {c e st0 first empty i done x8} (h : Keeps s0 s) : Keeps s0 (State.gemmList s c e st0 first empty i done x8).2 := by
  fun_induction State.gemmList s c e st0 first empty i done x8
  repeat' first
    | with_reducible assumption | with_reducible apply keeps_trapEvent | with_reducible apply keeps_unitRd | with_reducible apply keeps_modCore
    | with_reducible apply keeps_tileWork | (with_reducible apply keeps_of_snd; with_reducible assumption)
    | (with_reducible apply keeps_of_snd_snd; with_reducible assumption) | apply_assumption

theorem keeps_gemmPl {c e} (h : Keeps s0 s) : Keeps s0 (State.gemmPl s c e).2 := by
  unfold State.gemmPl
  repeat' first
    | with_reducible assumption | with_reducible apply keeps_gemmList | (extract_lets +onlyGivenNames x; clear_value x) | split

theorem keeps_gemmOne {c e} (h : Keeps s0 s) : Keeps s0 (State.gemmOne s c e).2 := by
  unfold State.gemmOne
  repeat' first
    | with_reducible assumption | with_reducible apply keeps_modCore | with_reducible apply keeps_tileWork | with_reducible apply keeps_trapEvent
    | (extract_lets +onlyGivenNames x; refine keeps_cut (s0 := s0) (x := x) ?_ (fun h => ?_); rotate_left; clear_value x; rotate_right; subst x)
    | (extract_lets +onlyGivenNames x; clear_value x) | split

theorem keeps_runGemm {c e} (h : Keeps s0 s) : Keeps s0 (State.runGemm s c e).2 := by
  unfold State.runGemm
  repeat' first
    | with_reducible assumption | with_reducible apply keeps_readBtab | with_reducible apply keeps_gemmPl | with_reducible apply keeps_gemmOne
    | (with_reducible apply keeps_of_snd; with_reducible assumption) | (extract_lets +onlyGivenNames x; clear_value x) | split

theorem keeps_takeMarks {c rs} (h : Keeps s0 s) : Keeps s0 (State.takeMarks s c rs).2 := by
  unfold State.takeMarks
  repeat' first
    | with_reducible assumption | with_reducible apply keeps_setCore

theorem keeps_setObs {c t1 k v} (h : Keeps s0 s) : Keeps s0 (State.setObs s c t1 k v) := by
  unfold State.setObs
  repeat' first
    | with_reducible assumption | with_reducible apply keeps_wr

theorem keeps_raiseObs {c t1 k a} (h : Keeps s0 s) : Keeps s0 (State.raiseObs s c t1 k a) := by
  unfold State.raiseObs
  repeat' first
    | with_reducible assumption | with_reducible apply keeps_setObs | split

theorem keeps_raiseChannels {c t1 fs} (h : Keeps s0 s) : Keeps s0 (State.raiseChannels s c t1 fs) := by
  unfold State.raiseChannels
  repeat' first
    | with_reducible assumption | with_reducible apply keeps_raiseObs | with_reducible apply keeps_bump | intro _ _ _
    | (extract_lets +onlyGivenNames x; clear_value x) | with_reducible apply keeps_foldl | split

theorem keeps_setBexp {c q b} (h : Keeps s0 s) : Keeps s0 (State.setBexp s c q b) := by
  unfold State.setBexp
  repeat' first
    | with_reducible assumption | with_reducible apply keeps_wr

theorem keeps_gauge {c t1 fs} (h : Keeps s0 s) : Keeps s0 (State.gauge s c t1 fs) := by
  unfold State.gauge
  repeat' first
    | with_reducible assumption | with_reducible apply keeps_raiseChannels | with_reducible apply keeps_bumpF | with_reducible apply keeps_setBexp
    | with_reducible apply keeps_wb
    | (extract_lets +onlyGivenNames x; refine keeps_cut (s0 := s0) (x := x) ?_ (fun h => ?_); rotate_left; clear_value x; rotate_right; subst x)
    | intro _ _ _ | (extract_lets +onlyGivenNames x; clear_value x) | with_reducible apply keeps_foldl | split

theorem keeps_setStreams {z} (h : Keeps s0 s) : Keeps s0 (State.setStreams s z) := by
  unfold State.setStreams
  repeat' first
    | with_reducible assumption | with_reducible apply keeps_modCore

theorem keeps_unitWr {a bs} (h : Keeps s0 s) : Keeps s0 (State.unitWr s a bs).2 := by
  unfold State.unitWr
  repeat' first
    | with_reducible assumption | with_reducible apply keeps_basinWr | with_reducible apply keeps_uncorrectable
    | (with_reducible apply keeps_of_snd; with_reducible assumption) | split

theorem keeps_unitBarge {a i b} (h : Keeps s0 s) : Keeps s0 (State.unitBarge s a i b).2 := by
  unfold State.unitBarge
  repeat' first
    | with_reducible assumption | with_reducible apply keeps_unitWr

theorem keeps_putBarges {t1 ys p sound dest} (h : Keeps s0 s) : Keeps s0 (State.putBarges s t1 ys p sound dest).2 := by
  unfold State.putBarges
  repeat' first
    | with_reducible assumption | with_reducible apply keeps_unitBarge | intro _ _ _ | with_reducible apply keeps_foldl_snd

theorem keeps_putTile {t1 ys p sound dest} (h : Keeps s0 s) : Keeps s0 (State.putTile s t1 ys p sound dest).2 := by
  unfold State.putTile
  repeat' first
    | with_reducible assumption | with_reducible apply keeps_unitBarge | with_reducible apply keeps_putBarges | with_reducible apply keeps_unitWr
    | intro _ _ _ | (extract_lets +onlyGivenNames x; clear_value x) | with_reducible apply keeps_foldl_snd | split

theorem keeps_addStats {c t1 p regauged} (h : Keeps s0 s) : Keeps s0 (State.addStats s c t1 p regauged) := by
  unfold State.addStats
  repeat' first
    | with_reducible assumption | with_reducible apply keeps_wrWide | with_reducible apply keeps_bump | with_reducible apply keeps_wr

theorem keeps_observe {c t1 fs regauged satFired clampLeft} (h : Keeps s0 s) : Keeps s0 (State.observe s c t1 fs regauged satFired clampLeft) := by
  unfold State.observe
  repeat' first
    | with_reducible assumption | with_reducible apply keeps_raiseChannels | with_reducible apply keeps_raiseObs | with_reducible apply keeps_wb
    | (extract_lets +onlyGivenNames x; refine keeps_cut (s0 := s0) (x := x) ?_ (fun h => ?_); rotate_left; clear_value x; rotate_right; subst x)
    | intro _ _ _ | (extract_lets +onlyGivenNames x; clear_value x) | with_reducible apply keeps_foldl | split

theorem keeps_nonfinite {c k n} (h : Keeps s0 s) : Keeps s0 (State.nonfinite s c k n) := by
  unfold State.nonfinite
  repeat' first
    | with_reducible assumption | with_reducible apply keeps_bump | with_reducible apply keeps_post | with_reducible apply keeps_veto
    | (extract_lets +onlyGivenNames x; refine keeps_cut (s0 := s0) (x := x) ?_ (fun h => ?_); rotate_left; clear_value x; rotate_right; subst x)
    | (extract_lets +onlyGivenNames x; clear_value x) | split

theorem keeps_trapStatus {c sat p addr} (h : Keeps s0 s) : Keeps s0 (State.trapStatus s c sat p addr).2 := by
  unfold State.trapStatus
  repeat' first
    | with_reducible assumption | with_reducible apply keeps_post | (extract_lets +onlyGivenNames x; clear_value x) | split

theorem keeps_convertWork {c e m n recs} (h : Keeps s0 s) : Keeps s0 (State.convertWork s c e m n recs).2 := by
  unfold State.convertWork
  repeat' first
    | with_reducible assumption | with_reducible apply keeps_takeMarks | with_reducible apply keeps_gauge | with_reducible apply keeps_setStreams
    | with_reducible apply keeps_putTile | with_reducible apply keeps_addStats | with_reducible apply keeps_observe | with_reducible apply keeps_nonfinite
    | with_reducible apply keeps_trapStatus | (with_reducible apply keeps_of_snd; with_reducible assumption)
    | (extract_lets +onlyGivenNames x; clear_value x) | split

theorem keeps_runConvert {c e} (h : Keeps s0 s) : Keeps s0 (State.runConvert s c e).2 := by
  unfold State.runConvert
  repeat' first
    | with_reducible assumption | with_reducible apply keeps_readBtab | with_reducible apply keeps_convertWork
    | (with_reducible apply keeps_of_snd; with_reducible assumption) | (extract_lets +onlyGivenNames x; clear_value x) | split

theorem keeps_vecLd {c i} (h : Keeps s0 s) : Keeps s0 (State.vecLd s c i).2 := by
  unfold State.vecLd
  repeat' first
    | with_reducible assumption | with_reducible apply keeps_unitRd | with_reducible apply keeps_modCore
    | (with_reducible apply keeps_of_snd; with_reducible assumption) | split

theorem keeps_vecSt {c i} (h : Keeps s0 s) : Keeps s0 (State.vecSt s c i).2 := by
  unfold State.vecSt
  extract_lets ty w k regs nf
  have h1 := keeps_unitWr (a := i.addr) (bs := regs.flatMap (fun x => toBytes 256 x)) h
  generalize s.unitWr i.addr (regs.flatMap (fun x => toBytes 256 x)) = x at h1 ⊢
  obtain ⟨st, s1⟩ := x
  dsimp only at h1 ⊢
  split
  · exact h1
  · exact keeps_nonfinite h1

theorem keeps_vecLdb {c i j r v x6} (h : Keeps s0 s) : Keeps s0 (State.vecLdb s c i j r v x6).2.1 := by
  fun_induction State.vecLdb s c i j r v x6
  repeat' first
    | with_reducible assumption | with_reducible apply keeps_modCore | apply_assumption

theorem keeps_endVector {c v} (h : Keeps s0 s) : Keeps s0 (State.endVector s c v) := by
  unfold State.endVector
  repeat' first
    | with_reducible assumption | with_reducible apply keeps_wr | with_reducible apply keeps_setStreams | with_reducible apply keeps_bump

theorem keeps_vecStb {c i v} (h : Keeps s0 s) : Keeps s0 (State.vecStb s c i v).2 := by
  unfold State.vecStb
  repeat' first
    | with_reducible assumption | with_reducible apply keeps_gauge | with_reducible apply keeps_setStreams | with_reducible apply keeps_putBarges
    | with_reducible apply keeps_addStats | with_reducible apply keeps_observe | with_reducible apply keeps_nonfinite
    | with_reducible apply keeps_trapStatus
    | (extract_lets +onlyGivenNames x; refine keeps_cut (s0 := s0) (x := x) ?_ (fun h => ?_); rotate_left; clear_value x; rotate_right; subst x)
    | (extract_lets +onlyGivenNames x; clear_value x) | split

theorem keeps_vecSrfw {c i} (h : Keeps s0 s) : Keeps s0 (State.vecSrfw s c i) := by
  unfold State.vecSrfw
  repeat' first
    | with_reducible assumption | with_reducible apply keeps_wr | intro _ _ _ | (extract_lets +onlyGivenNames x; clear_value x)
    | with_reducible apply keeps_foldl

theorem keeps_vecReduce {c i v} (h : Keeps s0 s) : Keeps s0 (State.vecReduce s c i v) := by
  unfold State.vecReduce
  repeat' first
    | with_reducible assumption | with_reducible apply keeps_endVector | with_reducible apply keeps_setCore

theorem keeps_runVector {c e} (h : Keeps s0 s) : Keeps s0 (State.runVector s c e).2 := by
  unfold State.runVector
  split
  · exact h
  · rename_i i _
    dsimp only
    split
    · exact h
    split
    · exact keeps_vecLd h
    split
    · exact keeps_vecSt h
    split
    · have h1 := keeps_checkBarges (c := c) (a := i.addr) (accepts := isBargeFmt) (echk := false) (ix := List.range i.nreg) h
      generalize s.checkBarges c i.addr isBargeFmt false (List.range i.nreg) = x at h1 ⊢
      obtain ⟨st, s1⟩ := x
      dsimp only at h1 ⊢
      split
      · exact h1
      · have h2 := keeps_vecLdb (c := c) (i := i) (j := 0) (r := 0) (v := ⟨0, 0, s.streams c⟩) (x6 := i.nreg) h1
        generalize s1.vecLdb c i 0 0 ⟨0, 0, s.streams c⟩ i.nreg = x at h2 ⊢
        obtain ⟨st, s2, v⟩ := x
        dsimp only at h2 ⊢
        split
        · exact h1
        · exact keeps_endVector h2
    split
    · exact keeps_vecStb h
    split
    · exact keeps_vecSrfw h
    split
    · exact keeps_vecReduce h
    split
    · exact keeps_endVector (keeps_setCore (keeps_free h))
    · exact keeps_endVector (keeps_setCore h)

theorem keeps_runMove {c e} (h : Keeps s0 s) : Keeps s0 (State.runMove s c e).2 := by
  unfold State.runMove
  repeat' first
    | with_reducible assumption | with_reducible apply keeps_modCore | with_reducible apply keeps_unitRd | with_reducible apply keeps_unitWr
    | with_reducible apply keeps_wr | (with_reducible apply keeps_of_snd; with_reducible assumption) | intro _ _ _
    | (extract_lets +onlyGivenNames x; clear_value x) | with_reducible apply keeps_foldl | split

theorem keeps_setMaskBit {a l b} (h : Keeps s0 s) : Keeps s0 (State.setMaskBit s a l b) := by
  unfold State.setMaskBit
  repeat' first
    | with_reducible assumption | with_reducible apply keeps_wr

theorem keeps_syncDemand (h : Keeps s0 s) : Keeps s0 (State.syncDemand s) := by
  unfold State.syncDemand
  repeat' first
    | with_reducible assumption | with_reducible apply keeps_wf | intro _ _ _ | (extract_lets +onlyGivenNames x; clear_value x)
    | with_reducible apply keeps_foldl | split

theorem keeps_pend {l} (h : Keeps s0 s) : Keeps s0 (State.pend s l) := by
  unfold State.pend
  repeat' first
    | with_reducible assumption | with_reducible apply keeps_syncDemand | with_reducible apply keeps_setMaskBit | with_reducible apply keeps_post
    | with_reducible apply keeps_bump | with_reducible apply keeps_wb | with_reducible exact keeps_other (by with_reducible assumption)
    | (extract_lets +onlyGivenNames x; refine keeps_cut (s0 := s0) (x := x) ?_ (fun h => ?_); rotate_left; clear_value x; rotate_right; subst x) | split

theorem keeps_soundEnd {c layer tile rho region} (h : Keeps s0 s) : Keeps s0 (State.soundEnd s c layer tile rho region) := by
  unfold State.soundEnd
  repeat' first
    | with_reducible assumption | with_reducible apply keeps_bump | with_reducible apply keeps_modCore | with_reducible apply keeps_setMaskBit
    | with_reducible apply keeps_pend | with_reducible apply keeps_post
    | (extract_lets +onlyGivenNames x; refine keeps_cut (s0 := s0) (x := x) ?_ (fun h => ?_); rotate_left; clear_value x; rotate_right; subst x)
    | (extract_lets +onlyGivenNames x; clear_value x) | split

theorem keeps_soundTile {c e a b cbase tile} (h : Keeps s0 s) : Keeps s0 (State.soundTile s c e a b cbase tile).2 := by
  unfold State.soundTile
  extract_lets t1 layer
  split
  · exact h
  · generalize s.selected c e t1 = x
    obtain ⟨⟨m, n, k⟩, sm, sn, sk⟩ := x
    dsimp only
    have h1 := keeps_checkOpnd (c := c) (o := a) (rows := sm) (k := k) (accepts := fmtOk 0 a.kind) (echk := natBit 18 t1.w0.toNat) h
    generalize s.checkOpnd c a sm k (fmtOk 0 a.kind) (natBit 18 t1.w0.toNat) = x at h1 ⊢
    obtain ⟨st1, s1⟩ := x
    dsimp only at h1 ⊢
    have h2 := keeps_checkOpnd (c := c) (o := b) (rows := sn) (k := k) (accepts := fmtOk 0 b.kind) (echk := natBit 18 t1.w0.toNat) h1
    generalize s1.checkOpnd c b sn k (fmtOk 0 b.kind) (natBit 18 t1.w0.toNat) = x at h2 ⊢
    obtain ⟨st2, s2⟩ := x
    dsimp only at h2 ⊢
    generalize (if st1 = stOK then st2 else if st2 = stOK then st1 else stWorst st1 st2) = st
    split
    · exact h2
    · split
      · exact h2
      · exact keeps_soundEnd h2

theorem keeps_soundEntry {c e empty i} (h : Keeps s0 s) : Keeps s0 (State.soundEntry s c e empty i).2 := by
  unfold State.soundEntry
  repeat' first
    | with_reducible assumption | with_reducible apply keeps_unitRd | with_reducible apply keeps_soundTile
    | (with_reducible apply keeps_of_snd; with_reducible assumption) | (extract_lets +onlyGivenNames x; clear_value x) | split

theorem keeps_soundList {c e st0 empty i x6} (h : Keeps s0 s) : Keeps s0 (State.soundList s c e st0 empty i x6).2 := by
  fun_induction State.soundList s c e st0 empty i x6
  repeat' first
    | with_reducible assumption | with_reducible apply keeps_soundEntry | (with_reducible apply keeps_of_snd; with_reducible assumption)
    | apply_assumption

theorem keeps_runSound {c e} (h : Keeps s0 s) : Keeps s0 (State.runSound s c e).2 := by
  unfold State.runSound
  repeat' first
    | with_reducible assumption | with_reducible apply keeps_readBtab | with_reducible apply keeps_soundList | with_reducible apply keeps_soundTile
    | (with_reducible apply keeps_of_snd; with_reducible assumption) | (extract_lets +onlyGivenNames x; clear_value x) | split

theorem keeps_runEntry {c e} (h : Keeps s0 s) : Keeps s0 (State.runEntry s c e).2 := by
  unfold State.runEntry
  repeat' first
    | with_reducible assumption | with_reducible apply keeps_runGemm | with_reducible apply keeps_runConvert | with_reducible apply keeps_runVector
    | with_reducible apply keeps_runMove | with_reducible apply keeps_runSound | (extract_lets +onlyGivenNames x; clear_value x) | split

theorem keeps_startEntry {c e} (h : Keeps s0 s) : Keeps s0 (State.startEntry s c e) := by
  unfold State.startEntry
  repeat' first
    | with_reducible assumption | with_reducible apply keeps_runEntry | with_reducible apply keeps_modCore

theorem keeps_kickFrom {c x2} (h : Keeps s0 s) : Keeps s0 (State.kickFrom s c x2) := by
  fun_induction State.kickFrom s c x2
  repeat' first
    | with_reducible assumption | with_reducible apply keeps_startEntry | apply_assumption

theorem keeps_kick {c} (h : Keeps s0 s) : Keeps s0 (State.kick s c) := by
  unfold State.kick
  repeat' first
    | with_reducible assumption | with_reducible apply keeps_syncQueues | with_reducible apply keeps_kickFrom

theorem keeps_advance {c n} (h : Keeps s0 s) : Keeps s0 (State.advance s c n) := by
  unfold State.advance
  repeat' first
    | with_reducible assumption | with_reducible apply keeps_modCore

theorem keeps_enqueue {c e n} (h : Keeps s0 s) : Keeps s0 (State.enqueue s c e n) := by
  unfold State.enqueue
  repeat' first
    | with_reducible assumption | with_reducible apply keeps_modCore | with_reducible apply keeps_kick | with_reducible apply keeps_advance

theorem keeps_clearSlot {c t1} (h : Keeps s0 s) : Keeps s0 (State.clearSlot s c t1) := by
  unfold State.clearSlot
  repeat' first
    | with_reducible assumption | with_reducible apply keeps_wr | with_reducible apply keeps_wrWide | split

theorem keeps_clearTracker {c t1} (h : Keeps s0 s) : Keeps s0 (State.clearTracker s c t1) := by
  unfold State.clearTracker
  repeat' first
    | with_reducible assumption | with_reducible apply keeps_wb | with_reducible apply keeps_wf | with_reducible apply keeps_setObs
    | (extract_lets +onlyGivenNames x; refine keeps_cut (s0 := s0) (x := x) ?_ (fun h => ?_); rotate_left; clear_value x; rotate_right; subst x)
    | intro _ _ _ | (extract_lets +onlyGivenNames x; clear_value x) | with_reducible apply keeps_foldl | split

theorem keeps_setLastSt {c q st} (h : Keeps s0 s) : Keeps s0 (State.setLastSt s c q st) := by
  unfold State.setLastSt
  repeat' first
    | with_reducible assumption | with_reducible apply keeps_wf | split

theorem keeps_result {c d v n} (h : Keeps s0 s) : Keeps s0 (State.result s c d v n) := by
  unfold State.result
  repeat' first
    | with_reducible assumption | with_reducible apply keeps_advance | with_reducible apply keeps_modCore

theorem keeps_tillerFault {c q pc st} (h : Keeps s0 s) : Keeps s0 (State.tillerFault s c q pc st) := by
  unfold State.tillerFault
  repeat' first
    | with_reducible assumption | with_reducible apply keeps_syncQueues | with_reducible apply keeps_setCore | with_reducible apply keeps_wf
    | with_reducible apply keeps_wb | with_reducible apply keeps_post | with_reducible apply keeps_veto
    | (extract_lets +onlyGivenNames x; refine keeps_cut (s0 := s0) (x := x) ?_ (fun h => ?_); rotate_left; clear_value x; rotate_right; subst x)
    | (extract_lets +onlyGivenNames x; have q := fun a => x a; clear q; subst x) | (extract_lets +onlyGivenNames x; clear_value x) | split

theorem keeps_selfFault {c st} (h : Keeps s0 s) : Keeps s0 (State.selfFault s c st) := by
  unfold State.selfFault
  repeat' first
    | with_reducible assumption | with_reducible apply keeps_tillerFault

theorem keeps_setEngine {e g} (h : Keeps s0 s) : Keeps s0 (State.setEngine s e g) := by
  unfold State.setEngine
  repeat' first
    | with_reducible apply keeps_wf | with_reducible exact keeps_engines (by with_reducible assumption) (spWf_put _ _)

theorem keeps_syncReclaim {dev die ctr} (h : Keeps s0 s) : Keeps s0 (State.syncReclaim s dev die ctr) := by
  unfold State.syncReclaim
  repeat' first
    | with_reducible assumption | with_reducible apply keeps_wf

theorem keeps_setClaim {key k} (h : Keeps s0 s) : Keeps s0 (s.setClaim key k) := keeps_claims h (spWf_put _ _)

theorem keeps_issueIndex {c dev die ctr i} (h : Keeps s0 s) : Keeps s0 (State.issueIndex s c dev die ctr i).2 := by
  unfold State.issueIndex
  repeat' first
    | with_reducible assumption | with_reducible apply keeps_setClaim | with_reducible apply keeps_bumpF

theorem keeps_takeIndex {c dev die ctr} (h : Keeps s0 s) : ∀ r, s.takeIndex c dev die ctr = some r → Keeps s0 r.2 := by
  unfold State.takeIndex
  intro r hr
  split at hr
  · injection hr with hr; subst hr
    exact keeps_issueIndex (keeps_bumpF (keeps_syncReclaim (keeps_setClaim h)))
  · injection hr with hr; subst hr
    exact keeps_issueIndex (keeps_wf h)
  · injection hr with hr; subst hr
    exact h
  · exact nomatch hr

theorem keeps_claimDone {c t1 dev die ctr} (h : Keeps s0 s) : Keeps s0 (State.claimDone s c t1 dev die ctr).2 := by
  unfold State.claimDone
  repeat' first
    | with_reducible assumption | with_reducible apply keeps_setClaim | with_reducible apply keeps_bumpF | with_reducible apply keeps_wf
    | (extract_lets +onlyGivenNames x; refine keeps_cut (s0 := s0) (x := x) ?_ (fun h => ?_); rotate_left; clear_value x; rotate_right; subst x)
    | (extract_lets +onlyGivenNames x; clear_value x) | split

theorem keeps_runClaim {c t1} (h : Keeps s0 s) : KeepsO s0 (State.runClaim s c t1) := by
  unfold State.runClaim
  dsimp only
  split
  · exact keepsO_none
  split
  · exact keepsO_some (keeps_selfFault h)
  split
  · split
    · exact keepsO_some (keeps_selfFault h)
    · intro t e
      obtain ⟨r, hr, rfl⟩ := Option.map_eq_some_iff.mp e
      exact keeps_result (keeps_takeIndex h r hr)
  split
  · exact keepsO_none
  · exact keepsO_some (keeps_result (keeps_claimDone h))

theorem keeps_runFence {c t1} (h : Keeps s0 s) : KeepsO s0 (State.runFence s c t1) := by
  unfold State.runFence
  dsimp only
  split
  · exact keepsO_none
  split
  · exact keepsO_some (keeps_selfFault h)
  split
  · exact keepsO_some (keeps_selfFault h)
  split
  · exact keepsO_none
  · refine keepsO_some ?_
    split
    · exact keeps_wf (keeps_advance h)
    · exact keeps_advance h

theorem keeps_runOwn {c t1} (h : Keeps s0 s) : KeepsO s0 (State.runOwn s c t1) := by
  unfold State.runOwn
  split
  · exact keeps_runClaim h
  · exact keeps_runFence h

theorem keeps_retry {c} (h : Keeps s0 s) : Keeps s0 (State.retry s c) := by
  unfold State.retry
  repeat' first
    | with_reducible assumption | with_reducible apply keeps_advance | with_reducible apply keeps_result | with_reducible apply keeps_modCore
    | with_reducible apply keeps_runOwn | (extract_lets +onlyGivenNames x; clear_value x) | with_reducible apply keeps_getD | split

theorem keeps_completeEntry {c e st} (h : Keeps s0 s) : Keeps s0 (State.completeEntry s c e st) := by
  unfold State.completeEntry
  repeat' first
    | with_reducible assumption | with_reducible apply keeps_modCore | with_reducible apply keeps_setLastSt | with_reducible apply keeps_tillerFault
    | with_reducible apply keeps_retry | with_reducible apply keeps_kick | split

theorem keeps_issue {c n f} (h : Keeps s0 s) (hf : Keeps s0 s → Keeps s0 (f s)) : Keeps s0 (State.issue s c n f) := by
  unfold State.issue
  dsimp only
  split
  · exact h
  split
  · exact keeps_selfFault h
  split
  · exact keeps_selfFault h
  · exact hf h

theorem keeps_issueTile {c t1} (h : Keeps s0 s) : Keeps s0 (State.issueTile s c t1) := by
  unfold State.issueTile
  repeat' first
    | with_reducible assumption | with_reducible apply keeps_issue | with_reducible apply keeps_enqueue | with_reducible apply keeps_modCore | intro _
    | (extract_lets +onlyGivenNames x; clear_value x) | split

theorem keeps_execRedmax {core t1} (h : Keeps s0 s) : nextAnd (execRedmax core t1 s) (Keeps s0) := by
  unfold execRedmax
  repeat' first
    | with_reducible assumption | with_reducible apply nextAnd_next | with_reducible apply keeps_issueTile

theorem keeps_execVectorLd {core t1} (h : Keeps s0 s) : nextAnd (execVectorLd core t1 s) (Keeps s0) := by
  unfold execVectorLd
  repeat' first
    | with_reducible assumption | with_reducible apply nextAnd_next | with_reducible apply keeps_issueTile

theorem keeps_execClaimTakeResume {core} (h : Keeps s0 s) : nextAnd (execClaimTakeResume core s) (Keeps s0) := by
  unfold execClaimTakeResume
  repeat' first
    | with_reducible assumption | with_reducible apply nextAnd_next | with_reducible apply keeps_retry | split

theorem keeps_execVectorMul {core t1} (h : Keeps s0 s) : nextAnd (execVectorMul core t1 s) (Keeps s0) := by
  unfold execVectorMul
  repeat' first
    | with_reducible assumption | with_reducible apply nextAnd_next | with_reducible apply keeps_issueTile

theorem keeps_execVectorMin {core t1} (h : Keeps s0 s) : nextAnd (execVectorMin core t1 s) (Keeps s0) := by
  unfold execVectorMin
  repeat' first
    | with_reducible assumption | with_reducible apply nextAnd_next | with_reducible apply keeps_issueTile

theorem keeps_execInstructionComplete {core queue} (h : Keeps s0 s) : nextAnd (execInstructionComplete core queue s) (Keeps s0) := by
  unfold execInstructionComplete
  repeat' first
    | with_reducible assumption | with_reducible apply nextAnd_next | with_reducible apply keeps_completeEntry | split

theorem keeps_execVectorSqrt {core t1} (h : Keeps s0 s) : nextAnd (execVectorSqrt core t1 s) (Keeps s0) := by
  unfold execVectorSqrt
  repeat' first
    | with_reducible assumption | with_reducible apply nextAnd_next | with_reducible apply keeps_issueTile

theorem keeps_execVectorOr {core t1} (h : Keeps s0 s) : nextAnd (execVectorOr core t1 s) (Keeps s0) := by
  unfold execVectorOr
  repeat' first
    | with_reducible assumption | with_reducible apply nextAnd_next | with_reducible apply keeps_issueTile

theorem keeps_execCmpeq {core t1} (h : Keeps s0 s) : nextAnd (execCmpeq core t1 s) (Keeps s0) := by
  unfold execCmpeq
  repeat' first
    | with_reducible assumption | with_reducible apply nextAnd_next | with_reducible apply keeps_issueTile

theorem keeps_execCvt {core t1} (h : Keeps s0 s) : nextAnd (execCvt core t1 s) (Keeps s0) := by
  unfold execCvt
  repeat' first
    | with_reducible assumption | with_reducible apply nextAnd_next | with_reducible apply keeps_issueTile

theorem keeps_execVectorAdd {core t1} (h : Keeps s0 s) : nextAnd (execVectorAdd core t1 s) (Keeps s0) := by
  unfold execVectorAdd
  repeat' first
    | with_reducible assumption | with_reducible apply nextAnd_next | with_reducible apply keeps_issueTile

theorem keeps_pushHist {c t1 cur drop} (h : Keeps s0 s) : Keeps s0 (State.pushHist s c t1 cur drop) := by
  unfold State.pushHist
  repeat' first
    | with_reducible assumption | with_reducible apply keeps_wf | with_reducible apply keeps_setObs | split

theorem keeps_setRecords {c t1 a} (h : Keeps s0 s) : Keeps s0 (State.setRecords s c t1 a) := by
  unfold State.setRecords
  repeat' first
    | with_reducible assumption | with_reducible apply keeps_setBexp | intro _ _ _ | (extract_lets +onlyGivenNames x; clear_value x)
    | with_reducible apply keeps_foldl

theorem keeps_foldTracker {c t1} (h : Keeps s0 s) : Keeps s0 (State.foldTracker s c t1) := by
  unfold State.foldTracker
  repeat' first
    | with_reducible assumption | with_reducible apply keeps_pushHist | with_reducible apply keeps_setRecords | with_reducible apply keeps_setObs
    | with_reducible apply keeps_wf | with_reducible apply keeps_post | with_reducible apply keeps_wb
    | (extract_lets +onlyGivenNames x; refine keeps_cut (s0 := s0) (x := x) ?_ (fun h => ?_); rotate_left; clear_value x; rotate_right; subst x)
    | (extract_lets +onlyGivenNames x; clear_value x) | split

theorem keeps_reclaimAt {c dev die ctr} (h : Keeps s0 s) : Keeps s0 (State.reclaimAt s c dev die ctr) := by
  unfold State.reclaimAt
  repeat' first
    | with_reducible assumption | with_reducible apply keeps_setClaim | with_reducible apply keeps_wf | with_reducible apply keeps_syncReclaim
    | (extract_lets +onlyGivenNames x; refine keeps_cut (s0 := s0) (x := x) ?_ (fun h => ?_); rotate_left; clear_value x; rotate_right; subst x)
    | (extract_lets +onlyGivenNames x; clear_value x) | split

theorem keeps_reclaimTokens {c} (h : Keeps s0 s) : Keeps s0 (State.reclaimTokens s c) := by
  unfold State.reclaimTokens
  repeat' first
    | with_reducible assumption | with_reducible apply keeps_reclaimAt | with_reducible apply keeps_wf | intro _ _ _ | with_reducible apply keeps_foldl

theorem keeps_execVectorXor {core t1} (h : Keeps s0 s) : nextAnd (execVectorXor core t1 s) (Keeps s0) := by
  unfold execVectorXor
  repeat' first
    | with_reducible assumption | with_reducible apply nextAnd_next | with_reducible apply keeps_issueTile

theorem keeps_execMoveSrfToBasin {core t1} (h : Keeps s0 s) : nextAnd (execMoveSrfToBasin core t1 s) (Keeps s0) := by
  unfold execMoveSrfToBasin
  repeat' first
    | with_reducible assumption | with_reducible apply nextAnd_next | with_reducible apply keeps_issueTile

theorem keeps_issueOwn {c t1} (h : Keeps s0 s) : Keeps s0 (State.issueOwn s c t1) := by
  unfold State.issueOwn
  exact keeps_issue h (fun h => keeps_getD (keeps_runOwn h) (keeps_modCore h))

theorem keeps_execIssueResume {core} (h : Keeps s0 s) : nextAnd (execIssueResume core s) (Keeps s0) := by
  unfold execIssueResume
  repeat' first
    | with_reducible assumption | with_reducible apply nextAnd_next | with_reducible apply keeps_enqueue | (extract_lets +onlyGivenNames x; clear_value x)
    | split

theorem keeps_execGemm {core t1} (h : Keeps s0 s) : nextAnd (execGemm core t1 s) (Keeps s0) := by
  unfold execGemm
  repeat' first
    | with_reducible assumption | with_reducible apply nextAnd_next | with_reducible apply keeps_issueTile

theorem keeps_execConvert {core t1} (h : Keeps s0 s) : nextAnd (execConvert core t1 s) (Keeps s0) := by
  unfold execConvert
  repeat' first
    | with_reducible assumption | with_reducible apply nextAnd_next | with_reducible apply keeps_issueTile

theorem keeps_execSound {core t1} (h : Keeps s0 s) : nextAnd (execSound core t1 s) (Keeps s0) := by
  unfold execSound
  repeat' first
    | with_reducible assumption | with_reducible apply nextAnd_next | with_reducible apply keeps_issueTile

theorem keeps_execVectorSub {core t1} (h : Keeps s0 s) : nextAnd (execVectorSub core t1 s) (Keeps s0) := by
  unfold execVectorSub
  repeat' first
    | with_reducible assumption | with_reducible apply nextAnd_next | with_reducible apply keeps_issueTile

theorem keeps_execVectorFma {core t1} (h : Keeps s0 s) : nextAnd (execVectorFma core t1 s) (Keeps s0) := by
  unfold execVectorFma
  repeat' first
    | with_reducible assumption | with_reducible apply nextAnd_next | with_reducible apply keeps_issueTile

theorem keeps_execVectorDiv {core t1} (h : Keeps s0 s) : nextAnd (execVectorDiv core t1 s) (Keeps s0) := by
  unfold execVectorDiv
  repeat' first
    | with_reducible assumption | with_reducible apply nextAnd_next | with_reducible apply keeps_issueTile

theorem keeps_execVectorRem {core t1} (h : Keeps s0 s) : nextAnd (execVectorRem core t1 s) (Keeps s0) := by
  unfold execVectorRem
  repeat' first
    | with_reducible assumption | with_reducible apply nextAnd_next | with_reducible apply keeps_issueTile

theorem keeps_execVectorMax {core t1} (h : Keeps s0 s) : nextAnd (execVectorMax core t1 s) (Keeps s0) := by
  unfold execVectorMax
  repeat' first
    | with_reducible assumption | with_reducible apply nextAnd_next | with_reducible apply keeps_issueTile

theorem keeps_execCmplt {core t1} (h : Keeps s0 s) : nextAnd (execCmplt core t1 s) (Keeps s0) := by
  unfold execCmplt
  repeat' first
    | with_reducible assumption | with_reducible apply nextAnd_next | with_reducible apply keeps_issueTile

theorem keeps_execCmple {core t1} (h : Keeps s0 s) : nextAnd (execCmple core t1 s) (Keeps s0) := by
  unfold execCmple
  repeat' first
    | with_reducible assumption | with_reducible apply nextAnd_next | with_reducible apply keeps_issueTile

theorem keeps_execNeg {core t1} (h : Keeps s0 s) : nextAnd (execNeg core t1 s) (Keeps s0) := by
  unfold execNeg
  repeat' first
    | with_reducible assumption | with_reducible apply nextAnd_next | with_reducible apply keeps_issueTile

theorem keeps_execAbs {core t1} (h : Keeps s0 s) : nextAnd (execAbs core t1 s) (Keeps s0) := by
  unfold execAbs
  repeat' first
    | with_reducible assumption | with_reducible apply nextAnd_next | with_reducible apply keeps_issueTile

theorem keeps_execVectorAnd {core t1} (h : Keeps s0 s) : nextAnd (execVectorAnd core t1 s) (Keeps s0) := by
  unfold execVectorAnd
  repeat' first
    | with_reducible assumption | with_reducible apply nextAnd_next | with_reducible apply keeps_issueTile

theorem keeps_execShl {core t1} (h : Keeps s0 s) : nextAnd (execShl core t1 s) (Keeps s0) := by
  unfold execShl
  repeat' first
    | with_reducible assumption | with_reducible apply nextAnd_next | with_reducible apply keeps_issueTile

theorem keeps_execShr {core t1} (h : Keeps s0 s) : nextAnd (execShr core t1 s) (Keeps s0) := by
  unfold execShr
  repeat' first
    | with_reducible assumption | with_reducible apply nextAnd_next | with_reducible apply keeps_issueTile

theorem keeps_execRedsum {core t1} (h : Keeps s0 s) : nextAnd (execRedsum core t1 s) (Keeps s0) := by
  unfold execRedsum
  repeat' first
    | with_reducible assumption | with_reducible apply nextAnd_next | with_reducible apply keeps_issueTile

theorem keeps_execVectorSt {core t1} (h : Keeps s0 s) : nextAnd (execVectorSt core t1 s) (Keeps s0) := by
  unfold execVectorSt
  repeat' first
    | with_reducible assumption | with_reducible apply nextAnd_next | with_reducible apply keeps_issueTile

theorem keeps_execLdb {core t1} (h : Keeps s0 s) : nextAnd (execLdb core t1 s) (Keeps s0) := by
  unfold execLdb
  repeat' first
    | with_reducible assumption | with_reducible apply nextAnd_next | with_reducible apply keeps_issueTile

theorem keeps_execStb {core t1} (h : Keeps s0 s) : nextAnd (execStb core t1 s) (Keeps s0) := by
  unfold execStb
  repeat' first
    | with_reducible assumption | with_reducible apply nextAnd_next | with_reducible apply keeps_issueTile

theorem keeps_execSrfw {core t1} (h : Keeps s0 s) : nextAnd (execSrfw core t1 s) (Keeps s0) := by
  unfold execSrfw
  repeat' first
    | with_reducible assumption | with_reducible apply nextAnd_next | with_reducible apply keeps_issueTile

theorem keeps_execMoveAccToReg {core t1} (h : Keeps s0 s) : nextAnd (execMoveAccToReg core t1 s) (Keeps s0) := by
  unfold execMoveAccToReg
  repeat' first
    | with_reducible assumption | with_reducible apply nextAnd_next | with_reducible apply keeps_issueTile

theorem keeps_execMoveRegToAcc {core t1} (h : Keeps s0 s) : nextAnd (execMoveRegToAcc core t1 s) (Keeps s0) := by
  unfold execMoveRegToAcc
  repeat' first
    | with_reducible assumption | with_reducible apply nextAnd_next | with_reducible apply keeps_issueTile

theorem keeps_execMoveBasinCopy {core t1} (h : Keeps s0 s) : nextAnd (execMoveBasinCopy core t1 s) (Keeps s0) := by
  unfold execMoveBasinCopy
  repeat' first
    | with_reducible assumption | with_reducible apply nextAnd_next | with_reducible apply keeps_issueTile

theorem keeps_execMoveBasinToSrf {core t1} (h : Keeps s0 s) : nextAnd (execMoveBasinToSrf core t1 s) (Keeps s0) := by
  unfold execMoveBasinToSrf
  repeat' first
    | with_reducible assumption | with_reducible apply nextAnd_next | with_reducible apply keeps_issueTile

theorem keeps_execMoveClearRows {core t1} (h : Keeps s0 s) : nextAnd (execMoveClearRows core t1 s) (Keeps s0) := by
  unfold execMoveClearRows
  repeat' first
    | with_reducible assumption | with_reducible apply nextAnd_next | with_reducible apply keeps_issueTile

theorem keeps_execFenceQueue {core t1} (h : Keeps s0 s) : nextAnd (execFenceQueue core t1 s) (Keeps s0) := by
  unfold execFenceQueue
  repeat' first
    | with_reducible assumption | with_reducible apply nextAnd_next | with_reducible apply keeps_issueOwn

theorem keeps_execFenceVisible {core t1} (h : Keeps s0 s) : nextAnd (execFenceVisible core t1 s) (Keeps s0) := by
  unfold execFenceVisible
  repeat' first
    | with_reducible assumption | with_reducible apply nextAnd_next | with_reducible apply keeps_issueOwn

theorem keeps_execFenceGlobal {core t1} (h : Keeps s0 s) : nextAnd (execFenceGlobal core t1 s) (Keeps s0) := by
  unfold execFenceGlobal
  repeat' first
    | with_reducible assumption | with_reducible apply nextAnd_next | with_reducible apply keeps_issueOwn

theorem keeps_execFenceEop {core t1} (h : Keeps s0 s) : nextAnd (execFenceEop core t1 s) (Keeps s0) := by
  unfold execFenceEop
  repeat' first
    | with_reducible assumption | with_reducible apply nextAnd_next | with_reducible apply keeps_issueOwn

theorem keeps_execClaimTake {core t1} (h : Keeps s0 s) : nextAnd (execClaimTake core t1 s) (Keeps s0) := by
  unfold execClaimTake
  repeat' first
    | with_reducible assumption | with_reducible apply nextAnd_next | with_reducible apply keeps_issueOwn

theorem keeps_execClaimDone {core t1} (h : Keeps s0 s) : nextAnd (execClaimDone core t1 s) (Keeps s0) := by
  unfold execClaimDone
  repeat' first
    | with_reducible assumption | with_reducible apply nextAnd_next | with_reducible apply keeps_issueOwn

end Sys2Proof.Machine
end

