-- ==== Sys2Proof/Laws/KeepsUnits.lean ====
section
/-! SUPPORT. What each definition keeps (Laws/Keeps.lean): rings, DMA, mailboxes, training, events, time, links, resets and schedules. -/

namespace Sys2Proof.Machine

variable {s0 s t : State}

theorem keeps_gnDeliver {c r} (h : Keeps s0 s) : Keeps s0 (State.gnDeliver s c r) := by
  unfold State.gnDeliver
  repeat' first
    | with_reducible assumption | with_reducible apply keeps_wrWide | with_reducible apply keeps_wr | with_reducible apply keeps_wb

theorem keeps_setSub {p b k} (h : Keeps s0 s) : Keeps s0 (s.setSub p b k) := keeps_subs h (spWf_put _ _)

theorem keeps_modSub {p b f} (h : Keeps s0 s) : Keeps s0 (State.modSub s p b f) := by
  unfold State.modSub
  repeat' first
    | with_reducible assumption | with_reducible apply keeps_setSub

theorem keeps_wantFull {p b} (h : Keeps s0 s) : Keeps s0 (State.wantFull s p b) := by
  unfold State.wantFull
  repeat' first
    | with_reducible assumption | with_reducible apply keeps_modSub | split

theorem keeps_partFull {k} (h : Keeps s0 s) : Keeps s0 (State.partFull s k) := by
  unfold State.partFull
  repeat' first
    | with_reducible assumption | with_reducible apply keeps_wantFull | intro _ _ _ | with_reducible apply keeps_foldl

theorem keeps_ackedTo {p b n} (h : Keeps s0 s) : Keeps s0 (State.ackedTo s p b n) := by
  unfold State.ackedTo
  repeat' first
    | with_reducible assumption | with_reducible apply keeps_setSub

theorem keeps_acked {p b ack} (h : Keeps s0 s) : Keeps s0 (State.acked s p b ack) := by
  unfold State.acked
  dsimp only
  refine keeps_ite h (keeps_getD (fun t e => ?_) h)
  obtain ⟨n, _, rfl⟩ := Option.map_eq_some_iff.mp e
  exact keeps_ackedTo h

theorem keeps_setPort {p k} (h : Keeps s0 s) : Keeps s0 (s.setPort p k) := keeps_intake h (spWf_put _ _)

theorem keeps_syncPort {p} (h : Keeps s0 s) : Keeps s0 (State.syncPort s p) := by
  unfold State.syncPort
  repeat' first
    | with_reducible assumption | with_reducible apply keeps_wb | with_reducible apply keeps_wf | with_reducible apply keeps_setPort
    | (extract_lets +onlyGivenNames x; clear_value x) | split

theorem keeps_syncPorts (h : Keeps s0 s) : Keeps s0 (State.syncPorts s) := by
  unfold State.syncPorts
  repeat' first
    | with_reducible assumption | with_reducible apply keeps_syncPort | with_reducible apply keeps_foldl

theorem keeps_setLockSt {n} (h : Keeps s0 s) : Keeps s0 (State.setLockSt s n) := by
  unfold State.setLockSt
  repeat' first
    | with_reducible assumption | with_reducible apply keeps_wf | with_reducible apply keeps_syncPorts | split

theorem keeps_setVote {n} (h : Keeps s0 s) : Keeps s0 (State.setVote s n) := by
  unfold State.setVote
  repeat' first
    | with_reducible assumption | with_reducible apply keeps_wf

theorem keeps_sendReply {x st} (h : Keeps s0 s) : Keeps s0 (State.sendReply s x st) := by
  unfold State.sendReply
  repeat' first
    | with_reducible assumption | with_reducible apply keeps_syncQueues | with_reducible apply keeps_setLastSt | with_reducible apply keeps_setCore
    | with_reducible apply keeps_kick | with_reducible apply keeps_result | with_reducible apply keeps_sendResponse | with_reducible apply keeps_reply
    | with_reducible apply keeps_selfFault
    | (extract_lets +onlyGivenNames x; refine keeps_cut (s0 := s0) (x := x) ?_ (fun h => ?_); rotate_left; clear_value x; rotate_right; subst x)
    | (extract_lets +onlyGivenNames x; clear_value x) | split

theorem keeps_dmaHalt {e st dir addr desc} (h : Keeps s0 s) : Keeps s0 (State.dmaHalt s e st dir addr desc) := by
  unfold State.dmaHalt
  repeat' first
    | with_reducible assumption | with_reducible apply keeps_setEngine | with_reducible apply keeps_wrWide | with_reducible apply keeps_wf
    | with_reducible apply keeps_wb | with_reducible apply keeps_post

theorem keeps_remoteWritten {r e st} (h : Keeps s0 s) : Keeps s0 (State.remoteWritten s r e st) := by
  unfold State.remoteWritten
  repeat' first
    | with_reducible assumption | with_reducible apply keeps_setEngine | with_reducible apply keeps_retry | with_reducible apply keeps_dmaHalt
    | with_reducible exact keeps_other (by with_reducible assumption)
    | (extract_lets +onlyGivenNames x; refine keeps_cut (s0 := s0) (x := x) ?_ (fun h => ?_); rotate_left; clear_value x; rotate_right; subst x)
    | (extract_lets +onlyGivenNames x; clear_value x) | split

theorem keeps_storeDone {c n st} (h : Keeps s0 s) : Keeps s0 (State.storeDone s c n st) := by
  unfold State.storeDone
  repeat' first
    | with_reducible assumption | with_reducible apply keeps_setCore | with_reducible apply keeps_retry | with_reducible apply keeps_tillerFault
    | (extract_lets +onlyGivenNames x; refine keeps_cut (s0 := s0) (x := x) ?_ (fun h => ?_); rotate_left; clear_value x; rotate_right; subst x)
    | (extract_lets +onlyGivenNames x; clear_value x) | split

theorem keeps_completeRemote {tid st data} (h : Keeps s0 s) : Keeps s0 (State.completeRemote s tid st data) := by
  unfold State.completeRemote
  repeat' first
    | with_reducible assumption | with_reducible apply keeps_sendReply | with_reducible apply keeps_remoteWritten
    | with_reducible apply keeps_remoteAnswer | with_reducible apply keeps_storeDone | with_reducible apply keeps_modCore
    | with_reducible apply keeps_reply | (extract_lets +onlyGivenNames x; clear_value x) | split

theorem keeps_setLink {p b st} (h : Keeps s0 s) : Keeps s0 (State.setLink s p b st) := by
  unfold State.setLink
  repeat' first
    | with_reducible assumption | with_reducible apply keeps_wf

theorem keeps_wipeLink {p b} (h : Keeps s0 s) : Keeps s0 (State.wipeLink s p b) := by
  unfold State.wipeLink
  repeat' first
    | with_reducible assumption | with_reducible apply keeps_setSub | with_reducible apply keeps_wb | with_reducible apply keeps_wrWide

theorem keeps_setActive {p b mask} (h : Keeps s0 s) : Keeps s0 (State.setActive s p b mask) := by
  unfold State.setActive
  repeat' first
    | with_reducible assumption | with_reducible apply keeps_wf

theorem keeps_syncSources (h : Keeps s0 s) : Keeps s0 (State.syncSources s) := by
  unfold State.syncSources
  repeat' first
    | with_reducible exact keeps_other (by with_reducible assumption)

theorem keeps_setSrc {f b} (h : Keeps s0 s) : Keeps s0 (State.setSrc s f b) := by
  unfold State.setSrc
  repeat' first
    | with_reducible assumption | with_reducible apply keeps_syncSources | with_reducible apply keeps_wb

theorem keeps_syncEwe (h : Keeps s0 s) : Keeps s0 (State.syncEwe s) := by
  unfold State.syncEwe
  repeat' first
    | with_reducible assumption | with_reducible apply keeps_setSrc

theorem keeps_dmaUnack {e remote} (h : Keeps s0 s) : Keeps s0 (State.dmaUnack s e remote) := by
  unfold State.dmaUnack
  repeat' first
    | with_reducible assumption | with_reducible apply keeps_setEngine

theorem keeps_engineSend {e dev cls op a msop desc bs} (h : Keeps s0 s) : Keeps s0 (State.engineSend s e dev cls op a msop desc bs).2 := by
  unfold State.engineSend
  dsimp only
  split
  · exact keeps_dmaUnack (keeps_other (keeps_sendReq h))
  · exact keeps_sendReq h

theorem keeps_syncRing {r} (h : Keeps s0 s) : Keeps s0 (State.syncRing s r) := by
  unfold State.syncRing
  repeat' first
    | with_reducible assumption | with_reducible apply keeps_syncPort | intro _ _ _ | with_reducible apply keeps_foldl | split

theorem keeps_ringHalt {r st} (h : Keeps s0 s) : Keeps s0 (State.ringHalt s r st) := by
  unfold State.ringHalt
  repeat' first
    | with_reducible assumption | with_reducible apply keeps_wf | with_reducible apply keeps_post

theorem keeps_doorbell {m off size value} (h : Keeps s0 s) : Keeps s0 (State.doorbell s m off size value).2 := by
  unfold State.doorbell
  repeat' first
    | with_reducible assumption | with_reducible apply keeps_bumpF | with_reducible apply keeps_syncRing | with_reducible apply keeps_wr
    | with_reducible apply keeps_ringHalt
    | (extract_lets +onlyGivenNames x; refine keeps_cut (s0 := s0) (x := x) ?_ (fun h => ?_); rotate_left; clear_value x; rotate_right; subst x)
    | (extract_lets +onlyGivenNames x; clear_value x) | split

theorem keeps_dmaWr {e cls a desc row bs} (h : Keeps s0 s) : Keeps s0 (State.dmaWr s e cls a desc row bs).2 := by
  unfold State.dmaWr
  repeat' first
    | with_reducible assumption | with_reducible apply keeps_engineSend | with_reducible apply keeps_checkLocal | with_reducible apply keeps_memWrIn
    | with_reducible apply keeps_poundError | with_reducible apply keeps_dmaUnack | (with_reducible apply keeps_of_snd; with_reducible assumption)
    | (extract_lets +onlyGivenNames x; clear_value x) | split

theorem keeps_dmaSignalWr {e d} (h : Keeps s0 s) : Keeps s0 (State.dmaSignalWr s e d).2 := by
  unfold State.dmaSignalWr
  repeat' first
    | with_reducible assumption | with_reducible apply keeps_engineSend | with_reducible apply keeps_doorbell | with_reducible apply keeps_dmaWr
    | (extract_lets +onlyGivenNames x; clear_value x) | split

theorem keeps_dmaRd {e a n} (h : Keeps s0 s) : Keeps s0 (State.dmaRd s e a n).2.2 := by
  unfold State.dmaRd
  repeat' first
    | with_reducible assumption | with_reducible apply keeps_localGet | (extract_lets +onlyGivenNames x; clear_value x) | split

theorem keeps_copyPieces {e cls src dst n desc row x8} (h : Keeps s0 s) : Keeps s0 (State.copyPieces s e cls src dst n desc row x8).2 := by
  fun_induction State.copyPieces s e cls src dst n desc row x8
  repeat' first
    | with_reducible assumption | with_reducible apply keeps_dmaRd | with_reducible apply keeps_dmaWr
    | (with_reducible apply keeps_of_snd; with_reducible assumption) | (with_reducible apply keeps_of_snd_snd; with_reducible assumption)
    | apply_assumption

theorem keeps_fillPieces {e cls v dst desc row x7} (h : Keeps s0 s) : Keeps s0 (State.fillPieces s e cls v dst desc row x7).2 := by
  fun_induction State.fillPieces s e cls v dst desc row x7
  repeat' first
    | with_reducible assumption | with_reducible apply keeps_dmaWr | (with_reducible apply keeps_of_snd; with_reducible assumption) | apply_assumption

theorem keeps_msopPiece {e cls mtype mop dst desc bs} (h : Keeps s0 s) : Keeps s0 (State.msopPiece s e cls mtype mop dst desc bs).2 := by
  unfold State.msopPiece
  repeat' first
    | with_reducible assumption | with_reducible apply keeps_engineSend | with_reducible apply keeps_msop | with_reducible apply keeps_dmaUnack
    | (with_reducible apply keeps_of_snd; with_reducible assumption) | split

theorem keeps_msopPieces {e cls mtype mop src dst desc x8} (h : Keeps s0 s) : Keeps s0 (State.msopPieces s e cls mtype mop src dst desc x8).2 := by
  fun_induction State.msopPieces s e cls mtype mop src dst desc x8
  repeat' first
    | with_reducible assumption | with_reducible apply keeps_dmaRd | with_reducible apply keeps_msopPiece
    | (with_reducible apply keeps_of_snd; with_reducible assumption) | (with_reducible apply keeps_of_snd_snd; with_reducible assumption)
    | apply_assumption

theorem keeps_readGroup {e src x3} (h : Keeps s0 s) : Keeps s0 (State.readGroup s e src x3).2.2 := by
  fun_induction State.readGroup s e src x3
  repeat' first
    | with_reducible assumption | with_reducible apply keeps_dmaRd | (with_reducible apply keeps_of_snd_snd; with_reducible assumption) | apply_assumption

theorem keeps_getGroup {e src} (h : Keeps s0 s) : Keeps s0 (State.getGroup s e src).2.2 := by
  unfold State.getGroup
  repeat' first
    | with_reducible assumption | with_reducible apply keeps_dmaRd | with_reducible apply keeps_readGroup | split

theorem keeps_writePieces {e cls dst desc row bs x7} (h : Keeps s0 s) : Keeps s0 (State.writePieces s e cls dst desc row bs x7).2 := by
  fun_induction State.writePieces s e cls dst desc row bs x7
  repeat' first
    | with_reducible assumption | with_reducible apply keeps_dmaWr | (with_reducible apply keeps_of_snd; with_reducible assumption) | apply_assumption

theorem keeps_putGroup {e cls dst desc row bs} (h : Keeps s0 s) : Keeps s0 (State.putGroup s e cls dst desc row bs).2 := by
  unfold State.putGroup
  repeat' first
    | with_reducible assumption | with_reducible apply keeps_dmaWr | with_reducible apply keeps_writePieces | split

theorem keeps_bargeGroups {e cls chk src dst desc row x8} (h : Keeps s0 s) : Keeps s0 (State.bargeGroups s e cls chk src dst desc row x8).2 := by
  induction x8 generalizing s src dst with
  | zero => exact h
  | succ n ih =>
    rw [State.bargeGroups]
    have h1 := keeps_getGroup (e := e) (src := src) h
    generalize s.getGroup e src = x at h1 ⊢
    obtain ⟨r, bs, s1⟩ := x
    dsimp only at h1 ⊢
    split
    · exact h1
    split
    · refine keeps_post ?_
      split
      · exact keeps_uncorrectable h1
      · exact h1
    · have h2 := keeps_putGroup (e := e) (cls := cls) (dst := dst) (desc := desc) (row := row) (bs := bs) h1
      generalize s1.putGroup e cls dst desc row bs = x at h2 ⊢
      split
      · exact ih h2
      · exact h2

theorem keeps_dmaRow {e d i} (h : Keeps s0 s) : Keeps s0 (State.dmaRow s e d i).2 := by
  unfold State.dmaRow
  repeat' first
    | with_reducible assumption | with_reducible apply keeps_copyPieces | with_reducible apply keeps_fillPieces | with_reducible apply keeps_msopPieces
    | with_reducible apply keeps_bargeGroups | (extract_lets +onlyGivenNames x; clear_value x) | split

theorem keeps_dmaRows {e d i x4} (h : Keeps s0 s) : Keeps s0 (State.dmaRows s e d i x4).2 := by
  fun_induction State.dmaRows s e d i x4
  repeat' first
    | with_reducible assumption | with_reducible apply keeps_dmaRow | (with_reducible apply keeps_of_snd; with_reducible assumption) | apply_assumption

theorem keeps_dmaRun {e op} (h : Keeps s0 s) : Keeps s0 (State.dmaRun s e op) := by
  unfold State.dmaRun
  repeat' first
    | with_reducible assumption | with_reducible apply keeps_askAll | with_reducible apply keeps_dmaSignalWr | with_reducible apply keeps_dmaRows
    | with_reducible apply keeps_remoteForget | with_reducible apply keeps_setEngine | with_reducible apply keeps_dmaHalt
    | (extract_lets +onlyGivenNames x; refine keeps_cut (s0 := s0) (x := x.2) ?_ (fun h => ?_); rotate_left; clear_value x; rotate_right; subst x)
    | (extract_lets +onlyGivenNames x; clear_value x) | split

theorem keeps_syncFatal (h : Keeps s0 s) : Keeps s0 (State.syncFatal s) := by
  unfold State.syncFatal
  repeat' first
    | with_reducible assumption | with_reducible apply keeps_wb

theorem keeps_fatalSlot {e} (h : Keeps s0 s) : Keeps s0 (State.fatalSlot s e) := by
  unfold State.fatalSlot
  repeat' first
    | with_reducible assumption | with_reducible apply keeps_store | with_reducible apply keeps_wf | with_reducible apply keeps_setBytes
    | with_reducible apply keeps_syncFatal | with_reducible exact keeps_other (by with_reducible assumption)
    | (extract_lets +onlyGivenNames x; refine keeps_cut (s0 := s0) (x := x) ?_ (fun h => ?_); rotate_left; clear_value x; rotate_right; subst x)
    | (extract_lets +onlyGivenNames x; clear_value x) | split

theorem keeps_setRing {r l} (h : Keeps s0 s) : Keeps s0 (s.setRing r l) := keeps_rings h (spWf_put _ _)

theorem keeps_keeperWrite {addr n v} (h : Keeps s0 s) : Keeps s0 (State.keeperWrite s addr n v) := by
  unfold State.keeperWrite
  repeat' first
    | with_reducible assumption | with_reducible apply keeps_sendReq | with_reducible apply keeps_doorbell | with_reducible apply keeps_checkLocal
    | with_reducible apply keeps_memWr | (with_reducible apply keeps_of_snd; with_reducible assumption) | (extract_lets +onlyGivenNames x; clear_value x)
    | split

theorem keeps_ringEnd {r d st} (h : Keeps s0 s) : Keeps s0 (State.ringEnd s r d st) := by
  unfold State.ringEnd
  repeat' first
    | with_reducible assumption | with_reducible apply keeps_syncRing | with_reducible apply keeps_setRing | with_reducible apply keeps_keeperWrite
    | (extract_lets +onlyGivenNames x; refine keeps_cut (s0 := s0) (x := x) ?_ (fun h => ?_); rotate_left; clear_value x; rotate_right; subst x)
    | (extract_lets +onlyGivenNames x; clear_value x) | split

theorem keeps_ringSweep {r x2} (h : Keeps s0 s) : Keeps s0 (State.ringSweep s r x2) := by
  fun_induction State.ringSweep s r x2
  repeat' first
    | with_reducible assumption | with_reducible apply keeps_ringEnd | apply_assumption

theorem keeps_ringComplete {r d st} (h : Keeps s0 s) : Keeps s0 (State.ringComplete s r d st) := by
  unfold State.ringComplete
  repeat' first
    | with_reducible assumption | with_reducible apply keeps_ringSweep | with_reducible apply keeps_ringEnd

theorem keeps_loseBasins {k} (h : Keeps s0 s) : Keeps s0 (State.loseBasins s k) := by
  unfold State.loseBasins
  repeat' first
    | with_reducible assumption | with_reducible apply keeps_clearMem | intro _ _ _ | with_reducible apply keeps_foldl

theorem keeps_syncResets (h : Keeps s0 s) : Keeps s0 (State.syncResets s) := by
  unfold State.syncResets
  repeat' first
    | with_reducible assumption | with_reducible apply keeps_wb | with_reducible apply keeps_wf

theorem keeps_enableDom {k} (h : Keeps s0 s) : Keeps s0 (State.enableDom s k) := by
  unfold State.enableDom
  repeat' first
    | with_reducible assumption | with_reducible apply keeps_wb | with_reducible apply keeps_bumpF | with_reducible apply keeps_wf
    | (extract_lets +onlyGivenNames x; refine keeps_cut (s0 := s0) (x := x) ?_ (fun h => ?_); rotate_left; clear_value x; rotate_right; subst x)
    | (extract_lets +onlyGivenNames x; clear_value x) | split

theorem keeps_gnReset {c} (h : Keeps s0 s) : Keeps s0 (State.gnReset s c) := by
  unfold State.gnReset
  repeat' first
    | with_reducible assumption | with_reducible apply keeps_veto | with_reducible exact keeps_other (by with_reducible assumption)
    | (extract_lets +onlyGivenNames x; clear_value x) | split

theorem keeps_endChainEntry {e st k} (h : Keeps s0 s) : Keeps s0 (State.endChainEntry s e st k) := by
  unfold State.endChainEntry
  repeat' first
    | with_reducible assumption | with_reducible apply keeps_completeEntry | with_reducible apply keeps_retry | split

theorem keeps_dmaAbortAll {e} (h : Keeps s0 s) : Keeps s0 (State.dmaAbortAll s e) := by
  unfold State.dmaAbortAll
  repeat' first
    | with_reducible assumption | with_reducible apply keeps_wf | with_reducible apply keeps_setEngine | with_reducible apply keeps_remoteDrop
    | with_reducible apply keeps_endChainEntry
    | (extract_lets +onlyGivenNames x; refine keeps_cut (s0 := s0) (x := x) ?_ (fun h => ?_); rotate_left; clear_value x; rotate_right; subst x)
    | intro _ _ _ | (extract_lets +onlyGivenNames x; clear_value x) | with_reducible apply keeps_foldl

theorem keeps_enterEngine {e} (h : Keeps s0 s) : Keeps s0 (State.enterEngine s e) := by
  unfold State.enterEngine
  repeat' first
    | with_reducible assumption | with_reducible apply keeps_dmaAbortAll | with_reducible apply keeps_setEngine | with_reducible apply keeps_wf
    | (extract_lets +onlyGivenNames x; clear_value x) | split

theorem keeps_enterCore {c} (h : Keeps s0 s) : Keeps s0 (State.enterCore s c) := by
  unfold State.enterCore
  repeat' first
    | with_reducible assumption | with_reducible apply keeps_veto | with_reducible apply keeps_gnReset | with_reducible apply keeps_syncQueues
    | with_reducible apply keeps_setCore | with_reducible apply keeps_wf | with_reducible apply keeps_enterEngine | split

theorem keeps_wantTowpath {p b} (h : Keeps s0 s) : Keeps s0 (State.wantTowpath s p b) := by
  unfold State.wantTowpath
  repeat' first
    | with_reducible assumption | with_reducible apply keeps_modSub | split

theorem keeps_towLane {p b} (h : Keeps s0 s) : Keeps s0 (State.towLane s p b) := by
  unfold State.towLane
  repeat' first
    | with_reducible assumption | with_reducible apply keeps_setActive | split

theorem keeps_wakeDom {k} (h : Keeps s0 s) : Keeps s0 (State.wakeDom s k) := by
  unfold State.wakeDom
  repeat' first
    | with_reducible assumption | with_reducible apply keeps_enableDom | with_reducible exact keeps_other (by with_reducible assumption)
    | (extract_lets +onlyGivenNames x; clear_value x) | split

theorem keeps_wakeMask {mask} (h : Keeps s0 s) : Keeps s0 (State.wakeMask s mask) := by
  unfold State.wakeMask
  repeat' first
    | with_reducible assumption | with_reducible apply keeps_wakeDom | intro _ _ _ | with_reducible apply keeps_foldl | split

theorem keeps_peerTowpath {p b} (h : Keeps s0 s) : Keeps s0 (State.peerTowpath s p b) := by
  unfold State.peerTowpath
  repeat' first
    | with_reducible assumption | with_reducible apply keeps_modSub | split

theorem keeps_actControl {p b typ mask} (h : Keeps s0 s) : Keeps s0 (State.actControl s p b typ mask) := by
  unfold State.actControl
  repeat' first
    | with_reducible assumption | with_reducible apply keeps_wakeMask | with_reducible apply keeps_peerTowpath | with_reducible apply keeps_wantTowpath
    | with_reducible apply keeps_wantFull | split

theorem keeps_actLatched {p b} (h : Keeps s0 s) : Keeps s0 (State.actLatched s p b) := by
  unfold State.actLatched
  repeat' first
    | with_reducible assumption | with_reducible apply keeps_actControl | with_reducible apply keeps_modSub | intro _ _ _
    | (extract_lets +onlyGivenNames x; clear_value x) | with_reducible apply keeps_foldl

theorem keeps_clearCo {c lo hi} (h : Keeps s0 s) : Keeps s0 (State.clearCo s c lo hi) := by
  unfold State.clearCo
  repeat' first
    | with_reducible assumption | with_reducible apply keeps_clearRegs

theorem keeps_reloadImage {c} (h : Keeps s0 s) : Keeps s0 (State.reloadImage s c) := by
  unfold State.reloadImage
  repeat' first
    | with_reducible apply keeps_loadRegs | with_reducible exact keeps_regs (by with_reducible assumption) (spWf_filter _)

theorem keeps_clearEngine {e} (h : Keeps s0 s) : Keeps s0 (State.clearEngine s e) := by
  unfold State.clearEngine
  repeat' first
    | with_reducible apply keeps_clearRegs | with_reducible exact keeps_engines (by with_reducible assumption) (spWf_put _ _)

theorem keeps_setNotes {c l} (h : Keeps s0 s) : Keeps s0 (State.setNotes s c l) := by
  unfold State.setNotes
  repeat' first
    | with_reducible apply keeps_wf | with_reducible exact keeps_notes (by with_reducible assumption) (spWf_put _ _)

theorem keeps_releaseCore {c} (h : Keeps s0 s) : Keeps s0 (State.releaseCore s c) := by
  unfold State.releaseCore
  repeat' first
    | with_reducible assumption | with_reducible apply keeps_setCore | with_reducible apply keeps_clearCo | with_reducible apply keeps_clearCaptures
    | with_reducible apply keeps_reloadImage | with_reducible apply keeps_wb | with_reducible apply keeps_clearEngine
    | with_reducible apply keeps_setNotes

theorem keeps_clearIntake {p} (h : Keeps s0 s) : Keeps s0 (State.clearIntake s p) := by
  unfold State.clearIntake
  repeat' first
    | with_reducible assumption | with_reducible apply keeps_syncPort | with_reducible apply keeps_setPort

theorem keeps_clearClaims {die} (h : Keeps s0 s) : Keeps s0 (State.clearClaims s die) := by
  unfold State.clearClaims
  repeat' first
    | with_reducible assumption | with_reducible apply keeps_setClaim | with_reducible apply keeps_clearRegs | with_reducible apply keeps_wf | intro _ _ _
    | with_reducible apply keeps_foldl

theorem keeps_clearScope {scope target} (h : Keeps s0 s) : Keeps s0 (State.clearScope s scope target) := by
  unfold State.clearScope
  repeat' first
    | with_reducible assumption | with_reducible apply keeps_releaseCore | with_reducible apply keeps_clearIntake | with_reducible apply keeps_clearEngine
    | with_reducible apply keeps_clearClaims
    | (extract_lets +onlyGivenNames x; refine keeps_cut (s0 := s0) (x := x) ?_ (fun h => ?_); rotate_left; clear_value x; rotate_right; subst x)
    | with_reducible apply keeps_foldl | split

theorem keeps_clearFault {c} (h : Keeps s0 s) : Keeps s0 (State.clearFault s c) := by
  unfold State.clearFault
  repeat' first
    | with_reducible assumption | with_reducible apply keeps_wf | with_reducible apply keeps_wb | with_reducible apply keeps_modCore

theorem keeps_clearFaults (h : Keeps s0 s) : Keeps s0 (State.clearFaults s) := by
  unfold State.clearFaults
  repeat' first
    | with_reducible assumption | with_reducible apply keeps_clearFault | intro _ _ _ | with_reducible apply keeps_foldl

theorem keeps_sendRefused {x chan st die} (h : Keeps s0 s) : Keeps s0 (State.sendRefused s x chan st die) := by
  unfold State.sendRefused
  repeat' first
    | with_reducible assumption | with_reducible apply keeps_sendReply | with_reducible apply keeps_post

theorem keeps_setChan {x v} (h : Keeps s0 s) : Keeps s0 (s.setChan x v) := keeps_chans h (spWf_put _ _)

theorem keeps_received {c d a b vd va st} (h : Keeps s0 s) : Keeps s0 (State.received s c d a b vd va st) := by
  unfold State.received
  repeat' first
    | with_reducible assumption | with_reducible apply keeps_advance | with_reducible apply keeps_modCore

theorem keeps_emptySlot {x} (h : Keeps s0 s) : Keeps s0 (State.emptySlot s x) := by
  unfold State.emptySlot
  repeat' first
    | with_reducible assumption | with_reducible apply keeps_wr | with_reducible apply keeps_setChan | with_reducible apply keeps_wb
    | with_reducible exact keeps_other (by with_reducible assumption)
    | (extract_lets +onlyGivenNames x; refine keeps_cut (s0 := s0) (x := x) ?_ (fun h => ?_); rotate_left; clear_value x; rotate_right; subst x)
    | (extract_lets +onlyGivenNames x; clear_value x)

theorem keeps_tryRecv {c d a b fn} (h : Keeps s0 s) : KeepsO s0 (State.tryRecv s c d a b fn) := by
  unfold State.tryRecv
  split
  · split
    · exact keepsO_some (keeps_received (keeps_setNotes h))
    · exact keepsO_none
  · dsimp only
    split
    · exact keepsO_some (keeps_received (keeps_emptySlot h))
    · exact keepsO_none

theorem keeps_arrive {c} (h : Keeps s0 s) : Keeps s0 (State.arrive s c) := by
  unfold State.arrive
  repeat' first
    | with_reducible assumption | with_reducible apply keeps_modCore | with_reducible apply keeps_tryRecv | with_reducible apply keeps_retry
    | (extract_lets +onlyGivenNames x; refine keeps_cut (s0 := s0) (x := x) ?_ (fun h => ?_); rotate_left; clear_value x; rotate_right; subst x)
    | with_reducible apply keeps_getD | split

theorem keeps_deliver {x d} (h : Keeps s0 s) : Keeps s0 (State.deliver s x d) := by
  unfold State.deliver
  repeat' first
    | with_reducible assumption | with_reducible apply keeps_wb | with_reducible apply keeps_wr | with_reducible apply keeps_setChan
    | with_reducible apply keeps_arrive | with_reducible apply keeps_wakeDom | with_reducible apply keeps_sendReply | split

theorem keeps_arriveSend {d} (h : Keeps s0 s) : Keeps s0 (State.arriveSend s d) := by
  unfold State.arriveSend
  repeat' first
    | with_reducible assumption | with_reducible apply keeps_sendRefused | with_reducible apply keeps_bump | with_reducible apply keeps_deliver
    | (extract_lets +onlyGivenNames x; clear_value x) | split

theorem keeps_flushSends {m a} (h : Keeps s0 s) : Keeps s0 (State.flushSends s m a) := by
  unfold State.flushSends
  repeat' first
    | with_reducible assumption | with_reducible apply keeps_arriveSend | with_reducible exact keeps_other (by with_reducible assumption)
    | with_reducible apply keeps_foldl | split

theorem keeps_setResets {l} (h : Keeps s0 s) : Keeps s0 (State.setResets s l) := by
  unfold State.setResets
  repeat' first
    | with_reducible apply keeps_syncResets | with_reducible exact keeps_other (by with_reducible assumption)

theorem keeps_measExtend {i d} (h : Keeps s0 s) : Keeps s0 (State.measExtend s i d) := by
  unfold State.measExtend
  repeat' first
    | with_reducible assumption | with_reducible apply keeps_wrWide

theorem keeps_ringCfg {m r v} (h : Keeps s0 s) : Keeps s0 (State.ringCfg s m r v) := by
  unfold State.ringCfg
  repeat' first
    | with_reducible assumption | with_reducible apply keeps_regEvent | with_reducible apply keeps_wf | with_reducible apply keeps_syncRing | split

theorem keeps_ringCtrl {r v} (h : Keeps s0 s) : Keeps s0 (State.ringCtrl s r v) := by
  unfold State.ringCtrl
  repeat' first
    | with_reducible assumption | with_reducible apply keeps_wf | split

theorem keeps_evTail {m v} (h : Keeps s0 s) : Keeps s0 (State.evTail s m v) := by
  unfold State.evTail
  repeat' first
    | with_reducible assumption | with_reducible apply keeps_regEvent | with_reducible apply keeps_wr | split

theorem keeps_evFatal {v} (h : Keeps s0 s) : Keeps s0 (State.evFatal s v) := by
  unfold State.evFatal
  repeat' first
    | with_reducible assumption | with_reducible apply keeps_syncFatal | with_reducible apply keeps_wf

theorem keeps_gnPartWrite {m c} (h : Keeps s0 s) : Keeps s0 (State.gnPartWrite s m c) := by
  unfold State.gnPartWrite
  repeat' first
    | with_reducible assumption | with_reducible apply keeps_regEvent | with_reducible apply keeps_wb
    | with_reducible exact keeps_other (by with_reducible assumption)
    | (extract_lets +onlyGivenNames x; refine keeps_cut (s0 := s0) (x := x) ?_ (fun h => ?_); rotate_left; clear_value x; rotate_right; subst x)
    | (extract_lets +onlyGivenNames x; clear_value x) | split

theorem keeps_sample {ch x} (h : Keeps s0 s) : Keeps s0 (State.sample s ch x) := by
  unfold State.sample
  repeat' first
    | with_reducible assumption | with_reducible exact keeps_other (by with_reducible assumption)
    | (extract_lets +onlyGivenNames x; refine keeps_cut (s0 := s0) (x := x) ?_ (fun h => ?_); rotate_left; clear_value x; rotate_right; subst x)
    | (extract_lets +onlyGivenNames x; clear_value x) | split

theorem keeps_lossWritten {m c} (h : Keeps s0 s) : Keeps s0 (State.lossWritten s m c) := by
  unfold State.lossWritten
  repeat' first
    | with_reducible assumption | with_reducible apply keeps_sample | split

theorem keeps_endReconfigure {p} (h : Keeps s0 s) : Keeps s0 (State.endReconfigure s p) := by
  unfold State.endReconfigure
  repeat' first
    | with_reducible exact keeps_other (by with_reducible assumption)

theorem keeps_beginReconfigure {p mode split} (h : Keeps s0 s) : Keeps s0 (State.beginReconfigure s p mode split) := by
  unfold State.beginReconfigure
  repeat' first
    | with_reducible exact keeps_other (by with_reducible assumption)

theorem keeps_startRetrain {p b} (h : Keeps s0 s) : Keeps s0 (State.startRetrain s p b) := by
  unfold State.startRetrain
  repeat' first
    | with_reducible assumption | with_reducible apply keeps_riskInput | with_reducible apply keeps_bump | with_reducible apply keeps_setLink
    | with_reducible apply keeps_modSub

theorem keeps_takeControl {p b typ mask} (h : Keeps s0 s) : Keeps s0 (State.takeControl s p b typ mask) := by
  unfold State.takeControl
  repeat' first
    | with_reducible assumption | with_reducible apply keeps_modSub | with_reducible apply keeps_actControl
    | (extract_lets +onlyGivenNames x; clear_value x) | split

theorem keeps_control {p b typ content} (h : Keeps s0 s) : Keeps s0 (State.control s p b typ content) := by
  unfold State.control
  repeat' first
    | with_reducible assumption | with_reducible apply keeps_modSub

theorem keeps_lkCtrl {m p b v} (h : Keeps s0 s) : Keeps s0 (State.lkCtrl s m p b v) := by
  unfold State.lkCtrl
  repeat' first
    | with_reducible assumption | with_reducible apply keeps_regEvent | with_reducible apply keeps_startRetrain | with_reducible apply keeps_wf
    | with_reducible apply keeps_takeControl | with_reducible apply keeps_control
    | (extract_lets +onlyGivenNames x; refine keeps_cut (s0 := s0) (x := x) ?_ (fun h => ?_); rotate_left; clear_value x; rotate_right; subst x)
    | (extract_lets +onlyGivenNames x; have q := fun a => x a; clear q; subst x) | (extract_lets +onlyGivenNames x; clear_value x) | split

theorem keeps_addChain {e k} (h : Keeps s0 s) : Keeps s0 (State.addChain s e k) := by
  unfold State.addChain
  repeat' first
    | with_reducible assumption | with_reducible apply keeps_setEngine | with_reducible apply keeps_wf
    | (extract_lets +onlyGivenNames x; refine keeps_cut (s0 := s0) (x := x) ?_ (fun h => ?_); rotate_left; clear_value x; rotate_right; subst x)
    | (extract_lets +onlyGivenNames x; clear_value x) | split

theorem keeps_dmGo {m e v} (h : Keeps s0 s) : Keeps s0 (State.dmGo s m e v) := by
  unfold State.dmGo
  repeat' first
    | with_reducible assumption | with_reducible apply keeps_regEvent | with_reducible apply keeps_addChain | with_reducible apply keeps_setCore
    | with_reducible apply keeps_syncQueues
    | (extract_lets +onlyGivenNames x; refine keeps_cut (s0 := s0) (x := x) ?_ (fun h => ?_); rotate_left; clear_value x; rotate_right; subst x)
    | (extract_lets +onlyGivenNames x; clear_value x) | split

theorem keeps_dmCtrl {m e v} (h : Keeps s0 s) : Keeps s0 (State.dmCtrl s m e v) := by
  unfold State.dmCtrl
  repeat' first
    | with_reducible assumption | with_reducible apply keeps_regEvent | with_reducible apply keeps_dmaAbortAll | with_reducible apply keeps_wf | split

theorem keeps_lockWrite {m x v} (h : Keeps s0 s) : Keeps s0 (State.lockWrite s m x v) := by
  unfold State.lockWrite
  repeat' first
    | with_reducible assumption | with_reducible apply keeps_wb | with_reducible apply keeps_wr | split

theorem keeps_mbSend {m x} (h : Keeps s0 s) : Keeps s0 (State.mbSend s m x) := by
  unfold State.mbSend
  repeat' first
    | with_reducible exact keeps_other (by with_reducible assumption)

theorem keeps_lockRead {m x} (h : Keeps s0 s) : Keeps s0 (State.lockRead s m x).2 := by
  unfold State.lockRead
  repeat' first
    | with_reducible assumption | with_reducible apply keeps_wb | with_reducible apply keeps_wr | (extract_lets +onlyGivenNames x; clear_value x) | split

theorem keeps_ringBegun {r} (h : Keeps s0 s) : Keeps s0 (State.ringBegun s r) := by
  unfold State.ringBegun
  repeat' first
    | with_reducible assumption | with_reducible apply keeps_ringSweep

theorem keeps_ringSet {r d} (h : Keeps s0 s) : Keeps s0 (State.ringSet s r d) := by
  unfold State.ringSet
  repeat' first
    | with_reducible assumption | with_reducible apply keeps_setRing

theorem keeps_ringStart {r d} (h : Keeps s0 s) : Keeps s0 (State.ringStart s r d) := by
  unfold State.ringStart
  repeat' first
    | with_reducible assumption | with_reducible apply keeps_ringBegun | with_reducible apply keeps_ringSet

theorem keeps_clearSched (h : Keeps s0 s) : Keeps s0 (State.clearSched s) := by
  unfold State.clearSched
  repeat' first
    | with_reducible apply keeps_loadRegs | with_reducible exact keeps_regs (by with_reducible assumption) (spWf_filter _)

theorem keeps_loadProgram {p} (h : Keeps s0 s) : Keeps s0 (State.loadProgram s p) := by
  unfold State.loadProgram
  repeat' first
    | with_reducible assumption | with_reducible apply keeps_wf | with_reducible apply keeps_wb

theorem keeps_loadClaims {l} (h : Keeps s0 s) : Keeps s0 (State.loadClaims s l) := by
  unfold State.loadClaims
  repeat' first
    | with_reducible assumption | with_reducible apply keeps_wf
    | (extract_lets +onlyGivenNames x; refine keeps_cut (s0 := s0) (x := x) ?_ (fun h => ?_); rotate_left; clear_value x; rotate_right; subst x)
    | intro _ _ _ | with_reducible apply keeps_foldl

theorem keeps_loadWord {a v} (h : Keeps s0 s) : Keeps s0 (State.loadWord s a v) := by
  unfold State.loadWord
  repeat' first
    | with_reducible assumption | with_reducible apply keeps_wf | with_reducible apply keeps_wr | with_reducible apply keeps_wb
    | (extract_lets +onlyGivenNames x; refine keeps_cut (s0 := s0) (x := x) ?_ (fun h => ?_); rotate_left; clear_value x; rotate_right; subst x) | split

theorem keeps_loadBinding {b} (h : Keeps s0 s) : Keeps s0 (State.loadBinding s b) := by
  unfold State.loadBinding
  repeat' first
    | with_reducible assumption | with_reducible apply keeps_wf | with_reducible apply keeps_wb
    | (extract_lets +onlyGivenNames x; refine keeps_cut (s0 := s0) (x := x) ?_ (fun h => ?_); rotate_left; clear_value x; rotate_right; subst x)
    | (extract_lets +onlyGivenNames x; clear_value x) | split

theorem keeps_loadOwners {im} (h : Keeps s0 s) : Keeps s0 (State.loadOwners s im) := by
  unfold State.loadOwners
  repeat' first
    | with_reducible assumption | with_reducible apply keeps_wf | with_reducible apply keeps_syncPort
    | (extract_lets +onlyGivenNames x; refine keeps_cut (s0 := s0) (x := x) ?_ (fun h => ?_); rotate_left; clear_value x; rotate_right; subst x)
    | intro _ _ _ | (extract_lets +onlyGivenNames x; clear_value x) | with_reducible apply keeps_foldl | split

theorem keeps_loadImage {im fresh} (h : Keeps s0 s) : Keeps s0 (State.loadImage s im fresh) := by
  unfold State.loadImage
  extract_lets x1 x2 x3 x4 x5 x6 x7 x8
  have h3 : Keeps s0 x3 := keeps_foldl (fun _ _ h => keeps_wb h) (keeps_wf (keeps_wf (keeps_wf (keeps_wf (keeps_clearSched h)))))
  have h5 : Keeps s0 x5 := keeps_loadClaims (keeps_foldl (fun _ _ h => keeps_loadProgram h) h3)
  have h6 : Keeps s0 x6 := by
    show Keeps s0 (ite _ _ _)
    exact keeps_ite (keeps_regs h5 (spWf_filter _)) h5
  have h7 : Keeps s0 x7 := keeps_foldl (fun s x h => by
    split
    · exact h
    · exact keeps_loadWord h) h6
  exact keeps_syncDemand (keeps_loadOwners (keeps_foldl (fun _ _ h => keeps_loadBinding h) h7))

theorem keeps_changeSched {e im} (h : Keeps s0 s) : Keeps s0 (State.changeSched s e im) := by
  unfold State.changeSched
  repeat' first
    | with_reducible assumption | with_reducible apply keeps_loadImage | with_reducible exact keeps_other (by with_reducible assumption)
    | (extract_lets +onlyGivenNames x; refine keeps_cut (s0 := s0) (x := x) ?_ (fun h => ?_); rotate_left; clear_value x; rotate_right; subst x)
    | (extract_lets +onlyGivenNames x; clear_value x)

theorem keeps_execPpsOutFall (h : Keeps s0 s) : nextAnd (execPpsOutFall s) (Keeps s0) := by
  unfold execPpsOutFall
  repeat' first
    | with_reducible assumption | with_reducible apply nextAnd_next | with_reducible exact keeps_other (by with_reducible assumption)
    | (extract_lets +onlyGivenNames x; clear_value x) | split

theorem keeps_adoptSched {im} (h : Keeps s0 s) : Keeps s0 (State.adoptSched s im) := by
  unfold State.adoptSched
  repeat' first
    | with_reducible assumption | with_reducible apply keeps_loadImage | with_reducible exact keeps_other (by with_reducible assumption)
    | (extract_lets +onlyGivenNames x; refine keeps_cut (s0 := s0) (x := x) ?_ (fun h => ?_); rotate_left; clear_value x; rotate_right; subst x)

theorem keeps_discardSlots {c} (h : Keeps s0 s) : Keeps s0 (State.discardSlots s c) := by
  unfold State.discardSlots
  repeat' first
    | with_reducible assumption | with_reducible apply keeps_emptySlot | with_reducible apply keeps_post | with_reducible apply keeps_bump | intro _ _ _
    | (extract_lets +onlyGivenNames x; clear_value x) | with_reducible apply keeps_foldl | split

theorem keeps_setWork {ch mean var n} (h : Keeps s0 s) : Keeps s0 (State.setWork s ch mean var n) := by
  unfold State.setWork
  repeat' first
    | with_reducible exact keeps_other (by with_reducible assumption)

theorem keeps_evaluate {ch x} (h : Keeps s0 s) : Keeps s0 (State.evaluate s ch x) := by
  unfold State.evaluate
  repeat' first
    | with_reducible assumption | with_reducible apply keeps_post | with_reducible apply keeps_wf | with_reducible apply keeps_setWork
    | with_reducible apply keeps_wb | with_reducible apply keeps_bumpF | with_reducible apply keeps_veto
    | (extract_lets +onlyGivenNames x; refine keeps_cut (s0 := s0) (x := x) ?_ (fun h => ?_); rotate_left; clear_value x; rotate_right; subst x)
    | (extract_lets +onlyGivenNames x; clear_value x) | split

theorem keeps_execSpikeSample (h : Keeps s0 s) : nextAnd (execSpikeSample s) (Keeps s0) := by
  unfold execSpikeSample
  repeat' first
    | with_reducible assumption | with_reducible apply nextAnd_next | with_reducible apply keeps_evaluate
    | with_reducible exact keeps_other (by with_reducible assumption) | (extract_lets +onlyGivenNames x; clear_value x) | split

theorem keeps_partitionsOn (h : Keeps s0 s) : Keeps s0 (State.partitionsOn s) := by
  unfold State.partitionsOn
  repeat' first
    | with_reducible assumption | with_reducible apply keeps_wf | with_reducible exact keeps_other (by with_reducible assumption)
    | (extract_lets +onlyGivenNames x; clear_value x) | split

theorem keeps_execTtTimeout {port sub} (h : Keeps s0 s) : nextAnd (execTtTimeout port sub s) (Keeps s0) := by
  unfold execTtTimeout
  repeat' first
    | with_reducible assumption | with_reducible apply nextAnd_next | with_reducible apply keeps_syncEwe | with_reducible apply keeps_wb | split

theorem keeps_execKeyReady {port sub} (h : Keeps s0 s) : nextAnd (execKeyReady port sub s) (Keeps s0) := by
  unfold execKeyReady
  repeat' first
    | with_reducible assumption | with_reducible apply nextAnd_next | with_reducible apply keeps_modSub | split

theorem keeps_execDmaSignal {engine} (h : Keeps s0 s) : nextAnd (execDmaSignal engine s) (Keeps s0) := by
  unfold execDmaSignal
  repeat' first
    | with_reducible assumption | with_reducible apply nextAnd_next | with_reducible apply keeps_dmaRun

theorem keeps_setLong {p b v} (h : Keeps s0 s) : Keeps s0 (State.setLong s p b v) := by
  unfold State.setLong
  repeat' first
    | with_reducible assumption | with_reducible apply keeps_wb | with_reducible apply keeps_modSub
    | (extract_lets +onlyGivenNames x; refine keeps_cut (s0 := s0) (x := x) ?_ (fun h => ?_); rotate_left; clear_value x; rotate_right; subst x)
    | (extract_lets +onlyGivenNames x; have q := fun a => x a; clear q; subst x) | (extract_lets +onlyGivenNames x; clear_value x) | split

theorem keeps_ppsFailed {t1} (h : Keeps s0 s) : Keeps s0 (State.ppsFailed s t1) := by
  unfold State.ppsFailed
  repeat' first
    | with_reducible apply keeps_setSrc | with_reducible exact keeps_other (by with_reducible assumption)

theorem keeps_ppsAnyEdge {t1} (h : Keeps s0 s) : Keeps s0 (State.ppsAnyEdge s t1) := by
  unfold State.ppsAnyEdge
  repeat' first
    | with_reducible assumption | with_reducible apply keeps_ppsFailed | with_reducible exact keeps_other (by with_reducible assumption)
    | (extract_lets +onlyGivenNames x; refine keeps_cut (s0 := s0) (x := x) ?_ (fun h => ?_); rotate_left; clear_value x; rotate_right; subst x)
    | (extract_lets +onlyGivenNames x; clear_value x) | split

theorem keeps_execPpsEdge {at_} (h : Keeps s0 s) : nextAnd (execPpsEdge at_ s) (Keeps s0) := by
  unfold execPpsEdge
  repeat' first
    | with_reducible assumption | with_reducible apply nextAnd_next | with_reducible apply keeps_ppsAnyEdge | with_reducible apply keeps_post
    | with_reducible exact keeps_other (by with_reducible assumption)
    | (extract_lets +onlyGivenNames x; refine keeps_cut (s0 := s0) (x := x) ?_ (fun h => ?_); rotate_left; clear_value x; rotate_right; subst x)
    | (extract_lets +onlyGivenNames x; clear_value x) | split

theorem keeps_execWake {port sub mask} (h : Keeps s0 s) : nextAnd (execWake port sub mask s) (Keeps s0) := by
  unfold execWake
  repeat' first
    | with_reducible assumption | with_reducible apply nextAnd_next | with_reducible apply keeps_takeControl

theorem keeps_gnStart {taking} (h : Keeps s0 s) : Keeps s0 (State.gnStart s taking) := by
  unfold State.gnStart
  repeat' first
    | with_reducible assumption | with_reducible apply keeps_wr | with_reducible exact keeps_other (by with_reducible assumption)
    | (extract_lets +onlyGivenNames x; refine keeps_cut (s0 := s0) (x := x) ?_ (fun h => ?_); rotate_left; clear_value x; rotate_right; subst x)
    | intro _ _ _ | with_reducible apply keeps_foldl

theorem keeps_spikeLoad (h : Keeps s0 s) : Keeps s0 (State.spikeLoad s) := by
  unfold State.spikeLoad
  repeat' first
    | with_reducible exact keeps_other (by with_reducible assumption)

theorem keeps_trainStart {taking} (h : Keeps s0 s) : Keeps s0 (State.trainStart s taking) := by
  unfold State.trainStart
  repeat' first
    | with_reducible assumption | with_reducible apply keeps_wb | with_reducible apply keeps_gnStart | with_reducible apply keeps_spikeLoad

theorem keeps_nfClear (h : Keeps s0 s) : Keeps s0 (State.nfClear s) := by
  unfold State.nfClear
  repeat' first
    | with_reducible assumption | with_reducible apply keeps_wr | intro _ _ _ | with_reducible apply keeps_foldl

theorem keeps_trainRestart {taking} (h : Keeps s0 s) : Keeps s0 (State.trainRestart s taking) := by
  unfold State.trainRestart
  repeat' first
    | with_reducible apply keeps_trainStart | with_reducible apply keeps_nfClear | with_reducible exact keeps_other (by with_reducible assumption)

theorem keeps_oldCodeword {p b x} (h : Keeps s0 s) : Keeps s0 (State.oldCodeword s p b x) := by
  unfold State.oldCodeword
  repeat' first
    | with_reducible assumption | with_reducible apply keeps_modSub

theorem keeps_countLate {p b win k} (h : Keeps s0 s) : Keeps s0 (State.countLate s p b win k) := by
  unfold State.countLate
  repeat' first
    | with_reducible assumption | with_reducible apply keeps_bump | split

theorem keeps_newCodeword {p b at_} (h : Keeps s0 s) : Keeps s0 (State.newCodeword s p b at_) := by
  unfold State.newCodeword
  repeat' first
    | with_reducible assumption | with_reducible apply keeps_countLate | with_reducible apply keeps_setSub | with_reducible apply keeps_wrWide
    | (extract_lets +onlyGivenNames x; refine keeps_cut (s0 := s0) (x := x) ?_ (fun h => ?_); rotate_left; clear_value x; rotate_right; subst x)
    | (extract_lets +onlyGivenNames x; clear_value x) | split

theorem keeps_laneOut {p b at_} (h : Keeps s0 s) : Keeps s0 (State.laneOut s p b at_) := by
  unfold State.laneOut
  repeat' first
    | with_reducible assumption | with_reducible apply keeps_oldCodeword | with_reducible apply keeps_newCodeword
    | (extract_lets +onlyGivenNames x; clear_value x) | split

theorem keeps_raiseHeld {c} (h : Keeps s0 s) : Keeps s0 (State.raiseHeld s c) := by
  unfold State.raiseHeld
  repeat' first
    | with_reducible assumption | with_reducible apply keeps_arrive | with_reducible apply keeps_wb | intro _ _ _
    | (extract_lets +onlyGivenNames x; clear_value x) | with_reducible apply keeps_foldl | split

theorem keeps_startCore {c wide} (h : Keeps s0 s) : Keeps s0 (State.startCore s c wide) := by
  unfold State.startCore
  repeat' first
    | with_reducible assumption | with_reducible apply keeps_syncQueues | with_reducible apply keeps_setCore | with_reducible apply keeps_wf

theorem keeps_idleOthers {run} (h : Keeps s0 s) : Keeps s0 (State.idleOthers s run) := by
  unfold State.idleOthers
  repeat' first
    | with_reducible assumption | with_reducible apply keeps_wf | intro _ _ _ | (extract_lets +onlyGivenNames x; clear_value x)
    | with_reducible apply keeps_foldl | split

theorem keeps_armClaims {restart} (h : Keeps s0 s) : Keeps s0 (State.armClaims s restart) := by
  unfold State.armClaims
  refine keeps_foldl (fun s x h => ?_) (keeps_claims (m := []) h (fun _ => rfl))
  dsimp only
  split
  · exact keeps_wf (keeps_wf h)
  · exact keeps_wr (keeps_wr (keeps_wr (keeps_wf h)))

theorem keeps_startCores {restart} (h : Keeps s0 s) : Keeps s0 (State.startCores s restart) := by
  unfold State.startCores
  repeat' first
    | with_reducible assumption | with_reducible apply keeps_startCore | with_reducible apply keeps_clearTracker | with_reducible apply keeps_idleOthers
    | with_reducible apply keeps_armClaims | with_reducible apply keeps_trainRestart | with_reducible apply keeps_trainStart
    | with_reducible apply keeps_clearFaults
    | (extract_lets +onlyGivenNames x; refine keeps_cut (s0 := s0) (x := x) ?_ (fun h => ?_); rotate_left; clear_value x; rotate_right; subst x)
    | intro _ _ _ | (extract_lets +onlyGivenNames x; clear_value x) | with_reducible apply keeps_foldl | split

theorem keeps_execTimeSendTimer {port sub tcw} (h : Keeps s0 s) : nextAnd (execTimeSendTimer port sub tcw s) (Keeps s0) := by
  unfold execTimeSendTimer
  repeat' first
    | with_reducible assumption | with_reducible apply nextAnd_next | with_reducible apply keeps_control | (extract_lets +onlyGivenNames x; clear_value x)
    | split

theorem keeps_execPpsFail (h : Keeps s0 s) : nextAnd (execPpsFail s) (Keeps s0) := by
  unfold execPpsFail
  repeat' first
    | with_reducible assumption | with_reducible apply nextAnd_next | with_reducible apply keeps_ppsFailed | split

theorem keeps_settleWidth {p b} (h : Keeps s0 s) : Keeps s0 (State.settleWidth s p b).2 := by
  unfold State.settleWidth
  repeat' first
    | with_reducible assumption | with_reducible apply keeps_setActive | with_reducible apply keeps_wf | split

theorem keeps_execDmaFill {engine} (h : Keeps s0 s) : nextAnd (execDmaFill engine s) (Keeps s0) := by
  unfold execDmaFill
  repeat' first
    | with_reducible assumption | with_reducible apply nextAnd_next | with_reducible apply keeps_dmaRun

theorem keeps_refuseSched (h : Keeps s0 s) : Keeps s0 (State.refuseSched s) := by
  unfold State.refuseSched
  repeat' first
    | with_reducible assumption | with_reducible apply keeps_draw | with_reducible apply keeps_post | with_reducible apply keeps_send
    | with_reducible exact keeps_other (by with_reducible assumption) | (with_reducible apply keeps_of_snd; with_reducible assumption)
    | (extract_lets +onlyGivenNames x; refine keeps_cut (s0 := s0) (x := x) ?_ (fun h => ?_); rotate_left; clear_value x; rotate_right; subst x) | split

theorem keeps_execRef10mRequalify (h : Keeps s0 s) : nextAnd (execRef10mRequalify s) (Keeps s0) := by
  unfold execRef10mRequalify
  repeat' first
    | with_reducible assumption | with_reducible apply nextAnd_next | with_reducible apply keeps_setSrc | split

theorem keeps_execKeyAging {port sub} (h : Keeps s0 s) : nextAnd (execKeyAging port sub s) (Keeps s0) := by
  unfold execKeyAging
  repeat' first
    | with_reducible assumption | with_reducible apply nextAnd_next | with_reducible apply keeps_post | with_reducible apply keeps_setLink
    | (extract_lets +onlyGivenNames x; clear_value x) | split

theorem keeps_spikeCommit (h : Keeps s0 s) : Keeps s0 (State.spikeCommit s) := by
  unfold State.spikeCommit
  repeat' first
    | with_reducible assumption | with_reducible apply keeps_wrWide | with_reducible apply keeps_wf | intro _ _ _ | with_reducible apply keeps_foldl

theorem keeps_count48 {a} (h : Keeps s0 s) : Keeps s0 (State.count48 s a) := by
  unfold State.count48
  repeat' first
    | with_reducible assumption | with_reducible apply keeps_wrWide

theorem keeps_trainCommit (h : Keeps s0 s) : Keeps s0 (State.trainCommit s) := by
  unfold State.trainCommit
  repeat' first
    | with_reducible assumption | with_reducible apply keeps_nfClear | with_reducible apply keeps_spikeCommit | with_reducible apply keeps_wf
    | with_reducible apply keeps_count48
    | (extract_lets +onlyGivenNames x; refine keeps_cut (s0 := s0) (x := x) ?_ (fun h => ?_); rotate_left; clear_value x; rotate_right; subst x) | split

theorem keeps_giveCredits {p b} (h : Keeps s0 s) : Keeps s0 (State.giveCredits s p b) := by
  unfold State.giveCredits
  repeat' first
    | with_reducible assumption | with_reducible apply keeps_modSub

theorem keeps_openLink {p b} (h : Keeps s0 s) : Keeps s0 (State.openLink s p b) := by
  unfold State.openLink
  repeat' first
    | with_reducible assumption | with_reducible apply keeps_giveCredits | with_reducible apply keeps_setLink

theorem keeps_execLaneFail {port sub lane uncorrectable correctedPpm} (h : Keeps s0 s) : nextAnd (execLaneFail port sub lane uncorrectable correctedPpm s) (Keeps s0) := by
  unfold execLaneFail
  repeat' first
    | with_reducible assumption | with_reducible apply nextAnd_next | with_reducible apply keeps_wf | with_reducible apply keeps_startRetrain
    | with_reducible apply keeps_towLane
    | (extract_lets +onlyGivenNames x; refine keeps_cut (s0 := s0) (x := x) ?_ (fun h => ?_); rotate_left; clear_value x; rotate_right; subst x)
    | (extract_lets +onlyGivenNames x; clear_value x) | split

theorem keeps_comeUp {p b} (h : Keeps s0 s) : Keeps s0 (State.comeUp s p b) := by
  unfold State.comeUp
  repeat' first
    | with_reducible assumption | with_reducible apply keeps_setSub | with_reducible apply keeps_setLink | with_reducible apply keeps_wrWide
    | with_reducible apply keeps_giveCredits
    | (extract_lets +onlyGivenNames x; refine keeps_cut (s0 := s0) (x := x) ?_ (fun h => ?_); rotate_left; clear_value x; rotate_right; subst x)
    | (extract_lets +onlyGivenNames x; clear_value x) | split

theorem keeps_dmaFetch {e a} (h : Keeps s0 s) : Keeps s0 (State.dmaFetch s e a).2.2 := by
  unfold State.dmaFetch
  repeat' first
    | with_reducible assumption | with_reducible apply keeps_remoteForget | with_reducible apply keeps_localGet
    | (extract_lets +onlyGivenNames x; clear_value x) | split

theorem keeps_seedPound {working} (h : Keeps s0 s) : Keeps s0 (State.seedPound s working) := by
  unfold State.seedPound
  exact keeps_other (keeps_cores h (fun w => spWfFrom_map (f := fun (x : Core) => { x with sr := [] }) w))

theorem keeps_trainEmpty {causes} (h : Keeps s0 s) : Keeps s0 (State.trainEmpty s causes) := by
  unfold State.trainEmpty
  repeat' first
    | with_reducible assumption | with_reducible apply keeps_nfClear | with_reducible apply keeps_bumpF | with_reducible apply keeps_wf
    | with_reducible apply keeps_postSev | with_reducible apply keeps_count48 | with_reducible exact keeps_other (by with_reducible assumption)
    | (extract_lets +onlyGivenNames x; refine keeps_cut (s0 := s0) (x := x) ?_ (fun h => ?_); rotate_left; clear_value x; rotate_right; subst x)
    | (extract_lets +onlyGivenNames x; clear_value x) | split

theorem keeps_poundStart (h : Keeps s0 s) : Keeps s0 (State.poundStart s) := by
  unfold State.poundStart
  exact keeps_setVote (keeps_setLockSt (keeps_startCores (keeps_other (keeps_other h))))

theorem keeps_execPpsOutRise (h : Keeps s0 s) : nextAnd (execPpsOutRise s) (Keeps s0) := by
  unfold execPpsOutRise
  repeat' first
    | with_reducible assumption | with_reducible apply nextAnd_next | with_reducible exact keeps_other (by with_reducible assumption)
    | (extract_lets +onlyGivenNames x; clear_value x) | split

theorem keeps_execFullRate {port sub} (h : Keeps s0 s) : nextAnd (execFullRate port sub s) (Keeps s0) := by
  unfold execFullRate
  repeat' first
    | with_reducible assumption | with_reducible apply nextAnd_next | with_reducible apply keeps_takeControl

theorem keeps_execLinkRetryTimer {port sub} (h : Keeps s0 s) : nextAnd (execLinkRetryTimer port sub s) (Keeps s0) := by
  unfold execLinkRetryTimer
  repeat' first
    | with_reducible assumption | with_reducible apply nextAnd_next | with_reducible apply keeps_setLink | split

theorem keeps_setBound {n} (h : Keeps s0 s) : Keeps s0 (State.setBound s n) := by
  unfold State.setBound
  repeat' first
    | with_reducible assumption | with_reducible apply keeps_wf

theorem keeps_changeSource {k} (h : Keeps s0 s) : Keeps s0 (State.changeSource s k) := by
  unfold State.changeSource
  repeat' first
    | with_reducible assumption | with_reducible apply keeps_setBound | with_reducible apply keeps_post | (extract_lets +onlyGivenNames x; clear_value x)
    | (with_reducible apply keeps_other; first | with_reducible apply keeps_wf | with_reducible apply keeps_setBound | with_reducible apply keeps_post)
    | split

theorem keeps_execSourceFailover (h : Keeps s0 s) : nextAnd (execSourceFailover s) (Keeps s0) := by
  unfold execSourceFailover
  repeat' first
    | with_reducible assumption | with_reducible apply nextAnd_next | with_reducible apply keeps_changeSource | split

theorem keeps_execEthLinkUp {port iface} (h : Keeps s0 s) : nextAnd (execEthLinkUp port iface s) (Keeps s0) := by
  unfold execEthLinkUp
  repeat' first
    | with_reducible assumption | with_reducible apply nextAnd_next | with_reducible apply keeps_wf | with_reducible apply keeps_setLink
    | (extract_lets +onlyGivenNames x; refine keeps_cut (s0 := s0) (x := x) ?_ (fun h => ?_); rotate_left; clear_value x; rotate_right; subst x) | split

theorem keeps_lanesOut {p b at_ x4} (h : Keeps s0 s) : Keeps s0 (State.lanesOut s p b at_ x4) := by
  fun_induction State.lanesOut s p b at_ x4
  repeat' first
    | with_reducible assumption | with_reducible apply keeps_laneOut | apply_assumption

theorem keeps_execPpsInFallingEdge {at_} (h : Keeps s0 s) : nextAnd (execPpsInFallingEdge at_ s) (Keeps s0) := by
  unfold execPpsInFallingEdge
  repeat' first
    | with_reducible assumption | with_reducible apply nextAnd_next | with_reducible apply keeps_ppsAnyEdge

theorem keeps_gnSendDown {r} (h : Keeps s0 s) : Keeps s0 (State.gnSendDown s r) := by
  unfold State.gnSendDown
  repeat' first
    | with_reducible assumption | with_reducible apply keeps_send | intro _ _ _ | with_reducible apply keeps_foldl

theorem keeps_abortHalted {e} (h : Keeps s0 s) : Keeps s0 (State.abortHalted s e) := by
  unfold State.abortHalted
  repeat' first
    | with_reducible assumption | with_reducible apply keeps_dmaAbortAll | split

theorem keeps_releaseLocks {p} (h : Keeps s0 s) : Keeps s0 (State.releaseLocks s p) := by
  unfold State.releaseLocks
  repeat' first
    | with_reducible assumption | with_reducible apply keeps_wb | with_reducible apply keeps_wr | intro _ _ _
    | (extract_lets +onlyGivenNames x; clear_value x) | with_reducible apply keeps_foldl | split

theorem keeps_settleScope {scope target reset} (h : Keeps s0 s) : Keeps s0 (State.settleScope s scope target reset) := by
  unfold State.settleScope
  repeat' first
    | with_reducible assumption | with_reducible apply keeps_reclaimTokens | with_reducible apply keeps_abortHalted
    | with_reducible apply keeps_releaseLocks | with_reducible apply keeps_discardSlots
    | (extract_lets +onlyGivenNames x; refine keeps_cut (s0 := s0) (x := x) ?_ (fun h => ?_); rotate_left; clear_value x; rotate_right; subst x)
    | intro _ _ _ | (extract_lets +onlyGivenNames x; clear_value x) | with_reducible apply keeps_foldl | split

theorem keeps_stepTime {d} (h : Keeps s0 s) : Keeps s0 (State.stepTime s d) := by
  unfold State.stepTime
  repeat' first
    | with_reducible apply keeps_wrWide | with_reducible exact keeps_other (by with_reducible assumption)

theorem keeps_supplyTod {ns} (h : Keeps s0 s) : Keeps s0 (State.supplyTod s ns) := by
  unfold State.supplyTod
  extract_lets d _ x1 x2
  have h1 : Keeps s0 x1 := keeps_other h
  refine keeps_setSrc ?_
  show Keeps s0 (ite _ _ _)
  split
  · exact h1
  · exact keeps_stepTime h1

theorem keeps_ptpDone {t1 t2 t3 t4} (h : Keeps s0 s) : Keeps s0 (State.ptpDone s t1 t2 t3 t4) := by
  unfold State.ptpDone
  repeat' first
    | with_reducible assumption | with_reducible apply keeps_setSrc | (extract_lets +onlyGivenNames x; clear_value x)
    | (with_reducible apply keeps_other; first | with_reducible apply keeps_supplyTod | with_reducible apply keeps_setSrc)

theorem keeps_execGnDone {norm fact nf} (h : Keeps s0 s) : nextAnd (execGnDone norm fact nf s) (Keeps s0) := by
  unfold execGnDone
  repeat' first
    | with_reducible assumption | with_reducible apply nextAnd_next | with_reducible apply keeps_gnDeliver | with_reducible apply keeps_gnSendDown
    | with_reducible apply keeps_sample | with_reducible exact keeps_other (by with_reducible assumption)
    | (extract_lets +onlyGivenNames x; refine keeps_cut (s0 := s0) (x := x) ?_ (fun h => ?_); rotate_left; clear_value x; rotate_right; subst x)
    | intro _ _ _ | (extract_lets +onlyGivenNames x; clear_value x) | with_reducible apply keeps_foldl | split

theorem keeps_judgeTime {fresh} (h : Keeps s0 s) : Keeps s0 (State.judgeTime s fresh) := by
  unfold State.judgeTime
  repeat' first
    | with_reducible assumption | with_reducible apply keeps_wb | with_reducible apply keeps_post
    | (extract_lets +onlyGivenNames x; refine keeps_cut (s0 := s0) (x := x) ?_ (fun h => ?_); rotate_left; clear_value x; rotate_right; subst x)
    | (extract_lets +onlyGivenNames x; clear_value x) | split

theorem keeps_execPpsRequalify (h : Keeps s0 s) : nextAnd (execPpsRequalify s) (Keeps s0) := by
  unfold execPpsRequalify
  repeat' first
    | with_reducible assumption | with_reducible apply nextAnd_next | with_reducible apply keeps_setSrc | split

theorem keeps_execRef10mFail {absentNs ppb} (h : Keeps s0 s) : nextAnd (execRef10mFail absentNs ppb s) (Keeps s0) := by
  unfold execRef10mFail
  repeat' first
    | with_reducible assumption | with_reducible apply nextAnd_next | with_reducible apply keeps_setSrc
    | with_reducible exact keeps_other (by with_reducible assumption) | (extract_lets +onlyGivenNames x; clear_value x) | split

theorem keeps_sendFrame {p i kind} (h : Keeps s0 s) : Keeps s0 (State.sendFrame s p i kind) := by
  unfold State.sendFrame
  repeat' first
    | with_reducible exact keeps_other (by with_reducible assumption)

theorem keeps_ptpAsk {p t1 t2} (h : Keeps s0 s) : Keeps s0 (State.ptpAsk s p t1 t2) := by
  unfold State.ptpAsk
  repeat' first
    | with_reducible apply keeps_sendFrame | with_reducible exact keeps_other (by with_reducible assumption)

theorem keeps_execPtpMessage {port slave udp msg} (h : Keeps s0 s) : nextAnd (execPtpMessage port slave udp msg s) (Keeps s0) := by
  unfold execPtpMessage
  repeat' first
    | with_reducible assumption | with_reducible apply nextAnd_next | with_reducible apply keeps_setSrc | with_reducible apply keeps_ptpAsk
    | with_reducible apply keeps_ptpDone | with_reducible exact keeps_other (by with_reducible assumption)
    | (extract_lets +onlyGivenNames x; clear_value x) | split

theorem keeps_execPtpTimeout (h : Keeps s0 s) : nextAnd (execPtpTimeout s) (Keeps s0) := by
  unfold execPtpTimeout
  repeat' first
    | with_reducible assumption | with_reducible apply nextAnd_next | with_reducible apply keeps_setSrc | split

theorem keeps_execTimeOfDayWrite {m ns} (h : Keeps s0 s) : nextAnd (execTimeOfDayWrite m ns s) (Keeps s0) := by
  unfold execTimeOfDayWrite
  repeat' first
    | with_reducible assumption | with_reducible apply nextAnd_next | with_reducible apply keeps_supplyTod | split

theorem keeps_execSourceUpgrade (h : Keeps s0 s) : nextAnd (execSourceUpgrade s) (Keeps s0) := by
  unfold execSourceUpgrade
  repeat' first
    | with_reducible assumption | with_reducible apply nextAnd_next | with_reducible apply keeps_changeSource
    | (extract_lets +onlyGivenNames x; clear_value x) | split

theorem keeps_correction {offset} (h : Keeps s0 s) : Keeps s0 (State.correction s offset) := by
  unfold State.correction
  repeat' first
    | with_reducible assumption | with_reducible apply keeps_stepTime | split

theorem keeps_countTime {elapsed} (h : Keeps s0 s) : Keeps s0 (State.countTime s elapsed) := by
  unfold State.countTime
  repeat' first
    | with_reducible apply keeps_bump | with_reducible apply keeps_wrWide | with_reducible exact keeps_other (by with_reducible assumption)

theorem keeps_execTimeDisciplineTick {elapsed offset} (h : Keeps s0 s) : nextAnd (execTimeDisciplineTick elapsed offset s) (Keeps s0) := by
  unfold execTimeDisciplineTick
  repeat' first
    | with_reducible assumption | with_reducible apply nextAnd_next | with_reducible apply keeps_correction | with_reducible apply keeps_countTime
    | with_reducible apply keeps_wrWide | with_reducible apply keeps_judgeTime | with_reducible apply keeps_setBound
    | with_reducible exact keeps_other (by with_reducible assumption)
    | (extract_lets +onlyGivenNames x; refine keeps_cut (s0 := s0) (x := x) ?_ (fun h => ?_); rotate_left; clear_value x; rotate_right; subst x)
    | (extract_lets +onlyGivenNames x; clear_value x) | split

theorem keeps_execMsend {core d a b fn} (h : Keeps s0 s) : nextAnd (execMsend core d a b fn s) (Keeps s0) := by
  unfold execMsend
  repeat' first
    | with_reducible assumption | with_reducible apply nextAnd_next | with_reducible apply keeps_issue | with_reducible apply keeps_selfFault
    | with_reducible apply keeps_syncQueues | with_reducible apply keeps_setCore | with_reducible apply keeps_sendReq
    | with_reducible apply keeps_sendReply | with_reducible exact keeps_other (by with_reducible assumption)
    | (with_reducible apply keeps_of_snd; with_reducible assumption)
    | (extract_lets +onlyGivenNames x; refine keeps_cut (s0 := s0) (x := x) ?_ (fun h => ?_); rotate_left; clear_value x; rotate_right; subst x) | intro _
    | (extract_lets +onlyGivenNames x; have q := fun a => x a; clear q; subst x) | (extract_lets +onlyGivenNames x; clear_value x) | split

theorem keeps_execMrecv {core d a b fn} (h : Keeps s0 s) : nextAnd (execMrecv core d a b fn s) (Keeps s0) := by
  unfold execMrecv
  repeat' first
    | with_reducible assumption | with_reducible apply nextAnd_next | with_reducible apply keeps_issue | with_reducible apply keeps_selfFault
    | with_reducible apply keeps_tryRecv | with_reducible apply keeps_modCore | with_reducible apply keeps_received
    | (with_reducible apply keeps_of_some; with_reducible assumption) | intro _ | split

theorem keeps_execWriteAcknowledged {m remote} (h : Keeps s0 s) : nextAnd (execWriteAcknowledged m remote s) (Keeps s0) := by
  unfold execWriteAcknowledged
  repeat' first
    | with_reducible assumption | with_reducible apply nextAnd_next | with_reducible apply keeps_setCore | with_reducible apply keeps_retry
    | with_reducible apply keeps_setEngine | split

theorem keeps_ringTake {r v} (h : Keeps s0 s) : Keeps s0 (State.ringTake s r v) := by
  unfold State.ringTake
  repeat' first
    | with_reducible assumption | with_reducible apply keeps_syncRing | with_reducible apply keeps_setRing | with_reducible apply keeps_wr
    | with_reducible apply keeps_ringSweep
    | (extract_lets +onlyGivenNames x; refine keeps_cut (s0 := s0) (x := x) ?_ (fun h => ?_); rotate_left; clear_value x; rotate_right; subst x)
    | (extract_lets +onlyGivenNames x; clear_value x) | split

theorem keeps_ringFar {r a remote} (h : Keeps s0 s) : Keeps s0 (State.ringFar s r a remote) := by
  unfold State.ringFar
  repeat' first
    | with_reducible assumption | with_reducible apply keeps_remoteAsk | with_reducible apply keeps_remoteForget | with_reducible apply keeps_ringHalt
    | with_reducible apply keeps_ringTake
    | (extract_lets +onlyGivenNames x; refine keeps_cut (s0 := s0) (x := x) ?_ (fun h => ?_); rotate_left; clear_value x; rotate_right; subst x)
    | (extract_lets +onlyGivenNames x; clear_value x) | split

theorem keeps_execRingFetch {ring remote} (h : Keeps s0 s) : nextAnd (execRingFetch ring remote s) (Keeps s0) := by
  unfold execRingFetch
  repeat' first
    | with_reducible assumption | with_reducible apply nextAnd_next | with_reducible apply keeps_ringSweep | with_reducible apply keeps_ringHalt
    | with_reducible apply keeps_localGet | with_reducible apply keeps_ringTake | with_reducible apply keeps_ringFar | split

theorem keeps_execDmaDescriptorFetch {engine} (h : Keeps s0 s) : nextAnd (execDmaDescriptorFetch engine s) (Keeps s0) := by
  unfold execDmaDescriptorFetch
  repeat' first
    | with_reducible assumption | with_reducible apply nextAnd_next | with_reducible apply keeps_askAll | with_reducible apply keeps_dmaFetch
    | with_reducible apply keeps_dmaHalt | with_reducible apply keeps_setEngine | (with_reducible apply keeps_of_snd_snd; with_reducible assumption)
    | (extract_lets +onlyGivenNames x; clear_value x) | split

theorem keeps_execDmaCopy {engine} (h : Keeps s0 s) : nextAnd (execDmaCopy engine s) (Keeps s0) := by
  unfold execDmaCopy
  repeat' first
    | with_reducible assumption | with_reducible apply nextAnd_next | with_reducible apply keeps_dmaRun

theorem keeps_execDmaMsop {engine} (h : Keeps s0 s) : nextAnd (execDmaMsop engine s) (Keeps s0) := by
  unfold execDmaMsop
  repeat' first
    | with_reducible assumption | with_reducible apply nextAnd_next | with_reducible apply keeps_dmaRun

theorem keeps_execDmaBarge {engine} (h : Keeps s0 s) : nextAnd (execDmaBarge engine s) (Keeps s0) := by
  unfold execDmaBarge
  repeat' first
    | with_reducible assumption | with_reducible apply nextAnd_next | with_reducible apply keeps_dmaRun

theorem keeps_execDmaDescriptorComplete {engine} (h : Keeps s0 s) : nextAnd (execDmaDescriptorComplete engine s) (Keeps s0) := by
  unfold execDmaDescriptorComplete
  repeat' first
    | with_reducible assumption | with_reducible apply nextAnd_next | with_reducible apply keeps_bump | with_reducible apply keeps_setEngine
    | with_reducible apply keeps_wf | with_reducible apply keeps_endChainEntry
    | (extract_lets +onlyGivenNames x; refine keeps_cut (s0 := s0) (x := x) ?_ (fun h => ?_); rotate_left; clear_value x; rotate_right; subst x)
    | (extract_lets +onlyGivenNames x; clear_value x) | split

theorem keeps_execMailboxArrival (h : Keeps s0 s) : nextAnd (execMailboxArrival s) (Keeps s0) := by
  unfold execMailboxArrival
  repeat' first
    | with_reducible assumption | with_reducible apply nextAnd_next | with_reducible apply keeps_arriveSend
    | with_reducible exact keeps_other (by with_reducible assumption) | split

theorem keeps_sendNote {m v} (h : Keeps s0 s) : Keeps s0 (State.sendNote s m v) := by
  unfold State.sendNote
  exact keeps_other h

theorem keeps_takeNote {m v} (h : Keeps s0 s) : Keeps s0 (State.takeNote s m v) := by
  unfold State.takeNote
  repeat' first
    | with_reducible assumption | with_reducible apply keeps_sendNote | with_reducible apply keeps_bump | with_reducible apply keeps_arrive
    | with_reducible apply keeps_setNotes | with_reducible exact keeps_other (by with_reducible assumption) | split

theorem keeps_execEmptyNote (h : Keeps s0 s) : nextAnd (execEmptyNote s) (Keeps s0) := by
  unfold execEmptyNote
  repeat' first
    | with_reducible assumption | with_reducible apply nextAnd_next | with_reducible apply keeps_takeNote | with_reducible apply keeps_modSub
    | with_reducible exact keeps_other (by with_reducible assumption) | split

theorem keeps_execGnDeviceSum (h : Keeps s0 s) : nextAnd (execGnDeviceSum s) (Keeps s0) := by
  unfold execGnDeviceSum
  split
  · exact h
  · refine nextAnd_next (keeps_ite (keeps_send ?_) ?_)
    · exact keeps_wrWide (keeps_other h)
    · exact keeps_wrWide (keeps_other h)

theorem keeps_execGnNorm {sums} (h : Keeps s0 s) : nextAnd (execGnNorm sums s) (Keeps s0) := by
  unfold execGnNorm
  repeat' first
    | with_reducible assumption | with_reducible apply nextAnd_next | with_reducible apply keeps_send | with_reducible apply keeps_gnSendDown
    | with_reducible exact keeps_other (by with_reducible assumption)
    | (extract_lets +onlyGivenNames x; refine keeps_cut (s0 := s0) (x := x) ?_ (fun h => ?_); rotate_left; clear_value x; rotate_right; subst x)
    | (extract_lets +onlyGivenNames x; clear_value x) | split

theorem keeps_pull {p b} (h : Keeps s0 s) : Keeps s0 (State.pull s p b) := by
  unfold State.pull
  repeat' first
    | with_reducible apply keeps_modSub | with_reducible exact keeps_other (by with_reducible assumption)

theorem keeps_execCodewordTransmit {port sub at_} (h : Keeps s0 s) : nextAnd (execCodewordTransmit port sub at_ s) (Keeps s0) := by
  unfold execCodewordTransmit
  repeat' first
    | with_reducible assumption | with_reducible apply nextAnd_next | with_reducible apply keeps_lanesOut | with_reducible apply keeps_modSub
    | with_reducible apply keeps_pull | with_reducible apply keeps_comeUp
    | (extract_lets +onlyGivenNames x; refine keeps_cut (s0 := s0) (x := x) ?_ (fun h => ?_); rotate_left; clear_value x; rotate_right; subst x)
    | (extract_lets +onlyGivenNames x; clear_value x) | split

theorem keeps_execCodewordReceive {port sub cw} (h : Keeps s0 s) : nextAnd (execCodewordReceive port sub cw s) (Keeps s0) := by
  unfold execCodewordReceive
  repeat' first
    | with_reducible assumption | with_reducible apply nextAnd_next | with_reducible apply keeps_setSub | with_reducible apply keeps_bump
    | with_reducible apply keeps_acked | with_reducible apply keeps_comeUp
    | (extract_lets +onlyGivenNames x; refine keeps_cut (s0 := s0) (x := x) ?_ (fun h => ?_); rotate_left; clear_value x; rotate_right; subst x)
    | (extract_lets +onlyGivenNames x; clear_value x) | split

theorem keeps_execNakReceived {port sub ack} (h : Keeps s0 s) : nextAnd (execNakReceived port sub ack s) (Keeps s0) := by
  unfold execNakReceived
  repeat' first
    | with_reducible assumption | with_reducible apply nextAnd_next | with_reducible apply keeps_acked | with_reducible apply keeps_bump
    | with_reducible apply keeps_modSub | with_reducible apply keeps_startRetrain | with_reducible apply keeps_comeUp
    | (extract_lets +onlyGivenNames x; refine keeps_cut (s0 := s0) (x := x) ?_ (fun h => ?_); rotate_left; clear_value x; rotate_right; subst x)
    | (extract_lets +onlyGivenNames x; clear_value x) | split

theorem keeps_execRekeySwitch {port sub} (h : Keeps s0 s) : nextAnd (execRekeySwitch port sub s) (Keeps s0) := by
  unfold execRekeySwitch
  repeat' first
    | with_reducible assumption | with_reducible apply nextAnd_next | with_reducible apply keeps_setSub | with_reducible apply keeps_wrWide
    | with_reducible apply keeps_wb
    | (extract_lets +onlyGivenNames x; refine keeps_cut (s0 := s0) (x := x) ?_ (fun h => ?_); rotate_left; clear_value x; rotate_right; subst x)
    | (extract_lets +onlyGivenNames x; clear_value x) | split

theorem keeps_execKeyPhaseErase {port sub phase} (h : Keeps s0 s) : nextAnd (execKeyPhaseErase port sub phase s) (Keeps s0) := by
  unfold execKeyPhaseErase
  repeat' first
    | with_reducible assumption | with_reducible apply nextAnd_next | with_reducible apply keeps_setSub | (extract_lets +onlyGivenNames x; clear_value x)
    | split

theorem keeps_execDelayTimer {port sub t1} (h : Keeps s0 s) : nextAnd (execDelayTimer port sub t1 s) (Keeps s0) := by
  unfold execDelayTimer
  repeat' first
    | with_reducible assumption | with_reducible apply nextAnd_next | with_reducible apply keeps_modSub | with_reducible apply keeps_control | split

theorem keeps_execDelayReq {port sub t1 t2 t3} (h : Keeps s0 s) : nextAnd (execDelayReq port sub t1 t2 t3 s) (Keeps s0) := by
  unfold execDelayReq
  repeat' first
    | with_reducible assumption | with_reducible apply nextAnd_next | with_reducible apply keeps_control | (extract_lets +onlyGivenNames x; clear_value x)
    | split

theorem keeps_execDelayResp {port sub t2 t3 t4} (h : Keeps s0 s) : nextAnd (execDelayResp port sub t2 t3 t4 s) (Keeps s0) := by
  unfold execDelayResp
  repeat' first
    | with_reducible assumption | with_reducible apply nextAnd_next | with_reducible apply keeps_setSub | with_reducible apply keeps_wr
    | with_reducible apply keeps_setLong
    | (extract_lets +onlyGivenNames x; refine keeps_cut (s0 := s0) (x := x) ?_ (fun h => ?_); rotate_left; clear_value x; rotate_right; subst x)
    | (extract_lets +onlyGivenNames x; clear_value x) | split

theorem keeps_execTime {port sub tcw t2 errBound} (h : Keeps s0 s) : nextAnd (execTime port sub tcw t2 errBound s) (Keeps s0) := by
  unfold execTime
  repeat' first
    | with_reducible assumption | with_reducible apply nextAnd_next | with_reducible apply keeps_modSub | with_reducible apply keeps_wb
    | with_reducible apply keeps_syncEwe | with_reducible apply keeps_supplyTod | with_reducible exact keeps_other (by with_reducible assumption)
    | (extract_lets +onlyGivenNames x; refine keeps_cut (s0 := s0) (x := x) ?_ (fun h => ?_); rotate_left; clear_value x; rotate_right; subst x)
    | (extract_lets +onlyGivenNames x; clear_value x) | split

theorem keeps_execTowpathEnter {port sub} (h : Keeps s0 s) : nextAnd (execTowpathEnter port sub s) (Keeps s0) := by
  unfold execTowpathEnter
  repeat' first
    | with_reducible assumption | with_reducible apply nextAnd_next | with_reducible apply keeps_takeControl

theorem keeps_macsecTake {p i good t1} (h : Keeps s0 s) : KeepsO s0 (State.macsecTake s p i good t1) := by
  unfold State.macsecTake
  dsimp only
  split
  · exact keepsO_none
  split
  · exact keepsO_some (keeps_other h)
  · split
    · exact keepsO_none
    · exact keepsO_some (keeps_other h)

theorem keeps_takeFrame {p i f} (h : Keeps s0 s) : Keeps s0 (State.takeFrame s p i f) := by
  unfold State.takeFrame
  repeat' first
    | with_reducible assumption | with_reducible apply keeps_bump | with_reducible apply keeps_sendFrame
    | (extract_lets +onlyGivenNames x; refine keeps_cut (s0 := s0) (x := x) ?_ (fun h => ?_); rotate_left; clear_value x; rotate_right; subst x) | split

theorem keeps_execEthFrame {port iface f macsecGood} (h : Keeps s0 s) : nextAnd (execEthFrame port iface f macsecGood s) (Keeps s0) := by
  unfold execEthFrame
  split
  · exact h
  split
  · split
    · next z e =>
      obtain ⟨t, _, ht⟩ := Option.bind_eq_some_iff.mp e
      exact keeps_takeFrame (keeps_macsecTake h z ht)
    · exact keeps_bump h
  · exact keeps_takeFrame h

theorem keeps_execResetDrainComplete {scope target} (h : Keeps s0 s) : nextAnd (execResetDrainComplete scope target s) (Keeps s0) := by
  unfold execResetDrainComplete
  repeat' first
    | with_reducible assumption | with_reducible apply nextAnd_next | with_reducible apply keeps_settleScope | with_reducible apply keeps_setResets
    | (extract_lets +onlyGivenNames x; refine keeps_cut (s0 := s0) (x := x) ?_ (fun h => ?_); rotate_left; clear_value x; rotate_right; subst x) | split

theorem keeps_evAlert {e bs} (h : Keeps s0 s) : Keeps s0 (State.evAlert s e bs) := by
  unfold State.evAlert
  repeat' first
    | with_reducible assumption | with_reducible apply keeps_wf | with_reducible apply keeps_wb | with_reducible apply keeps_send
    | (extract_lets +onlyGivenNames x; refine keeps_cut (s0 := s0) (x := x) ?_ (fun h => ?_); rotate_left; clear_value x; rotate_right; subst x) | split

theorem keeps_evLog {e bs} (h : Keeps s0 s) : Keeps s0 (State.evLog s e bs) := by
  unfold State.evLog
  repeat' first
    | with_reducible assumption | with_reducible apply keeps_bumpF | with_reducible apply keeps_bump | with_reducible apply keeps_wr
    | with_reducible apply keeps_setBytes | with_reducible apply keeps_wf
    | with_reducible exact keeps_lastRec (by with_reducible assumption) (spWf_put _ _)
    | (extract_lets +onlyGivenNames x; refine keeps_cut (s0 := s0) (x := x) ?_ (fun h => ?_); rotate_left; clear_value x; rotate_right; subst x)
    | (extract_lets +onlyGivenNames x; clear_value x) | split

theorem keeps_capture32 {a bs} (h : Keeps s0 s) : Keeps s0 (State.capture32 s a bs) := by
  unfold State.capture32
  repeat' first
    | with_reducible assumption | with_reducible apply keeps_wr | intro _ _ _ | with_reducible apply keeps_foldl

theorem keeps_evCapture {c bs} (h : Keeps s0 s) : Keeps s0 (State.evCapture s c bs) := by
  unfold State.evCapture
  repeat' first
    | with_reducible assumption | with_reducible apply keeps_wb | with_reducible apply keeps_capture32 | split

theorem keeps_applyEvent {e} (h : Keeps s0 s) : Keeps s0 (State.applyEvent s e) := by
  unfold State.applyEvent
  repeat' first
    | with_reducible assumption | with_reducible apply keeps_bump | with_reducible apply keeps_fatalSlot | with_reducible apply keeps_evAlert
    | with_reducible apply keeps_evLog | with_reducible apply keeps_evCapture | split

theorem keeps_execEventReport (h : Keeps s0 s) : nextAnd (execEventReport s) (Keeps s0) := by
  unfold execEventReport
  repeat' first
    | with_reducible assumption | with_reducible apply nextAnd_next | with_reducible apply keeps_applyEvent
    | with_reducible exact keeps_other (by with_reducible assumption) | split

theorem keeps_execEthLinkDown {port iface} (h : Keeps s0 s) : nextAnd (execEthLinkDown port iface s) (Keeps s0) := by
  unfold execEthLinkDown
  repeat' first
    | with_reducible assumption | with_reducible apply nextAnd_next | with_reducible apply keeps_setLink | with_reducible apply keeps_wf
    | (extract_lets +onlyGivenNames x; clear_value x) | split

theorem keeps_execKeeperFirmwareException {pc} (h : Keeps s0 s) : nextAnd (execKeeperFirmwareException pc s) (Keeps s0) := by
  unfold execKeeperFirmwareException
  repeat' first
    | with_reducible assumption | with_reducible apply nextAnd_next | with_reducible apply keeps_post

theorem keeps_trial {im} (h : Keeps s0 s) : Keeps s0 (State.trial s im) := by
  unfold State.trial
  repeat' first
    | with_reducible assumption | with_reducible apply keeps_loadWord | with_reducible apply keeps_clearSched | intro _ _ _
    | with_reducible apply keeps_foldl

end Sys2Proof.Machine
end

