-- ==== Sys2Proof/Laws/KeepsKeeper.lean ====
section
/-! SUPPORT. What each definition keeps (Laws/Keeps.lean): the Keeper: security, start-up, power, self-test, registers. -/

namespace Sys2Proof.Machine

variable {s0 s t : State}

theorem keeps_setPhase {n} (h : Keeps s0 s) : Keeps s0 (State.setPhase s n) := by
  unfold State.setPhase
  repeat' first
    | with_reducible exact keeps_other (by with_reducible assumption)

theorem keeps_execResonatorSettled (h : Keeps s0 s) : nextAnd (execResonatorSettled s) (Keeps s0) := by
  unfold execResonatorSettled
  repeat' first
    | with_reducible assumption | with_reducible apply nextAnd_next | with_reducible apply keeps_setPhase | split

theorem keeps_railsOff (h : Keeps s0 s) : Keeps s0 (State.railsOff s) := by
  unfold State.railsOff
  repeat' first
    | with_reducible exact keeps_other (by with_reducible assumption)

theorem keeps_random (h : Keeps s0 s) : Keeps s0 (State.random s).2 := by
  unfold State.random
  repeat' first
    | with_reducible assumption | (with_reducible apply keeps_other; first | with_reducible apply keeps_draw)

theorem keeps_newNonce (h : Keeps s0 s) : Keeps s0 (State.newNonce s) := by
  unfold State.newNonce
  repeat' first
    | with_reducible assumption | with_reducible apply keeps_random | with_reducible apply keeps_wrWide

/-- The registers of a part after reset are in canonical form. -/
theorem spWf_reset_regs (p : PartCode) : spWf 0#32 (State.resetOf p).regs = true := by cases p <;> decide +kernel

/-- The memory after reset is in canonical form. -/
theorem memory_wf_reset : Memory.wf State.reset.mem = true := rfl

theorem keeps_deviceReset {hold fatalNew} (h : Keeps s0 s) : Keeps s0 (State.deviceReset s hold fatalNew) := by
  unfold State.deviceReset
  extract_lets mram testing valid r _ _ _ z z1 z2 z3 z4
  have hz : Keeps s0 z := by
    refine ⟨h.pending, fun w => ?_, h.rollback, h.revoked, h.fused, h.free⟩
    exact ⟨spWf_reset_regs _, rfl, spWf_filter _ (h.canon w).2.2.1, rfl, rfl, rfl, rfl, rfl, rfl, rfl, rfl, rfl, rfl, rfl, rfl⟩
  clear_value z
  have h1 : Keeps s0 z1 := keeps_syncFatal (keeps_wf hz)
  have h2 : Keeps s0 z2 := keeps_wf (keeps_wf h1)
  have h3 : Keeps s0 z3 := keeps_wf (keeps_wf h2)
  have h4 : Keeps s0 z4 := by
    refine keeps_newNonce ?_
    split
    · exact keeps_wf h3
    · exact h3
  exact keeps_recapture h4

theorem keeps_fatalReset {hold cls detail source} (h : Keeps s0 s) : Keeps s0 (State.fatalReset s hold cls detail source) := by
  unfold State.fatalReset
  repeat' first
    | with_reducible assumption | with_reducible apply keeps_fatalSlot | with_reducible apply keeps_deviceReset

theorem keeps_execThermalTrip {jmax hmax above105Ms} (h : Keeps s0 s) : nextAnd (execThermalTrip jmax hmax above105Ms s) (Keeps s0) := by
  unfold execThermalTrip
  repeat' first
    | with_reducible assumption | with_reducible apply nextAnd_next | with_reducible apply keeps_railsOff | with_reducible apply keeps_fatalReset
    | with_reducible exact keeps_other (by with_reducible assumption)
    | (extract_lets +onlyGivenNames x; refine keeps_cut (s0 := s0) (x := x) ?_ (fun h => ?_); rotate_left; clear_value x; rotate_right; subst x)
    | (extract_lets +onlyGivenNames x; clear_value x) | split

theorem keeps_syncSlice {t1} (h : Keeps s0 s) : Keeps s0 (State.syncSlice s t1) := by
  unfold State.syncSlice
  repeat' first
    | with_reducible assumption | with_reducible apply keeps_wf

theorem keeps_writeRecord {t1} (h : Keeps s0 s) : Keeps s0 (State.writeRecord s t1) := by
  unfold State.writeRecord
  repeat' first
    | with_reducible assumption | with_reducible apply keeps_draw | with_reducible apply keeps_wrWide | with_reducible apply keeps_setBytes

theorem keeps_setSoft {l} (h : Keeps s0 s) : Keeps s0 (State.setSoft s l) := by
  unfold State.setSoft
  repeat' first
    | with_reducible apply keeps_wf | with_reducible exact keeps_fuses_same (by with_reducible assumption) rfl rfl rfl

theorem keeps_addSoft {l} (h : Keeps s0 s) : Keeps s0 (State.addSoft s l) := by
  unfold State.addSoft
  repeat' first
    | with_reducible assumption | with_reducible apply keeps_setSoft | with_reducible apply keeps_post
    | (extract_lets +onlyGivenNames x; refine keeps_cut (s0 := s0) (x := x) ?_ (fun h => ?_); rotate_left; clear_value x; rotate_right; subst x)
    | (extract_lets +onlyGivenNames x; clear_value x) | split

theorem keeps_setStage {n} (h : Keeps s0 s) : Keeps s0 (State.setStage s n) := by
  unfold State.setStage
  repeat' first
    | with_reducible assumption | with_reducible apply keeps_wf

theorem keeps_setAuth {a} (h : Keeps s0 s) : Keeps s0 (State.setAuth s a) := by
  unfold State.setAuth
  repeat' first
    | with_reducible apply keeps_wf | with_reducible apply keeps_wb | with_reducible exact keeps_other (by with_reducible assumption)

theorem keeps_keeperReset (h : Keeps s0 s) : Keeps s0 (State.keeperReset s) := by
  unfold State.keeperReset
  refine keeps_clearCaptures (keeps_clearCaptures (keeps_recapture (keeps_newNonce (keeps_setStage (keeps_setAuth ?_)))))
  exact keeps_other (keeps_foldl (fun s x h => keeps_wrWide h) h)

theorem keeps_kpReset {m v} (h : Keeps s0 s) : Keeps s0 (State.kpReset s m v) := by
  unfold State.kpReset
  split
  · exact keeps_regEvent h
  split
  · exact keeps_deviceReset h
  split
  · exact keeps_keeperReset h
  · exact h

theorem keeps_repairCtrl {m v} (h : Keeps s0 s) : Keeps s0 (State.repairCtrl s m v) := by
  unfold State.repairCtrl
  repeat' first
    | with_reducible assumption | with_reducible apply keeps_regEvent | with_reducible apply keeps_setAuth | with_reducible apply keeps_wb
    | with_reducible exact keeps_other (by with_reducible assumption)
    | (extract_lets +onlyGivenNames x; refine keeps_cut (s0 := s0) (x := x) ?_ (fun h => ?_); rotate_left; clear_value x; rotate_right; subst x)
    | (extract_lets +onlyGivenNames x; clear_value x) | split

theorem keeps_measTenants (h : Keeps s0 s) : Keeps s0 (State.measTenants s) := by
  unfold State.measTenants
  repeat' first
    | with_reducible assumption | with_reducible apply keeps_measExtend

theorem keeps_secCtrl {m v} (h : Keeps s0 s) : Keeps s0 (State.secCtrl s m v) := by
  unfold State.secCtrl
  repeat' first
    | with_reducible assumption | with_reducible apply keeps_regEvent | with_reducible apply keeps_wr | with_reducible apply keeps_measTenants
    | (extract_lets +onlyGivenNames x; refine keeps_cut (s0 := s0) (x := x) ?_ (fun h => ?_); rotate_left; clear_value x; rotate_right; subst x)
    | (extract_lets +onlyGivenNames x; clear_value x) | split

theorem keeps_measExt {m} (h : Keeps s0 s) : Keeps s0 (State.measExt s m) := by
  unfold State.measExt
  repeat' first
    | with_reducible assumption | with_reducible apply keeps_measExtend | split

theorem keeps_applyWide {b o v i x5} (h : Keeps s0 s) : Keeps s0 (State.applyWide s b o v i x5) := by
  fun_induction State.applyWide s b o v i x5
  repeat' first
    | with_reducible assumption | apply_assumption | (with_reducible apply keeps_other; first | with_reducible apply keeps_wr)

theorem keeps_setBuffer {a v} (h : Keeps s0 s) : Keeps s0 (State.setBuffer s a v) := by
  unfold State.setBuffer
  repeat' first
    | with_reducible exact keeps_other (by with_reducible assumption)

theorem keeps_regStore {b o v} (h : Keeps s0 s) : Keeps s0 (State.regStore s b o v) := by
  unfold State.regStore
  repeat' first
    | with_reducible assumption | with_reducible apply keeps_applyWide | with_reducible apply keeps_setBuffer | with_reducible apply keeps_wr | split

theorem keeps_tmWrite {o v} (h : Keeps s0 s) : Keeps s0 (State.tmWrite s o v) := by
  unfold State.tmWrite
  repeat' first
    | with_reducible assumption | with_reducible apply keeps_regStore | with_reducible apply keeps_syncSources | with_reducible apply keeps_wb
    | with_reducible exact keeps_other (by with_reducible assumption)
    | (extract_lets +onlyGivenNames x; refine keeps_cut (s0 := s0) (x := x) ?_ (fun h => ?_); rotate_left; clear_value x; rotate_right; subst x)
    | (extract_lets +onlyGivenNames x; clear_value x) | split

theorem keeps_syncEffective (h : Keeps s0 s) : Keeps s0 (State.syncEffective s) := by
  unfold State.syncEffective
  repeat' first
    | with_reducible assumption | with_reducible apply keeps_wf

theorem keeps_pwLimit {v} (h : Keeps s0 s) : Keeps s0 (State.pwLimit s v) := by
  unfold State.pwLimit
  repeat' first
    | with_reducible assumption | with_reducible apply keeps_syncEffective | with_reducible apply keeps_wf

theorem keeps_syncClock (h : Keeps s0 s) : Keeps s0 (State.syncClock s) := by
  unfold State.syncClock
  repeat' first
    | with_reducible assumption | with_reducible apply keeps_wb | with_reducible apply keeps_wf

theorem keeps_pwClk {v} (h : Keeps s0 s) : Keeps s0 (State.pwClk s v) := by
  unfold State.pwClk
  repeat' first
    | with_reducible assumption | with_reducible apply keeps_syncClock | with_reducible apply keeps_wb | with_reducible apply keeps_wf

theorem keeps_evWrite {m o v} (h : Keeps s0 s) : Keeps s0 (State.evWrite s m o v) := by
  unfold State.evWrite
  repeat' first
    | with_reducible assumption | with_reducible apply keeps_evTail | with_reducible apply keeps_evFatal | with_reducible apply keeps_regStore | split

theorem keeps_coWrite {m c o v} (h : Keeps s0 s) : Keeps s0 (State.coWrite s m c o v) := by
  unfold State.coWrite
  repeat' first
    | with_reducible assumption | with_reducible apply keeps_regEvent | with_reducible apply keeps_regStore | with_reducible apply keeps_gnPartWrite
    | with_reducible apply keeps_lossWritten
    | (extract_lets +onlyGivenNames x; refine keeps_cut (s0 := s0) (x := x) ?_ (fun h => ?_); rotate_left; clear_value x; rotate_right; subst x) | split

theorem keeps_bind {e c ref} (h : Keeps s0 s) : Keeps s0 (State.bind s e c ref) := by
  unfold State.bind
  repeat' first
    | with_reducible exact keeps_other (by with_reducible assumption)

theorem keeps_kregWrite {m n i v e} (h : Keeps s0 s) : Keeps s0 (State.kregWrite s m n i v e) := by
  unfold State.kregWrite
  repeat' first
    | with_reducible assumption | with_reducible apply keeps_regEvent | with_reducible apply keeps_reply | with_reducible apply keeps_bind
    | (extract_lets +onlyGivenNames x; refine keeps_cut (s0 := s0) (x := x) ?_ (fun h => ?_); rotate_left; clear_value x; rotate_right; subst x) | split

theorem keeps_regStoreRwl {m b o v} (h : Keeps s0 s) : Keeps s0 (State.regStoreRwl s m b o v) := by
  unfold State.regStoreRwl
  repeat' first
    | with_reducible assumption | with_reducible apply keeps_regEvent | with_reducible apply keeps_regStore | split

theorem keeps_hmWrite {m n o v} (h : Keeps s0 s) : Keeps s0 (State.hmWrite s m n o v) := by
  unfold State.hmWrite
  repeat' first
    | with_reducible assumption | with_reducible apply keeps_kregWrite | with_reducible apply keeps_syncRefresh | with_reducible apply keeps_regStoreRwl
    | split

theorem keeps_lkWrite {m p o v} (h : Keeps s0 s) : Keeps s0 (State.lkWrite s m p o v) := by
  unfold State.lkWrite
  repeat' first
    | with_reducible assumption | with_reducible apply keeps_wf | with_reducible apply keeps_beginReconfigure | with_reducible apply keeps_lkCtrl
    | with_reducible apply keeps_regEvent | with_reducible apply keeps_syncEwe | with_reducible apply keeps_regStore
    | (extract_lets +onlyGivenNames x; refine keeps_cut (s0 := s0) (x := x) ?_ (fun h => ?_); rotate_left; clear_value x; rotate_right; subst x)
    | (extract_lets +onlyGivenNames x; clear_value x) | split

theorem keeps_dmWrite {m e o v} (h : Keeps s0 s) : Keeps s0 (State.dmWrite s m e o v) := by
  unfold State.dmWrite
  repeat' first
    | with_reducible assumption | with_reducible apply keeps_dmGo | with_reducible apply keeps_dmCtrl | with_reducible apply keeps_regStore | split

theorem keeps_mbWrite {m x o v} (h : Keeps s0 s) : Keeps s0 (State.mbWrite s m x o v) := by
  unfold State.mbWrite
  repeat' first
    | with_reducible assumption | with_reducible apply keeps_lockWrite | with_reducible apply keeps_regStoreRwl | with_reducible apply keeps_mbSend
    | (extract_lets +onlyGivenNames x; refine keeps_cut (s0 := s0) (x := x) ?_ (fun h => ?_); rotate_left; clear_value x; rotate_right; subst x) | split

theorem keeps_loadCapture {b o x3} (h : Keeps s0 s) : Keeps s0 (State.loadCapture s b o x3) := by
  fun_induction State.loadCapture s b o x3
  repeat' first
    | with_reducible assumption | with_reducible exact keeps_capture (by with_reducible assumption) (spWf_put _ _)

theorem keeps_regRead {m b o} (h : Keeps s0 s) : Keeps s0 (State.regRead s m b o).2 := by
  unfold State.regRead
  repeat' first
    | with_reducible assumption | with_reducible apply keeps_lockRead | with_reducible apply keeps_loadCapture | split

theorem keeps_localRd {m a n} (h : Keeps s0 s) : Keeps s0 (State.localRd s m a n).2.2 := by
  unfold State.localRd
  repeat' first
    | with_reducible assumption | with_reducible apply keeps_flushSends | with_reducible apply keeps_checkLocal | with_reducible apply keeps_regRead
    | with_reducible apply keeps_memRd | with_reducible apply keeps_poundError | (with_reducible apply keeps_of_snd; with_reducible assumption)
    | (extract_lets +onlyGivenNames x; refine keeps_cut (s0 := s0) (x := x) ?_ (fun h => ?_); rotate_left; clear_value x; rotate_right; subst x) | split

theorem keeps_repairChannel {l n c} (h : Keeps s0 s) : Keeps s0 (State.repairChannel s l n c) := by
  unfold State.repairChannel
  repeat' first
    | with_reducible assumption | with_reducible apply keeps_wf | with_reducible apply keeps_wb

theorem keeps_trainStack {l n} (h : Keeps s0 s) : Keeps s0 (State.trainStack s l n) := by
  unfold State.trainStack
  repeat' first
    | with_reducible assumption | with_reducible apply keeps_repairChannel | with_reducible apply keeps_wb | with_reducible apply keeps_wf | intro _ _ _
    | with_reducible apply keeps_foldl

theorem keeps_checkFinding {f} (h : Keeps s0 s) : Keeps s0 (State.checkFinding s f) := by
  unfold State.checkFinding
  repeat' first
    | with_reducible assumption | with_reducible apply keeps_post | with_reducible apply keeps_wf | split

theorem keeps_zeroHbm (h : Keeps s0 s) : Keeps s0 (State.zeroHbm s) :=
  keeps_dropCaches (keeps_other (keeps_blockKey (m := []) (keeps_clearMem h) (fun _ => rfl)))

theorem keeps_startHbm (h : Keeps s0 s) : Keeps s0 (State.startHbm s) := keeps_zeroHbm (keeps_foldl (fun _ _ h => keeps_wb h) h)

theorem keeps_syncSvn (h : Keeps s0 s) : Keeps s0 (State.syncSvn s) := by
  unfold State.syncSvn
  repeat' first
    | with_reducible assumption | with_reducible apply keeps_wf

theorem keeps_revoke {k} (h : Keeps s0 s) : Keeps s0 { s with fuses := { s.fuses with revoked := s.fuses.revoked ||| k } } :=
  keeps_fuses h (Nat.le_refl _) (fun i hi => by rw [Nat.testBit_or, hi, Bool.true_or]) List.prefix_rfl

theorem keeps_execRevokeSigningKey {index} (h : Keeps s0 s) : nextAnd (execRevokeSigningKey index s) (Keeps s0) := by
  unfold execRevokeSigningKey
  split
  · split
    · exact keeps_syncSvn (keeps_wf (keeps_setAuth (keeps_revoke h)))
    · exact h
  · exact h

theorem keeps_tZero (h : Keeps s0 s) : Keeps s0 (State.tZero s) := by
  unfold State.tZero
  repeat' first
    | with_reducible exact keeps_other (by with_reducible assumption)

theorem keeps_releaseHold (h : Keeps s0 s) : Keeps s0 (State.releaseHold s) := by
  unfold State.releaseHold
  repeat' first
    | with_reducible assumption | with_reducible apply keeps_tZero | with_reducible exact keeps_other (by with_reducible assumption)
    | (extract_lets +onlyGivenNames x; clear_value x) | split

theorem keeps_execSupplyShutdownRelease {vinMv steadyMs resetNLowNs below10vMs} (h : Keeps s0 s) : nextAnd (execSupplyShutdownRelease vinMv steadyMs resetNLowNs below10vMs s) (Keeps s0) := by
  unfold execSupplyShutdownRelease
  repeat' first
    | with_reducible assumption | with_reducible apply nextAnd_next | with_reducible apply keeps_releaseHold | split

theorem keeps_countCores (h : Keeps s0 s) : Keeps s0 (State.countCores s) := by
  unfold State.countCores
  repeat' first
    | with_reducible assumption | with_reducible apply keeps_wf

theorem keeps_writeImage {i image} (h : Keeps s0 s) : Keeps s0 (State.writeImage s i image) := by
  unfold State.writeImage
  repeat' first
    | with_reducible assumption | with_reducible apply keeps_syncSvn | with_reducible apply keeps_setBytes | split

theorem keeps_shutdown {kind vin met} (h : Keeps s0 s) : Keeps s0 (State.shutdown s kind vin met) := by
  unfold State.shutdown
  repeat' first
    | with_reducible assumption | with_reducible apply keeps_railsOff | with_reducible apply keeps_fatalReset
    | (extract_lets +onlyGivenNames x; clear_value x) | split

theorem keeps_busRead {m addr n} (h : Keeps s0 s) : Keeps s0 (State.busRead s m addr n) := by
  unfold State.busRead
  repeat' first
    | with_reducible assumption | with_reducible apply keeps_reply | with_reducible apply keeps_sendReq | with_reducible apply keeps_localRd
    | (with_reducible apply keeps_of_snd; with_reducible assumption) | split

theorem keeps_execThermalTripRelease {hottest coolMs} (h : Keeps s0 s) : nextAnd (execThermalTripRelease hottest coolMs s) (Keeps s0) := by
  unfold execThermalTripRelease
  repeat' first
    | with_reducible assumption | with_reducible apply nextAnd_next | with_reducible apply keeps_releaseHold
    | with_reducible exact keeps_other (by with_reducible assumption) | (extract_lets +onlyGivenNames x; clear_value x) | split

theorem keeps_unwarn {kind} (h : Keeps s0 s) : Keeps s0 (State.unwarn s kind) := by
  unfold State.unwarn
  repeat' first
    | with_reducible assumption | with_reducible apply keeps_wb | with_reducible exact keeps_other (by with_reducible assumption)
    | (extract_lets +onlyGivenNames x; clear_value x) | split

theorem keeps_warn {kind vin} (h : Keeps s0 s) : Keeps s0 (State.warn s kind vin) := by
  unfold State.warn
  extract_lets last fresh _ x
  have hx : Keeps s0 x := keeps_other h
  split
  · split
    · exact keeps_riskInput (keeps_bump (keeps_post hx))
    · exact keeps_post hx
  · exact hx

theorem keeps_warnCmd {kind vin present long} (h : Keeps s0 s) : Keeps s0 (State.warnCmd s kind vin present long) := by
  unfold State.warnCmd
  repeat' first
    | with_reducible assumption | with_reducible apply keeps_unwarn | with_reducible apply keeps_warn | with_reducible apply keeps_wb | split

theorem keeps_execI3cEntdaa {address} (h : Keeps s0 s) : nextAnd (execI3cEntdaa address s) (Keeps s0) := by
  unfold execI3cEntdaa
  repeat' first
    | with_reducible apply nextAnd_next | with_reducible exact keeps_other (by with_reducible assumption)

theorem keeps_execAttestationRequest {nonce wantKey} (h : Keeps s0 s) : nextAnd (execAttestationRequest nonce wantKey s) (Keeps s0) := by
  unfold execAttestationRequest
  repeat' first
    | with_reducible assumption | with_reducible apply nextAnd_next | with_reducible apply keeps_reply | with_reducible apply keeps_random
    | with_reducible exact keeps_other (by with_reducible assumption) | (extract_lets +onlyGivenNames x; clear_value x)
    | (with_reducible apply keeps_other; first | with_reducible apply keeps_reply | with_reducible apply keeps_random | with_reducible apply keeps_draw)
    | split

theorem keeps_execKpResetRelease (h : Keeps s0 s) : nextAnd (execKpResetRelease s) (Keeps s0) := by
  unfold execKpResetRelease
  repeat' first
    | with_reducible assumption | with_reducible apply nextAnd_next | with_reducible apply keeps_tZero
    | with_reducible exact keeps_other (by with_reducible assumption) | (extract_lets +onlyGivenNames x; clear_value x) | split

theorem keeps_execCakDelivery {port iface cak} (h : Keeps s0 s) : nextAnd (execCakDelivery port iface cak s) (Keeps s0) := by
  unfold execCakDelivery
  repeat' first
    | with_reducible assumption | with_reducible apply nextAnd_next | with_reducible exact keeps_caks (by with_reducible assumption) (spWf_put _ _)
    | split

theorem keeps_raise {k} (h : Keeps s0 s) : Keeps s0 { s with fuses := { s.fuses with rollback := max s.fuses.rollback k } } :=
  keeps_fuses h (Nat.le_max_left _ _) (fun _ hi => hi) List.prefix_rfl

theorem keeps_execRaiseRollback {value} (h : Keeps s0 s) : nextAnd (execRaiseRollback value s) (Keeps s0) := by
  unfold execRaiseRollback
  split
  · split
    · exact keeps_syncSvn (keeps_wf (keeps_setAuth (keeps_raise h)))
    · exact h
  · exact h

theorem keeps_putKreg {i v} (h : Keeps s0 s) : Keeps s0 (State.putKreg s i v) := by
  unfold State.putKreg
  repeat' first
    | with_reducible assumption | with_reducible apply keeps_dropCaches | with_reducible apply keeps_wr | intro _ _ _ | with_reducible apply keeps_foldl

theorem keeps_rekeySlot {slot} (h : Keeps s0 s) : Keeps s0 (State.rekeySlot s slot) := by
  unfold State.rekeySlot
  repeat' first
    | with_reducible apply keeps_dropCaches | with_reducible exact keeps_other (by with_reducible assumption)

theorem keeps_tenantChange {k reg v} (h : Keeps s0 s) : Keeps s0 (State.tenantChange s k reg v) := by
  unfold State.tenantChange
  repeat' first
    | with_reducible assumption | with_reducible apply keeps_wr | with_reducible apply keeps_rekeySlot | with_reducible apply keeps_measTenants | split

theorem keeps_measHeader {slot reg} (h : Keeps s0 s) : Keeps s0 (State.measHeader s slot reg) := by
  unfold State.measHeader
  repeat' first
    | with_reducible assumption | with_reducible apply keeps_measExtend

theorem keeps_execOvWarn {vinMv lastedUs} (h : Keeps s0 s) : nextAnd (execOvWarn vinMv lastedUs s) (Keeps s0) := by
  unfold execOvWarn
  repeat' first
    | with_reducible assumption | with_reducible apply nextAnd_next | with_reducible apply keeps_warnCmd

theorem keeps_execLinkKeyExchange {port sub good material} (h : Keeps s0 s) : nextAnd (execLinkKeyExchange port sub good material s) (Keeps s0) := by
  unfold execLinkKeyExchange
  repeat' first
    | with_reducible assumption | with_reducible apply nextAnd_next | with_reducible apply keeps_modSub | with_reducible apply keeps_control
    | with_reducible apply keeps_bind | with_reducible exact keeps_other (by with_reducible assumption)
    | (extract_lets +onlyGivenNames x; refine keeps_cut (s0 := s0) (x := x) ?_ (fun h => ?_); rotate_left; clear_value x; rotate_right; subst x)
    | (extract_lets +onlyGivenNames x; clear_value x) | split

theorem keeps_execReady (h : Keeps s0 s) : nextAnd (execReady s) (Keeps s0) := by
  unfold execReady
  repeat' first
    | with_reducible assumption | with_reducible apply nextAnd_next | with_reducible apply keeps_setPhase | with_reducible apply keeps_wf
    | with_reducible apply keeps_setStage | split

theorem keeps_execRailWarn {vinMv permille lastedUs} (h : Keeps s0 s) : nextAnd (execRailWarn vinMv permille lastedUs s) (Keeps s0) := by
  unfold execRailWarn
  repeat' first
    | with_reducible assumption | with_reducible apply nextAnd_next | with_reducible apply keeps_warnCmd

theorem keeps_offer {t1} (h : Keeps s0 s) : Keeps s0 (State.offer s t1) := by
  unfold State.offer
  repeat' first
    | with_reducible assumption | with_reducible apply keeps_setAuth | with_reducible apply keeps_newNonce | split

theorem keeps_execAuthorisationOffer {t1} (h : Keeps s0 s) : nextAnd (execAuthorisationOffer t1 s) (Keeps s0) := by
  unfold execAuthorisationOffer
  repeat' first
    | with_reducible assumption | with_reducible apply nextAnd_next | with_reducible apply keeps_offer | split

theorem keeps_execResetNRelease (h : Keeps s0 s) : nextAnd (execResetNRelease s) (Keeps s0) := by
  unfold execResetNRelease
  extract_lets _ x
  have hx : Keeps s0 x := keeps_other h
  split
  · exact keeps_tZero hx
  · exact hx

theorem keeps_execWideLowRead {m addr} (h : Keeps s0 s) : nextAnd (execWideLowRead m addr s) (Keeps s0) := by
  unfold execWideLowRead
  repeat' first
    | with_reducible assumption | with_reducible apply nextAnd_next | with_reducible apply keeps_busRead

theorem keeps_writeMap {die} (h : Keeps s0 s) : Keeps s0 (State.writeMap s die) := by
  unfold State.writeMap
  repeat' first
    | with_reducible assumption | with_reducible apply keeps_wr | with_reducible apply keeps_wf | intro _ _ _ | with_reducible apply keeps_foldl

theorem keeps_firstTraining (h : Keeps s0 s) : Keeps s0 (State.firstTraining s) := by
  unfold State.firstTraining
  repeat' first
    | with_reducible assumption | with_reducible apply keeps_setLink | intro _ _ _ | with_reducible apply keeps_foldl | split

theorem keeps_execMbLockRead {m core chan} (h : Keeps s0 s) : nextAnd (execMbLockRead m core chan s) (Keeps s0) := by
  unfold execMbLockRead
  repeat' first
    | with_reducible assumption | with_reducible apply nextAnd_next | with_reducible apply keeps_busRead

theorem keeps_execVinPowerUp {vinMv} (h : Keeps s0 s) : nextAnd (execVinPowerUp vinMv s) (Keeps s0) := by
  unfold execVinPowerUp
  repeat' first
    | with_reducible assumption | with_reducible apply nextAnd_next | with_reducible apply keeps_wf | with_reducible apply keeps_tZero
    | (extract_lets +onlyGivenNames x; refine keeps_cut (s0 := s0) (x := x) ?_ (fun h => ?_); rotate_left; clear_value x; rotate_right; subst x) | split

theorem keeps_measParts {slot reg kinds} (h : Keeps s0 s) : Keeps s0 (State.measParts s slot reg kinds) := by
  unfold State.measParts
  repeat' first
    | with_reducible assumption | with_reducible apply keeps_measExtend | intro _ _ _ | with_reducible apply keeps_foldl | split

theorem keeps_bootImage {slot fallback} (h : Keeps s0 s) : Keeps s0 (State.bootImage s slot fallback) := by
  unfold State.bootImage
  extract_lets x1 _ x2 x3
  have h1 : Keeps s0 x1 := keeps_wb (keeps_wf h)
  have h3 : Keeps s0 x3 := keeps_syncSvn (keeps_wf (keeps_fuses_same h1 rfl rfl rfl))
  exact keeps_measParts (keeps_measHeader (keeps_measExtend (keeps_draw h3)))

theorem keeps_measFirmware (h : Keeps s0 s) : Keeps s0 (State.measFirmware s) := by
  unfold State.measFirmware
  repeat' first
    | with_reducible assumption | with_reducible apply keeps_measParts

theorem keeps_execPartitionSwitchOn {part} (h : Keeps s0 s) : nextAnd (execPartitionSwitchOn part s) (Keeps s0) := by
  unfold execPartitionSwitchOn
  repeat' first
    | with_reducible assumption | with_reducible apply nextAnd_next | with_reducible apply keeps_enableDom | split

theorem keeps_execLinksFirstTrainingDone (h : Keeps s0 s) : nextAnd (execLinksFirstTrainingDone s) (Keeps s0) := by
  unfold execLinksFirstTrainingDone
  repeat' first
    | with_reducible assumption | with_reducible apply nextAnd_next | with_reducible apply keeps_setPhase | split

theorem keeps_execResetNAssert {lowNs} (h : Keeps s0 s) : nextAnd (execResetNAssert lowNs s) (Keeps s0) := by
  unfold execResetNAssert
  repeat' first
    | with_reducible assumption | with_reducible apply nextAnd_next | with_reducible apply keeps_deviceReset
    | with_reducible exact keeps_other (by with_reducible assumption)
    | (extract_lets +onlyGivenNames x; refine keeps_cut (s0 := s0) (x := x) ?_ (fun h => ?_); rotate_left; clear_value x; rotate_right; subst x)
    | (extract_lets +onlyGivenNames x; clear_value x) | split

theorem keeps_measAgain (h : Keeps s0 s) : Keeps s0 (State.measAgain s) := by
  unfold State.measAgain
  repeat' first
    | with_reducible assumption | with_reducible apply keeps_measExtend | with_reducible apply keeps_measTenants | split

theorem keeps_execFuseEntryBurned {good} (h : Keeps s0 s) : nextAnd (execFuseEntryBurned good s) (Keeps s0) := by
  unfold execFuseEntryBurned
  split
  · exact h
  · extract_lets _ x1
    have h1 : Keeps s0 x1 := keeps_wb (keeps_other h)
    split
    · exact h1
    split
    · exact keeps_wf (keeps_setSoft (keeps_fuses h1 (Nat.le_refl _) (fun _ hi => hi) (List.prefix_append _ _)))
    · exact keeps_post (keeps_wb h1)

theorem keeps_execEphemeralKeyExpiry (h : Keeps s0 s) : nextAnd (execEphemeralKeyExpiry s) (Keeps s0) := by
  unfold execEphemeralKeyExpiry
  repeat' first
    | with_reducible assumption | with_reducible apply nextAnd_next | with_reducible exact keeps_other (by with_reducible assumption)
    | (extract_lets +onlyGivenNames x; clear_value x) | split

theorem keeps_execAuthorisationExpiry (h : Keeps s0 s) : nextAnd (execAuthorisationExpiry s) (Keeps s0) := by
  unfold execAuthorisationExpiry
  repeat' first
    | with_reducible assumption | with_reducible apply nextAnd_next | with_reducible apply keeps_setAuth | split

theorem keeps_execReplaceOperatorKeys {hashes digest} (h : Keeps s0 s) : nextAnd (execReplaceOperatorKeys hashes digest s) (Keeps s0) := by
  unfold execReplaceOperatorKeys
  split
  · extract_lets _ x1 x2
    have h1 : Keeps s0 x1 := keeps_fuses_same h rfl rfl rfl
    have h2 : Keeps s0 x2 := by
      show Keeps s0 (ite _ _ _)
      split
      · exact keeps_setAuth h1
      · exact h1
    exact keeps_measExtend h2
  · exact h

theorem keeps_execSessionOpen {keyHash exchangeGood} (h : Keeps s0 s) : nextAnd (execSessionOpen keyHash exchangeGood s) (Keeps s0) := by
  unfold execSessionOpen
  repeat' first
    | with_reducible assumption | with_reducible apply nextAnd_next | with_reducible exact keeps_other (by with_reducible assumption)
    | (extract_lets +onlyGivenNames x; clear_value x) | split

theorem keeps_execImageSlotWrite {image} (h : Keeps s0 s) : nextAnd (execImageSlotWrite image s) (Keeps s0) := by
  unfold execImageSlotWrite
  repeat' first
    | with_reducible assumption | with_reducible apply nextAnd_next | with_reducible apply keeps_writeImage

theorem keeps_execDrbgReseed (h : Keeps s0 s) : nextAnd (execDrbgReseed s) (Keeps s0) := by
  unfold execDrbgReseed
  repeat' first
    | with_reducible assumption | with_reducible apply nextAnd_next | with_reducible exact keeps_other (by with_reducible assumption)
    | (extract_lets +onlyGivenNames x; clear_value x) | split

theorem keeps_execHmKregWrite {m index value epoch} (h : Keeps s0 s) : nextAnd (execHmKregWrite m index value epoch s) (Keeps s0) := by
  unfold execHmKregWrite
  repeat' first
    | with_reducible assumption | with_reducible apply nextAnd_next | with_reducible apply keeps_checkLocal | with_reducible apply keeps_reply
    | with_reducible apply keeps_kregWrite | (with_reducible apply keeps_of_snd; with_reducible assumption) | split

theorem keeps_execI3cSetdasa {address} (h : Keeps s0 s) : nextAnd (execI3cSetdasa address s) (Keeps s0) := by
  unfold execI3cSetdasa
  repeat' first
    | with_reducible apply nextAnd_next | with_reducible exact keeps_other (by with_reducible assumption)

theorem keeps_execLimiterSample {vinMv iin10ma avgW peakW lowerMhz} (h : Keeps s0 s) :
    nextAnd (execLimiterSample vinMv iin10ma avgW peakW lowerMhz s) (Keeps s0) := by
  unfold execLimiterSample
  extract_lets x1 x2 x3 x4 down _ x5 x6
  have h2 : Keeps s0 x2 := keeps_syncEffective (keeps_wf (keeps_wf (keeps_wf (keeps_wf h))))
  have h3 : Keeps s0 x3 := by
    show Keeps s0 (ite _ _ _)
    split
    · exact keeps_unwarn h2
    · exact h2
  have h4 : Keeps s0 x4 := by
    show Keeps s0 (ite _ _ _)
    split
    · exact keeps_unwarn h3
    · exact h3
  have h5 : Keeps s0 x5 := by
    show Keeps s0 (ite _ _ _)
    split
    · exact h4
    · exact keeps_other h4
  refine nextAnd_next ?_
  split
  · exact keeps_warn (keeps_syncClock h5)
  · exact keeps_syncClock h5

theorem keeps_execClockRaise (h : Keeps s0 s) : nextAnd (execClockRaise s) (Keeps s0) := by
  unfold execClockRaise
  repeat' first
    | with_reducible assumption | with_reducible apply nextAnd_next | with_reducible apply keeps_syncClock
    | with_reducible exact keeps_other (by with_reducible assumption) | (extract_lets +onlyGivenNames x; clear_value x) | split

theorem keeps_junction {j i} (h : Keeps s0 s) : Keeps s0 (State.junction s j i) := by
  unfold State.junction
  repeat' first
    | with_reducible assumption | with_reducible apply keeps_wf | with_reducible apply keeps_riskInput

theorem keeps_execThrottleDown {jmax die} (h : Keeps s0 s) : nextAnd (execThrottleDown jmax die s) (Keeps s0) := by
  unfold execThrottleDown
  repeat' first
    | with_reducible assumption | with_reducible apply nextAnd_next | with_reducible apply keeps_junction | with_reducible apply keeps_syncClock
    | with_reducible apply keeps_post | with_reducible exact keeps_other (by with_reducible assumption)
    | (extract_lets +onlyGivenNames x; refine keeps_cut (s0 := s0) (x := x) ?_ (fun h => ?_); rotate_left; clear_value x; rotate_right; subst x)
    | (extract_lets +onlyGivenNames x; clear_value x) | split

theorem keeps_execThrottleUp {jmax die} (h : Keeps s0 s) : nextAnd (execThrottleUp jmax die s) (Keeps s0) := by
  unfold execThrottleUp
  repeat' first
    | with_reducible assumption | with_reducible apply nextAnd_next | with_reducible apply keeps_junction | with_reducible apply keeps_syncClock
    | with_reducible exact keeps_other (by with_reducible assumption)
    | (extract_lets +onlyGivenNames x; refine keeps_cut (s0 := s0) (x := x) ?_ (fun h => ?_); rotate_left; clear_value x; rotate_right; subst x)
    | (extract_lets +onlyGivenNames x; clear_value x) | split

theorem keeps_execUvWarn {vinMv lastedUs} (h : Keeps s0 s) : nextAnd (execUvWarn vinMv lastedUs s) (Keeps s0) := by
  unfold execUvWarn
  repeat' first
    | with_reducible assumption | with_reducible apply nextAnd_next | with_reducible apply keeps_warnCmd

theorem keeps_execUvShutdown {vinMv lastedUs} (h : Keeps s0 s) : nextAnd (execUvShutdown vinMv lastedUs s) (Keeps s0) := by
  unfold execUvShutdown
  repeat' first
    | with_reducible assumption | with_reducible apply nextAnd_next | with_reducible apply keeps_shutdown

theorem keeps_execOvShutdown {vinMv lastedUs} (h : Keeps s0 s) : nextAnd (execOvShutdown vinMv lastedUs s) (Keeps s0) := by
  unfold execOvShutdown
  repeat' first
    | with_reducible assumption | with_reducible apply nextAnd_next | with_reducible apply keeps_shutdown

theorem keeps_execRailShutdown {vinMv permille overCurrent lastedUs} (h : Keeps s0 s) : nextAnd (execRailShutdown vinMv permille overCurrent lastedUs s) (Keeps s0) := by
  unfold execRailShutdown
  repeat' first
    | with_reducible assumption | with_reducible apply nextAnd_next | with_reducible apply keeps_shutdown

theorem keeps_execOvercurrentShutdown {vinMv iin10ma lastedUs} (h : Keeps s0 s) : nextAnd (execOvercurrentShutdown vinMv iin10ma lastedUs s) (Keeps s0) := by
  unfold execOvercurrentShutdown
  repeat' first
    | with_reducible assumption | with_reducible apply nextAnd_next | with_reducible apply keeps_shutdown

theorem keeps_execCablePresent {port} (h : Keeps s0 s) : nextAnd (execCablePresent port s) (Keeps s0) := by
  unfold execCablePresent
  repeat' first
    | with_reducible apply nextAnd_next | with_reducible exact keeps_other (by with_reducible assumption)

end Sys2Proof.Machine
end

