-- ==== Sys2Proof/Laws/KeepsCmds.lean ====
section
/-! SUPPORT. What each definition keeps (Laws/Keeps.lean): serving intake, ring commands, locks, broadcast and the fleet. -/

namespace Sys2Proof.Machine

variable {s0 s t : State}

theorem keeps_postFleet {dev} (h : Keeps s0 s) : Keeps s0 (State.postFleet s dev) := by
  unfold State.postFleet
  repeat' first
    | with_reducible assumption | with_reducible apply keeps_draw | with_reducible apply keeps_post

theorem keeps_syncMembers (h : Keeps s0 s) : Keeps s0 (State.syncMembers s) := by
  unfold State.syncMembers
  repeat' first
    | with_reducible assumption | with_reducible apply keeps_wf

theorem keeps_setMembers {l} (h : Keeps s0 s) : Keeps s0 (State.setMembers s l) := by
  unfold State.setMembers
  repeat' first
    | with_reducible apply keeps_syncMembers | with_reducible exact keeps_other (by with_reducible assumption)

theorem keeps_modMember {dev f} (h : Keeps s0 s) : Keeps s0 (State.modMember s dev f) := by
  unfold State.modMember
  repeat' first
    | with_reducible assumption | with_reducible apply keeps_setMembers

theorem keeps_declareFailed {dev} (h : Keeps s0 s) : Keeps s0 (State.declareFailed s dev) := by
  unfold State.declareFailed
  repeat' first
    | with_reducible assumption | with_reducible apply keeps_postFleet | with_reducible apply keeps_modMember | split

theorem keeps_execAdrift {dev epoch} (h : Keeps s0 s) : nextAnd (execAdrift dev epoch s) (Keeps s0) := by
  unfold execAdrift
  repeat' first
    | with_reducible assumption | with_reducible apply nextAnd_next | with_reducible apply keeps_declareFailed | with_reducible apply keeps_modMember
    | split

theorem keeps_setFleetWord {i v} (h : Keeps s0 s) : Keeps s0 (State.setFleetWord s i v) := by
  unfold State.setFleetWord
  repeat' first
    | with_reducible assumption | with_reducible apply keeps_wf | with_reducible apply keeps_wr
    | (extract_lets +onlyGivenNames x; refine keeps_cut (s0 := s0) (x := x) ?_ (fun h => ?_); rotate_left; clear_value x; rotate_right; subst x) | split

theorem keeps_dropWorking (h : Keeps s0 s) : Keeps s0 (State.dropWorking s) := by
  unfold State.dropWorking
  repeat' first
    | with_reducible assumption | with_reducible apply keeps_clearSlot | with_reducible apply keeps_clearTracker | intro _ _ _
    | (extract_lets +onlyGivenNames x; clear_value x) | with_reducible apply keeps_foldl

theorem keeps_readmitOwn (h : Keeps s0 s) : Keeps s0 (State.readmitOwn s) := by
  unfold State.readmitOwn
  repeat' first
    | with_reducible assumption | with_reducible apply keeps_setLockSt | with_reducible apply keeps_setVote | with_reducible apply keeps_wrWide
    | with_reducible apply keeps_dropWorking | with_reducible exact keeps_other (by with_reducible assumption)
    | (extract_lets +onlyGivenNames x; clear_value x) | split

theorem keeps_order {dev kind words} (h : Keeps s0 s) : Keeps s0 (State.order s dev kind words) := by
  unfold State.order
  repeat' first
    | with_reducible assumption | with_reducible apply keeps_send

theorem keeps_orderAll {kind words} (h : Keeps s0 s) : Keeps s0 (State.orderAll s kind words) := by
  unfold State.orderAll
  repeat' first
    | with_reducible assumption | with_reducible apply keeps_order | intro _ _ _ | with_reducible apply keeps_foldl | split

theorem keeps_syncSnaps (h : Keeps s0 s) : Keeps s0 (State.syncSnaps s) := by
  unfold State.syncSnaps
  repeat' first
    | with_reducible assumption | with_reducible apply keeps_wb

theorem keeps_refDone {ref st} (h : Keeps s0 s) : Keeps s0 (State.refDone s ref st) := by
  unfold State.refDone
  repeat' first
    | with_reducible assumption | with_reducible apply keeps_ringComplete | split

theorem keeps_snapEnd {i good} (h : Keeps s0 s) : Keeps s0 (State.snapEnd s i good) := by
  unfold State.snapEnd
  repeat' first
    | with_reducible assumption | with_reducible apply keeps_syncSnaps | with_reducible apply keeps_wf | with_reducible apply keeps_draw
    | with_reducible apply keeps_wrWide | with_reducible apply keeps_post | with_reducible apply keeps_refDone
    | with_reducible exact keeps_other (by with_reducible assumption)
    | (extract_lets +onlyGivenNames x; refine keeps_cut (s0 := s0) (x := x) ?_ (fun h => ?_); rotate_left; clear_value x; rotate_right; subst x)
    | intro _ _ _ | (extract_lets +onlyGivenNames x; clear_value x) | with_reducible apply keeps_foldl
    | (with_reducible apply keeps_other; first | with_reducible apply keeps_syncSnaps | with_reducible apply keeps_wf | with_reducible apply keeps_draw | with_reducible apply keeps_wrWide | with_reducible apply keeps_post | with_reducible apply keeps_refDone)
    | split

theorem keeps_execSnapshotTransferEnd {toSink good} (h : Keeps s0 s) : nextAnd (execSnapshotTransferEnd toSink good s) (Keeps s0) := by
  unfold execSnapshotTransferEnd
  repeat' first
    | with_reducible assumption | with_reducible apply nextAnd_next | with_reducible apply keeps_snapEnd

theorem keeps_endWaits {op what st} (h : Keeps s0 s) : Keeps s0 (State.endWaits s op what st) := by
  unfold State.endWaits
  repeat' first
    | with_reducible assumption | with_reducible apply keeps_refDone | with_reducible exact keeps_other (by with_reducible assumption)
    | (extract_lets +onlyGivenNames x; refine keeps_cut (s0 := s0) (x := x) ?_ (fun h => ?_); rotate_left; clear_value x; rotate_right; subst x)
    | intro _ _ _ | (extract_lets +onlyGivenNames x; have q := fun a => x a; clear q; subst x) | (extract_lets +onlyGivenNames x; clear_value x)
    | with_reducible apply keeps_foldl | split

theorem keeps_endAllWaits {op st} (h : Keeps s0 s) : Keeps s0 (State.endAllWaits s op st) := by
  unfold State.endAllWaits
  repeat' first
    | with_reducible assumption | with_reducible apply keeps_endWaits | intro _ _ _ | with_reducible apply keeps_foldl

theorem keeps_keeperReads {l f} (h : Keeps s0 s) (hf : ∀ s, Keeps s0 s → Keeps s0 (f s)) : Keeps s0 (State.keeperReads s l f) := by
  unfold State.keeperReads
  dsimp only
  split
  · exact keeps_askAll h
  split
  · exact keeps_remoteForget (hf _ h)
  · exact hf _ h

theorem keeps_keeperGet {a dev l k} (h : Keeps s0 s) : Keeps s0 (State.keeperGet s a dev l k).2.2 := by
  unfold State.keeperGet
  repeat' first
    | with_reducible assumption | with_reducible apply keeps_localRd | (extract_lets +onlyGivenNames x; clear_value x) | split

theorem keeps_keeperRead {k a x3} (h : Keeps s0 s) : Keeps s0 (State.keeperRead s k a x3).2.2 := by
  fun_induction State.keeperRead s k a x3
  repeat' first
    | with_reducible assumption | with_reducible apply keeps_keeperGet | (with_reducible apply keeps_of_snd_snd; with_reducible assumption)
    | apply_assumption

theorem keeps_admitFail {r d st} (h : Keeps s0 s) : Keeps s0 (State.admitFail s r d st) := by
  unfold State.admitFail
  repeat' first
    | with_reducible assumption | with_reducible apply keeps_modSub | with_reducible apply keeps_ringComplete | split

theorem keeps_addWait {op what r i} (h : Keeps s0 s) : Keeps s0 (State.addWait s op what r i) := by
  unfold State.addWait
  repeat' first
    | with_reducible exact keeps_other (by with_reducible assumption)

theorem keeps_admitKeys {d} (h : Keeps s0 s) : Keeps s0 (State.admitKeys s d) := by
  unfold State.admitKeys
  repeat' first
    | with_reducible assumption | with_reducible apply keeps_draw | with_reducible apply keeps_modSub | with_reducible apply keeps_control | split

theorem keeps_nameOwners {dev} (h : Keeps s0 s) : Keeps s0 (State.nameOwners s dev) := by
  unfold State.nameOwners
  repeat' first
    | with_reducible assumption | with_reducible apply keeps_order | intro _ _ _ | with_reducible apply keeps_foldl

theorem keeps_takeId {new} (h : Keeps s0 s) : Keeps s0 (State.takeId s new) := by
  unfold State.takeId
  repeat' first
    | with_reducible assumption | with_reducible apply keeps_wf
    | (extract_lets +onlyGivenNames x; refine keeps_cut (s0 := s0) (x := x) ?_ (fun h => ?_); rotate_left; clear_value x; rotate_right; subst x)
    | intro _ _ _ | (extract_lets +onlyGivenNames x; clear_value x) | with_reducible apply keeps_foldl | split

theorem keeps_fleetDesc {r i op f} (h : Keeps s0 s) (hf : ∀ s x, Keeps s0 s → Keeps s0 (f s x)) : Keeps s0 (State.fleetDesc s r i op f) := by
  unfold State.fleetDesc
  split
  · exact h
  split
  · exact keeps_ringComplete h
  split
  · exact h
  · exact hf _ _ h

theorem keeps_orderTo {dev kind words} (h : Keeps s0 s) : Keeps s0 (State.orderTo s dev kind words) := by
  unfold State.orderTo
  repeat' first
    | with_reducible assumption | with_reducible apply keeps_order | intro _ _ _ | with_reducible apply keeps_foldl | split

theorem keeps_execReadmit {ring index} (h : Keeps s0 s) : nextAnd (execReadmit ring index s) (Keeps s0) := by
  unfold execReadmit
  repeat' first
    | with_reducible assumption | with_reducible apply nextAnd_next | with_reducible apply keeps_fleetDesc | with_reducible apply keeps_ringComplete
    | with_reducible apply keeps_declareFailed | with_reducible apply keeps_orderTo | with_reducible apply keeps_ringStart
    | with_reducible apply keeps_addWait | with_reducible exact keeps_other (by with_reducible assumption)
    | (extract_lets +onlyGivenNames x; refine keeps_cut (s0 := s0) (x := x) ?_ (fun h => ?_); rotate_left; clear_value x; rotate_right; subst x)
    | intro _ _ _ | (extract_lets +onlyGivenNames x; clear_value x) | split

theorem keeps_execGroup {ring index} (h : Keeps s0 s) : nextAnd (execGroup ring index s) (Keeps s0) := by
  unfold execGroup
  repeat' first
    | with_reducible assumption | with_reducible apply nextAnd_next | with_reducible apply keeps_fleetDesc | with_reducible apply keeps_ringComplete
    | with_reducible apply keeps_draw | with_reducible apply keeps_orderAll | with_reducible apply keeps_bind | intro _ _ _ | split

theorem keeps_sluiceSet {union} (h : Keeps s0 s) : Keeps s0 (State.sluiceSet s union) := by
  unfold State.sluiceSet
  repeat' first
    | with_reducible assumption | with_reducible apply keeps_setMaskBit | with_reducible apply keeps_wf
    | (extract_lets +onlyGivenNames x; refine keeps_cut (s0 := s0) (x := x) ?_ (fun h => ?_); rotate_left; clear_value x; rotate_right; subst x)
    | intro _ _ _ | (extract_lets +onlyGivenNames x; clear_value x) | with_reducible apply keeps_foldl | split

theorem keeps_mirrorSluice (h : Keeps s0 s) : Keeps s0 (State.mirrorSluice s) := by
  unfold State.mirrorSluice
  repeat' first
    | with_reducible assumption | with_reducible apply keeps_wr
    | (extract_lets +onlyGivenNames x; refine keeps_cut (s0 := s0) (x := x) ?_ (fun h => ?_); rotate_left; clear_value x; rotate_right; subst x)
    | intro _ _ _ | (extract_lets +onlyGivenNames x; clear_value x) | with_reducible apply keeps_foldl | split

theorem keeps_sluiceLock {union} (h : Keeps s0 s) : Keeps s0 (State.sluiceLock s union) := by
  unfold State.sluiceLock
  repeat' first
    | with_reducible assumption | with_reducible apply keeps_sluiceSet | with_reducible apply keeps_mirrorSluice | with_reducible apply keeps_wrWide
    | with_reducible apply keeps_wb | with_reducible apply keeps_syncDemand

theorem keeps_syncCast (h : Keeps s0 s) : Keeps s0 (State.syncCast s) := by
  unfold State.syncCast
  repeat' first
    | with_reducible assumption | with_reducible apply keeps_wf | split

theorem keeps_setCast {k} (h : Keeps s0 s) : Keeps s0 (State.setCast s k) := by
  unfold State.setCast
  repeat' first
    | with_reducible apply keeps_syncCast | with_reducible exact keeps_other (by with_reducible assumption)

theorem keeps_execImageVerify {badTries} (h : Keeps s0 s) : nextAnd (execImageVerify badTries s) (Keeps s0) := by
  unfold execImageVerify
  repeat' first
    | with_reducible assumption | with_reducible apply nextAnd_next | with_reducible apply keeps_writeImage | with_reducible apply keeps_setCast
    | with_reducible apply keeps_bind
    | (extract_lets +onlyGivenNames x; refine keeps_cut (s0 := s0) (x := x) ?_ (fun h => ?_); rotate_left; clear_value x; rotate_right; subst x) | split

theorem keeps_parityEpoch {e} (h : Keeps s0 s) : Keeps s0 (State.parityEpoch s e) := by
  unfold State.parityEpoch
  repeat' first
    | with_reducible assumption | with_reducible apply keeps_wrWide | intro _ _ _ | with_reducible apply keeps_foldl | split

theorem keeps_poolPlace {p n} (h : Keeps s0 s) : Keeps s0 (State.poolPlace s p n).2 := by
  unfold State.poolPlace
  repeat' first
    | with_reducible assumption | with_reducible apply keeps_draw

theorem keeps_releasePool {p base} (h : Keeps s0 s) : Keeps s0 (State.releasePool s p base) := by
  unfold State.releasePool
  repeat' first
    | with_reducible assumption | with_reducible apply keeps_syncPort | with_reducible apply keeps_setPort

theorem keeps_serveDone {r d st} (h : Keeps s0 s) : Keeps s0 (State.serveDone s r d st) := by
  unfold State.serveDone
  repeat' first
    | with_reducible assumption | with_reducible apply keeps_releasePool | with_reducible apply keeps_ringComplete

theorem keeps_sendDatagram {p h1 data} (h : Keeps s0 s) : Keeps s0 (State.sendDatagram s p h1 data) := by
  unfold State.sendDatagram
  repeat' first
    | with_reducible exact keeps_other (by with_reducible assumption)

theorem keeps_answer {p h1 type status} (h : Keeps s0 s) : Keeps s0 (State.answer s p h1 type status) := by
  unfold State.answer
  repeat' first
    | with_reducible assumption | with_reducible apply keeps_sendDatagram

theorem keeps_failServing (h : Keeps s0 s) : Keeps s0 (State.failServing s) := by
  unfold State.failServing
  repeat' first
    | with_reducible assumption | with_reducible apply keeps_serveDone | with_reducible apply keeps_answer | intro _ _ _
    | with_reducible apply keeps_foldl

theorem keeps_loadSnapRegs {k} (h : Keeps s0 s) : Keeps s0 (State.loadSnapRegs s k) := by
  unfold State.loadSnapRegs
  extract_lets x1 _ x2 x3
  have h1 : Keeps s0 x1 := keeps_loadRegs (keeps_regs h (spWf_filter _))
  have h2 : Keeps s0 x2 := keeps_other h1
  refine keeps_syncDemand (keeps_foldl (fun s x h => keeps_foldl (fun s y h => ?_) h) h2)
  dsimp only
  split
  · exact h
  · exact keeps_wr h

theorem keeps_loadSnap {k} (h : Keeps s0 s) : Keeps s0 (State.loadSnap s k) := by
  unfold State.loadSnap
  exact keeps_loadSnapRegs (keeps_other (keeps_foldl (fun s x h => keeps_memWr h) h))

theorem keeps_readRequest {m a x3} (h : Keeps s0 s) : Keeps s0 (State.readRequest s m a x3).2 := by
  fun_induction State.readRequest s m a x3
  repeat' first
    | with_reducible assumption | with_reducible apply keeps_localGet | (with_reducible apply keeps_of_snd_snd; with_reducible assumption)
    | apply_assumption

theorem keeps_requestRead {r d n} (h : Keeps s0 s) : Keeps s0 (State.requestRead s r d n).2 := by
  unfold State.requestRead
  repeat' first
    | with_reducible assumption | with_reducible apply keeps_readRequest | split

theorem keeps_admitServe {r d} (h : Keeps s0 s) : Keeps s0 (State.admitServe s r d) := by
  unfold State.admitServe
  repeat' first
    | with_reducible assumption | with_reducible apply keeps_requestRead | with_reducible apply keeps_ringComplete | with_reducible apply keeps_ringSet
    | with_reducible apply keeps_serveDone | with_reducible apply keeps_answer | with_reducible apply keeps_bump
    | (extract_lets +onlyGivenNames x; refine keeps_cut (s0 := s0) (x := x.2) ?_ (fun h => ?_); rotate_left; clear_value x; rotate_right; subst x)
    | (extract_lets +onlyGivenNames x; clear_value x) | split

theorem keeps_slotRing {p r q x4} (h : Keeps s0 s) : Keeps s0 (State.slotRing s p r q x4).2 := by
  fun_induction State.slotRing s p r q x4
  repeat' first
    | with_reducible assumption | with_reducible apply keeps_ringSet | with_reducible apply keeps_setPort | with_reducible apply keeps_admitServe
    | apply_assumption

theorem keeps_execKeeperHeartbeat (h : Keeps s0 s) : nextAnd (execKeeperHeartbeat s) (Keeps s0) := by
  unfold execKeeperHeartbeat
  repeat' first
    | with_reducible assumption | with_reducible apply nextAnd_next | with_reducible exact keeps_other (by with_reducible assumption)
    | (extract_lets +onlyGivenNames x; clear_value x) | split

theorem keeps_rerun {l} (h : Keeps s0 s) : Keeps s0 (State.rerun s l) := by
  unfold State.rerun
  repeat' first
    | with_reducible assumption | with_reducible apply keeps_startCores | (extract_lets +onlyGivenNames x; clear_value x)
    | (with_reducible apply keeps_other; first | with_reducible apply keeps_dropWorking | with_reducible apply keeps_startCores)

theorem keeps_afterRestore (h : Keeps s0 s) : Keeps s0 (State.afterRestore s) := by
  unfold State.afterRestore
  split
  · split
    · extract_lets _ x
      have hx : Keeps s0 x := keeps_other h
      split
      · exact keeps_loadSnapRegs hx
      · exact hx
    · exact h
  · exact keeps_other h

theorem keeps_ringSchedule {r d im} (h : Keeps s0 s) : Keeps s0 (State.ringSchedule s r d im) := by
  unfold State.ringSchedule
  repeat' first
    | with_reducible assumption | with_reducible apply keeps_ringComplete | with_reducible apply keeps_refuseSched | with_reducible apply keeps_measExtend
    | with_reducible apply keeps_afterRestore | with_reducible apply keeps_adoptSched | with_reducible apply keeps_ringStart
    | with_reducible apply keeps_bind
    | (extract_lets +onlyGivenNames x; refine keeps_cut (s0 := s0) (x := x) ?_ (fun h => ?_); rotate_left; clear_value x; rotate_right; subst x)
    | (extract_lets +onlyGivenNames x; clear_value x) | split

theorem keeps_sendLease {l} (h : Keeps s0 s) : Keeps s0 (State.sendLease s l) := by
  unfold State.sendLease
  repeat' first
    | with_reducible assumption | with_reducible apply keeps_send | split

theorem keeps_execSchedule {ring index image} (h : Keeps s0 s) : nextAnd (execSchedule ring index image s) (Keeps s0) := by
  unfold execSchedule
  repeat' first
    | with_reducible assumption | with_reducible apply nextAnd_next | with_reducible apply keeps_ringSchedule | split

theorem keeps_trialPorts {l} (h : Keeps s0 s) : Keeps s0 (State.trialPorts s l) := by
  unfold State.trialPorts
  repeat' first
    | with_reducible assumption | with_reducible apply keeps_wf | intro _ _ _ | with_reducible apply keeps_foldl | split

theorem keeps_sendVoteUp {v layers ovr causes} (h : Keeps s0 s) : Keeps s0 (State.sendVoteUp s v layers ovr causes) := by
  unfold State.sendVoteUp
  repeat' first
    | with_reducible assumption | with_reducible apply keeps_send

theorem keeps_passUp {final} (h : Keeps s0 s) : Keeps s0 (State.passUp s final) := by
  unfold State.passUp
  repeat' first
    | with_reducible assumption | with_reducible apply keeps_send | with_reducible exact keeps_other (by with_reducible assumption)
    | (extract_lets +onlyGivenNames x; refine keeps_cut (s0 := s0) (x := x) ?_ (fun h => ?_); rotate_left; clear_value x; rotate_right; subst x)
    | (extract_lets +onlyGivenNames x; clear_value x) | split

theorem keeps_castVote {v} (h : Keeps s0 s) : Keeps s0 (State.castVote s v) := by
  unfold State.castVote
  repeat' first
    | with_reducible assumption | with_reducible apply keeps_setLockSt | with_reducible apply keeps_setVote | with_reducible apply keeps_sendVoteUp
    | with_reducible apply keeps_passUp
    | (extract_lets +onlyGivenNames x; refine keeps_cut (s0 := s0) (x := x) ?_ (fun h => ?_); rotate_left; clear_value x; rotate_right; subst x) | split

theorem keeps_execVoteVeto (h : Keeps s0 s) : nextAnd (execVoteVeto s) (Keeps s0) := by
  unfold execVoteVeto
  repeat' first
    | with_reducible assumption | with_reducible apply nextAnd_next | with_reducible apply keeps_castVote | split

theorem keeps_castOrders {words} (h : Keeps s0 s) : Keeps s0 (State.castOrders s words) := by
  unfold State.castOrders
  repeat' first
    | with_reducible assumption | with_reducible apply keeps_order | intro _ _ _ | with_reducible apply keeps_foldl

theorem keeps_sendChunk {dev k block i data} (h : Keeps s0 s) : Keeps s0 (State.sendChunk s dev k block i data) := by
  unfold State.sendChunk
  repeat' first
    | with_reducible exact keeps_other (by with_reducible assumption)

theorem keeps_castBegin {r d} (h : Keeps s0 s) : Keeps s0 (State.castBegin s r d) := by
  unfold State.castBegin
  repeat' first
    | with_reducible assumption | with_reducible apply keeps_ringComplete | with_reducible apply keeps_castOrders | with_reducible apply keeps_sendChunk
    | with_reducible apply keeps_ringStart | with_reducible apply keeps_bind | intro _ _ _ | (extract_lets +onlyGivenNames x; clear_value x)
    | with_reducible apply keeps_foldl
    | (with_reducible apply keeps_other; first | with_reducible apply keeps_ringComplete | with_reducible apply keeps_draw | with_reducible apply keeps_castOrders | with_reducible apply keeps_sendChunk | with_reducible apply keeps_ringStart | with_reducible apply keeps_bind)
    | split

theorem keeps_stopEngine {e} (h : Keeps s0 s) : Keeps s0 (State.stopEngine s e) := by
  unfold State.stopEngine
  repeat' first
    | with_reducible assumption | with_reducible apply keeps_dmaAbortAll | with_reducible apply keeps_setEngine | with_reducible apply keeps_wf
    | (extract_lets +onlyGivenNames x; refine keeps_cut (s0 := s0) (x := x) ?_ (fun h => ?_); rotate_left; clear_value x; rotate_right; subst x)
    | (extract_lets +onlyGivenNames x; clear_value x) | split

theorem keeps_flip {commit e} (h : Keeps s0 s) : Keeps s0 (State.flip s commit e) := by
  unfold State.flip
  repeat' first
    | with_reducible assumption | with_reducible apply keeps_trainCommit | with_reducible apply keeps_parityEpoch
    | with_reducible exact keeps_other (by with_reducible assumption)
    | (extract_lets +onlyGivenNames x; refine keeps_cut (s0 := s0) (x := x) ?_ (fun h => ?_); rotate_left; clear_value x; rotate_right; subst x)
    | (extract_lets +onlyGivenNames x; clear_value x) | split

theorem keeps_copyCount {e st} (h : Keeps s0 s) : Keeps s0 (State.copyCount s e st) := by
  unfold State.copyCount
  repeat' first
    | with_reducible assumption | with_reducible apply keeps_bump | split

theorem keeps_trackersLock {commit} (h : Keeps s0 s) : Keeps s0 (State.trackersLock s commit) := by
  unfold State.trackersLock
  repeat' first
    | with_reducible assumption | with_reducible apply keeps_clearSlot | with_reducible apply keeps_clearTracker | with_reducible apply keeps_foldTracker
    | intro _ _ _ | (extract_lets +onlyGivenNames x; clear_value x) | with_reducible apply keeps_foldl | split

theorem keeps_snapDue {i} (h : Keeps s0 s) : Keeps s0 (State.snapDue s i) := by
  unfold State.snapDue
  repeat' first
    | with_reducible apply keeps_syncSnaps | with_reducible exact keeps_other (by with_reducible assumption)

theorem keeps_healthStep (h : Keeps s0 s) : Keeps s0 (State.healthStep s) := by
  unfold State.healthStep
  repeat' first
    | with_reducible assumption | with_reducible apply keeps_wf | with_reducible apply keeps_snapDue
    | with_reducible exact keeps_other (by with_reducible assumption)
    | (extract_lets +onlyGivenNames x; refine keeps_cut (s0 := s0) (x := x) ?_ (fun h => ?_); rotate_left; clear_value x; rotate_right; subst x)
    | (extract_lets +onlyGivenNames x; have q := fun a => x a; clear q; subst x) | (extract_lets +onlyGivenNames x; clear_value x) | split

theorem keeps_recordSnap {e i} (h : Keeps s0 s) : Keeps s0 (State.recordSnap s e i) := by
  unfold State.recordSnap
  repeat' first
    | with_reducible assumption | with_reducible apply keeps_syncSnaps | with_reducible apply keeps_wf
    | with_reducible exact keeps_other (by with_reducible assumption)
    | (extract_lets +onlyGivenNames x; refine keeps_cut (s0 := s0) (x := x) ?_ (fun h => ?_); rotate_left; clear_value x; rotate_right; subst x)
    | (extract_lets +onlyGivenNames x; clear_value x) | split

theorem keeps_snapStep {commit e} (h : Keeps s0 s) : Keeps s0 (State.snapStep s commit e) := by
  unfold State.snapStep
  extract_lets _ x1 every x2
  have h1 : Keeps s0 x1 := by
    show Keeps s0 (ite _ _ _)
    split
    · exact keeps_other h
    · exact h
  refine keeps_recordSnap (keeps_recordSnap ?_)
  show Keeps s0 (ite _ _ _)
  split
  · exact keeps_snapDue h1
  · exact h1

theorem keeps_switchBank (h : Keeps s0 s) : Keeps s0 (State.switchBank s) := by
  unfold State.switchBank
  repeat' first
    | with_reducible assumption | with_reducible apply keeps_wb

theorem keeps_loadGroup {g ws} (h : Keeps s0 s) : Keeps s0 (State.loadGroup s g ws) := by
  unfold State.loadGroup
  repeat' first
    | with_reducible assumption | with_reducible apply keeps_wr
    | (extract_lets +onlyGivenNames x; refine keeps_cut (s0 := s0) (x := x) ?_ (fun h => ?_); rotate_left; clear_value x; rotate_right; subst x)
    | intro _ _ _ | with_reducible apply keeps_foldl

theorem keeps_finishRefs {refs} (h : Keeps s0 s) : Keeps s0 (State.finishRefs s refs) := by
  unfold State.finishRefs
  repeat' first
    | with_reducible assumption | with_reducible apply keeps_ringComplete | intro _ _ _ | with_reducible apply keeps_foldl | split

theorem keeps_writeParts {m a bs x4} (h : Keeps s0 s) : Keeps s0 (State.writeParts s m a bs x4) := by
  fun_induction State.writeParts s m a bs x4
  repeat' first
    | with_reducible assumption | with_reducible apply keeps_checkLocal | with_reducible apply keeps_memWr
    | (with_reducible apply keeps_of_snd; with_reducible assumption) | apply_assumption

theorem keeps_writeMem {m a bs} (h : Keeps s0 s) : Keeps s0 (State.writeMem s m a bs) := by
  unfold State.writeMem
  repeat' first
    | with_reducible assumption | with_reducible apply keeps_sendReq | with_reducible apply keeps_writeParts | split

theorem keeps_lockReport {outcome losses} (h : Keeps s0 s) : Keeps s0 (State.lockReport s outcome losses) := by
  unfold State.lockReport
  repeat' first
    | with_reducible assumption | with_reducible apply keeps_send | with_reducible exact keeps_other (by with_reducible assumption)
    | (extract_lets +onlyGivenNames x; refine keeps_cut (s0 := s0) (x := x) ?_ (fun h => ?_); rotate_left; clear_value x; rotate_right; subst x)
    | (extract_lets +onlyGivenNames x; clear_value x) | split

theorem keeps_noteTimeLost (h : Keeps s0 s) : Keeps s0 (State.noteTimeLost s) := by
  unfold State.noteTimeLost
  repeat' first
    | with_reducible assumption | with_reducible apply keeps_post | split

theorem keeps_endAsked {dev st} (h : Keeps s0 s) : Keeps s0 (State.endAsked s dev st) := by
  unfold State.endAsked
  repeat' first
    | with_reducible assumption | with_reducible apply keeps_refDone | with_reducible exact keeps_other (by with_reducible assumption)
    | (extract_lets +onlyGivenNames x; refine keeps_cut (s0 := s0) (x := x) ?_ (fun h => ?_); rotate_left; clear_value x; rotate_right; subst x)
    | intro _ _ _ | (extract_lets +onlyGivenNames x; clear_value x) | with_reducible apply keeps_foldl

theorem keeps_configRead {a} (h : Keeps s0 s) : Keeps s0 (State.configRead s a).2.2 := by
  unfold State.configRead
  repeat' first
    | with_reducible assumption | with_reducible apply keeps_localRd | (extract_lets +onlyGivenNames x; clear_value x) | split

theorem keeps_configList {a x2} (h : Keeps s0 s) : Keeps s0 (State.configList s a x2).2.2 := by
  fun_induction State.configList s a x2
  repeat' first
    | with_reducible assumption | with_reducible apply keeps_configRead | (with_reducible apply keeps_of_snd_snd; with_reducible assumption)
    | apply_assumption

theorem keeps_execVoteReady (h : Keeps s0 s) : nextAnd (execVoteReady s) (Keeps s0) := by
  unfold execVoteReady
  repeat' first
    | with_reducible assumption | with_reducible apply nextAnd_next | with_reducible apply keeps_castVote | split

theorem keeps_dropReasm {p h1} (h : Keeps s0 s) : Keeps s0 (State.dropReasm s p h1) := by
  unfold State.dropReasm
  repeat' first
    | with_reducible assumption | with_reducible apply keeps_setPort

theorem keeps_discard {p h1} (h : Keeps s0 s) : Keeps s0 (State.discard s p h1) := by
  unfold State.discard
  repeat' first
    | with_reducible assumption | with_reducible apply keeps_releasePool | with_reducible apply keeps_dropReasm | split

theorem keeps_execReplace {ring index spareHoldsCores} (h : Keeps s0 s) : nextAnd (execReplace ring index spareHoldsCores s) (Keeps s0) := by
  unfold execReplace
  repeat' first
    | with_reducible assumption | with_reducible apply nextAnd_next | with_reducible apply keeps_fleetDesc | with_reducible apply keeps_ringComplete
    | with_reducible apply keeps_postFleet | with_reducible apply keeps_declareFailed | with_reducible apply keeps_draw
    | with_reducible apply keeps_ringStart
    | (extract_lets +onlyGivenNames x; refine keeps_cut (s0 := s0) (x := x) ?_ (fun h => ?_); rotate_left; clear_value x; rotate_right; subst x)
    | intro _ _ _ | (extract_lets +onlyGivenNames x; clear_value x)
    | (with_reducible apply keeps_other; first | with_reducible apply keeps_fleetDesc | with_reducible apply keeps_ringComplete | with_reducible apply keeps_postFleet | with_reducible apply keeps_declareFailed | with_reducible apply keeps_draw | with_reducible apply keeps_refDone | with_reducible apply keeps_ringStart)
    | split

theorem keeps_execAnchorReached (h : Keeps s0 s) : nextAnd (execAnchorReached s) (Keeps s0) := by
  unfold execAnchorReached
  repeat' first
    | with_reducible assumption | with_reducible apply nextAnd_next | with_reducible apply keeps_wrWide | with_reducible apply keeps_endAllWaits
    | with_reducible apply keeps_poundStart | with_reducible apply keeps_seedPound | with_reducible exact keeps_other (by with_reducible assumption)
    | (extract_lets +onlyGivenNames x; refine keeps_cut (s0 := s0) (x := x) ?_ (fun h => ?_); rotate_left; clear_value x; rotate_right; subst x)
    | (extract_lets +onlyGivenNames x; clear_value x) | split

theorem keeps_cutVote (h : Keeps s0 s) : Keeps s0 (State.cutVote s) := by
  unfold State.cutVote
  repeat' first
    | with_reducible assumption | with_reducible apply keeps_castVote | split

theorem keeps_countMissed (h : Keeps s0 s) : Keeps s0 (State.countMissed s) := by
  unfold State.countMissed
  repeat' first
    | with_reducible assumption | with_reducible apply keeps_declareFailed | with_reducible exact keeps_other (by with_reducible assumption)
    | (extract_lets +onlyGivenNames x; refine keeps_cut (s0 := s0) (x := x) ?_ (fun h => ?_); rotate_left; clear_value x; rotate_right; subst x)
    | intro _ _ _ | (extract_lets +onlyGivenNames x; clear_value x) | with_reducible apply keeps_foldl | split

theorem keeps_sendDown {d} (h : Keeps s0 s) : Keeps s0 (State.sendDown s d) := by
  unfold State.sendDown
  repeat' first
    | with_reducible assumption | with_reducible apply keeps_send | intro _ _ _ | with_reducible apply keeps_foldl

theorem keeps_takeDecision (h : Keeps s0 s) : Keeps s0 (State.takeDecision s) := by
  unfold State.takeDecision
  split
  · exact h
  · exact keeps_ite (keeps_sendDown (keeps_other h)) (keeps_other h)

theorem keeps_execVoteCutoff (h : Keeps s0 s) : nextAnd (execVoteCutoff s) (Keeps s0) := by
  unfold execVoteCutoff
  split
  · exact h
  · extract_lets x1 _ x2 x3 x4
    have h2 : Keeps s0 x2 := keeps_other (keeps_cutVote h)
    have h4 : Keeps s0 x4 := by
      show Keeps s0 (ite _ _ _)
      split
      · exact keeps_countMissed (keeps_passUp h2)
      · exact keeps_passUp h2
    exact keeps_takeDecision h4

theorem keeps_execVote {worker lock v layers overcommit causes} (h : Keeps s0 s) : nextAnd (execVote worker lock v layers overcommit causes s) (Keeps s0) := by
  unfold execVote
  repeat' first
    | with_reducible assumption | with_reducible apply nextAnd_next | with_reducible apply keeps_endWaits | with_reducible apply keeps_passUp
    | with_reducible exact keeps_other (by with_reducible assumption)
    | (extract_lets +onlyGivenNames x; refine keeps_cut (s0 := s0) (x := x) ?_ (fun h => ?_); rotate_left; clear_value x; rotate_right; subst x)
    | (extract_lets +onlyGivenNames x; clear_value x) | split

theorem keeps_stopCore {c} (h : Keeps s0 s) : Keeps s0 (State.stopCore s c) := by
  unfold State.stopCore
  repeat' first
    | with_reducible assumption | with_reducible apply keeps_stopEngine | with_reducible apply keeps_modCore | with_reducible apply keeps_wf
    | with_reducible apply keeps_syncQueues

theorem keeps_stopCores (h : Keeps s0 s) : Keeps s0 (State.stopCores s) := by
  unfold State.stopCores
  repeat' first
    | with_reducible assumption | with_reducible apply keeps_stopCore | with_reducible apply keeps_dmaAbortAll
    | (extract_lets +onlyGivenNames x; refine keeps_cut (s0 := s0) (x := x) ?_ (fun h => ?_); rotate_left; clear_value x; rotate_right; subst x)
    | intro _ _ _ | with_reducible apply keeps_foldl | split

theorem keeps_holdLock {d l} (h : Keeps s0 s) : Keeps s0 (State.holdLock s d l) := by
  unfold State.holdLock
  extract_lets was x1 x2 holds limit x3 x4 k x5 x6 _ x7
  have h2 : Keeps s0 x2 := keeps_wf (keeps_bumpF (keeps_wf h))
  have h4 : Keeps s0 x4 := keeps_setVote (keeps_setLockSt (keeps_wrWide (keeps_postSev h2)))
  have h5 : Keeps s0 x5 := keeps_other h4
  have h6 : Keeps s0 x6 := by
    show Keeps s0 (ite _ _ (ite _ _ _))
    split
    · exact keeps_rerun (keeps_wb h5)
    split
    · exact keeps_rerun h5
    · exact h5
  refine keeps_lockReport (keeps_noteTimeLost (keeps_sendLease ?_))
  show Keeps s0 (ite _ _ _)
  split
  · exact keeps_other h6
  · exact h6

theorem keeps_execServingSlotStart {port} (h : Keeps s0 s) : nextAnd (execServingSlotStart port s) (Keeps s0) := by
  unfold execServingSlotStart
  repeat' first
    | with_reducible assumption | with_reducible apply nextAnd_next | with_reducible apply keeps_setPort | with_reducible apply keeps_slotRing
    | (extract_lets +onlyGivenNames x; refine keeps_cut (s0 := s0) (x := x) ?_ (fun h => ?_); rotate_left; clear_value x; rotate_right; subst x)
    | intro _ _ _ | (extract_lets +onlyGivenNames x; clear_value x) | with_reducible apply keeps_foldl_snd | split

theorem keeps_execNop {ring index} (h : Keeps s0 s) : nextAnd (execNop ring index s) (Keeps s0) := by
  unfold execNop
  repeat' first
    | with_reducible assumption | with_reducible apply nextAnd_next | with_reducible apply keeps_ringComplete | split

theorem keeps_ringConfig {r d} (h : Keeps s0 s) : Keeps s0 (State.ringConfig s r d) := by
  unfold State.ringConfig
  repeat' first
    | with_reducible assumption | with_reducible apply keeps_ringComplete | with_reducible apply keeps_keeperReads | with_reducible apply keeps_configList
    | with_reducible apply keeps_ringStart | with_reducible apply keeps_bind | (with_reducible apply keeps_of_snd_snd; with_reducible assumption)
    | intro _ _ _ | intro _ _ | (extract_lets +onlyGivenNames x; clear_value x) | with_reducible apply keeps_foldl | split

theorem keeps_execConfig {ring index} (h : Keeps s0 s) : nextAnd (execConfig ring index s) (Keeps s0) := by
  unfold execConfig
  repeat' first
    | with_reducible assumption | with_reducible apply nextAnd_next | with_reducible apply keeps_ringConfig | split

theorem keeps_respond {p h1 data} (h : Keeps s0 s) : Keeps s0 (State.respond s p h1 data) := by
  unfold State.respond
  repeat' first
    | with_reducible assumption | with_reducible apply keeps_sendDatagram | intro _ _ _ | (extract_lets +onlyGivenNames x; clear_value x)
    | with_reducible apply keeps_foldl

theorem keeps_execServe {ring index response} (h : Keeps s0 s) : nextAnd (execServe ring index response s) (Keeps s0) := by
  unfold execServe
  repeat' first
    | with_reducible assumption | with_reducible apply nextAnd_next | with_reducible apply keeps_requestRead | with_reducible apply keeps_serveDone
    | with_reducible apply keeps_respond | split

theorem keeps_boundPieces {e ep row src dst x6} (h : Keeps s0 s) : Keeps s0 (State.boundPieces s e ep row src dst x6).2 := by
  fun_induction State.boundPieces s e ep row src dst x6
  repeat' first
    | with_reducible assumption | with_reducible apply keeps_dmaRd | with_reducible apply keeps_dmaWr
    | (with_reducible apply keeps_of_snd; with_reducible assumption) | (with_reducible apply keeps_of_snd_snd; with_reducible assumption)
    | apply_assumption

theorem keeps_copyMove {e d} (h : Keeps s0 s) : Keeps s0 (State.copyMove s e d).2 := by
  unfold State.copyMove
  repeat' first
    | with_reducible assumption | with_reducible apply keeps_boundPieces | (extract_lets +onlyGivenNames x; clear_value x) | split

theorem keeps_copyMoved {z : State} {e far} (h : Keeps s0 z) : Keeps s0 (State.copyMoved s z e far) := by
  unfold State.copyMoved
  extract_lets z1
  refine keeps_setEngine (keeps_other ?_)
  show Keeps s0 (ite _ _ _)
  split
  · exact h
  · exact keeps_remoteForget h

theorem keeps_copyBy {r d e} (h : Keeps s0 s) : Keeps s0 (State.copyBy s r d e) := by
  unfold State.copyBy
  repeat' first
    | with_reducible assumption | with_reducible apply keeps_ringSet | with_reducible apply keeps_askAll | with_reducible apply keeps_copyMove
    | with_reducible apply keeps_copyMoved | with_reducible apply keeps_ringComplete | with_reducible apply keeps_copyCount
    | (extract_lets +onlyGivenNames x; refine keeps_cut (s0 := s0) (x := x) ?_ (fun h => ?_); rotate_left; clear_value x; rotate_right; subst x)
    | (extract_lets +onlyGivenNames x; refine keeps_cut (s0 := s0) (x := x.2) ?_ (fun h => ?_); rotate_left; clear_value x; rotate_right; subst x)
    | (extract_lets +onlyGivenNames x; clear_value x) | split

theorem keeps_copyBegin {r d} (h : Keeps s0 s) : Keeps s0 (State.copyBegin s r d) := by
  unfold State.copyBegin
  split
  · exact keeps_copyBy h
  · exact keeps_copyBy (keeps_draw h)

theorem keeps_copyEnd {r d e} (h : Keeps s0 s) : Keeps s0 (State.copyEnd s r d e) := by
  unfold State.copyEnd
  repeat' first
    | with_reducible assumption | with_reducible apply keeps_ringComplete | with_reducible apply keeps_copyCount | with_reducible apply keeps_setEngine
    | (extract_lets +onlyGivenNames x; clear_value x) | split

theorem keeps_execCopy {ring index} (h : Keeps s0 s) : nextAnd (execCopy ring index s) (Keeps s0) := by
  unfold execCopy
  repeat' first
    | with_reducible assumption | with_reducible apply nextAnd_next | with_reducible apply keeps_copyBegin | with_reducible apply keeps_copyEnd | split

theorem keeps_refusal {p h1 st} (h : Keeps s0 s) : Keeps s0 (State.refusal s p h1 st) := by
  unfold State.refusal
  repeat' first
    | with_reducible assumption | with_reducible apply keeps_answer | with_reducible apply keeps_bump | with_reducible apply keeps_discard

theorem keeps_fresh {x off data} (h : Keeps s0 s) : Keeps s0 (State.fresh s x off data).2 := by
  unfold State.fresh
  repeat' first
    | with_reducible assumption | with_reducible apply keeps_draw | (extract_lets +onlyGivenNames x; have q := fun a => x a; clear q; subst x) | split

theorem keeps_reassembled {p x} (h : Keeps s0 s) : Keeps s0 (State.reassembled s p x) := by
  unfold State.reassembled
  repeat' first
    | with_reducible assumption | with_reducible apply keeps_dropReasm | with_reducible apply keeps_writeMem | with_reducible apply keeps_draw
    | with_reducible apply keeps_bump | with_reducible apply keeps_doorbell

theorem keeps_addFragment {p x h1 data} (h : Keeps s0 s) : Keeps s0 (State.addFragment s p x h1 data) := by
  unfold State.addFragment
  repeat' first
    | with_reducible assumption | with_reducible apply keeps_fresh | with_reducible apply keeps_reassembled | with_reducible apply keeps_setPort
    | (with_reducible apply keeps_of_snd; with_reducible assumption) | (extract_lets +onlyGivenNames x; clear_value x) | split

theorem keeps_busyReply {p h1} (h : Keeps s0 s) : Keeps s0 (State.busyReply s p h1) := by
  unfold State.busyReply
  repeat' first
    | with_reducible assumption | with_reducible apply keeps_setPort | with_reducible apply keeps_answer | with_reducible apply keeps_bump

theorem keeps_firstFragment {p h1 data} (h : Keeps s0 s) : Keeps s0 (State.firstFragment s p h1 data) := by
  unfold State.firstFragment
  repeat' first
    | with_reducible assumption | with_reducible apply keeps_busyReply | with_reducible apply keeps_poolPlace | with_reducible apply keeps_addFragment
    | with_reducible apply keeps_syncPort | with_reducible apply keeps_setPort | (with_reducible apply keeps_of_snd; with_reducible assumption)
    | (extract_lets +onlyGivenNames x; clear_value x) | split

theorem keeps_execIntakeFragment {port h1 data} (h : Keeps s0 s) : nextAnd (execIntakeFragment port h1 data s) (Keeps s0) := by
  unfold execIntakeFragment
  repeat' first
    | with_reducible assumption | with_reducible apply nextAnd_next | with_reducible apply keeps_refusal | with_reducible apply keeps_addFragment
    | with_reducible apply keeps_firstFragment | (extract_lets +onlyGivenNames x; clear_value x) | split

theorem keeps_execIntakeExpiry {port srcAddr srcPort reqId} (h : Keeps s0 s) : nextAnd (execIntakeExpiry port srcAddr srcPort reqId s) (Keeps s0) := by
  unfold execIntakeExpiry
  repeat' first
    | with_reducible assumption | with_reducible apply nextAnd_next | with_reducible apply keeps_bump | with_reducible apply keeps_discard
    | (extract_lets +onlyGivenNames x; clear_value x) | split

theorem keeps_execIntakeRefusalForget {port srcAddr srcPort reqId} (h : Keeps s0 s) : nextAnd (execIntakeRefusalForget port srcAddr srcPort reqId s) (Keeps s0) := by
  unfold execIntakeRefusalForget
  repeat' first
    | with_reducible assumption | with_reducible apply nextAnd_next | with_reducible apply keeps_setPort

theorem keeps_execRelease {ring index} (h : Keeps s0 s) : nextAnd (execRelease ring index s) (Keeps s0) := by
  unfold execRelease
  repeat' first
    | with_reducible assumption | with_reducible apply nextAnd_next | with_reducible apply keeps_fleetDesc | with_reducible apply keeps_ringComplete
    | with_reducible apply keeps_ringStart | with_reducible apply keeps_bind | intro _ _ _ | split

theorem keeps_bankImage {a} (h : Keeps s0 s) : Keeps s0 (State.bankImage s a).2.2 := by
  unfold State.bankImage
  exact keeps_keeperRead h

theorem keeps_putRoute {dest v} (h : Keeps s0 s) : Keeps s0 (State.putRoute s dest v) := by
  unfold State.putRoute
  repeat' first
    | with_reducible exact keeps_other (by with_reducible assumption) | (extract_lets +onlyGivenNames x; clear_value x) | split

theorem keeps_placeBank {dev image} (h : Keeps s0 s) : Keeps s0 (State.placeBank s dev image) :=
  keeps_foldl (fun _ _ h => keeps_ite (keeps_putRoute h) (keeps_orderTo h)) h

theorem keeps_loadBank {a} (h : Keeps s0 s) : Keeps s0 (State.loadBank s a).2.2 := by
  unfold State.loadBank
  repeat' first
    | with_reducible assumption | with_reducible apply keeps_configRead | with_reducible apply keeps_bankImage | with_reducible apply keeps_placeBank
    | (with_reducible apply keeps_of_snd_snd; with_reducible assumption) | (extract_lets +onlyGivenNames x; clear_value x) | split

theorem keeps_loadBanks {a x2} (h : Keeps s0 s) : Keeps s0 (State.loadBanks s a x2).2.2 := by
  fun_induction State.loadBanks s a x2
  repeat' first
    | with_reducible assumption | with_reducible apply keeps_loadBank | (with_reducible apply keeps_of_snd_snd; with_reducible assumption)
    | apply_assumption

theorem keeps_execRoutes {ring index} (h : Keeps s0 s) : nextAnd (execRoutes ring index s) (Keeps s0) := by
  unfold execRoutes
  repeat' first
    | with_reducible assumption | with_reducible apply nextAnd_next | with_reducible apply keeps_fleetDesc | with_reducible apply keeps_ringComplete
    | with_reducible apply keeps_keeperReads | with_reducible apply keeps_loadBanks | with_reducible apply keeps_bind | with_reducible apply keeps_orderTo
    | (with_reducible apply keeps_of_snd_snd; with_reducible assumption)
    | (extract_lets +onlyGivenNames x; refine keeps_cut (s0 := s0) (x := x) ?_ (fun h => ?_); rotate_left; clear_value x; rotate_right; subst x)
    | intro _ _ _ | intro _ _ | with_reducible apply keeps_foldl | split

theorem keeps_execBroadcast {ring index} (h : Keeps s0 s) : nextAnd (execBroadcast ring index s) (Keeps s0) := by
  unfold execBroadcast
  repeat' first
    | with_reducible assumption | with_reducible apply nextAnd_next | with_reducible apply keeps_fleetDesc | with_reducible apply keeps_castBegin
    | intro _ _ _

theorem keeps_snapAsk {i ref} (h : Keeps s0 s) : Keeps s0 (State.snapAsk s i ref) := by
  unfold State.snapAsk
  repeat' first
    | with_reducible assumption | with_reducible apply keeps_snapDue | with_reducible exact keeps_other (by with_reducible assumption)
    | (extract_lets +onlyGivenNames x; refine keeps_cut (s0 := s0) (x := x) ?_ (fun h => ?_); rotate_left; clear_value x; rotate_right; subst x)

theorem keeps_execSnapshot {ring index} (h : Keeps s0 s) : nextAnd (execSnapshot ring index s) (Keeps s0) := by
  unfold execSnapshot
  repeat' first
    | with_reducible assumption | with_reducible apply nextAnd_next | with_reducible apply keeps_fleetDesc | with_reducible apply keeps_ringComplete
    | with_reducible apply keeps_ringStart | with_reducible apply keeps_orderAll | with_reducible apply keeps_snapAsk
    | (extract_lets +onlyGivenNames x; refine keeps_cut (s0 := s0) (x := x) ?_ (fun h => ?_); rotate_left; clear_value x; rotate_right; subst x)
    | intro _ _ _ | (extract_lets +onlyGivenNames x; clear_value x) | split

theorem keeps_execKeeperReset {ring index} (h : Keeps s0 s) : nextAnd (execKeeperReset ring index s) (Keeps s0) := by
  unfold execKeeperReset
  repeat' first
    | with_reducible assumption | with_reducible apply nextAnd_next | with_reducible apply keeps_fleetDesc | with_reducible apply keeps_ringStart
    | intro _ _ _ | (extract_lets +onlyGivenNames x; clear_value x)
    | (with_reducible apply keeps_other; first | with_reducible apply keeps_fleetDesc | with_reducible apply keeps_orderTo | with_reducible apply keeps_ringStart)

theorem keeps_execFleetWake {ring index} (h : Keeps s0 s) : nextAnd (execFleetWake ring index s) (Keeps s0) := by
  unfold execFleetWake
  repeat' first
    | with_reducible assumption | with_reducible apply nextAnd_next | with_reducible apply keeps_fleetDesc | with_reducible apply keeps_ringComplete
    | with_reducible apply keeps_control | with_reducible apply keeps_orderTo
    | (extract_lets +onlyGivenNames x; refine keeps_cut (s0 := s0) (x := x) ?_ (fun h => ?_); rotate_left; clear_value x; rotate_right; subst x)
    | intro _ _ _ | (extract_lets +onlyGivenNames x; clear_value x) | split

theorem keeps_assignCounts {epoch step cursor} (h : Keeps s0 s) : Keeps s0 (State.assignCounts s epoch step cursor) := by
  unfold State.assignCounts
  repeat' first
    | with_reducible assumption | with_reducible apply keeps_wrWide | with_reducible exact keeps_other (by with_reducible assumption)
    | (extract_lets +onlyGivenNames x; refine keeps_cut (s0 := s0) (x := x) ?_ (fun h => ?_); rotate_left; clear_value x; rotate_right; subst x)

theorem keeps_assignOwn {mgr id role duty krAuth record} (h : Keeps s0 s) : Keeps s0 (State.assignOwn s mgr id role duty krAuth record) := by
  unfold State.assignOwn
  repeat' first
    | with_reducible assumption | with_reducible apply keeps_takeId | with_reducible apply keeps_wf | with_reducible apply keeps_wb
    | with_reducible apply keeps_measExtend | with_reducible exact keeps_other (by with_reducible assumption)
    | (extract_lets +onlyGivenNames x; refine keeps_cut (s0 := s0) (x := x) ?_ (fun h => ?_); rotate_left; clear_value x; rotate_right; subst x)

theorem keeps_orderBind {e c} (h : Keeps s0 s) : Keeps s0 (State.orderBind s e c) := by
  unfold State.orderBind
  repeat' first
    | with_reducible assumption | with_reducible apply keeps_refuseSched | with_reducible apply keeps_bind | split

theorem keeps_execReport {worker score losses missedLocks epoch} (h : Keeps s0 s) : nextAnd (execReport worker score losses missedLocks epoch s) (Keeps s0) := by
  unfold execReport
  repeat' first
    | with_reducible assumption | with_reducible apply nextAnd_next | with_reducible apply keeps_modMember | with_reducible apply keeps_endAsked
    | with_reducible apply keeps_endWaits | with_reducible apply keeps_declareFailed
    | (extract_lets +onlyGivenNames x; refine keeps_cut (s0 := s0) (x := x) ?_ (fun h => ?_); rotate_left; clear_value x; rotate_right; subst x)
    | (extract_lets +onlyGivenNames x; clear_value x) | split

theorem keeps_execChunk {number block index data} (h : Keeps s0 s) : nextAnd (execChunk number block index data s) (Keeps s0) := by
  unfold execChunk
  repeat' first
    | with_reducible assumption | with_reducible apply nextAnd_next | with_reducible apply keeps_memWr | with_reducible apply keeps_setCast
    | with_reducible apply keeps_sendChunk
    | (extract_lets +onlyGivenNames x; refine keeps_cut (s0 := s0) (x := x) ?_ (fun h => ?_); rotate_left; clear_value x; rotate_right; subst x)
    | intro _ _ _ | (extract_lets +onlyGivenNames x; clear_value x) | with_reducible apply keeps_foldl | split

theorem keeps_sendMissing {k} (h : Keeps s0 s) : Keeps s0 (State.sendMissing s k) := by
  unfold State.sendMissing
  repeat' first
    | with_reducible assumption | with_reducible apply keeps_setCast | with_reducible apply keeps_send

theorem keeps_execBroadcastWindowEnd (h : Keeps s0 s) : nextAnd (execBroadcastWindowEnd s) (Keeps s0) := by
  unfold execBroadcastWindowEnd
  repeat' first
    | with_reducible assumption | with_reducible apply nextAnd_next | with_reducible apply keeps_sendMissing | split

theorem keeps_fillBlock {dev k b map} (h : Keeps s0 s) : Keeps s0 (State.fillBlock s dev k b map) := by
  unfold State.fillBlock
  repeat' first
    | with_reducible assumption | with_reducible apply keeps_sendChunk | intro _ _ _ | (extract_lets +onlyGivenNames x; clear_value x)
    | with_reducible apply keeps_foldl | split

theorem keeps_execMissing {receiver blocks} (h : Keeps s0 s) : nextAnd (execMissing receiver blocks s) (Keeps s0) := by
  unfold execMissing
  repeat' first
    | with_reducible assumption | with_reducible apply nextAnd_next | with_reducible apply keeps_modMember | with_reducible apply keeps_fillBlock
    | (extract_lets +onlyGivenNames x; refine keeps_cut (s0 := s0) (x := x) ?_ (fun h => ?_); rotate_left; clear_value x; rotate_right; subst x)
    | intro _ _ _ | with_reducible apply keeps_foldl | split

theorem keeps_execMissingRepeat (h : Keeps s0 s) : nextAnd (execMissingRepeat s) (Keeps s0) := by
  unfold execMissingRepeat
  repeat' first
    | with_reducible assumption | with_reducible apply nextAnd_next | with_reducible apply keeps_sendMissing | split

theorem keeps_execBroadcastDeadline (h : Keeps s0 s) : nextAnd (execBroadcastDeadline s) (Keeps s0) := by
  unfold execBroadcastDeadline
  repeat' first
    | with_reducible assumption | with_reducible apply nextAnd_next | with_reducible apply keeps_setCast | split

theorem keeps_execLease {lock epoch poundUs} (h : Keeps s0 s) : nextAnd (execLease lock epoch poundUs s) (Keeps s0) := by
  unfold execLease
  repeat' first
    | with_reducible assumption | with_reducible apply nextAnd_next | with_reducible apply keeps_wf | with_reducible apply keeps_wrWide
    | with_reducible apply keeps_send | with_reducible exact keeps_other (by with_reducible assumption)
    | (extract_lets +onlyGivenNames x; refine keeps_cut (s0 := s0) (x := x) ?_ (fun h => ?_); rotate_left; clear_value x; rotate_right; subst x)
    | (extract_lets +onlyGivenNames x; clear_value x) | split

theorem keeps_execLeaseAck {lock epoch poundUs} (h : Keeps s0 s) : nextAnd (execLeaseAck lock epoch poundUs s) (Keeps s0) := by
  unfold execLeaseAck
  repeat' first
    | with_reducible assumption | with_reducible apply nextAnd_next | with_reducible apply keeps_wf | with_reducible apply keeps_wrWide
    | (extract_lets +onlyGivenNames x; clear_value x) | split

theorem keeps_execLeaseExpiry (h : Keeps s0 s) : nextAnd (execLeaseExpiry s) (Keeps s0) := by
  unfold execLeaseExpiry
  repeat' first
    | with_reducible assumption | with_reducible apply nextAnd_next | with_reducible apply keeps_postFleet | with_reducible apply keeps_wf | split

theorem keeps_execAdmitTimeout {ring index} (h : Keeps s0 s) : nextAnd (execAdmitTimeout ring index s) (Keeps s0) := by
  unfold execAdmitTimeout
  repeat' first
    | with_reducible assumption | with_reducible apply nextAnd_next | with_reducible apply keeps_admitFail
    | with_reducible exact keeps_other (by with_reducible assumption) | (extract_lets +onlyGivenNames x; have q := fun a => x a; clear q; subst x)
    | (extract_lets +onlyGivenNames x; clear_value x) | split

end Sys2Proof.Machine
end

