-- ==== Sys2Proof/Laws/KeepsLast.lean ====
section
/-! SUPPORT. What each definition keeps (Laws/Keeps.lean): the tiller's scalar instructions and transactions over links. -/

namespace Sys2Proof.Machine

variable {s0 s t : State}

theorem keeps_answerTx {h1 st data} (h : Keeps s0 s) : Keeps s0 (State.answerTx s h1 st data) := by
  unfold State.answerTx
  repeat' first
    | with_reducible assumption | with_reducible apply keeps_sendResponse | split

theorem keeps_endTx {t1 st} (h : Keeps s0 s) : Keeps s0 (State.endTx s t1 st) := by
  unfold State.endTx
  repeat' first
    | with_reducible assumption | with_reducible apply keeps_completeRemote | with_reducible apply keeps_answerTx | split

theorem keeps_endQueued {p b st cls} (h : Keeps s0 s) : Keeps s0 (State.endQueued s p b st cls) := by
  unfold State.endQueued
  repeat' first
    | with_reducible assumption | with_reducible apply keeps_endTx | with_reducible exact keeps_other (by with_reducible assumption) | intro _ _ _
    | (extract_lets +onlyGivenNames x; have q := fun a => x a; clear q; subst x) | with_reducible apply keeps_foldl

theorem keeps_failOutstanding {p b st} (h : Keeps s0 s) : Keeps s0 (State.failOutstanding s p b st) := by
  unfold State.failOutstanding
  repeat' first
    | with_reducible assumption | with_reducible apply keeps_completeRemote | with_reducible apply keeps_modSub | with_reducible apply keeps_answerTx
    | (extract_lets +onlyGivenNames x; refine keeps_cut (s0 := s0) (x := x) ?_ (fun h => ?_); rotate_left; clear_value x; rotate_right; subst x)
    | intro _ _ _ | (extract_lets +onlyGivenNames x; clear_value x) | with_reducible apply keeps_foldl

theorem keeps_linkDown {p b st} (h : Keeps s0 s) : Keeps s0 (State.linkDown s p b st) := by
  unfold State.linkDown
  repeat' first
    | with_reducible assumption | with_reducible apply keeps_endQueued | with_reducible apply keeps_failOutstanding | with_reducible apply keeps_setLink
    | with_reducible apply keeps_wipeLink | with_reducible apply keeps_wb | with_reducible apply keeps_setActive | with_reducible apply keeps_post
    | with_reducible apply keeps_syncEwe

theorem keeps_fence {dev} (h : Keeps s0 s) : Keeps s0 (State.fence s dev) := by
  unfold State.fence
  repeat' first
    | with_reducible assumption | with_reducible apply keeps_linkDown | intro _ _ _ | (extract_lets +onlyGivenNames x; clear_value x)
    | with_reducible apply keeps_foldl | split

theorem keeps_releaseMember {dev} (h : Keeps s0 s) : Keeps s0 (State.releaseMember s dev) := by
  unfold State.releaseMember
  repeat' first
    | with_reducible assumption | with_reducible apply keeps_order | with_reducible apply keeps_orderAll | with_reducible apply keeps_modMember
    | with_reducible apply keeps_fence

theorem keeps_endBulk {p b} (h : Keeps s0 s) : Keeps s0 (State.endBulk s p b) := by
  unfold State.endBulk
  repeat' first
    | with_reducible assumption | with_reducible apply keeps_setSub | with_reducible apply keeps_completeRemote | with_reducible apply keeps_answerTx
    | with_reducible apply keeps_endQueued | intro _ _ _ | with_reducible apply keeps_foldl

theorem keeps_toTowpath {p b} (h : Keeps s0 s) : Keeps s0 (State.toTowpath s p b) := by
  unfold State.toTowpath
  repeat' first
    | with_reducible assumption | with_reducible apply keeps_wf | with_reducible apply keeps_setLink | with_reducible apply keeps_towLane
    | with_reducible apply keeps_endBulk | with_reducible apply keeps_modSub

theorem keeps_portTowpath {p} (h : Keeps s0 s) : Keeps s0 (State.portTowpath s p) := by
  unfold State.portTowpath
  repeat' first
    | with_reducible assumption | with_reducible apply keeps_wantTowpath | with_reducible apply keeps_toTowpath | with_reducible apply keeps_actLatched
    | intro _ _ _ | (extract_lets +onlyGivenNames x; clear_value x) | with_reducible apply keeps_foldl | split

theorem keeps_partTowpath {k} (h : Keeps s0 s) : Keeps s0 (State.partTowpath s k) := by
  unfold State.partTowpath
  repeat' first
    | with_reducible assumption | with_reducible apply keeps_portTowpath | intro _ _ _ | with_reducible apply keeps_foldl

theorem keeps_enterScope {scope target} (h : Keeps s0 s) : Keeps s0 (State.enterScope s scope target) := by
  unfold State.enterScope
  repeat' first
    | with_reducible assumption | with_reducible apply keeps_enterCore | with_reducible apply keeps_partTowpath | with_reducible apply keeps_enterEngine
    | (extract_lets +onlyGivenNames x; refine keeps_cut (s0 := s0) (x := x) ?_ (fun h => ?_); rotate_left; clear_value x; rotate_right; subst x)
    | (extract_lets +onlyGivenNames x; clear_value x) | with_reducible apply keeps_foldl | split

theorem keeps_startDrain {k} (h : Keeps s0 s) : Keeps s0 (State.startDrain s k) := by
  unfold State.startDrain
  repeat' first
    | with_reducible assumption | with_reducible apply keeps_enterScope | with_reducible apply keeps_wf

theorem keeps_disableDom {k} (h : Keeps s0 s) : Keeps s0 (State.disableDom s k) := by
  unfold State.disableDom
  repeat' first
    | with_reducible assumption | with_reducible apply keeps_wb | with_reducible apply keeps_startDrain | with_reducible apply keeps_wf
    | (extract_lets +onlyGivenNames x; refine keeps_cut (s0 := s0) (x := x) ?_ (fun h => ?_); rotate_left; clear_value x; rotate_right; subst x)
    | (extract_lets +onlyGivenNames x; clear_value x) | split

theorem keeps_setDom {k en} (h : Keeps s0 s) : Keeps s0 (State.setDom s k en) := by
  unfold State.setDom
  repeat' first
    | with_reducible assumption | with_reducible apply keeps_syncResets | with_reducible apply keeps_enableDom | with_reducible apply keeps_disableDom
    | with_reducible exact keeps_other (by with_reducible assumption) | (extract_lets +onlyGivenNames x; clear_value x) | split

theorem keeps_endTest {state} (h : Keeps s0 s) : Keeps s0 (State.endTest s state) := by
  unfold State.endTest
  repeat' first
    | with_reducible assumption | with_reducible apply keeps_wf | with_reducible apply keeps_setDom | with_reducible apply keeps_syncResets
    | with_reducible exact keeps_other (by with_reducible assumption)
    | (extract_lets +onlyGivenNames x; refine keeps_cut (s0 := s0) (x := x) ?_ (fun h => ?_); rotate_left; clear_value x; rotate_right; subst x)
    | intro _ _ _ | (extract_lets +onlyGivenNames x; clear_value x) | with_reducible apply keeps_foldl

theorem keeps_forceOff {k} (h : Keeps s0 s) : Keeps s0 (State.forceOff s k) := by
  unfold State.forceOff
  repeat' first
    | with_reducible assumption | with_reducible apply keeps_wf | with_reducible apply keeps_setCore | with_reducible apply keeps_partTowpath
    | with_reducible apply keeps_wb | with_reducible apply keeps_loseBasins | with_reducible apply keeps_clearScope | intro _ _ _
    | with_reducible apply keeps_foldl

theorem keeps_allOff (h : Keeps s0 s) : Keeps s0 (State.allOff s) := by
  unfold State.allOff
  repeat' first
    | with_reducible assumption | with_reducible apply keeps_forceOff | with_reducible apply keeps_foldl

theorem keeps_finishTest {t1} (h : Keeps s0 s) : Keeps s0 (State.finishTest s t1) := by
  unfold State.finishTest
  repeat' first
    | with_reducible assumption | with_reducible apply keeps_writeRecord | with_reducible apply keeps_addSoft | with_reducible apply keeps_setSoft
    | with_reducible apply keeps_postSev | with_reducible apply keeps_endTest | with_reducible apply keeps_setStage
    | with_reducible apply keeps_portTowpath | with_reducible apply keeps_allOff
    | (extract_lets +onlyGivenNames x; refine keeps_cut (s0 := s0) (x := x) ?_ (fun h => ?_); rotate_left; clear_value x; rotate_right; subst x)
    | (extract_lets +onlyGivenNames x; clear_value x) | with_reducible apply keeps_foldl | split

theorem keeps_nextSlice {t1} (h : Keeps s0 s) : Keeps s0 (State.nextSlice s t1) :=
  keeps_ite (keeps_finishTest (keeps_syncSlice (keeps_other h))) (keeps_syncSlice (keeps_other h))

theorem keeps_partLinksEnd {k} (h : Keeps s0 s) : Keeps s0 (State.partLinksEnd s k) := by
  unfold State.partLinksEnd
  repeat' first
    | with_reducible assumption | with_reducible apply keeps_failOutstanding | intro _ _ _ | with_reducible apply keeps_foldl

theorem keeps_openReset {scope target} (h : Keeps s0 s) : Keeps s0 (State.openReset s scope target) := by
  unfold State.openReset
  repeat' first
    | with_reducible assumption | with_reducible apply keeps_veto | with_reducible apply keeps_enterScope | with_reducible apply keeps_partLinksEnd
    | with_reducible apply keeps_setResets | with_reducible apply keeps_post | split

theorem keeps_startReset {scope target} (h : Keeps s0 s) : Keeps s0 (State.startReset s scope target) := by
  unfold State.startReset
  repeat' first
    | with_reducible assumption | with_reducible apply keeps_openReset | with_reducible apply keeps_syncResets
    | with_reducible exact keeps_other (by with_reducible assumption) | (extract_lets +onlyGivenNames x; clear_value x) | split

theorem keeps_holdPart {k} (h : Keeps s0 s) : Keeps s0 (State.holdPart s k) := by
  unfold State.holdPart
  repeat' first
    | with_reducible assumption | with_reducible apply keeps_syncResets | with_reducible apply keeps_startReset
    | with_reducible exact keeps_other (by with_reducible assumption) | (extract_lets +onlyGivenNames x; clear_value x) | split

theorem keeps_startTest {full parts} (h : Keeps s0 s) : Keeps s0 (State.startTest s full parts) := by
  unfold State.startTest
  repeat' first
    | with_reducible assumption | with_reducible apply keeps_wf | with_reducible apply keeps_wr | with_reducible apply keeps_holdPart
    | with_reducible apply keeps_finishTest | with_reducible exact keeps_other (by with_reducible assumption)
    | (extract_lets +onlyGivenNames x; refine keeps_cut (s0 := s0) (x := x) ?_ (fun h => ?_); rotate_left; clear_value x; rotate_right; subst x)
    | (extract_lets +onlyGivenNames x; clear_value x) | with_reducible apply keeps_foldl | split

theorem keeps_testCtrl {m v} (h : Keeps s0 s) : Keeps s0 (State.testCtrl s m v) := by
  unfold State.testCtrl
  repeat' first
    | with_reducible assumption | with_reducible apply keeps_endTest | with_reducible apply keeps_regEvent | with_reducible apply keeps_startTest
    | (extract_lets +onlyGivenNames x; clear_value x) | split

theorem keeps_kpWrite {m o v} (h : Keeps s0 s) : Keeps s0 (State.kpWrite s m o v) := by
  unfold State.kpWrite
  repeat' first
    | with_reducible assumption | with_reducible apply keeps_kpReset | with_reducible apply keeps_testCtrl | with_reducible apply keeps_repairCtrl
    | with_reducible apply keeps_secCtrl | with_reducible apply keeps_measExt | with_reducible apply keeps_regStore | with_reducible apply keeps_ringCfg
    | with_reducible apply keeps_ringCtrl | with_reducible apply keeps_regEvent | (extract_lets +onlyGivenNames x; clear_value x) | split

theorem keeps_pwDom {k v} (h : Keeps s0 s) : Keeps s0 (State.pwDom s k v) := by
  unfold State.pwDom
  repeat' first
    | with_reducible assumption | with_reducible apply keeps_syncResets | with_reducible apply keeps_setDom
    | with_reducible exact keeps_other (by with_reducible assumption) | (extract_lets +onlyGivenNames x; clear_value x) | split

theorem keeps_requestReset {scope target} (h : Keeps s0 s) : Keeps s0 (State.requestReset s scope target) := by
  unfold State.requestReset
  repeat' first
    | with_reducible assumption | with_reducible apply keeps_wf | with_reducible apply keeps_syncResets | with_reducible apply keeps_startReset
    | with_reducible exact keeps_other (by with_reducible assumption)
    | (extract_lets +onlyGivenNames x; refine keeps_cut (s0 := s0) (x := x) ?_ (fun h => ?_); rotate_left; clear_value x; rotate_right; subst x)
    | (extract_lets +onlyGivenNames x; clear_value x) | split

theorem keeps_pwReset {m v} (h : Keeps s0 s) : Keeps s0 (State.pwReset s m v) := by
  unfold State.pwReset
  repeat' first
    | with_reducible assumption | with_reducible apply keeps_regEvent | with_reducible apply keeps_requestReset
    | (extract_lets +onlyGivenNames x; clear_value x) | split

theorem keeps_pwWrite {m o v} (h : Keeps s0 s) : Keeps s0 (State.pwWrite s m o v) := by
  unfold State.pwWrite
  repeat' first
    | with_reducible assumption | with_reducible apply keeps_pwLimit | with_reducible apply keeps_pwClk | with_reducible apply keeps_pwDom
    | with_reducible apply keeps_pwReset | with_reducible apply keeps_regStore | split

theorem keeps_regWrite {m b o v} (h : Keeps s0 s) : Keeps s0 (State.regWrite s m b o v) := by
  unfold State.regWrite
  repeat' first
    | with_reducible assumption | with_reducible apply keeps_kpWrite | with_reducible apply keeps_tmWrite | with_reducible apply keeps_pwWrite
    | with_reducible apply keeps_evWrite | with_reducible apply keeps_coWrite | with_reducible apply keeps_hmWrite | with_reducible apply keeps_lkWrite
    | with_reducible apply keeps_dmWrite | with_reducible apply keeps_mbWrite | with_reducible apply keeps_regStore | split

theorem keeps_regWr {m b o a n v} (h : Keeps s0 s) : Keeps s0 (State.regWr s m b o a n v).2 := by
  unfold State.regWr
  repeat' first
    | with_reducible assumption | with_reducible apply keeps_checkLocal | with_reducible apply keeps_deny | with_reducible apply keeps_regWrite
    | (with_reducible apply keeps_of_snd; with_reducible assumption)
    | (extract_lets +onlyGivenNames x; refine keeps_cut (s0 := s0) (x := x) ?_ (fun h => ?_); rotate_left; clear_value x; rotate_right; subst x) | split

theorem keeps_localWr {m a bs} (h : Keeps s0 s) : Keeps s0 (State.localWr s m a bs).2 := by
  unfold State.localWr
  repeat' first
    | with_reducible assumption | with_reducible apply keeps_flushSends | with_reducible apply keeps_checkLocal | with_reducible apply keeps_doorbell
    | with_reducible apply keeps_regWr | with_reducible apply keeps_memWr | with_reducible apply keeps_poundError
    | (with_reducible apply keeps_of_snd; with_reducible assumption)
    | (extract_lets +onlyGivenNames x; refine keeps_cut (s0 := s0) (x := x) ?_ (fun h => ?_); rotate_left; clear_value x; rotate_right; subst x)
    | (extract_lets +onlyGivenNames x; clear_value x) | split

theorem keeps_busWrite {m addr bs} (h : Keeps s0 s) : Keeps s0 (State.busWrite s m addr bs) := by
  unfold State.busWrite
  repeat' first
    | with_reducible assumption | with_reducible apply keeps_reply | with_reducible apply keeps_sendReq | with_reducible apply keeps_localWr
    | (with_reducible apply keeps_of_snd; with_reducible assumption) | (extract_lets +onlyGivenNames x; clear_value x) | split

theorem keeps_put32 {m a v} (h : Keeps s0 s) : Keeps s0 (State.put32 s m a v) := by
  unfold State.put32
  repeat' first
    | with_reducible assumption | with_reducible apply keeps_busWrite

theorem keeps_execLkFullRate {m port sub} (h : Keeps s0 s) : nextAnd (execLkFullRate m port sub s) (Keeps s0) := by
  unfold execLkFullRate
  repeat' first
    | with_reducible assumption | with_reducible apply nextAnd_next | with_reducible apply keeps_put32

theorem keeps_admitOk {r d x} (h : Keeps s0 s) : Keeps s0 (State.admitOk s r d x) := by
  unfold State.admitOk
  repeat' first
    | with_reducible assumption | with_reducible apply keeps_releaseMember | with_reducible apply keeps_setMembers | with_reducible apply keeps_admitKeys
    | with_reducible apply keeps_addWait | with_reducible apply keeps_nameOwners | with_reducible apply keeps_order | split

theorem keeps_admitRun {r d open_ chain x p accepts} (h : Keeps s0 s) : Keeps s0 (State.admitRun s r d open_ chain x p accepts) := by
  unfold State.admitRun
  repeat' first
    | with_reducible assumption | with_reducible apply keeps_ringStart | with_reducible apply keeps_addWait | with_reducible apply keeps_random
    | with_reducible apply keeps_admitFail | with_reducible apply keeps_draw | with_reducible apply keeps_admitOk
    | with_reducible exact keeps_other (by with_reducible assumption) | (with_reducible apply keeps_of_snd; with_reducible assumption)
    | (extract_lets +onlyGivenNames x; refine keeps_cut (s0 := s0) (x := x) ?_ (fun h => ?_); rotate_left; clear_value x; rotate_right; subst x)
    | (extract_lets +onlyGivenNames x; have q := fun a => x a; clear q; subst x) | (extract_lets +onlyGivenNames x; clear_value x) | split

theorem keeps_admitRead {r d open_ chain p accepts} (h : Keeps s0 s) : Keeps s0 (State.admitRead s r d open_ chain p accepts) := by
  unfold State.admitRead
  repeat' first
    | with_reducible assumption | with_reducible apply keeps_keeperReads | with_reducible apply keeps_keeperRead | with_reducible apply keeps_admitFail
    | with_reducible apply keeps_admitRun | (with_reducible apply keeps_of_snd_snd; with_reducible assumption) | intro _ _ | split

theorem keeps_execStandbyTakeover (h : Keeps s0 s) : nextAnd (execStandbyTakeover s) (Keeps s0) := by
  unfold execStandbyTakeover
  repeat' first
    | with_reducible assumption | with_reducible apply nextAnd_next | with_reducible apply keeps_draw | with_reducible apply keeps_wf
    | with_reducible apply keeps_takeId | with_reducible apply keeps_fence | with_reducible apply keeps_orderAll | with_reducible apply keeps_nameOwners
    | intro _ _ _ | (extract_lets +onlyGivenNames x; clear_value x) | with_reducible apply keeps_foldl
    | (with_reducible apply keeps_other; first | with_reducible apply keeps_draw | with_reducible apply keeps_wf | with_reducible apply keeps_takeId | with_reducible apply keeps_fence | with_reducible apply keeps_orderAll | with_reducible apply keeps_nameOwners | with_reducible apply keeps_readmitOwn)
    | split

theorem keeps_startFail {cause} (h : Keeps s0 s) : Keeps s0 (State.startFail s cause) := by
  unfold State.startFail
  repeat' first
    | with_reducible assumption | with_reducible apply keeps_setStage | with_reducible apply keeps_allOff | with_reducible apply keeps_post
    | (extract_lets +onlyGivenNames x; clear_value x)
    | (with_reducible apply keeps_other; first | with_reducible apply keeps_wf | with_reducible apply keeps_setStage | with_reducible apply keeps_allOff | with_reducible apply keeps_post)

theorem keeps_execKeeperRailsGood {good} (h : Keeps s0 s) : nextAnd (execKeeperRailsGood good s) (Keeps s0) := by
  unfold execKeeperRailsGood
  repeat' first
    | with_reducible assumption | with_reducible apply nextAnd_next | with_reducible apply keeps_setPhase | with_reducible apply keeps_startFail
    | with_reducible exact keeps_other (by with_reducible assumption) | (extract_lets +onlyGivenNames x; clear_value x) | split

theorem keeps_execLossWrite {m core value} (h : Keeps s0 s) : nextAnd (execLossWrite m core value s) (Keeps s0) := by
  unfold execLossWrite
  repeat' first
    | with_reducible assumption | with_reducible apply nextAnd_next | with_reducible apply keeps_put32

theorem keeps_execPwClkWrite {m value} (h : Keeps s0 s) : nextAnd (execPwClkWrite m value s) (Keeps s0) := by
  unfold execPwClkWrite
  repeat' first
    | with_reducible assumption | with_reducible apply nextAnd_next | with_reducible apply keeps_put32

theorem keeps_execAdmitDevice {ring index open_ chainGood report peerAccepts} (h : Keeps s0 s) : nextAnd (execAdmitDevice ring index open_ chainGood report peerAccepts s) (Keeps s0) := by
  unfold execAdmitDevice
  repeat' first
    | with_reducible assumption | with_reducible apply nextAnd_next | with_reducible apply keeps_admitRead | with_reducible apply keeps_fleetDesc
    | intro _ _ _ | (extract_lets +onlyGivenNames x; clear_value x) | split

theorem keeps_execStartupCheckDone {found} (h : Keeps s0 s) : nextAnd (execStartupCheckDone found s) (Keeps s0) := by
  unfold execStartupCheckDone
  repeat' first
    | with_reducible assumption | with_reducible apply nextAnd_next | with_reducible apply keeps_addSoft | with_reducible apply keeps_checkFinding
    | with_reducible apply keeps_trainStack | with_reducible apply keeps_startFail | with_reducible apply keeps_setPhase
    | with_reducible apply keeps_setStage | with_reducible apply keeps_startHbm | with_reducible exact keeps_other (by with_reducible assumption)
    | (extract_lets +onlyGivenNames x; refine keeps_cut (s0 := s0) (x := x) ?_ (fun h => ?_); rotate_left; clear_value x; rotate_right; subst x)
    | intro _ _ _ | (extract_lets +onlyGivenNames x; clear_value x) | with_reducible apply keeps_foldl | split

theorem keeps_forwardTx {p b cls h1 data} (h : Keeps s0 s) : Keeps s0 (State.forwardTx s p b cls h1 data) := by
  unfold State.forwardTx
  repeat' first
    | with_reducible assumption | with_reducible apply keeps_modSub | with_reducible apply keeps_answerTx | with_reducible apply keeps_bump
    | with_reducible exact keeps_other (by with_reducible assumption)
    | (extract_lets +onlyGivenNames x; refine keeps_cut (s0 := s0) (x := x) ?_ (fun h => ?_); rotate_left; clear_value x; rotate_right; subst x)
    | (extract_lets +onlyGivenNames x; clear_value x) | split

theorem keeps_execLinkDown {port sub} (h : Keeps s0 s) : nextAnd (execLinkDown port sub s) (Keeps s0) := by
  unfold execLinkDown
  repeat' first
    | with_reducible assumption | with_reducible apply nextAnd_next | with_reducible apply keeps_linkDown
    | (extract_lets +onlyGivenNames x; clear_value x) | split

theorem keeps_reconfigurePort {p mode split} (h : Keeps s0 s) : Keeps s0 (State.reconfigurePort s p mode split) := by
  unfold State.reconfigurePort
  repeat' first
    | with_reducible assumption | with_reducible apply keeps_linkDown | with_reducible apply keeps_setLink | with_reducible apply keeps_wf
    | with_reducible apply keeps_endReconfigure | with_reducible apply keeps_setSrc
    | (extract_lets +onlyGivenNames x; refine keeps_cut (s0 := s0) (x := x) ?_ (fun h => ?_); rotate_left; clear_value x; rotate_right; subst x)
    | intro _ _ _ | with_reducible apply keeps_foldl | split

theorem keeps_execPortReconfigure {port mode split} (h : Keeps s0 s) : nextAnd (execPortReconfigure port mode split s) (Keeps s0) := by
  unfold execPortReconfigure
  repeat' first
    | with_reducible assumption | with_reducible apply nextAnd_next | with_reducible apply keeps_beginReconfigure
    | with_reducible apply keeps_reconfigurePort
    | (extract_lets +onlyGivenNames x; refine keeps_cut (s0 := s0) (x := x) ?_ (fun h => ?_); rotate_left; clear_value x; rotate_right; subst x) | split

theorem keeps_execDmaResume {m engine} (h : Keeps s0 s) : nextAnd (execDmaResume m engine s) (Keeps s0) := by
  unfold execDmaResume
  repeat' first
    | with_reducible assumption | with_reducible apply nextAnd_next | with_reducible apply keeps_put32

theorem keeps_execLkRestore {m port sub} (h : Keeps s0 s) : nextAnd (execLkRestore m port sub s) (Keeps s0) := by
  unfold execLkRestore
  repeat' first
    | with_reducible assumption | with_reducible apply nextAnd_next | with_reducible apply keeps_put32

theorem keeps_busAccess {m addr n write data} (h : Keeps s0 s) : Keeps s0 (State.busAccess s m addr n write data) := by
  unfold State.busAccess
  repeat' first
    | with_reducible assumption | with_reducible apply keeps_busWrite | with_reducible apply keeps_busRead | split

theorem keeps_runDeferred (h : Keeps s0 s) : Keeps s0 (State.runDeferred s) := by
  unfold State.runDeferred
  repeat' first
    | with_reducible assumption | with_reducible apply keeps_startReset | with_reducible apply keeps_setDom | with_reducible apply keeps_syncResets
    | with_reducible exact keeps_other (by with_reducible assumption) | intro _ _ _ | (extract_lets +onlyGivenNames x; clear_value x)
    | with_reducible apply keeps_foldl | split

theorem keeps_withdraw (h : Keeps s0 s) : Keeps s0 (State.withdraw s) := by
  unfold State.withdraw
  repeat' first
    | with_reducible assumption | with_reducible apply keeps_wf | with_reducible apply keeps_syncQueues | with_reducible apply keeps_modCore
    | with_reducible apply keeps_setLockSt | with_reducible apply keeps_wrWide | with_reducible apply keeps_wr | with_reducible apply keeps_runDeferred
    | intro _ _ _ | (extract_lets +onlyGivenNames x; clear_value x) | with_reducible apply keeps_foldl
    | (with_reducible apply keeps_other; first | with_reducible apply keeps_wf | with_reducible apply keeps_syncQueues | with_reducible apply keeps_modCore | with_reducible apply keeps_setLockSt | with_reducible apply keeps_wrWide | with_reducible apply keeps_wr | with_reducible apply keeps_setVote | with_reducible apply keeps_runDeferred)
    | split

theorem keeps_restoreOwn {e} (h : Keeps s0 s) : Keeps s0 (State.restoreOwn s e) := by
  unfold State.restoreOwn
  repeat' first
    | with_reducible assumption | with_reducible apply keeps_bumpF | with_reducible apply keeps_withdraw | with_reducible apply keeps_failServing
    | with_reducible apply keeps_loadSnap | with_reducible apply keeps_draw | with_reducible apply keeps_wrWide
    | with_reducible exact keeps_other (by with_reducible assumption)
    | (extract_lets +onlyGivenNames x; refine keeps_cut (s0 := s0) (x := x) ?_ (fun h => ?_); rotate_left; clear_value x; rotate_right; subst x) | split

theorem keeps_restoreAll {e} (h : Keeps s0 s) : Keeps s0 (State.restoreAll s e) := by
  unfold State.restoreAll
  repeat' first
    | with_reducible assumption | with_reducible apply keeps_restoreOwn | with_reducible apply keeps_orderAll

theorem keeps_execReplayCheck {samples} (h : Keeps s0 s) : nextAnd (execReplayCheck samples s) (Keeps s0) := by
  unfold execReplayCheck
  repeat' first
    | with_reducible assumption | with_reducible apply nextAnd_next | with_reducible apply keeps_refDone | with_reducible apply keeps_postFleet
    | with_reducible apply keeps_modMember | with_reducible apply keeps_draw | with_reducible apply keeps_restoreAll
    | with_reducible exact keeps_other (by with_reducible assumption)
    | (extract_lets +onlyGivenNames x; refine keeps_cut (s0 := s0) (x := x) ?_ (fun h => ?_); rotate_left; clear_value x; rotate_right; subst x)
    | (extract_lets +onlyGivenNames x; have q := fun a => x a; clear q; subst x) | (extract_lets +onlyGivenNames x; clear_value x) | split

theorem keeps_execWfeTimeout {core} (h : Keeps s0 s) : nextAnd (execWfeTimeout core s) (Keeps s0) := by
  unfold execWfeTimeout
  repeat' first
    | with_reducible assumption | with_reducible apply nextAnd_next | with_reducible apply keeps_advance | split

theorem keeps_domUp {k} (h : Keeps s0 s) : Keeps s0 (State.domUp s k) := by
  unfold State.domUp
  repeat' first
    | with_reducible assumption | with_reducible apply keeps_wf | with_reducible apply keeps_raiseHeld | with_reducible apply keeps_partFull
    | with_reducible apply keeps_openReset | with_reducible exact keeps_other (by with_reducible assumption)
    | (extract_lets +onlyGivenNames x; refine keeps_cut (s0 := s0) (x := x) ?_ (fun h => ?_); rotate_left; clear_value x; rotate_right; subst x)
    | intro _ _ _ | (extract_lets +onlyGivenNames x; clear_value x) | with_reducible apply keeps_foldl | split

theorem keeps_execWakingDone {part tookMs} (h : Keeps s0 s) : nextAnd (execWakingDone part tookMs s) (Keeps s0) := by
  unfold execWakingDone
  repeat' first
    | with_reducible assumption | with_reducible apply nextAnd_next | with_reducible apply keeps_partitionsOn | with_reducible apply keeps_domUp
    | with_reducible apply keeps_wf | with_reducible apply keeps_loseBasins | with_reducible apply keeps_startDrain
    | (extract_lets +onlyGivenNames x; refine keeps_cut (s0 := s0) (x := x) ?_ (fun h => ?_); rotate_left; clear_value x; rotate_right; subst x)
    | (extract_lets +onlyGivenNames x; clear_value x) | split

theorem keeps_endCast (h : Keeps s0 s) : Keeps s0 (State.endCast s) := by
  unfold State.endCast
  repeat' first
    | with_reducible assumption | with_reducible apply keeps_fence | with_reducible apply keeps_declareFailed | with_reducible apply keeps_releaseMember
    | with_reducible apply keeps_postFleet | intro _ _ _ | (extract_lets +onlyGivenNames x; clear_value x) | with_reducible apply keeps_foldl | split

theorem keeps_goto {c pc} (h : Keeps s0 s) : Keeps s0 (State.goto s c pc) := by
  unfold State.goto
  repeat' first
    | with_reducible assumption | with_reducible apply keeps_modCore

theorem keeps_sendOfLink {p b h1} (h : Keeps s0 s) : Keeps s0 (State.sendOfLink s p b h1) := by
  unfold State.sendOfLink
  repeat' first
    | with_reducible assumption | with_reducible exact keeps_other (by with_reducible assumption) | split

theorem keeps_execDmGo {m engine value} (h : Keeps s0 s) : nextAnd (execDmGo m engine value s) (Keeps s0) := by
  unfold execDmGo
  repeat' first
    | with_reducible assumption | with_reducible apply nextAnd_next | with_reducible apply keeps_put32

theorem keeps_goAdrift {agent} (h : Keeps s0 s) : Keeps s0 (State.goAdrift s agent) := by
  unfold State.goAdrift
  extract_lets src e _ x1 x2 x3 x4
  have h1 : Keeps s0 x1 := keeps_other h
  have h3 : Keeps s0 x3 := keeps_foldl (fun s x h => by
    split
    · exact h
    · exact keeps_portTowpath h) (keeps_fatalSlot h1)
  refine keeps_snapEnd (keeps_snapEnd ?_)
  show Keeps s0 (ite _ _ _)
  split
  · exact keeps_sendAs h3
  · exact h3

theorem keeps_execRingDoorbell {m off size value} (h : Keeps s0 s) : nextAnd (execRingDoorbell m off size value s) (Keeps s0) := by
  unfold execRingDoorbell
  repeat' first
    | with_reducible assumption | with_reducible apply nextAnd_next | with_reducible apply keeps_busWrite

theorem keeps_execObsWrite {m core index value} (h : Keeps s0 s) : nextAnd (execObsWrite m core index value s) (Keeps s0) := by
  unfold execObsWrite
  repeat' first
    | with_reducible assumption | with_reducible apply nextAnd_next | with_reducible apply keeps_put32

theorem keeps_configWrite {a v} (h : Keeps s0 s) : Keeps s0 (State.configWrite s a v) := by
  unfold State.configWrite
  repeat' first
    | with_reducible assumption | with_reducible apply keeps_wr | with_reducible apply keeps_syncDemand | with_reducible apply keeps_loadWord
    | with_reducible apply keeps_putKreg | with_reducible apply keeps_regEvent | with_reducible apply keeps_regWrite | with_reducible apply keeps_wf
    | with_reducible apply keeps_beginReconfigure
    | (extract_lets +onlyGivenNames x; refine keeps_cut (s0 := s0) (x := x) ?_ (fun h => ?_); rotate_left; clear_value x; rotate_right; subst x) | split

theorem keeps_applyChange {e c} (h : Keeps s0 s) : Keeps s0 (State.applyChange s e c) := by
  unfold State.applyChange
  split
  · exact keeps_foldl (fun _ _ h => keeps_configWrite h) h
  · exact keeps_seedPound (keeps_changeSched h)
  · exact keeps_switchBank h
  · exact keeps_modSub h
  · exact keeps_putKreg h
  · exact keeps_rekeySlot h
  · exact keeps_tenantChange h
  · exact keeps_fuses_same (keeps_measHeader h) rfl rfl rfl
  · exact keeps_loadGroup h
  · exact keeps_setFleetWord h
  · exact keeps_releaseMember h
  · exact keeps_endCast h

theorem keeps_configStep {e} (h : Keeps s0 s) : Keeps s0 (State.configStep s e) := by
  unfold State.configStep
  repeat' first
    | with_reducible assumption | with_reducible apply keeps_applyChange | with_reducible apply keeps_finishRefs
    | with_reducible exact keeps_other (by with_reducible assumption) | intro _ _ _ | (extract_lets +onlyGivenNames x; clear_value x)
    | with_reducible apply keeps_foldl

theorem keeps_lockSteps {d} (h : Keeps s0 s) : Keeps s0 (State.lockSteps s d) := by
  unfold State.lockSteps
  repeat' first
    | with_reducible assumption | with_reducible apply keeps_sluiceLock | with_reducible apply keeps_trackersLock | with_reducible apply keeps_seedPound
    | with_reducible apply keeps_flip | with_reducible apply keeps_trainEmpty | with_reducible apply keeps_wf | with_reducible apply keeps_healthStep
    | with_reducible apply keeps_snapStep | with_reducible apply keeps_configStep | with_reducible exact keeps_other (by with_reducible assumption)
    | (extract_lets +onlyGivenNames x; refine keeps_cut (s0 := s0) (x := x) ?_ (fun h => ?_); rotate_left; clear_value x; rotate_right; subst x)
    | (extract_lets +onlyGivenNames x; clear_value x) | split

theorem keeps_emptyAct {alert} (h : Keeps s0 s) : Keeps s0 (State.emptyAct s alert) := by
  unfold State.emptyAct
  repeat' first
    | with_reducible assumption | with_reducible apply keeps_withdraw | with_reducible apply keeps_orderAll | with_reducible apply keeps_restoreAll
    | (extract_lets +onlyGivenNames x; clear_value x) | split

theorem keeps_endLock {d t1} (h : Keeps s0 s) : Keeps s0 (State.endLock s d t1) := by
  unfold State.endLock
  repeat' first
    | with_reducible assumption | with_reducible apply keeps_wrWide | with_reducible apply keeps_runDeferred | with_reducible apply keeps_poundStart
    | with_reducible apply keeps_lockReport | with_reducible apply keeps_noteTimeLost | with_reducible apply keeps_emptyAct
    | (extract_lets +onlyGivenNames x; clear_value x)
    | (with_reducible apply keeps_other; first | with_reducible apply keeps_wrWide | with_reducible apply keeps_runDeferred | with_reducible apply keeps_poundStart | with_reducible apply keeps_lockReport | with_reducible apply keeps_noteTimeLost | with_reducible apply keeps_emptyAct)

theorem keeps_execKeeperReportTimeout {dev} (h : Keeps s0 s) : nextAnd (execKeeperReportTimeout dev s) (Keeps s0) := by
  unfold execKeeperReportTimeout
  repeat' first
    | with_reducible assumption | with_reducible apply nextAnd_next | with_reducible apply keeps_draw | with_reducible apply keeps_releaseMember
    | with_reducible apply keeps_endAsked | split

theorem keeps_execPwDomEnWrite {m part en} (h : Keeps s0 s) : nextAnd (execPwDomEnWrite m part en s) (Keeps s0) := by
  unfold execPwDomEnWrite
  repeat' first
    | with_reducible assumption | with_reducible apply nextAnd_next | with_reducible apply keeps_put32

theorem keeps_readRun {m a x3} (h : Keeps s0 s) : Keeps s0 (State.readRun s m a x3).2.2 := by
  fun_induction State.readRun s m a x3
  repeat' first
    | with_reducible assumption | with_reducible apply keeps_localRd | (with_reducible apply keeps_of_snd_snd; with_reducible assumption)
    | apply_assumption

theorem keeps_execAdriftDetect {agent missed} (h : Keeps s0 s) : nextAnd (execAdriftDetect agent missed s) (Keeps s0) := by
  unfold execAdriftDetect
  repeat' first
    | with_reducible assumption | with_reducible apply nextAnd_next | with_reducible apply keeps_goAdrift
    | with_reducible exact keeps_other (by with_reducible assumption)
    | (extract_lets +onlyGivenNames x; refine keeps_cut (s0 := s0) (x := x) ?_ (fun h => ?_); rotate_left; clear_value x; rotate_right; subst x)
    | (extract_lets +onlyGivenNames x; clear_value x) | split

theorem keeps_execCoreReset {m core} (h : Keeps s0 s) : nextAnd (execCoreReset m core s) (Keeps s0) := by
  unfold execCoreReset
  repeat' first
    | with_reducible assumption | with_reducible apply nextAnd_next | with_reducible apply keeps_put32

theorem keeps_arriveTx {p b op cls cls3 h1 data f} (h : Keeps s0 s) (hf : Keeps s0 s → Keeps s0 (f s)) : Keeps s0 (State.arriveTx s p b op cls cls3 h1 data f) := by
  unfold State.arriveTx
  split
  · exact h
  split
  · exact keeps_answerTx (keeps_bump h)
  split
  · exact h
  split
  · exact keeps_bump h
  split
  · exact keeps_forwardTx h
  · exact hf h

theorem keeps_writeRun {m a data x4} (h : Keeps s0 s) : Keeps s0 (State.writeRun s m a data x4).2 := by
  fun_induction State.writeRun s m a data x4
  repeat' first
    | with_reducible assumption | with_reducible apply keeps_localWr | (with_reducible apply keeps_of_snd; with_reducible assumption) | apply_assumption

theorem keeps_serveWrite {p b h1 data} (h : Keeps s0 s) : Keeps s0 (State.serveWrite s p b h1 data) := by
  unfold State.serveWrite
  repeat' first
    | with_reducible assumption | with_reducible apply keeps_answerTx | with_reducible apply keeps_writeRun | with_reducible apply keeps_sendOfLink
    | (with_reducible apply keeps_of_snd; with_reducible assumption) | split

theorem keeps_execWrite {port sub h1 data} (h : Keeps s0 s) : nextAnd (execWrite port sub h1 data s) (Keeps s0) := by
  unfold execWrite
  repeat' first
    | with_reducible assumption | with_reducible apply nextAnd_next | with_reducible apply keeps_arriveTx | with_reducible apply keeps_serveWrite

theorem keeps_execRestore {ring index} (h : Keeps s0 s) : nextAnd (execRestore ring index s) (Keeps s0) := by
  unfold execRestore
  repeat' first
    | with_reducible assumption | with_reducible apply nextAnd_next | with_reducible apply keeps_fleetDesc | with_reducible apply keeps_addWait
    | with_reducible apply keeps_restoreAll | with_reducible apply keeps_ringStart | intro _ _ _

theorem keeps_execRds {core d imm} (h : Keeps s0 s) : nextAnd (execRds core d imm s) (Keeps s0) := by
  unfold execRds
  repeat' first
    | with_reducible assumption | with_reducible apply nextAnd_next | with_reducible apply keeps_issue | with_reducible apply keeps_result
    | with_reducible apply keeps_draw | with_reducible apply keeps_selfFault | intro _ | (extract_lets +onlyGivenNames x; clear_value x) | split

theorem keeps_execDrainingDone {part} (h : Keeps s0 s) : nextAnd (execDrainingDone part s) (Keeps s0) := by
  unfold execDrainingDone
  repeat' first
    | with_reducible assumption | with_reducible apply nextAnd_next | with_reducible apply keeps_loseBasins | with_reducible apply keeps_clearScope
    | with_reducible apply keeps_settleScope | with_reducible apply keeps_setResets | with_reducible apply keeps_partTowpath
    | with_reducible apply keeps_wf | with_reducible apply keeps_bumpF | with_reducible exact keeps_other (by with_reducible assumption)
    | (extract_lets +onlyGivenNames x; refine keeps_cut (s0 := s0) (x := x) ?_ (fun h => ?_); rotate_left; clear_value x; rotate_right; subst x)
    | (extract_lets +onlyGivenNames x; clear_value x) | split

theorem keeps_scalar {c d f} (h : Keeps s0 s) : Keeps s0 (State.scalar s c d f) := by
  unfold State.scalar
  repeat' first
    | with_reducible assumption | with_reducible apply keeps_issue | with_reducible apply keeps_result

theorem keeps_execAndi {core d a imm} (h : Keeps s0 s) : nextAnd (execAndi core d a imm s) (Keeps s0) := by
  unfold execAndi
  repeat' first
    | with_reducible assumption | with_reducible apply nextAnd_next | with_reducible apply keeps_scalar

theorem keeps_execShi {core d a imm} (h : Keeps s0 s) : nextAnd (execShi core d a imm s) (Keeps s0) := by
  unfold execShi
  repeat' first
    | with_reducible assumption | with_reducible apply nextAnd_next | with_reducible apply keeps_issue | with_reducible apply keeps_result
    | with_reducible apply keeps_selfFault | intro _ | (extract_lets +onlyGivenNames x; clear_value x) | split

theorem keeps_execStartFail {cause} (h : Keeps s0 s) : nextAnd (execStartFail cause s) (Keeps s0) := by
  unfold execStartFail
  repeat' first
    | with_reducible assumption | with_reducible apply nextAnd_next | with_reducible apply keeps_startFail | split

theorem keeps_execRegisterWrite {m addr size value} (h : Keeps s0 s) : nextAnd (execRegisterWrite m addr size value s) (Keeps s0) := by
  unfold execRegisterWrite
  repeat' first
    | with_reducible assumption | with_reducible apply nextAnd_next | with_reducible apply keeps_busWrite

theorem keeps_execWideHighWrite {m addr value} (h : Keeps s0 s) : nextAnd (execWideHighWrite m addr value s) (Keeps s0) := by
  unfold execWideHighWrite
  repeat' first
    | with_reducible assumption | with_reducible apply nextAnd_next | with_reducible apply keeps_busWrite

theorem keeps_execWideLowWrite {m addr value} (h : Keeps s0 s) : nextAnd (execWideLowWrite m addr value s) (Keeps s0) := by
  unfold execWideLowWrite
  repeat' first
    | with_reducible assumption | with_reducible apply nextAnd_next | with_reducible apply keeps_busWrite

theorem keeps_execBasinAccess {m addr size write data upset} (h : Keeps s0 s) : nextAnd (execBasinAccess m addr size write data upset s) (Keeps s0) := by
  unfold execBasinAccess
  repeat' first
    | with_reducible assumption | with_reducible apply nextAnd_next | with_reducible apply keeps_addUpset | with_reducible apply keeps_busAccess | split

theorem keeps_execHbmAccess {m addr size narrow write data upset} (h : Keeps s0 s) : nextAnd (execHbmAccess m addr size narrow write data upset s) (Keeps s0) := by
  unfold execHbmAccess
  repeat' first
    | with_reducible assumption | with_reducible apply nextAnd_next | with_reducible apply keeps_reply | with_reducible apply keeps_addUpset
    | with_reducible apply keeps_busAccess
    | (extract_lets +onlyGivenNames x; refine keeps_cut (s0 := s0) (x := x) ?_ (fun h => ?_); rotate_left; clear_value x; rotate_right; subst x)
    | (extract_lets +onlyGivenNames x; clear_value x) | split

theorem keeps_execHbmInitDone (h : Keeps s0 s) : nextAnd (execHbmInitDone s) (Keeps s0) := by
  unfold execHbmInitDone
  repeat' first
    | with_reducible assumption | with_reducible apply nextAnd_next | with_reducible apply keeps_zeroHbm | with_reducible apply keeps_wb
    | with_reducible apply keeps_countCores | with_reducible apply keeps_writeMap | with_reducible apply keeps_startFail
    | with_reducible apply keeps_setPhase | with_reducible apply keeps_setStage | with_reducible apply keeps_firstTraining
    | (extract_lets +onlyGivenNames x; refine keeps_cut (s0 := s0) (x := x) ?_ (fun h => ?_); rotate_left; clear_value x; rotate_right; subst x)
    | intro _ _ _ | with_reducible apply keeps_foldl | split

theorem keeps_outOfStep (h : Keeps s0 s) : Keeps s0 (State.outOfStep s) := by
  unfold State.outOfStep
  repeat' first
    | with_reducible assumption | with_reducible apply keeps_wf | with_reducible apply keeps_setLockSt | with_reducible apply keeps_runDeferred
    | with_reducible apply keeps_post | (extract_lets +onlyGivenNames x; clear_value x)
    | (with_reducible apply keeps_other; first | with_reducible apply keeps_wf | with_reducible apply keeps_setLockSt | with_reducible apply keeps_runDeferred | with_reducible apply keeps_post)

theorem keeps_startLock {d at_} (h : Keeps s0 s) : Keeps s0 (State.startLock s d at_) := by
  unfold State.startLock
  repeat' first
    | with_reducible assumption | with_reducible apply keeps_outOfStep | with_reducible apply keeps_setLockSt | with_reducible apply keeps_sendLease
    | with_reducible apply keeps_stopCores | with_reducible exact keeps_other (by with_reducible assumption)
    | (extract_lets +onlyGivenNames x; refine keeps_cut (s0 := s0) (x := x) ?_ (fun h => ?_); rotate_left; clear_value x; rotate_right; subst x)
    | (extract_lets +onlyGivenNames x; clear_value x) | split

theorem keeps_execDecision {d} (h : Keeps s0 s) : nextAnd (execDecision d s) (Keeps s0) := by
  unfold execDecision
  split
  · exact h
  · extract_lets _ x1 x2
    have h1 : Keeps s0 x1 := keeps_other h
    have h2 : Keeps s0 x2 := by
      show Keeps s0 (ite _ _ _)
      split
      · exact keeps_sendDown h1
      · exact h1
    split
    · exact h2
    · exact keeps_startLock h2

theorem keeps_execLockInstant (h : Keeps s0 s) : nextAnd (execLockInstant s) (Keeps s0) := by
  unfold execLockInstant
  repeat' first
    | with_reducible assumption | with_reducible apply nextAnd_next | with_reducible apply keeps_startLock
    | with_reducible exact keeps_other (by with_reducible assumption) | (extract_lets +onlyGivenNames x; clear_value x) | split

theorem keeps_execLockHold (h : Keeps s0 s) : nextAnd (execLockHold s) (Keeps s0) := by
  unfold execLockHold
  repeat' first
    | with_reducible assumption | with_reducible apply nextAnd_next | with_reducible apply keeps_runDeferred | with_reducible apply keeps_holdLock | split

theorem keeps_execLockCommitStep (h : Keeps s0 s) : nextAnd (execLockCommitStep s) (Keeps s0) := by
  unfold execLockCommitStep
  repeat' first
    | with_reducible assumption | with_reducible apply nextAnd_next | with_reducible apply keeps_outOfStep | with_reducible apply keeps_lockSteps | split

theorem keeps_execLockEnd (h : Keeps s0 s) : nextAnd (execLockEnd s) (Keeps s0) := by
  unfold execLockEnd
  repeat' first
    | with_reducible assumption | with_reducible apply nextAnd_next | with_reducible apply keeps_endLock | split

theorem keeps_execNoDecisionTimeout (h : Keeps s0 s) : nextAnd (execNoDecisionTimeout s) (Keeps s0) := by
  unfold execNoDecisionTimeout
  repeat' first
    | with_reducible assumption | with_reducible apply nextAnd_next | with_reducible apply keeps_outOfStep | split

theorem keeps_execAlu {core d a b fn} (h : Keeps s0 s) : nextAnd (execAlu core d a b fn s) (Keeps s0) := by
  unfold execAlu
  repeat' first
    | with_reducible assumption | with_reducible apply nextAnd_next | with_reducible apply keeps_issue | with_reducible apply keeps_result
    | with_reducible apply keeps_selfFault | intro _ | (extract_lets +onlyGivenNames x; clear_value x) | split

theorem keeps_execAddi {core d a imm} (h : Keeps s0 s) : nextAnd (execAddi core d a imm s) (Keeps s0) := by
  unfold execAddi
  repeat' first
    | with_reducible assumption | with_reducible apply nextAnd_next | with_reducible apply keeps_scalar

theorem keeps_execOri {core d a imm} (h : Keeps s0 s) : nextAnd (execOri core d a imm s) (Keeps s0) := by
  unfold execOri
  repeat' first
    | with_reducible assumption | with_reducible apply nextAnd_next | with_reducible apply keeps_scalar

theorem keeps_execXori {core d a imm} (h : Keeps s0 s) : nextAnd (execXori core d a imm s) (Keeps s0) := by
  unfold execXori
  repeat' first
    | with_reducible assumption | with_reducible apply nextAnd_next | with_reducible apply keeps_scalar

theorem keeps_execShlor {core d a imm} (h : Keeps s0 s) : nextAnd (execShlor core d a imm s) (Keeps s0) := by
  unfold execShlor
  repeat' first
    | with_reducible assumption | with_reducible apply nextAnd_next | with_reducible apply keeps_scalar

theorem keeps_loading {c d wide addr v} (h : Keeps s0 s) : Keeps s0 (State.loading s c d wide addr v) := by
  unfold State.loading
  repeat' first
    | with_reducible assumption | with_reducible apply keeps_modCore

theorem keeps_tillerLoad {c d n addr} (h : Keeps s0 s) : Keeps s0 (State.tillerLoad s c d n addr) := by
  unfold State.tillerLoad
  repeat' first
    | with_reducible assumption | with_reducible apply keeps_selfFault | with_reducible apply keeps_sendReq | with_reducible apply keeps_loading
    | with_reducible apply keeps_localRd | (with_reducible apply keeps_of_snd; with_reducible assumption)
    | (with_reducible apply keeps_of_snd_snd; with_reducible assumption) | split

theorem keeps_execLd {core d a imm} (h : Keeps s0 s) : nextAnd (execLd core d a imm s) (Keeps s0) := by
  unfold execLd
  repeat' first
    | with_reducible assumption | with_reducible apply nextAnd_next | with_reducible apply keeps_issue | with_reducible apply keeps_tillerLoad

theorem keeps_execLdw {core d a imm} (h : Keeps s0 s) : nextAnd (execLdw core d a imm s) (Keeps s0) := by
  unfold execLdw
  repeat' first
    | with_reducible assumption | with_reducible apply nextAnd_next | with_reducible apply keeps_issue | with_reducible apply keeps_tillerLoad

theorem keeps_countWrite {c} (h : Keeps s0 s) : Keeps s0 (State.countWrite s c) := by
  unfold State.countWrite
  repeat' first
    | with_reducible assumption | with_reducible apply keeps_modCore

theorem keeps_tillerStore {c n addr v} (h : Keeps s0 s) : Keeps s0 (State.tillerStore s c n addr v) := by
  unfold State.tillerStore
  repeat' first
    | with_reducible assumption | with_reducible apply keeps_selfFault | with_reducible apply keeps_sendReq | with_reducible apply keeps_advance
    | with_reducible apply keeps_modCore | with_reducible apply keeps_localWr | with_reducible apply keeps_countWrite
    | (with_reducible apply keeps_of_snd; with_reducible assumption) | (extract_lets +onlyGivenNames x; clear_value x) | split

theorem keeps_execSt {core d a imm} (h : Keeps s0 s) : nextAnd (execSt core d a imm s) (Keeps s0) := by
  unfold execSt
  repeat' first
    | with_reducible assumption | with_reducible apply nextAnd_next | with_reducible apply keeps_issue | with_reducible apply keeps_tillerStore

theorem keeps_execStw {core d a imm} (h : Keeps s0 s) : nextAnd (execStw core d a imm s) (Keeps s0) := by
  unfold execStw
  repeat' first
    | with_reducible assumption | with_reducible apply nextAnd_next | with_reducible apply keeps_issue | with_reducible apply keeps_tillerStore

theorem keeps_execTillerLoadReturn {core} (h : Keeps s0 s) : nextAnd (execTillerLoadReturn core s) (Keeps s0) := by
  unfold execTillerLoadReturn
  repeat' first
    | with_reducible assumption | with_reducible apply nextAnd_next | with_reducible apply keeps_result | with_reducible apply keeps_selfFault | split

theorem keeps_branch {c off cond} (h : Keeps s0 s) : Keeps s0 (State.branch s c off cond) := by
  unfold State.branch
  repeat' first
    | with_reducible assumption | with_reducible apply keeps_issue | with_reducible apply keeps_goto | with_reducible apply keeps_advance | intro _
    | (extract_lets +onlyGivenNames x; clear_value x) | split

theorem keeps_execBeq {core a b off} (h : Keeps s0 s) : nextAnd (execBeq core a b off s) (Keeps s0) := by
  unfold execBeq
  repeat' first
    | with_reducible assumption | with_reducible apply nextAnd_next | with_reducible apply keeps_branch

theorem keeps_execBne {core a b off} (h : Keeps s0 s) : nextAnd (execBne core a b off s) (Keeps s0) := by
  unfold execBne
  repeat' first
    | with_reducible assumption | with_reducible apply nextAnd_next | with_reducible apply keeps_branch

theorem keeps_execBlt {core a b off} (h : Keeps s0 s) : nextAnd (execBlt core a b off s) (Keeps s0) := by
  unfold execBlt
  repeat' first
    | with_reducible assumption | with_reducible apply nextAnd_next | with_reducible apply keeps_branch

theorem keeps_execBge {core a b off} (h : Keeps s0 s) : nextAnd (execBge core a b off s) (Keeps s0) := by
  unfold execBge
  repeat' first
    | with_reducible assumption | with_reducible apply nextAnd_next | with_reducible apply keeps_branch

theorem keeps_execBltu {core a b off} (h : Keeps s0 s) : nextAnd (execBltu core a b off s) (Keeps s0) := by
  unfold execBltu
  repeat' first
    | with_reducible assumption | with_reducible apply nextAnd_next | with_reducible apply keeps_branch

theorem keeps_execBgeu {core a b off} (h : Keeps s0 s) : nextAnd (execBgeu core a b off s) (Keeps s0) := by
  unfold execBgeu
  repeat' first
    | with_reducible assumption | with_reducible apply nextAnd_next | with_reducible apply keeps_branch

theorem keeps_link {c d target} (h : Keeps s0 s) : Keeps s0 (State.link s c d target) := by
  unfold State.link
  repeat' first
    | with_reducible assumption | with_reducible apply keeps_modCore

theorem keeps_execJal {core d off} (h : Keeps s0 s) : nextAnd (execJal core d off s) (Keeps s0) := by
  unfold execJal
  repeat' first
    | with_reducible assumption | with_reducible apply nextAnd_next | with_reducible apply keeps_issue | with_reducible apply keeps_link

theorem keeps_execJr {core d a imm} (h : Keeps s0 s) : nextAnd (execJr core d a imm s) (Keeps s0) := by
  unfold execJr
  repeat' first
    | with_reducible assumption | with_reducible apply nextAnd_next | with_reducible apply keeps_issue | with_reducible apply keeps_link

theorem keeps_await {c w} (h : Keeps s0 s) : Keeps s0 (State.await s c w) := by
  unfold State.await
  repeat' first
    | with_reducible assumption | with_reducible apply keeps_retry | with_reducible apply keeps_modCore

theorem keeps_execWaitq {core imm} (h : Keeps s0 s) : nextAnd (execWaitq core imm s) (Keeps s0) := by
  unfold execWaitq
  repeat' first
    | with_reducible assumption | with_reducible apply nextAnd_next | with_reducible apply keeps_issue | with_reducible apply keeps_await

theorem keeps_execStatq {core d imm} (h : Keeps s0 s) : nextAnd (execStatq core d imm s) (Keeps s0) := by
  unfold execStatq
  repeat' first
    | with_reducible assumption | with_reducible apply nextAnd_next | with_reducible apply keeps_issue | with_reducible apply keeps_await
    | with_reducible apply keeps_result | intro _ | (extract_lets +onlyGivenNames x; clear_value x) | split

theorem keeps_execWfe {core a} (h : Keeps s0 s) : nextAnd (execWfe core a s) (Keeps s0) := by
  unfold execWfe
  repeat' first
    | with_reducible assumption | with_reducible apply nextAnd_next | with_reducible apply keeps_issue | with_reducible apply keeps_advance
    | with_reducible apply keeps_await | intro _ | (extract_lets +onlyGivenNames x; clear_value x) | split

theorem keeps_execRingResume {m ring} (h : Keeps s0 s) : nextAnd (execRingResume m ring s) (Keeps s0) := by
  unfold execRingResume
  repeat' first
    | with_reducible assumption | with_reducible apply nextAnd_next | with_reducible apply keeps_put32

theorem keeps_execDmaAbort {m engine} (h : Keeps s0 s) : nextAnd (execDmaAbort m engine s) (Keeps s0) := by
  unfold execDmaAbort
  repeat' first
    | with_reducible assumption | with_reducible apply nextAnd_next | with_reducible apply keeps_put32

theorem keeps_execMbMsgSend {m core chan value} (h : Keeps s0 s) : nextAnd (execMbMsgSend m core chan value s) (Keeps s0) := by
  unfold execMbMsgSend
  repeat' first
    | with_reducible assumption | with_reducible apply nextAnd_next | with_reducible apply keeps_put32

theorem keeps_execMbLockWrite {m core chan value} (h : Keeps s0 s) : nextAnd (execMbLockWrite m core chan value s) (Keeps s0) := by
  unfold execMbLockWrite
  repeat' first
    | with_reducible assumption | with_reducible apply nextAnd_next | with_reducible apply keeps_put32

theorem keeps_execGnPartialWrite {m core value} (h : Keeps s0 s) : nextAnd (execGnPartialWrite m core value s) (Keeps s0) := by
  unfold execGnPartialWrite
  repeat' first
    | with_reducible assumption | with_reducible apply nextAnd_next | with_reducible apply keeps_put32

theorem keeps_execLinkTrained {port sub failed peer} (h : Keeps s0 s) : nextAnd (execLinkTrained port sub failed peer s) (Keeps s0) := by
  unfold execLinkTrained
  repeat' first
    | with_reducible assumption | with_reducible apply nextAnd_next | with_reducible apply keeps_wf | with_reducible apply keeps_settleWidth
    | with_reducible apply keeps_linkDown | with_reducible apply keeps_openLink | (with_reducible apply keeps_of_snd; with_reducible assumption)
    | (extract_lets +onlyGivenNames x; refine keeps_cut (s0 := s0) (x := x) ?_ (fun h => ?_); rotate_left; clear_value x; rotate_right; subst x)
    | (extract_lets +onlyGivenNames x; clear_value x) | split

theorem keeps_execRetrainDone {port sub} (h : Keeps s0 s) : nextAnd (execRetrainDone port sub s) (Keeps s0) := by
  unfold execRetrainDone
  repeat' first
    | with_reducible assumption | with_reducible apply nextAnd_next | with_reducible apply keeps_actLatched | with_reducible apply keeps_toTowpath
    | with_reducible apply keeps_settleWidth | with_reducible apply keeps_linkDown | with_reducible apply keeps_setLink | with_reducible apply keeps_post
    | (with_reducible apply keeps_of_snd; with_reducible assumption)
    | (extract_lets +onlyGivenNames x; refine keeps_cut (s0 := s0) (x := x) ?_ (fun h => ?_); rotate_left; clear_value x; rotate_right; subst x) | split

theorem keeps_execLkRetrain {m port sub} (h : Keeps s0 s) : nextAnd (execLkRetrain m port sub s) (Keeps s0) := by
  unfold execLkRetrain
  repeat' first
    | with_reducible assumption | with_reducible apply nextAnd_next | with_reducible apply keeps_put32

theorem keeps_execLkTowpath {m port sub} (h : Keeps s0 s) : nextAnd (execLkTowpath m port sub s) (Keeps s0) := by
  unfold execLkTowpath
  repeat' first
    | with_reducible assumption | with_reducible apply nextAnd_next | with_reducible apply keeps_put32

theorem keeps_execLkWake {m port sub mask} (h : Keeps s0 s) : nextAnd (execLkWake m port sub mask s) (Keeps s0) := by
  unfold execLkWake
  repeat' first
    | with_reducible assumption | with_reducible apply nextAnd_next | with_reducible apply keeps_put32

theorem keeps_execTowpathChangeover {port sub} (h : Keeps s0 s) : nextAnd (execTowpathChangeover port sub s) (Keeps s0) := by
  unfold execTowpathChangeover
  repeat' first
    | with_reducible assumption | with_reducible apply nextAnd_next | with_reducible apply keeps_actLatched | with_reducible apply keeps_toTowpath
    | with_reducible apply keeps_modSub | with_reducible apply keeps_control | (extract_lets +onlyGivenNames x; clear_value x) | split

theorem keeps_execFullRateTrained {port sub} (h : Keeps s0 s) : nextAnd (execFullRateTrained port sub s) (Keeps s0) := by
  unfold execFullRateTrained
  repeat' first
    | with_reducible assumption | with_reducible apply nextAnd_next | with_reducible apply keeps_settleWidth | with_reducible apply keeps_linkDown
    | with_reducible apply keeps_actLatched | with_reducible apply keeps_modSub | with_reducible apply keeps_setLink
    | (with_reducible apply keeps_of_snd; with_reducible assumption) | split

theorem keeps_serveRead {h1 n} (h : Keeps s0 s) : Keeps s0 (State.serveRead s h1 n) := by
  unfold State.serveRead
  repeat' first
    | with_reducible assumption | with_reducible apply keeps_answerTx | with_reducible apply keeps_readRun
    | (extract_lets +onlyGivenNames x; clear_value x) | split

theorem keeps_execRead {port sub h1 size} (h : Keeps s0 s) : nextAnd (execRead port sub h1 size s) (Keeps s0) := by
  unfold execRead
  repeat' first
    | with_reducible assumption | with_reducible apply nextAnd_next | with_reducible apply keeps_arriveTx | with_reducible apply keeps_serveRead

theorem keeps_execMemorySideOperation {port sub h1 operand} (h : Keeps s0 s) : nextAnd (execMemorySideOperation port sub h1 operand s) (Keeps s0) := by
  unfold execMemorySideOperation
  repeat' first
    | with_reducible assumption | with_reducible apply nextAnd_next | with_reducible apply keeps_arriveTx | with_reducible apply keeps_answerTx
    | with_reducible apply keeps_msop | intro _ | split

theorem keeps_execDoorbell {port sub h1 value} (h : Keeps s0 s) : nextAnd (execDoorbell port sub h1 value s) (Keeps s0) := by
  unfold execDoorbell
  repeat' first
    | with_reducible assumption | with_reducible apply nextAnd_next | with_reducible apply keeps_arriveTx | with_reducible apply keeps_serveWrite
    | with_reducible apply keeps_answerTx | intro _ | split

theorem keeps_execMailboxSend {port sub h1 message} (h : Keeps s0 s) : nextAnd (execMailboxSend port sub h1 message s) (Keeps s0) := by
  unfold execMailboxSend
  repeat' first
    | with_reducible assumption | with_reducible apply nextAnd_next | with_reducible apply keeps_arriveTx | with_reducible apply keeps_answerTx
    | with_reducible exact keeps_other (by with_reducible assumption) | intro _ | split

theorem keeps_takeResponse {h1 data} (h : Keeps s0 s) : Keeps s0 (State.takeResponse s h1 data) := by
  unfold State.takeResponse
  repeat' first
    | with_reducible assumption | with_reducible apply keeps_completeRemote | with_reducible apply keeps_modSub
    | (extract_lets +onlyGivenNames x; clear_value x) | split

theorem keeps_execReadResponse {port sub h1 data} (h : Keeps s0 s) : nextAnd (execReadResponse port sub h1 data s) (Keeps s0) := by
  unfold execReadResponse
  repeat' first
    | with_reducible assumption | with_reducible apply nextAnd_next | with_reducible apply keeps_arriveTx | with_reducible apply keeps_takeResponse

theorem keeps_execWriteAcknowledgement {port sub h1} (h : Keeps s0 s) : nextAnd (execWriteAcknowledgement port sub h1 s) (Keeps s0) := by
  unfold execWriteAcknowledgement
  repeat' first
    | with_reducible assumption | with_reducible apply nextAnd_next | with_reducible apply keeps_arriveTx | with_reducible apply keeps_takeResponse

theorem keeps_execForward {port sub cls h1 data} (h : Keeps s0 s) : nextAnd (execForward port sub cls h1 data s) (Keeps s0) :=
  keeps_arriveTx h (fun h => h)

theorem keeps_execWithdraw {ring index} (h : Keeps s0 s) : nextAnd (execWithdraw ring index s) (Keeps s0) := by
  unfold execWithdraw
  repeat' first
    | with_reducible assumption | with_reducible apply nextAnd_next | with_reducible apply keeps_fleetDesc | with_reducible apply keeps_withdraw
    | with_reducible apply keeps_addWait | with_reducible apply keeps_orderTo | with_reducible apply keeps_ringComplete
    | with_reducible apply keeps_ringStart
    | (extract_lets +onlyGivenNames x; refine keeps_cut (s0 := s0) (x := x) ?_ (fun h => ?_); rotate_left; clear_value x; rotate_right; subst x)
    | intro _ _ _ | (extract_lets +onlyGivenNames x; clear_value x) | with_reducible apply keeps_foldl | split

theorem keeps_obey {src o} (h : Keeps s0 s) : Keeps s0 (State.obey s src o) := by
  unfold State.obey
  repeat' first
    | with_reducible assumption | with_reducible apply keeps_assignCounts | with_reducible apply keeps_assignOwn | with_reducible apply keeps_regWrite
    | with_reducible apply keeps_bind | with_reducible apply keeps_setFleetWord | with_reducible apply keeps_putRoute
    | with_reducible apply keeps_orderBind | with_reducible apply keeps_castOrders | with_reducible apply keeps_setCast
    | with_reducible apply keeps_snapDue | with_reducible apply keeps_restoreOwn | with_reducible apply keeps_lockReport
    | with_reducible apply keeps_withdraw | with_reducible apply keeps_readmitOwn | with_reducible apply keeps_wakeMask | with_reducible apply keeps_fence
    | with_reducible apply keeps_keeperReset | with_reducible apply keeps_offer | with_reducible apply keeps_orderAll | with_reducible apply keeps_order
    | (extract_lets +onlyGivenNames x; refine keeps_cut (s0 := s0) (x := x) ?_ (fun h => ?_); rotate_left; clear_value x; rotate_right; subst x) | split

theorem keeps_execFleetCmd {src order} (h : Keeps s0 s) : nextAnd (execFleetCmd src order s) (Keeps s0) := by
  unfold execFleetCmd
  repeat' first
    | with_reducible assumption | with_reducible apply nextAnd_next | with_reducible apply keeps_obey | split

theorem keeps_changeIds {old new} (h : Keeps s0 s) : Keeps s0 (State.changeIds s old new) := by
  unfold State.changeIds
  repeat' first
    | with_reducible assumption | with_reducible apply keeps_fence | with_reducible apply keeps_wf | with_reducible apply keeps_setMembers
    | with_reducible apply keeps_takeId | with_reducible apply keeps_rebuild | with_reducible exact keeps_other (by with_reducible assumption)
    | (extract_lets +onlyGivenNames x; refine keeps_cut (s0 := s0) (x := x) ?_ (fun h => ?_); rotate_left; clear_value x; rotate_right; subst x)
    | intro _ _ _ | (extract_lets +onlyGivenNames x; clear_value x) | with_reducible apply keeps_foldl | split

theorem keeps_execRepairSwitch (h : Keeps s0 s) : nextAnd (execRepairSwitch s) (Keeps s0) := by
  unfold execRepairSwitch
  repeat' first
    | with_reducible assumption | with_reducible apply nextAnd_next | with_reducible apply keeps_switchBank | with_reducible apply keeps_changeIds
    | with_reducible exact keeps_other (by with_reducible assumption)
    | (extract_lets +onlyGivenNames x; refine keeps_cut (s0 := s0) (x := x) ?_ (fun h => ?_); rotate_left; clear_value x; rotate_right; subst x)
    | (extract_lets +onlyGivenNames x; clear_value x) | split

theorem keeps_execBootRom {selfTestGood} (h : Keeps s0 s) : nextAnd (execBootRom selfTestGood s) (Keeps s0) := by
  unfold execBootRom
  repeat' first
    | with_reducible assumption | with_reducible apply nextAnd_next | with_reducible apply keeps_startFail | with_reducible apply keeps_setPhase
    | with_reducible apply keeps_setStage | with_reducible apply keeps_bootImage | with_reducible exact keeps_other (by with_reducible assumption)
    | (extract_lets +onlyGivenNames x; refine keeps_cut (s0 := s0) (x := x) ?_ (fun h => ?_); rotate_left; clear_value x; rotate_right; subst x)
    | (extract_lets +onlyGivenNames x; clear_value x) | split

theorem keeps_execKeeperFirmwareReady {good} (h : Keeps s0 s) : nextAnd (execKeeperFirmwareReady good s) (Keeps s0) := by
  unfold execKeeperFirmwareReady
  repeat' first
    | with_reducible assumption | with_reducible apply nextAnd_next | with_reducible apply keeps_setPhase | with_reducible apply keeps_setStage
    | with_reducible apply keeps_measFirmware | with_reducible apply keeps_startFail | split

theorem keeps_execDeviceReset {m value} (h : Keeps s0 s) : nextAnd (execDeviceReset m value s) (Keeps s0) := by
  unfold execDeviceReset
  repeat' first
    | with_reducible assumption | with_reducible apply nextAnd_next | with_reducible apply keeps_put32

theorem keeps_execKeeperOnlyReset {m value} (h : Keeps s0 s) : nextAnd (execKeeperOnlyReset m value s) (Keeps s0) := by
  unfold execKeeperOnlyReset
  repeat' first
    | with_reducible assumption | with_reducible apply nextAnd_next | with_reducible apply keeps_put32

theorem keeps_execKeeperRestarted (h : Keeps s0 s) : nextAnd (execKeeperRestarted s) (Keeps s0) := by
  unfold execKeeperRestarted
  repeat' first
    | with_reducible assumption | with_reducible apply nextAnd_next | with_reducible apply keeps_startFail | with_reducible apply keeps_measFirmware
    | with_reducible apply keeps_bootImage | with_reducible apply keeps_setLockSt | with_reducible apply keeps_setStage
    | (extract_lets +onlyGivenNames x; clear_value x)
    | (with_reducible apply keeps_other; first | with_reducible apply keeps_startFail | with_reducible apply keeps_measAgain | with_reducible apply keeps_measFirmware | with_reducible apply keeps_bootImage | with_reducible apply keeps_setLockSt | with_reducible apply keeps_setStage)
    | split

theorem keeps_execClusterReset {m cluster} (h : Keeps s0 s) : nextAnd (execClusterReset m cluster s) (Keeps s0) := by
  unfold execClusterReset
  repeat' first
    | with_reducible assumption | with_reducible apply nextAnd_next | with_reducible apply keeps_put32

theorem keeps_execPartitionReset {m part} (h : Keeps s0 s) : nextAnd (execPartitionReset m part s) (Keeps s0) := by
  unfold execPartitionReset
  repeat' first
    | with_reducible assumption | with_reducible apply nextAnd_next | with_reducible apply keeps_put32

theorem keeps_releaseScope {scope target} (h : Keeps s0 s) : Keeps s0 (State.releaseScope s scope target) := by
  unfold State.releaseScope
  repeat' first
    | with_reducible assumption | with_reducible apply keeps_clearScope | with_reducible apply keeps_setResets | with_reducible apply keeps_partFull
    | with_reducible apply keeps_startDrain
    | (extract_lets +onlyGivenNames x; refine keeps_cut (s0 := s0) (x := x) ?_ (fun h => ?_); rotate_left; clear_value x; rotate_right; subst x) | split

theorem keeps_execResetRelease {scope target} (h : Keeps s0 s) : nextAnd (execResetRelease scope target s) (Keeps s0) := by
  unfold execResetRelease
  repeat' first
    | with_reducible assumption | with_reducible apply nextAnd_next | with_reducible apply keeps_releaseScope | split

theorem keeps_execSelftestFull {m} (h : Keeps s0 s) : nextAnd (execSelftestFull m s) (Keeps s0) := by
  unfold execSelftestFull
  repeat' first
    | with_reducible assumption | with_reducible apply nextAnd_next | with_reducible apply keeps_put32

theorem keeps_execSelftestPart {m parts} (h : Keeps s0 s) : nextAnd (execSelftestPart m parts s) (Keeps s0) := by
  unfold execSelftestPart
  repeat' first
    | with_reducible assumption | with_reducible apply nextAnd_next | with_reducible apply keeps_put32

theorem keeps_execSelftestAbort {m} (h : Keeps s0 s) : nextAnd (execSelftestAbort m s) (Keeps s0) := by
  unfold execSelftestAbort
  repeat' first
    | with_reducible assumption | with_reducible apply nextAnd_next | with_reducible apply keeps_put32

theorem keeps_execSelftestSliceEnd {failures passed} (h : Keeps s0 s) : nextAnd (execSelftestSliceEnd failures passed s) (Keeps s0) := by
  unfold execSelftestSliceEnd
  repeat' first
    | with_reducible assumption | with_reducible apply nextAnd_next | with_reducible apply keeps_bumpF | with_reducible apply keeps_nextSlice
    | (extract_lets +onlyGivenNames x; refine keeps_cut (s0 := s0) (x := x) ?_ (fun h => ?_); rotate_left; clear_value x; rotate_right; subst x) | split

theorem keeps_execSelftestSliceTimeout (h : Keeps s0 s) : nextAnd (execSelftestSliceTimeout s) (Keeps s0) := by
  unfold execSelftestSliceTimeout
  repeat' first
    | with_reducible assumption | with_reducible apply nextAnd_next | with_reducible apply keeps_nextSlice | with_reducible apply keeps_bumpF | split

theorem keeps_execBurn {m value} (h : Keeps s0 s) : nextAnd (execBurn m value s) (Keeps s0) := by
  unfold execBurn
  repeat' first
    | with_reducible assumption | with_reducible apply nextAnd_next | with_reducible apply keeps_put32

theorem keeps_execMeasExtend {m value} (h : Keeps s0 s) : nextAnd (execMeasExtend m value s) (Keeps s0) := by
  unfold execMeasExtend
  repeat' first
    | with_reducible assumption | with_reducible apply nextAnd_next | with_reducible apply keeps_put32

theorem keeps_execEvTailWrite {m value} (h : Keeps s0 s) : nextAnd (execEvTailWrite m value s) (Keeps s0) := by
  unfold execEvTailWrite
  repeat' first
    | with_reducible assumption | with_reducible apply nextAnd_next | with_reducible apply keeps_put32

theorem keeps_execPwLimitWrite {m value} (h : Keeps s0 s) : nextAnd (execPwLimitWrite m value s) (Keeps s0) := by
  unfold execPwLimitWrite
  repeat' first
    | with_reducible assumption | with_reducible apply nextAnd_next | with_reducible apply keeps_put32

/-- Every command keeps what every command keeps. -/
theorem keeps_exec (c : Instr) (h : Keeps s0 s) : nextAnd (exec c s) (Keeps s0) := by
  cases c with
  | registerWrite _ _ _ _ => exact keeps_execRegisterWrite h
  | wideLowRead _ _ => exact keeps_execWideLowRead h
  | wideHighWrite _ _ _ => exact keeps_execWideHighWrite h
  | wideLowWrite _ _ _ => exact keeps_execWideLowWrite h
  | basinAccess _ _ _ _ _ _ => exact keeps_execBasinAccess h
  | basinPatrolScrub _ _ _ => exact keeps_execBasinPatrolScrub h
  | hbmAccess _ _ _ _ _ _ _ => exact keeps_execHbmAccess h
  | msopAdd _ _ _ _ => exact keeps_execMsopAdd h
  | msopMin _ _ _ _ => exact keeps_execMsopMin h
  | msopMax _ _ _ _ => exact keeps_execMsopMax h
  | msopXor _ _ _ _ => exact keeps_execMsopXor h
  | hbmPatrol _ _ _ => exact keeps_execHbmPatrol h
  | refreshRateChange _ _ => exact keeps_execRefreshRateChange h
  | hbmHotThrottle _ _ => exact keeps_execHbmHotThrottle h
  | hbmInitDone => exact keeps_execHbmInitDone h
  | aqueductTransfer _ _ _ _ => exact keeps_execAqueductTransfer h
  | ppsEdge _ => exact keeps_execPpsEdge h
  | ppsFail => exact keeps_execPpsFail h
  | ppsRequalify => exact keeps_execPpsRequalify h
  | ref10mFail _ _ => exact keeps_execRef10mFail h
  | ref10mRequalify => exact keeps_execRef10mRequalify h
  | ptpMessage _ _ _ _ => exact keeps_execPtpMessage h
  | ptpTimeout => exact keeps_execPtpTimeout h
  | timeOfDayWrite _ _ => exact keeps_execTimeOfDayWrite h
  | sourceFailover => exact keeps_execSourceFailover h
  | sourceUpgrade => exact keeps_execSourceUpgrade h
  | timeDisciplineTick _ _ => exact keeps_execTimeDisciplineTick h
  | ppsOutRise => exact keeps_execPpsOutRise h
  | ppsOutFall => exact keeps_execPpsOutFall h
  | anchorReached => exact keeps_execAnchorReached h
  | voteReady => exact keeps_execVoteReady h
  | voteVeto => exact keeps_execVoteVeto h
  | voteCutoff => exact keeps_execVoteCutoff h
  | vote _ _ _ _ _ _ => exact keeps_execVote h
  | decision _ => exact keeps_execDecision h
  | lockInstant => exact keeps_execLockInstant h
  | lockHold => exact keeps_execLockHold h
  | lockCommitStep => exact keeps_execLockCommitStep h
  | lockEnd => exact keeps_execLockEnd h
  | noDecisionTimeout => exact keeps_execNoDecisionTimeout h
  | servingSlotStart _ => exact keeps_execServingSlotStart h
  | issueResume _ => exact keeps_execIssueResume h
  | instructionComplete _ _ => exact keeps_execInstructionComplete h
  | alu _ _ _ _ _ => exact keeps_execAlu h
  | addi _ _ _ _ => exact keeps_execAddi h
  | andi _ _ _ _ => exact keeps_execAndi h
  | ori _ _ _ _ => exact keeps_execOri h
  | xori _ _ _ _ => exact keeps_execXori h
  | shi _ _ _ _ => exact keeps_execShi h
  | shlor _ _ _ _ => exact keeps_execShlor h
  | ld _ _ _ _ => exact keeps_execLd h
  | ldw _ _ _ _ => exact keeps_execLdw h
  | st _ _ _ _ => exact keeps_execSt h
  | stw _ _ _ _ => exact keeps_execStw h
  | tillerLoadReturn _ => exact keeps_execTillerLoadReturn h
  | beq _ _ _ _ => exact keeps_execBeq h
  | bne _ _ _ _ => exact keeps_execBne h
  | blt _ _ _ _ => exact keeps_execBlt h
  | bge _ _ _ _ => exact keeps_execBge h
  | bltu _ _ _ _ => exact keeps_execBltu h
  | bgeu _ _ _ _ => exact keeps_execBgeu h
  | jal _ _ _ => exact keeps_execJal h
  | jr _ _ _ _ => exact keeps_execJr h
  | rds _ _ _ => exact keeps_execRds h
  | waitq _ _ => exact keeps_execWaitq h
  | statq _ _ _ => exact keeps_execStatq h
  | msend _ _ _ _ _ => exact keeps_execMsend h
  | mrecv _ _ _ _ _ => exact keeps_execMrecv h
  | wfe _ _ => exact keeps_execWfe h
  | wfeTimeout _ => exact keeps_execWfeTimeout h
  | gemm _ _ => exact keeps_execGemm h
  | convert _ _ => exact keeps_execConvert h
  | sound _ _ => exact keeps_execSound h
  | vectorAdd _ _ => exact keeps_execVectorAdd h
  | vectorSub _ _ => exact keeps_execVectorSub h
  | vectorMul _ _ => exact keeps_execVectorMul h
  | vectorFma _ _ => exact keeps_execVectorFma h
  | vectorDiv _ _ => exact keeps_execVectorDiv h
  | vectorSqrt _ _ => exact keeps_execVectorSqrt h
  | vectorRem _ _ => exact keeps_execVectorRem h
  | vectorMin _ _ => exact keeps_execVectorMin h
  | vectorMax _ _ => exact keeps_execVectorMax h
  | cmpeq _ _ => exact keeps_execCmpeq h
  | cmplt _ _ => exact keeps_execCmplt h
  | cmple _ _ => exact keeps_execCmple h
  | cvt _ _ => exact keeps_execCvt h
  | neg _ _ => exact keeps_execNeg h
  | abs _ _ => exact keeps_execAbs h
  | vectorAnd _ _ => exact keeps_execVectorAnd h
  | vectorOr _ _ => exact keeps_execVectorOr h
  | vectorXor _ _ => exact keeps_execVectorXor h
  | shl _ _ => exact keeps_execShl h
  | shr _ _ => exact keeps_execShr h
  | redsum _ _ => exact keeps_execRedsum h
  | redmax _ _ => exact keeps_execRedmax h
  | vectorLd _ _ => exact keeps_execVectorLd h
  | vectorSt _ _ => exact keeps_execVectorSt h
  | ldb _ _ => exact keeps_execLdb h
  | stb _ _ => exact keeps_execStb h
  | srfw _ _ => exact keeps_execSrfw h
  | moveAccToReg _ _ => exact keeps_execMoveAccToReg h
  | moveRegToAcc _ _ => exact keeps_execMoveRegToAcc h
  | moveBasinCopy _ _ => exact keeps_execMoveBasinCopy h
  | moveBasinToSrf _ _ => exact keeps_execMoveBasinToSrf h
  | moveSrfToBasin _ _ => exact keeps_execMoveSrfToBasin h
  | moveClearRows _ _ => exact keeps_execMoveClearRows h
  | fenceQueue _ _ => exact keeps_execFenceQueue h
  | fenceVisible _ _ => exact keeps_execFenceVisible h
  | fenceGlobal _ _ => exact keeps_execFenceGlobal h
  | fenceEop _ _ => exact keeps_execFenceEop h
  | writeAcknowledged _ _ => exact keeps_execWriteAcknowledged h
  | claimTake _ _ => exact keeps_execClaimTake h
  | claimTakeResume _ => exact keeps_execClaimTakeResume h
  | claimDone _ _ => exact keeps_execClaimDone h
  | ringDoorbell _ _ _ _ => exact keeps_execRingDoorbell h
  | ringFetch _ _ => exact keeps_execRingFetch h
  | ringResume _ _ => exact keeps_execRingResume h
  | nop _ _ => exact keeps_execNop h
  | schedule _ _ _ => exact keeps_execSchedule h
  | config _ _ => exact keeps_execConfig h
  | serve _ _ _ => exact keeps_execServe h
  | copy _ _ => exact keeps_execCopy h
  | intakeFragment _ _ _ => exact keeps_execIntakeFragment h
  | intakeExpiry _ _ _ _ => exact keeps_execIntakeExpiry h
  | intakeRefusalForget _ _ _ _ => exact keeps_execIntakeRefusalForget h
  | dmGo _ _ _ => exact keeps_execDmGo h
  | dmaDescriptorFetch _ => exact keeps_execDmaDescriptorFetch h
  | dmaCopy _ => exact keeps_execDmaCopy h
  | dmaFill _ => exact keeps_execDmaFill h
  | dmaMsop _ => exact keeps_execDmaMsop h
  | dmaBarge _ => exact keeps_execDmaBarge h
  | dmaSignal _ => exact keeps_execDmaSignal h
  | dmaDescriptorComplete _ => exact keeps_execDmaDescriptorComplete h
  | dmaResume _ _ => exact keeps_execDmaResume h
  | dmaAbort _ _ => exact keeps_execDmaAbort h
  | mbMsgSend _ _ _ _ => exact keeps_execMbMsgSend h
  | mailboxArrival => exact keeps_execMailboxArrival h
  | emptyNote => exact keeps_execEmptyNote h
  | mbLockRead _ _ _ => exact keeps_execMbLockRead h
  | mbLockWrite _ _ _ _ => exact keeps_execMbLockWrite h
  | obsWrite _ _ _ _ => exact keeps_execObsWrite h
  | gnPartialWrite _ _ _ => exact keeps_execGnPartialWrite h
  | gnDeviceSum => exact keeps_execGnDeviceSum h
  | gnNorm _ => exact keeps_execGnNorm h
  | gnDone _ _ _ => exact keeps_execGnDone h
  | lossWrite _ _ _ => exact keeps_execLossWrite h
  | spikeSample => exact keeps_execSpikeSample h
  | linkTrained _ _ _ _ => exact keeps_execLinkTrained h
  | keyReady _ _ => exact keeps_execKeyReady h
  | codewordTransmit _ _ _ => exact keeps_execCodewordTransmit h
  | codewordReceive _ _ _ => exact keeps_execCodewordReceive h
  | nakReceived _ _ _ => exact keeps_execNakReceived h
  | laneFail _ _ _ _ _ => exact keeps_execLaneFail h
  | retrainDone _ _ => exact keeps_execRetrainDone h
  | linkDown _ _ => exact keeps_execLinkDown h
  | linkRetryTimer _ _ => exact keeps_execLinkRetryTimer h
  | lkRetrain _ _ _ => exact keeps_execLkRetrain h
  | lkRestore _ _ _ => exact keeps_execLkRestore h
  | lkTowpath _ _ _ => exact keeps_execLkTowpath h
  | lkFullRate _ _ _ => exact keeps_execLkFullRate h
  | lkWake _ _ _ _ => exact keeps_execLkWake h
  | portReconfigure _ _ _ => exact keeps_execPortReconfigure h
  | rekeySwitch _ _ => exact keeps_execRekeySwitch h
  | keyPhaseErase _ _ _ => exact keeps_execKeyPhaseErase h
  | keyAging _ _ => exact keeps_execKeyAging h
  | towpathChangeover _ _ => exact keeps_execTowpathChangeover h
  | fullRateTrained _ _ => exact keeps_execFullRateTrained h
  | delayTimer _ _ _ => exact keeps_execDelayTimer h
  | delayReq _ _ t1 _ _ => exact keeps_execDelayReq (t1 := t1) h
  | delayResp _ _ _ _ _ => exact keeps_execDelayResp h
  | timeSendTimer _ _ _ => exact keeps_execTimeSendTimer h
  | time _ _ _ _ _ => exact keeps_execTime h
  | ttTimeout _ _ => exact keeps_execTtTimeout h
  | wake _ _ _ => exact keeps_execWake h
  | towpathEnter _ _ => exact keeps_execTowpathEnter h
  | fullRate _ _ => exact keeps_execFullRate h
  | read _ _ _ _ => exact keeps_execRead h
  | write _ _ _ _ => exact keeps_execWrite h
  | memorySideOperation _ _ _ _ => exact keeps_execMemorySideOperation h
  | doorbell _ _ _ _ => exact keeps_execDoorbell h
  | mailboxSend _ _ _ _ => exact keeps_execMailboxSend h
  | readResponse _ _ _ _ => exact keeps_execReadResponse h
  | writeAcknowledgement _ _ _ => exact keeps_execWriteAcknowledgement h
  | forward _ _ _ _ _ => exact keeps_execForward h
  | ethFrame _ _ _ _ => exact keeps_execEthFrame h
  | admitDevice _ _ _ _ _ _ => exact keeps_execAdmitDevice h
  | release _ _ => exact keeps_execRelease h
  | routes _ _ => exact keeps_execRoutes h
  | broadcast _ _ => exact keeps_execBroadcast h
  | snapshot _ _ => exact keeps_execSnapshot h
  | restore _ _ => exact keeps_execRestore h
  | replace _ _ _ => exact keeps_execReplace h
  | keeperReset _ _ => exact keeps_execKeeperReset h
  | readmit _ _ => exact keeps_execReadmit h
  | fleetWake _ _ => exact keeps_execFleetWake h
  | group _ _ => exact keeps_execGroup h
  | withdraw _ _ => exact keeps_execWithdraw h
  | fleetCmd _ _ => exact keeps_execFleetCmd h
  | report _ _ _ _ _ => exact keeps_execReport h
  | chunk _ _ _ _ => exact keeps_execChunk h
  | broadcastWindowEnd => exact keeps_execBroadcastWindowEnd h
  | missing _ _ => exact keeps_execMissing h
  | missingRepeat => exact keeps_execMissingRepeat h
  | imageVerify _ => exact keeps_execImageVerify h
  | broadcastDeadline => exact keeps_execBroadcastDeadline h
  | lease _ _ _ => exact keeps_execLease h
  | leaseAck _ epoch _ => exact keeps_execLeaseAck (epoch := epoch) h
  | leaseExpiry => exact keeps_execLeaseExpiry h
  | standbyTakeover => exact keeps_execStandbyTakeover h
  | adrift _ _ => exact keeps_execAdrift h
  | repairSwitch => exact keeps_execRepairSwitch h
  | replayCheck _ => exact keeps_execReplayCheck h
  | snapshotTransferEnd _ _ => exact keeps_execSnapshotTransferEnd h
  | keeperHeartbeat => exact keeps_execKeeperHeartbeat h
  | adriftDetect _ _ => exact keeps_execAdriftDetect h
  | vinPowerUp _ => exact keeps_execVinPowerUp h
  | keeperRailsGood _ => exact keeps_execKeeperRailsGood h
  | resonatorSettled => exact keeps_execResonatorSettled h
  | bootRom _ => exact keeps_execBootRom h
  | keeperFirmwareReady _ => exact keeps_execKeeperFirmwareReady h
  | partitionSwitchOn _ => exact keeps_execPartitionSwitchOn h
  | startupCheckDone _ => exact keeps_execStartupCheckDone h
  | linksFirstTrainingDone => exact keeps_execLinksFirstTrainingDone h
  | ready => exact keeps_execReady h
  | startFail _ => exact keeps_execStartFail h
  | resetNAssert _ => exact keeps_execResetNAssert h
  | deviceReset _ _ => exact keeps_execDeviceReset h
  | keeperOnlyReset _ _ => exact keeps_execKeeperOnlyReset h
  | keeperRestarted => exact keeps_execKeeperRestarted h
  | coreReset _ _ => exact keeps_execCoreReset h
  | clusterReset _ _ => exact keeps_execClusterReset h
  | partitionReset _ _ => exact keeps_execPartitionReset h
  | resetDrainComplete _ _ => exact keeps_execResetDrainComplete h
  | resetRelease _ _ => exact keeps_execResetRelease h
  | pwDomEnWrite _ _ _ => exact keeps_execPwDomEnWrite h
  | wakingDone _ _ => exact keeps_execWakingDone h
  | drainingDone _ => exact keeps_execDrainingDone h
  | selftestFull _ => exact keeps_execSelftestFull h
  | selftestPart _ _ => exact keeps_execSelftestPart h
  | selftestAbort _ => exact keeps_execSelftestAbort h
  | selftestSliceEnd _ _ => exact keeps_execSelftestSliceEnd h
  | selftestSliceTimeout => exact keeps_execSelftestSliceTimeout h
  | burn _ _ => exact keeps_execBurn h
  | fuseEntryBurned _ => exact keeps_execFuseEntryBurned h
  | attestationRequest _ _ => exact keeps_execAttestationRequest h
  | ephemeralKeyExpiry => exact keeps_execEphemeralKeyExpiry h
  | authorisationOffer _ => exact keeps_execAuthorisationOffer h
  | authorisationExpiry => exact keeps_execAuthorisationExpiry h
  | revokeSigningKey _ => exact keeps_execRevokeSigningKey h
  | raiseRollback _ => exact keeps_execRaiseRollback h
  | replaceOperatorKeys _ _ => exact keeps_execReplaceOperatorKeys h
  | sessionOpen _ _ => exact keeps_execSessionOpen h
  | imageSlotWrite _ => exact keeps_execImageSlotWrite h
  | drbgReseed => exact keeps_execDrbgReseed h
  | measExtend _ _ => exact keeps_execMeasExtend h
  | hmKregWrite _ _ _ _ => exact keeps_execHmKregWrite h
  | i3cSetdasa _ => exact keeps_execI3cSetdasa h
  | i3cEntdaa _ => exact keeps_execI3cEntdaa h
  | eventReport => exact keeps_execEventReport h
  | evTailWrite _ _ => exact keeps_execEvTailWrite h
  | pwLimitWrite _ _ => exact keeps_execPwLimitWrite h
  | pwClkWrite _ _ => exact keeps_execPwClkWrite h
  | limiterSample _ _ _ _ _ => exact keeps_execLimiterSample h
  | clockRaise => exact keeps_execClockRaise h
  | throttleDown _ _ => exact keeps_execThrottleDown h
  | throttleUp _ _ => exact keeps_execThrottleUp h
  | thermalTrip _ _ _ => exact keeps_execThermalTrip h
  | thermalTripRelease _ _ => exact keeps_execThermalTripRelease h
  | uvWarn _ _ => exact keeps_execUvWarn h
  | ovWarn _ _ => exact keeps_execOvWarn h
  | railWarn _ _ _ => exact keeps_execRailWarn h
  | uvShutdown _ _ => exact keeps_execUvShutdown h
  | ovShutdown _ _ => exact keeps_execOvShutdown h
  | railShutdown _ _ _ _ => exact keeps_execRailShutdown h
  | overcurrentShutdown _ _ _ => exact keeps_execOvercurrentShutdown h
  | supplyShutdownRelease _ _ _ _ => exact keeps_execSupplyShutdownRelease h
  | cablePresent _ => exact keeps_execCablePresent h
  | resetNRelease => exact keeps_execResetNRelease h
  | kpResetRelease => exact keeps_execKpResetRelease h
  | linkKeyExchange _ _ _ _ => exact keeps_execLinkKeyExchange h
  | ethLinkUp _ _ => exact keeps_execEthLinkUp h
  | ethLinkDown _ _ => exact keeps_execEthLinkDown h
  | keeperReportTimeout _ => exact keeps_execKeeperReportTimeout h
  | admitTimeout _ _ => exact keeps_execAdmitTimeout h
  | ppsInFallingEdge _ => exact keeps_execPpsInFallingEdge h
  | cakDelivery _ _ _ => exact keeps_execCakDelivery h
  | keeperFirmwareException _ => exact keeps_execKeeperFirmwareException h

theorem keeps_runWord {c} (h : Keeps s0 s) : nextAnd (State.runWord s c) (Keeps s0) := by
  unfold State.runWord
  extract_lets w t1
  split
  · split
    · exact keeps_issueOwn h
    · exact keeps_issueTile h
  · split
    · exact keeps_exec _ h
    · exact keeps_selfFault h

theorem keeps_fetch {c} (h : Keeps s0 s) : nextAnd (State.fetch s c) (Keeps s0) := by
  unfold State.fetch
  extract_lets pc n
  split
  · exact keeps_selfFault h
  split
  · exact keeps_selfFault h
  split
  · exact keeps_selfFault h
  · have h1 := keeps_unitRd (a := c * basinSize + pc) (n := n) h
    generalize s.unitRd (c * basinSize + pc) n = x at h1 ⊢
    obtain ⟨st, s1⟩ := x
    dsimp only at h1 ⊢
    split
    · exact keeps_selfFault h1
    · exact keeps_runWord h1

/-- A step with no command waiting keeps what every command keeps. -/
theorem keeps_tick (h : Keeps s0 s) : nextAnd (tick s) (Keeps s0) := by
  unfold tick
  split
  · exact keeps_fetch (keeps_other h)
  · exact h

end Sys2Proof.Machine
end

