-- ==== Sys2Proof/Laws/Runs.lean ====
section
/-! SUPPORT. What the shared operations do where their checks pass: writes of plain registers, clean reads of memory, the issue and the result of tiller instructions, and the way of a tile instruction through its queue. -/

open Sys2Proof Sys2Proof.Machine

namespace Sys2Proof.Machine

variable {s : State}

theorem step_of_empty {s : State} (h : s.pending = []) : step s = tick s := by unfold step; rw [h]

theorem step_of_cons {s : State} {c rest} (h : s.pending = c :: rest) : step s = exec c { s with pending := rest } := by unfold step; rw [h]

theorem writeFields_cons (f : RegField) (t : List RegField) (locked : Bool) (w v : Nat) : writeFields (f :: t) locked w v = writeFields t locked
    (if f.acc = .ro ∨ (f.acc = .rwl ∧ locked = true) then w else natPut f.lo f.width w
      (if f.acc = .w1c then natBits f.lo f.width w - (natBits f.lo f.width w &&& natBits f.lo f.width v) else natBits f.lo f.width v)) v := by
  obtain ⟨lo, wd, acc, rs⟩ := f
  cases acc <;> cases locked <;> rfl

theorem writeFields_keeps_other (locked : Bool) (v : Nat) (g : RegField) : ∀ (l : List RegField) (w : Nat),
    (∀ f ∈ l, f.lo + f.width ≤ g.lo ∨ g.lo + g.width ≤ f.lo) → natBits g.lo g.width (writeFields l locked w v) = natBits g.lo g.width w
  | [], w, _ => rfl
  | f :: t, w, h => by
    have hf := h f (List.mem_cons_self ..)
    rw [writeFields_cons, writeFields_keeps_other locked v g t _ (fun x hx => h x (List.mem_cons_of_mem _ hx))]
    split
    · rfl
    · exact natBits_natPut_other _ _ hf.symm

theorem readFields_from (w : Nat) : ∀ (l : List RegField) (r : Nat), l.Pairwise (fun f g => f.lo + f.width ≤ g.lo ∨ g.lo + g.width ≤ f.lo) →
    ∀ f ∈ l, natBits f.lo f.width (l.foldl (fun r f => if f.acc = .wo then r else natPut f.lo f.width r (natBits f.lo f.width w)) r)
      = if f.acc = .wo then natBits f.lo f.width r else natBits f.lo f.width w
  | [], _, _, f, hf => by simp at hf
  | g :: t, r, hp, f, hf => by
    rw [List.pairwise_cons] at hp
    have keep : ∀ (l : List RegField) (r : Nat), (∀ x ∈ l, x.lo + x.width ≤ f.lo ∨ f.lo + f.width ≤ x.lo) →
        natBits f.lo f.width (l.foldl (fun r f => if f.acc = .wo then r else natPut f.lo f.width r (natBits f.lo f.width w)) r) = natBits f.lo f.width r := by
      intro l
      induction l with
      | nil => intro r _; rfl
      | cons x t ih =>
        intro r hx
        rw [List.foldl_cons, ih _ (fun y hy => hx y (List.mem_cons_of_mem _ hy))]
        split
        · rfl
        · exact natBits_natPut_other _ _ (by have := hx x (List.mem_cons_self ..); omega)
    rw [List.foldl_cons]
    rcases List.mem_cons.1 hf with rfl | hf
    · rw [keep t _ (fun x hx => (hp.1 x hx).symm)]
      split
      · rfl
      · rw [natBits_natPut_same]; unfold natBits; exact Nat.mod_mod _ _
    · rw [readFields_from w t _ hp.2 f hf]
      have hd := hp.1 f hf
      have key : ∀ w, natBits f.lo f.width (natPut g.lo g.width r w) = natBits f.lo f.width r := fun w => natBits_natPut_other _ _ (by omega)
      by_cases h1 : f.acc = .wo <;> by_cases h2 : g.acc = .wo <;> simp [h1, h2, key]

theorem regWrite_plain {m : Ident} {b : Blk} {o v : Nat} (ht : target (b.base + o) = .reg b o) (h : plainPlace b o = true) :
    s.regWrite m b o v = s.regStore b o v := by
  cases b <;> simp_all [plainPlace, State.regWrite, State.kpWrite, State.tmWrite, State.coWrite]
  · intro h1 h2; omega
  · intro hob
    simp only [isObs, show coBase _ + o = (Blk.co _).base + o from rfl, ht] at hob
    simp at hob
    omega

theorem plain_checks {b : Blk} {o : Nat} {m : Ident} (hp : plainPlace b o = true) : b ≠ .doorbell ∧ (∀ v, s.integDenied m b o v = false) ∧ ∀ x, b = .mb x → o ≠ 0x10 := by
  cases b <;> simp_all [plainPlace, State.integDenied]

theorem plain_write {m : Ident} {addr : Dword} {b : Blk} {o : Nat} {value : Word} (hl : addr.toNat < 2 ^ 48) (ht : target addr.toNat = .reg b o)
    (hb : addr.toNat = b.base + o) (h4 : addr.toNat % 4 = 0) (hp : plainPlace b o = true) (hc : Passes s m addr.toNat true) :
    s.busWrite m addr.toNat (toBytes 4 value.toNat) = (s.regStore b o value.toNat).reply stOK [] := by
  obtain ⟨h1, h2, h3⟩ := plain_checks (s := s) (m := m) hp
  have := put32_reg (v := value.toNat) hl ht h1 h4 hc.2 (h2 _) h3 hc.1
  rw [State.put32] at this
  rw [this, Nat.mod_eq_of_lt value.isLt, regWrite_plain (hb ▸ ht) hp]

theorem find_after_filter_same {a : Nat} : ∀ l : List (Nat × Word), (l.filter (fun z => z.1 != a)).find? (fun x => x.1 == a) = none := by
  intro l
  rw [List.find?_eq_none]
  intro x hx
  have := (List.mem_filter.1 hx).2
  simpa using this

theorem find_after_filter_other {a b : Nat} (h : b ≠ a) : ∀ l : List (Nat × Word), (l.filter (fun z => z.1 != a)).find? (fun x => x.1 == b) = l.find? (fun x => x.1 == b)
  | [] => rfl
  | x :: t => by
    by_cases hx : x.1 = a
    · have : (x.1 == b) = false := by simp [hx]; exact fun e => h e.symm
      simp only [List.filter_cons, hx, bne_self_eq_false, Bool.false_eq_true, if_false, List.find?_cons]
      rw [hx] at this; rw [this]; exact find_after_filter_other h t
    · have hn : (x.1 != a) = true := by simpa using hx
      simp only [List.filter_cons, hn, if_true, List.find?_cons]
      rw [find_after_filter_other h t]

theorem rd_of_regs {t : State} (a : Nat) (h : t.regs = s.regs) : t.rd a = s.rd a := by unfold State.rd; rw [h]

theorem rd_wr_own_value (a x : Nat) : (s.wr a (s.rd a)).rd x = s.rd x := by
  by_cases h : x = a
  · subst h; rw [State.rd_wr_same, Nat.mod_eq_of_lt (s.rd_lt _)]
  · rw [State.rd_wr_other _ _ h]

theorem reply_ok_eq {t : State} : t.reply stOK [] = { t with resp := ⟨stOK, []⟩ } := rfl

theorem blk_base_aligned (b : Blk) : b.base % 4 = 0 := by
  cases b <;> simp only [Blk.base, kpBase, tmBase, pwBase, evBase, doorbellBase, cdBase, coBase, whBase, hmBase, lkBase, dmBase, mbBase, ccBase] <;> try split
  all_goals omega

theorem identWord_lt (m : Ident) : identWord m < 2 ^ 26 := by
  have := m.dev.isLt; have := m.num.isLt; unfold identWord; omega

theorem regEvent_events (m : Ident) {a : Nat} (ha : a < 2 ^ 48) : (s.regEvent m a).events = s.events ++ [⟨s.now, 0x00, 1, stOK, identWord m, a⟩] := by
  unfold State.regEvent State.post State.postSev
  have h1 : identWord m % 2 ^ 26 = identWord m := Nat.mod_eq_of_lt (identWord_lt m)
  have h2 : a % 2 ^ 64 = a := Nat.mod_eq_of_lt (by omega)
  simp only [h1, h2, show classSev 0 = 1 from rfl, show ¬((0:Nat) = 2 ∨ (0:Nat) = 0x1B) by decide, if_false]
  split
  · split <;> rfl
  · split <;> rfl
  · rfl

theorem regEvent_rd (m : Ident) {a b : Nat} (hb : ∀ c k, b ≠ EV_CCNT c k) : (s.regEvent m a).rd b = s.rd b := by
  unfold State.regEvent State.post State.postSev
  simp only [show ¬((0:Nat) = 2 ∨ (0:Nat) = 0x1B) by decide, if_false]
  split
  · split
    · exact State.rd_wr_other _ _ (hb _ _)
    · rfl
  · split
    · exact State.rd_wr_other _ _ (hb _ _)
    · rfl
  · rfl

theorem writeFields_locked (l : List RegField) (h : ∀ f ∈ l, f.acc = .rwl) (w v : Nat) : writeFields l true w v = w := by
  induction l with
  | nil => rfl
  | cons f t ih =>
    rw [writeFields_cons, h f (List.mem_cons_self ..)]
    exact ih (fun x hx => h x (List.mem_cons_of_mem _ hx))

theorem target_of_basin {a : Nat} (h : a < 0x800000000) : target a = .basin (a / basinSize) (a % basinSize) := by rw [target, if_pos h]

theorem stores_of_mem_eq {t u : State} {a : Nat} {bs : List Byte} (h : Stores s t a bs) (hm : u.mem = t.mem) : Stores s u a bs := by
  have : ∀ x, u.byte x = t.byte x := fun x => by unfold State.byte; rw [hm]
  exact ⟨fun i hi => by rw [this]; exact h.1 i hi, fun x hx => by rw [this]; exact h.2 x hx⟩

theorem stores_setBytes {u : State} (a : Nat) (bs : List Byte) (hm : u.mem = s.mem) : Stores s (u.setBytes a bs) a bs := by
  refine ⟨fun i h => State.byte_setBytes_inside u a bs i h, fun x h => ?_⟩
  rw [State.byte_setBytes_outside u a bs x h]; unfold State.byte; rw [hm]

theorem poundError_ok (m : Ident) : s.poundError m stOK = s := by
  unfold State.poundError; rw [if_neg]; intro h; rcases h.1 with h | h <;> simp [stOK, stECC_UNCORR, stINTEGRITY_FAIL] at h

theorem wrWide_eq (a n v : Nat) : s.wrWide a n v = { s with regs := (s.wrWide a n v).regs } := by
  induction n with
  | zero => rfl
  | succ n ih => rw [State.wrWide]; conv_lhs => rw [ih]
                 rfl

theorem rd_wrWide_other (a n v b : Nat) (h : b < a ∨ a + 4 * n ≤ b) : (s.wrWide a n v).rd b = s.rd b := by
  induction n with
  | zero => rfl
  | succ n ih => rw [State.wrWide, State.rd_wr_other _ _ (by omega), ih (by omega)]

theorem marked_of_no_ecc (h : s.ecc = []) (g l lo n : Nat) : s.marked g l lo n = [] := by unfold State.marked; rw [h]; rfl

theorem target_hbm_eq {a o : Nat} (h : target a = .hbm o) : a = hbmBase + o ∧ o < 0x3000000000 := by
  unfold target at h
  split at h
  · simp at h
  · unfold within? at h
    split at h
    · simp at h; split at *
      · rename_i heq; simp at heq; subst h
        constructor <;> omega
      · simp at *
    · rename_i hq
      split at hq
      · simp at hq
      · split at h
        · simp at h
        · split at h
          · simp at h
          · split at h
            · unfold regBlock at h
              repeat' split at h
              all_goals simp at h
            · simp at h

theorem target_hbm_split {a o : Nat} (h : target a = .hbm o) : a = hbmBase + o := (target_hbm_eq h).1

theorem okSize_le {n : Nat} (h : okSize n = true) : n ≤ 64 ∧ n ≠ 0 ∧ (32 ≤ n → n = 32 ∨ n = 64) := by
  unfold okSize at h; simp at h; omega

theorem setSrc_eq (f : Fld) (b : Bool) : s.setSrc f b = { s with regs := (s.setSrc f b).regs, time := (s.setSrc f b).time } := rfl

theorem setSrc_rf (f : Fld) (b : Bool) (h : f.lo + f.width ≤ 32) : (s.setSrc f b).rf TM_SRC_STATUS f = b.toNat % 2 ^ f.width :=
  State.rf_wf_same s _ _ _ h

theorem setSrc_rf_other (f g : Fld) (b : Bool) (h : f.lo + f.width ≤ 32) (hd : g.lo + g.width ≤ f.lo ∨ f.lo + f.width ≤ g.lo) :
    (s.setSrc f b).rf TM_SRC_STATUS g = s.rf TM_SRC_STATUS g := State.rf_wf_disjoint s _ _ _ _ h hd

theorem coreBecomes_setCore (s : State) (c : Nat) (k : Core) : CoreBecomes s (s.setCore c k) c k :=
  ⟨rfl, State.core_setCore_same .., fun _ h => State.core_setCore_other _ _ h⟩

theorem coreBecomes_setCore_again (s : State) (c : Nat) (k k' : Core) (t : State) (h : CoreBecomes s t c k) : CoreBecomes s (t.setCore c k') c k' :=
  ⟨by rw [h.1]; rfl, State.core_setCore_same .., fun d hd => by rw [State.core_setCore_other _ _ hd, h.2.2 d hd]⟩

theorem coreBecomes_modCore {s t : State} {c : Nat} {k : Core} (f : Core → Core) (h : CoreBecomes s t c k) : CoreBecomes s (t.modCore c f) c (f k) := by
  unfold State.modCore; rw [h.2.1]; exact coreBecomes_setCore_again _ _ _ _ _ h

theorem coreBecomes_refl (s : State) (c : Nat) : CoreBecomes s s c (s.core c) := ⟨rfl, rfl, fun _ _ => rfl⟩

theorem issue_ready {s : State} {c n : Nat} (h : Ready s c n) (f : State → State) : s.issue c n f = f s := by
  obtain ⟨h1, h2, h3, h4⟩ := h
  unfold State.issue State.canIssue
  simp only [h1, h2, h3]
  rw [if_neg (by decide), if_neg (by simp), if_neg (by show ¬ 0x2000000 < _; omega)]

theorem wg_pc (k : Core) (d v : Nat) : (k.wg d v).pc = k.pc := by unfold Core.wg; split <;> rfl

theorem result_wrote (s : State) (c d v : Nat) : Wrote s (s.result c d v 4) c d v := by
  have := coreBecomes_modCore (fun k => { k with pc := k.pc + 4, stall := .none }) (coreBecomes_modCore (fun k => k.wg d v) (coreBecomes_refl s c))
  unfold Wrote; simp only [wg_pc] at this; exact this

theorem wg_w64 (k : Core) (d v : Nat) : k.wg d (w64 v) = k.wg d v := by
  unfold Core.wg w64
  split
  · rfl
  · congr 2; apply BitVec.eq_of_toNat_eq; simp

theorem result_w64_wrote (s : State) (c d v : Nat) : Wrote s (s.result c d (w64 v) 4) c d v := by
  have := result_wrote s c d (w64 v)
  unfold Wrote at *; rw [wg_w64] at this; exact this

theorem core_modCore_same (s : State) (c : Nat) (f : Core → Core) : (s.modCore c f).core c = f (s.core c) := State.core_setCore_same ..

theorem queueOf_lt (t : TileWords) : queueOf t < 5 := by
  unfold queueOf TileWords.f0
  have : natBits 24 2 t.w0.toNat < 4 := by unfold natBits; omega
  (repeat' split) <;> omega

/-- What issues to an idle core starts at once; a CONVERT takes converter 0 where its own work leaves that one free. -/
theorem issueTile_idle {s : State} {c : Nat} {w : TileWords} (h : Idle s c)
    (hb : queueOf w ≠ 3 ∨ (((s.queued c w).runEntry c (entryOf s c w)).2.core c).cv0Busy = false) :
    s.issueTile c w = ((s.queued c w).runEntry c (entryOf s c w)).2.held c (entryOf s c w).seq ((s.queued c w).runEntry c (entryOf s c w)).1 := by
  obtain ⟨h, hq⟩ := h
  unfold State.issueTile
  rw [issue_ready h]
  have h0 : (s.core c).inQ (queueOf w) = [] := by unfold Core.inQ; rw [hq]; rfl
  simp only [h0, List.length_nil]
  rw [if_pos (by decide)]
  unfold State.enqueue
  have hm : (s.modCore c (fun k => { k with queue := k.queue ++ [entryOf s c w], seq := k.seq + 1, issued := k.issued ||| 2 ^ queueOf w })).advance c 16 = s.queued c w := by
    unfold State.queued State.modCore; simp only [hq, List.nil_append]
  show State.kick ((s.modCore c (fun k => { k with queue := k.queue ++ [entryOf s c w], seq := k.seq + 1, issued := k.issued ||| 2 ^ queueOf w })).advance c 16) c = _
  rw [hm]
  generalize hu : s.queued c w = u
  have hc : (u.core c).queue = [entryOf s c w] := by
    rw [← hu]; unfold State.queued State.advance; rw [core_modCore_same, core_modCore_same]
  unfold State.kick
  rw [hc]
  show State.syncQueues (State.kickFrom u c 1) c = _
  have hs : (u.core c).canStart (entryOf s c w) = true := by
    unfold Core.canStart Core.waitmOk Core.inQ
    rw [hc]
    have := queueOf_lt w
    simp [entryOf, this, queueWidth]
    by_cases h3 : queueOf w = 3 <;> simp [h3]
  have hm : u.mayStart c (entryOf s c w) = true := by
    unfold State.mayStart
    rw [hs, hc]
    simp
  unfold State.kickFrom
  rw [hc]
  simp only [List.find?, hm]
  have hq : ((entryOf s c w).q == 3 && ((u.runEntry c (entryOf s c w)).2.core c).cv0Busy) = false := by
    rcases hb with hb | hb
    · rw [show (entryOf s c w).q = queueOf w from rfl, beq_eq_false_iff_ne.2 hb, Bool.false_and]
    · rw [← hu, hb, Bool.and_false]
  have hs : u.startEntry c (entryOf s c w)
      = (u.runEntry c (entryOf s c w)).2.modCore c (fun k => { k with queue := startQ (entryOf s c w).seq (u.runEntry c (entryOf s c w)).1 false k.queue }) := by
    unfold State.startEntry State.modCore
    generalize u.runEntry c (entryOf s c w) = r at hq ⊢
    obtain ⟨st, v⟩ := r
    exact congrArg (fun b => v.setCore c { v.core c with queue := startQ (entryOf s c w).seq st b (v.core c).queue }) hq
  rw [hs]
  unfold State.kickFrom State.held
  rfl

theorem unitRuns_of_runEntry (mk : CoreId → TileWords → Instr) (words work good)
    (he : ∀ core t s, exec (mk core t) s = .next (s.issueTile core.val (words t)))
    (hw : ∀ (core : CoreId) (t : TileWords) (s : State), Idle s core → good core (entryOf s core (words t)) s →
      (s.queued core (words t)).runEntry core (entryOf s core (words t)) = work core (entryOf s core (words t)) (s.queued core (words t)))
    (hb : ∀ (core : CoreId) (t : TileWords) (s : State), Idle s core → good core (entryOf s core (words t)) s →
      queueOf (words t) ≠ 3 ∨ ((work core (entryOf s core (words t)) (s.queued core (words t))).2.core core).cv0Busy = false) :
    UnitRuns mk words work good := by
  intro core t s w e u hi hg
  rw [he, issueTile_idle hi (by rw [hw core t s hi hg]; exact hb core t s hi hg), hw core t s hi hg]

theorem put0_w0 (t : TileWords) (lo n v : Nat) (h : lo + n ≤ 32) : (t.put0 lo n v).w0.toNat = natPut lo n t.w0.toNat v := by
  unfold TileWords.put0
  rw [BitVec.toNat_ofNat]
  exact Nat.mod_eq_of_lt (natPut_lt _ h t.w0.isLt)

theorem put0_f0_same (t : TileWords) (lo n v : Nat) (h : lo + n ≤ 32) : (t.put0 lo n v).f0 lo n = v % 2 ^ n := by
  unfold TileWords.f0; rw [put0_w0 _ _ _ _ h]; exact natBits_natPut_same ..

theorem put0_f0_other (t : TileWords) (lo n v lo' n' : Nat) (h : lo + n ≤ 32) (hd : lo' + n' ≤ lo ∨ lo + n ≤ lo') : (t.put0 lo n v).f0 lo' n' = t.f0 lo' n' := by
  unfold TileWords.f0; rw [put0_w0 _ _ _ _ h]; exact natBits_natPut_other _ _ hd

theorem asClass_cls (t : TileWords) (v : Nat) : (t.asClass v).cls = v % 64 := put0_f0_same _ _ _ _ (by decide)

theorem asVector_cls (t : TileWords) (v : Nat) : (t.asVector v).cls = 0x32 := by
  unfold TileWords.asVector TileWords.cls; rw [put0_f0_other _ _ _ _ _ _ (by decide) (by decide)]; exact asClass_cls _ _

theorem asMove_cls (t : TileWords) (v : Nat) : (t.asMove v).cls = 0x33 := by
  unfold TileWords.asMove TileWords.cls; rw [put0_f0_other _ _ _ _ _ _ (by decide) (by decide)]; exact asClass_cls _ _

theorem asMove_kind (t : TileWords) (v : Nat) : (t.asMove v).f0 23 3 = v % 8 := put0_f0_same _ _ _ _ (by decide)

theorem runEntry_vector {t : TileWords} {v : Nat} {s u : State} {c : Nat} : u.runEntry c (entryOf s c (t.asVector v)) = u.runVector c (entryOf s c (t.asVector v)) := by
  unfold State.runEntry
  have : (entryOf s c (t.asVector v)).words.cls = 0x32 := asVector_cls t v
  simp only [this]; rw [if_neg (by decide), if_neg (by decide), if_pos trivial]

theorem runEntry_move {t : TileWords} {v : Nat} {s u : State} {c : Nat} : u.runEntry c (entryOf s c (t.asMove v)) = u.runMove c (entryOf s c (t.asMove v)) := by
  unfold State.runEntry
  have : (entryOf s c (t.asMove v)).words.cls = 0x33 := asMove_cls t v
  simp only [this]; rw [if_neg (by decide), if_neg (by decide), if_neg (by decide), if_pos trivial]

theorem vinstr_queued (s : State) (c : Nat) (w : TileWords) (e : QEntry) : (s.queued c w).vinstr c e = s.vinstr c e := rfl

theorem vectorBounds_queued (s : State) (c : Nat) (w : TileWords) (i : VInstr) : (s.queued c w).vectorBounds c i = s.vectorBounds c i := rfl

theorem basinReach_queued (s : State) (c : Nat) (w : TileWords) (a n : Nat) : (s.queued c w).basinReach a n = s.basinReach a n := rfl

theorem basinRd_clean (s : State) (a n : Nat) (h : s.ecc = []) : s.basinRd a n = (stOK, s) := by
  simp [State.basinRd, State.marked, h]

theorem basinWr_clean (s : State) (a : Nat) (bs : List Byte) (h : s.ecc = []) : s.basinWr a bs = (stOK, s.setBytes a bs) := by
  have : ({ s with ecc := [] } : State) = s := by cases s; cases h; rfl
  simp [State.basinWr, State.marked, State.clearMarks, h, this]

theorem unitRd_clean (s : State) (a n : Nat) (h : s.ecc = []) (hr : s.basinReach a n = stOK) : s.unitRd a n = (stOK, s) := by
  unfold State.unitRd; rw [if_neg (by rw [hr]; decide), basinRd_clean _ _ _ h]; rfl

theorem unitWr_clean (s : State) (a : Nat) (bs : List Byte) (h : s.ecc = []) (hr : s.basinReach a bs.length = stOK) : s.unitWr a bs = (stOK, s.setBytes a bs) := by
  unfold State.unitWr; rw [if_neg (by rw [hr]; decide), basinWr_clean _ _ _ h]; rfl

theorem runMove_good {s : State} {c : CoreId} {t : TileWords} {k : Nat} (hk : k ≤ 5) (hg : MoveGood k c (entryOf s c (t.asMove k)) s) : let e := entryOf s c (t.asMove k); let u := s.queued c (t.asMove k); let lay := natBit 22 e.words.w0.toNat
  let n := e.words.f1 0 16
  let en := e.words.f2 0 15
  let vr := e.words.f1 16 5
  let ra := e.rg (e.words.f0 11 5)
  let rb := e.rg (e.words.f0 6 5)
  u.runMove c e = if k = 0 then (stOK, u.modCore c (fun k => k.moveAccToReg lay n en vr))
    else if k = 1 then (stOK, u.modCore c (fun k => k.moveRegToAcc n en vr))
    else if k = 2 then
      let (st, s) := u.unitRd ra (64 * n)
      if st ≠ stOK then (st, s) else s.unitWr rb (s.bytes ra (64 * n))
    else if k = 3 then
      let (st, s) := u.unitRd ra (4 * n)
      if st ≠ stOK then (st, s)
      else (stOK, (List.range n).foldl (fun s i => s.wr (CO_SRF c (en + i)) (s.load (ra + 4 * i) 4)) s)
    else if k = 4 then u.unitWr rb ((List.range n).flatMap (fun i => toBytes 4 (u.srf c (en + i))))
    else (stOK, u.modCore c (fun k => { k with acc := accFill (clearedEntry lay) en (regionLen lay n) [] k.acc })) := by
  intro e u lay n en vr ra rb
  obtain ⟨h0, h1, h2, h3, h4, h5, h6, h7⟩ := hg
  have hkind : e.words.f0 23 3 = k := by
    show (t.asMove k).f0 23 3 = k
    rw [asMove_kind]; omega
  unfold State.runMove
  simp only [hkind]
  rw [if_neg (by
    rintro (h | h | h | h | h | h | h)
    · omega
    · exact h h0
    · exact h h1
    · exact h h2
    · exact h h3
    · exact h h4
    · exact absurd h6 (Nat.not_le.mpr h)), if_neg (by rw [show u.moveBounds c e = stOK from h7]; decide), if_neg h5]

end Sys2Proof.Machine
end

