-- ==== Sys2Proof/WellFormed.lean ====
section
/-! DEFINITION. When a command is well formed: what R275, R349, R350, R391 and R466 fix about its operands and the operands' types do not. Whether a well-formed command is *carried out* is for its meaning. -/

namespace Sys2Proof

/-- Body flits of so many bytes (R350). -/
def flitsOf (n : Nat) : Nat := (n + 63) / 64

/-- An access of 1 to 64 bytes: a write brings as many bytes as it names, a read none (R275). -/
def accessOk (size : Nat) (write : Bool) (data : List Byte) : Bool :=
  decide (1 ≤ size ∧ size ≤ 64) && data.length == (if write then size else 0)

/-- A head flit of an operation with a body of so many bytes (R350). -/
def headOk (op bytes : Nat) (h : Head) : Bool := h.op.toNat == op && h.body == flitsOf bytes && decide (h.body ≤ 64)

/-- Whether a command's operands keep the sizes that the manual gives them. -/
def Instr.wellFormed : Instr → Bool
  | .registerWrite .. => true
  | .wideLowRead .. => true
  | .wideHighWrite .. => true
  | .wideLowWrite .. => true
  | .basinAccess _ _ size wr data _ => accessOk size wr data
  | .basinPatrolScrub .. => true
  | .hbmAccess _ _ size _ wr data _ => accessOk size wr data
  | .msopAdd .. => true
  | .msopMin .. => true
  | .msopMax .. => true
  | .msopXor .. => true
  | .hbmPatrol .. => true
  | .refreshRateChange .. => true
  | .hbmHotThrottle .. => true
  | .hbmInitDone .. => true
  | .aqueductTransfer .. => true
  | .ppsEdge .. => true
  | .ppsFail .. => true
  | .ppsRequalify .. => true
  | .ref10mFail .. => true
  | .ref10mRequalify .. => true
  | .ptpMessage .. => true
  | .ptpTimeout .. => true
  | .timeOfDayWrite .. => true
  | .sourceFailover .. => true
  | .sourceUpgrade .. => true
  | .timeDisciplineTick .. => true
  | .ppsOutRise .. => true
  | .ppsOutFall .. => true
  | .anchorReached .. => true
  | .voteReady .. => true
  | .voteVeto .. => true
  | .voteCutoff .. => true
  | .vote .. => true
  | .decision .. => true
  | .lockInstant .. => true
  | .lockHold .. => true
  | .lockCommitStep .. => true
  | .lockEnd .. => true
  | .noDecisionTimeout .. => true
  | .servingSlotStart .. => true
  | .issueResume .. => true
  | .instructionComplete .. => true
  | .alu .. => true
  | .addi .. => true
  | .andi .. => true
  | .ori .. => true
  | .xori .. => true
  | .shi .. => true
  | .shlor .. => true
  | .ld .. => true
  | .ldw .. => true
  | .st .. => true
  | .stw .. => true
  | .tillerLoadReturn .. => true
  | .beq .. => true
  | .bne .. => true
  | .blt .. => true
  | .bge .. => true
  | .bltu .. => true
  | .bgeu .. => true
  | .jal .. => true
  | .jr .. => true
  | .rds .. => true
  | .waitq .. => true
  | .statq .. => true
  | .msend .. => true
  | .mrecv .. => true
  | .wfe .. => true
  | .wfeTimeout .. => true
  | .gemm .. => true
  | .convert .. => true
  | .sound .. => true
  | .vectorAdd .. => true
  | .vectorSub .. => true
  | .vectorMul .. => true
  | .vectorFma .. => true
  | .vectorDiv .. => true
  | .vectorSqrt .. => true
  | .vectorRem .. => true
  | .vectorMin .. => true
  | .vectorMax .. => true
  | .cmpeq .. => true
  | .cmplt .. => true
  | .cmple .. => true
  | .cvt .. => true
  | .neg .. => true
  | .abs .. => true
  | .vectorAnd .. => true
  | .vectorOr .. => true
  | .vectorXor .. => true
  | .shl .. => true
  | .shr .. => true
  | .redsum .. => true
  | .redmax .. => true
  | .vectorLd .. => true
  | .vectorSt .. => true
  | .ldb .. => true
  | .stb .. => true
  | .srfw .. => true
  | .moveAccToReg .. => true
  | .moveRegToAcc .. => true
  | .moveBasinCopy .. => true
  | .moveBasinToSrf .. => true
  | .moveSrfToBasin .. => true
  | .moveClearRows .. => true
  | .fenceQueue .. => true
  | .fenceVisible .. => true
  | .fenceGlobal .. => true
  | .fenceEop .. => true
  | .writeAcknowledged .. => true
  | .claimTake .. => true
  | .claimTakeResume .. => true
  | .claimDone .. => true
  | .ringDoorbell .. => true
  | .ringFetch .. => true
  | .ringResume .. => true
  | .nop .. => true
  | .schedule .. => true
  | .config .. => true
  | .serve .. => true
  | .copy .. => true
  | .intakeFragment .. => true
  | .intakeExpiry .. => true
  | .intakeRefusalForget .. => true
  | .dmGo .. => true
  | .dmaDescriptorFetch .. => true
  | .dmaCopy .. => true
  | .dmaFill .. => true
  | .dmaMsop .. => true
  | .dmaBarge .. => true
  | .dmaSignal .. => true
  | .dmaDescriptorComplete .. => true
  | .dmaResume .. => true
  | .dmaAbort .. => true
  | .mbMsgSend .. => true
  | .mailboxArrival .. => true
  | .emptyNote .. => true
  | .mbLockRead .. => true
  | .mbLockWrite .. => true
  | .obsWrite .. => true
  | .gnPartialWrite .. => true
  | .gnDeviceSum .. => true
  | .gnNorm .. => true
  | .gnDone .. => true
  | .lossWrite .. => true
  | .spikeSample .. => true
  | .linkTrained .. => true
  | .keyReady .. => true
  | .codewordTransmit .. => true
  | .codewordReceive _ _ cw => cw.flits.length == 10
  | .nakReceived .. => true
  | .laneFail .. => true
  | .retrainDone .. => true
  | .linkDown .. => true
  | .linkRetryTimer .. => true
  | .lkRetrain .. => true
  | .lkRestore .. => true
  | .lkTowpath .. => true
  | .lkFullRate .. => true
  | .lkWake .. => true
  | .portReconfigure .. => true
  | .rekeySwitch .. => true
  | .keyPhaseErase .. => true
  | .keyAging .. => true
  | .towpathChangeover .. => true
  | .fullRateTrained .. => true
  | .delayTimer .. => true
  | .delayReq .. => true
  | .delayResp .. => true
  | .timeSendTimer .. => true
  | .time .. => true
  | .ttTimeout .. => true
  | .wake .. => true
  | .towpathEnter .. => true
  | .fullRate .. => true
  | .read _ _ h size => headOk 0x01 0 h && decide (1 ≤ size ∧ size ≤ 4096)
  | .write _ _ h data => headOk 0x02 data.length h && decide (1 ≤ data.length)
  | .memorySideOperation _ _ h _ => headOk 0x03 64 h
  | .doorbell _ _ h _ => headOk 0x04 8 h
  | .mailboxSend _ _ h _ => headOk 0x05 16 h
  | .readResponse _ _ h data => headOk 0x06 data.length h
  | .writeAcknowledgement _ _ h => headOk 0x07 0 h
  | .forward _ _ _ h data => decide (flitsOf data.length = h.body) && decide (h.body ≤ 64)
  | .ethFrame .. => true
  | .admitDevice .. => true
  | .release .. => true
  | .routes .. => true
  | .broadcast .. => true
  | .snapshot .. => true
  | .restore .. => true
  | .replace .. => true
  | .keeperReset .. => true
  | .readmit .. => true
  | .fleetWake .. => true
  | .group .. => true
  | .withdraw .. => true
  | .fleetCmd .. => true
  | .report .. => true
  | .chunk _ _ _ data => data.length == 4096
  | .broadcastWindowEnd .. => true
  | .missing .. => true
  | .missingRepeat .. => true
  | .imageVerify .. => true
  | .broadcastDeadline .. => true
  | .lease .. => true
  | .leaseAck .. => true
  | .leaseExpiry .. => true
  | .standbyTakeover .. => true
  | .adrift .. => true
  | .repairSwitch .. => true
  | .replayCheck .. => true
  | .snapshotTransferEnd .. => true
  | .keeperHeartbeat .. => true
  | .adriftDetect .. => true
  | .vinPowerUp .. => true
  | .keeperRailsGood .. => true
  | .resonatorSettled .. => true
  | .bootRom .. => true
  | .keeperFirmwareReady .. => true
  | .partitionSwitchOn .. => true
  | .startupCheckDone .. => true
  | .linksFirstTrainingDone .. => true
  | .ready .. => true
  | .startFail .. => true
  | .resetNAssert .. => true
  | .deviceReset .. => true
  | .keeperOnlyReset .. => true
  | .keeperRestarted .. => true
  | .coreReset .. => true
  | .clusterReset .. => true
  | .partitionReset .. => true
  | .resetDrainComplete .. => true
  | .resetRelease .. => true
  | .pwDomEnWrite .. => true
  | .wakingDone .. => true
  | .drainingDone .. => true
  | .selftestFull .. => true
  | .selftestPart .. => true
  | .selftestAbort .. => true
  | .selftestSliceEnd .. => true
  | .selftestSliceTimeout .. => true
  | .burn .. => true
  | .fuseEntryBurned .. => true
  | .attestationRequest .. => true
  | .ephemeralKeyExpiry .. => true
  | .authorisationOffer .. => true
  | .authorisationExpiry .. => true
  | .revokeSigningKey .. => true
  | .raiseRollback .. => true
  | .replaceOperatorKeys hashes _ => hashes.length == 4
  | .sessionOpen .. => true
  | .imageSlotWrite image => decide (image.length ≤ 2 ^ 25)
  | .drbgReseed .. => true
  | .measExtend .. => true
  | .hmKregWrite .. => true
  | .i3cSetdasa .. => true
  | .i3cEntdaa .. => true
  | .eventReport .. => true
  | .evTailWrite .. => true
  | .pwLimitWrite .. => true
  | .pwClkWrite .. => true
  | .limiterSample .. => true
  | .clockRaise .. => true
  | .throttleDown .. => true
  | .throttleUp .. => true
  | .thermalTrip .. => true
  | .thermalTripRelease .. => true
  | .uvWarn .. => true
  | .ovWarn .. => true
  | .railWarn .. => true
  | .uvShutdown .. => true
  | .ovShutdown .. => true
  | .railShutdown .. => true
  | .overcurrentShutdown .. => true
  | .supplyShutdownRelease .. => true
  | .cablePresent .. => true
  | .resetNRelease .. => true
  | .kpResetRelease .. => true
  | .linkKeyExchange .. => true
  | .ethLinkUp .. => true
  | .ethLinkDown .. => true
  | .keeperReportTimeout .. => true
  | .admitTimeout .. => true
  | .ppsInFallingEdge .. => true
  | .cakDelivery .. => true
  | .keeperFirmwareException .. => true

end Sys2Proof
end

