-- ==== Sys2Proof/Tests/Slice0.lean ====
section
/-! SUPPORT. The model's own tests: ill-formed commands, worked examples of the manual, and for every statement with premises a state and operands that meet them. -/

namespace Sys2Proof.Tests

open Sys2Proof Sys2Proof.Machine

/-- The Keeper and a control processor of a device with ID 0. -/
def keeper : Ident := ⟨0#14, 0xD00#12⟩
def control0 : Ident := ⟨0#14, 0xD01#12⟩

/-- The state after reset. -/
def s0 : State := State.reset

/-- An image that anchors at an instant and holds programs. -/
def anImage (anchor : Nat) (programs : List CoreProgram) : ScheduleImage :=
  ⟨anchor, 1000, 10, 0, 0, 16, 0#64, 0, programs, [], [], [], [], [], [], 0#256⟩

/-- Core `c`, of a present and powered die, runs and stands at a program counter. -/
def running (c pc : Nat) : State :=
  ((((s0.wf (CD_CORE_MAP (c / 64) (c % 64)) CD_CORE_MAP_PRESENT 1).wf (PW_DOM (corePart c)) PW_DOM_STATE 2).wf (CO_TSTATUS c) CO_TSTATUS_STATE 1).modCore c
    (fun k => { k with pc := pc }))

/-! ## Ill-formed commands, one for each check of WellFormed -/

/-- A head flit that names no operation. -/
def badHead : Head := ⟨0#64, keeper, 0#8, 0#8, 0, 0#32, 0#48, 0#8, 0#8, true⟩

set_option maxRecDepth 40000 in
theorem test_illFormed_refused :
    [Instr.basinAccess keeper 0#64 0 false [] .none, .basinAccess keeper 0#64 65 false [] .none, .basinAccess keeper 0#64 4 true [1#8] .none,
     .hbmAccess keeper 0#64 4 false false [1#8] .none, .codewordReceive 0 0 ⟨0#20, 0#20, false, false, 0#2, 0#12, [], 0, 0#64⟩,
     .read 0 0 badHead 8, .read 0 0 ⟨0#64, keeper, 1#8, 0#8, 0, 0#32, 0#48, 0#8, 0#8, true⟩ 4097, .write 0 0 badHead [1#8],
     .write 0 0 ⟨0#64, keeper, 2#8, 0#8, 0, 0#32, 0#48, 0#8, 0#8, true⟩ [], .memorySideOperation 0 0 badHead 0#512, .doorbell 0 0 badHead 0#64,
     .mailboxSend 0 0 badHead 0#128, .readResponse 0 0 badHead [], .writeAcknowledgement 0 0 badHead, .forward 0 0 0#2 badHead [1#8],
     .forward 0 0 0#2 ⟨0#64, keeper, 1#8, 0#8, 65, 0#32, 0#48, 0#8, 0#8, true⟩ (List.replicate 4160 0#8), .chunk 0#8 0#16 0#8 [1#8],
     .replaceOperatorKeys [] 0#256].all (fun c => !c.wellFormed) = true := by decide

theorem test_wellFormed_accepted :
    [Instr.basinAccess keeper 0#64 64 false [] .none, .hbmAccess keeper 0#64 1 false true [1#8] .none, .registerWrite keeper 0#64 4 0#32,
     .read 0 0 ⟨0#64, keeper, 1#8, 0#8, 0, 0#32, 0#48, 0#8, 0#8, true⟩ 4096].all (fun c => c.wellFormed) = true := by decide

/-! ## Worked examples of the manual -/

/-- Package, dies: C15 at (2,1) to C11 at (2,3) takes the detour by C8, C9 and C10. -/
theorem test_route_detours : dieRoute (2, 1) (2, 3) = [(1, 1), (1, 2), (1, 3), (2, 3)] := by decide

/-- HBM: 0x0012_3456_7840 goes to pseudo-channel 0 of channel 1 of stack H4. -/
theorem test_hbm_home : hbmHash 0x234567840 = (0, 4, 1, 0x23456) := by decide

/-- HBM: its bank, row and column; and its unit's MAC, at l 0x2F_48D1 of the same pseudo-channel, byte 176. -/
theorem test_hbm_place :
    hbmPlace 0x234567840 = ⟨1, 0, 2, 1128, 576⟩ ∧ hbmHash (macOffset 0x234567840) = (0, 4, 1, 0x2F48D1) ∧ macOffset 0x234567840 % 256 = 176 := by decide

/-- Fleet: of a group of four with single parity, units 0 to 5 of member 2 lie in stripes 0, 1, 3, 4, 5 and 7, and stripe 3 holds unit 2 of members 0, 1 and 2. -/
theorem test_stripes :
    (List.range 6).map (stripeOf 4 false 2) = [0, 1, 3, 4, 5, 7] ∧ holdsParity 4 false 3 3 = true ∧ [0, 1, 2].map (fun j => unitIn 4 false j 3) = [2, 2, 2] := by decide

/-- Scope: the register of the ordering code, with the T25-A's limits. -/
theorem test_part_info : s0.rd KP_PART_INFO = 48 * 2 ^ 16 + 1000 * 2 ^ 4 + 1 := by decide

/-- The barge of the e4m3 example. -/
def exampleBarge : Barge := ⟨((((List.replicate 64 0#8).set 0 0x4C#8).set 16 0xB9#8).set 40 0x03#8).set 63 0x7F#8, 0x030000002410207C⟩

/-- Formats: elements 0, 16, 40 and 63 of the e4m3 barge are 0.75, −0.035 156 25, 1.5 × 2^-11 and NaN. -/
theorem test_barge_elements :
    [0, 16, 40, 63].map (fun k => fp32F.encode (exampleBarge.value k)) = [0x3F400000, 0xBD100000, 0x3A400000, 0x7FC00000] := by decide

/-- An F-array entry that is CLEAR, and what two groups make of it. -/
def exampleRun : Run := (⟨accPut [] 0 (FEntry.bits ⟨frCLEAR, 0⟩), 0, 0, false, false, none⟩ : Run).promote 0 (15 * 2 ^ 62 + 3 * 2 ^ 54) 1 none 0

/-- Core arrays: after the first group, FRAME is 255 and N is 0x3_C0C0_0000_0000_0000; after the second, 254 and 0x7_A180_0000_0000_0000. -/
theorem test_forward_output :
    fentry (accGet exampleRun.acc 0) = ⟨255, 0x3C0C0000000000000⟩
    ∧ fentry (accGet (exampleRun.promote 0 (2 ^ 61) 0 none 0).acc 0) = ⟨254, 0x7A180000000000000⟩ := by decide

/-- Scaling: the exponents of the tile that outgrows its own, BEXP 125, 126 and 127. -/
theorem test_bexp_for : [bexpFor ⟨false, 30, 0⟩ 1 4, bexpFor ⟨false, 200, 0⟩ 0 4, bexpFor ⟨false, 200, 0⟩ 1 4] = [125, 126, 127] := by decide

/-- Bring-up: quadrant Q1 of C3 with sites 20, 23 and 27 bad: spare 65 stands for 20; 23 and 27 are absent. -/
theorem test_spare_site :
    let s : State := { s0 with boot := { s0.boot with disabled := [.coreSite 3 20, .coreSite 3 23, .coreSite 3 27] } }
    (s.mapQuadrant 3 1 (s.siteGood 3 65) 16 16).map mapWord
      = [0x90, 0x91, 0x92, 0x93, 0x1C1, 0x95, 0x96, 0, 0x98, 0x99, 0x9A, 0, 0x9C, 0x9D, 0x9E, 0x9F] := by rfl

set_option maxRecDepth 40000 in
/-- Power: the plant sag, 120.0 A at 39.0 V: PW_LIMIT reads 0x0012_4830 and PW_IN 0x2EE0_9858. -/
theorem test_plant_sag :
    (match execLimiterSample 39000#16 12000#16 4680#16 4680#16 0#12 s0 with
      | .next t => t.rd PW_LIMIT == 0x00124830 && t.rd PW_IN == 0x2EE09858
      | _ => false) = true := by decide

/-- Locks: TM_LOCK_STATUS reads 0x0000_0009 in POUND, and 0x0001_000A once READY has been sent. -/
theorem test_lock_status : ((s0.wr TM_LOCK_STATUS 0x9).castVote 1).rd TM_LOCK_STATUS = 0x1000A := by decide

/-- Events: with one slot free, the record goes to slot 0xFFF and EV_HEAD becomes 0x0001_3000. -/
theorem test_last_slot :
    let s := ((s0.wr EV_HEAD 0x12FFF).wr EV_TAIL 0x12000).applyEvent ⟨5, 0x02, 0, 0, 0x165, 0x40⟩
    s.rd EV_HEAD = 0x13000 ∧ s.byte (0x00400201FFE0 + 8) = 0x02#8 := by decide

/-! ## The premises of the statements can be met

For each statement with premises, a state and operands that meet them, one for each clause; where a statement joins several parts, they carry the names of the parts. -/

set_option maxRecDepth 20000 in
theorem witness_StepTakesOneCommand :
    (let s : State := { s0 with pending := [.keeperHeartbeat, .ready] }; (match step s with | .next t => decide (t.pending = s.pending.tail) | _ => false) = true) := by
  decide

theorem witness_FusesOnlyGrow :
    (let s : State := { s0 with pending := [.revokeSigningKey 2], fuses := { s0.fuses with revoked := 1, rollback := 3, fused := [.coreSite 0 1] } }; (match step s with | .next t => decide (s.fuses.rollback ≤ t.fuses.rollback ∧ s.fuses.revoked.testBit 0 = true ∧ t.fuses.revoked.testBit 0 = true) | _ => false) = true) := by
  decide

set_option maxRecDepth 20000 in
theorem witness_ProgramsRunWordByWord :
    (let c : CoreId := 5; let s : State := (running 5 0x100).setBytes (5 * basinSize + 0x100) (toBytes 4 0x04410007); s.pending = [] ∧ s.nextCore = some c ∧ (s.core c).pc % 4 = 0 ∧ (s.core c).pc + 16 ≤ 0x2000000 ∧ s.ecc = [] ∧ s.coreUp c = true ∧ scalarOf c (s.progWord c 0) = some (.addi c 2 1 7))
    ∧ (let c : CoreId := 5; let s : State := (running 5 0x100).setBytes (5 * basinSize + 0x100) (toBytes 4 0xD8000000); s.pending = [] ∧ s.nextCore = some c ∧ (s.core c).pc % 4 = 0 ∧ (s.core c).pc + 16 ≤ 0x2000000 ∧ s.ecc = [] ∧ s.coreUp c = true ∧ isTileOp (natBits 26 6 (s.progWord c 0).toNat) = true ∧ (s.progTile c).cls = 0x36)
    ∧ (let c : CoreId := 5; let s : State := (running 5 0x100).setBytes (5 * basinSize + 0x100) (toBytes 4 0x1C000000); s.pending = [] ∧ s.nextCore = some c ∧ (s.core c).pc % 4 = 0 ∧ (s.core c).pc + 16 ≤ 0x2000000 ∧ s.ecc = [] ∧ s.coreUp c = true ∧ isTileOp (natBits 26 6 (s.progWord c 0).toNat) = false ∧ scalarOf c (s.progWord c 0) = none) := by
  refine ⟨?_, ?_, ?_⟩ <;> decide

theorem witness_StepKeepsCanonicalForm :
    ∃ s t : State, s.canonical ∧ s.pending ≠ [] ∧ step s = .next t :=
  ⟨{ s0 with pending := [.resonatorSettled] }, _, by unfold State.canonical; decide, by decide, rfl⟩


/-- A block with no tiller running idles on an empty queue. -/
theorem witness_StepTakesOneCommand_idle : ∃ s : State, s.pending = [] ∧ s.nextCore = none := by
  refine ⟨{ s0 with regs := [] }, rfl, ?_⟩
  refine List.find?_eq_none.mpr fun c _ => ?_
  have h : (0 == 1 : Bool) = false := rfl
  simp only [State.canIssue, State.tstate, State.rf, State.rd, spGet]
  exact Bool.not_eq_true _ ▸ (Bool.and_eq_false_iff.mpr (.inl rfl))
theorem witness_FieldsFollowTheirAccessCodes :
    (let l : List RegField := (Blk.mb 0).fields 0; (∀ f ∈ l, f.lo + f.width ≤ 32) ∧ l.Pairwise (fun f g => f.lo + f.width ≤ g.lo ∨ g.lo + g.width ≤ f.lo) ∧ l.length = 3) := by
  decide

theorem witness_ReadsFollowTheirAccessCodes :
    (let l : List RegField := (Blk.lk 0).fields 0; (∀ f ∈ l, f.lo + f.width ≤ 32) ∧ l.Pairwise (fun f g => f.lo + f.width ≤ g.lo ∨ g.lo + g.width ≤ f.lo) ∧ l.length = 3) := by
  decide

theorem witness_RegisterCommandsComplete :
    (let a : Dword := 0x8000010018#64; target a.toNat = .reg .tm 0x18 ∧ a.toNat = Blk.tm.base + 0x18 ∧ plainPlace .tm 0x18 = true ∧ wideIn 0x18 Blk.tm.wides = none ∧ Passes s0 keeper a.toNat true)
    ∧ (let a : Dword := 0x8000010024#64; target a.toNat = .reg .tm 0x24 ∧ plainPlace .tm 0x24 = true ∧ wideIn 0x24 Blk.tm.wides = some (0x20, 2, 1) ∧ Passes s0 keeper a.toNat true)
    ∧ (let a : Dword := 0x8000010020#64; target a.toNat = .reg .tm 0x20 ∧ plainPlace .tm 0x20 = true ∧ wideIn 0x20 Blk.tm.wides = some (0x20, 2, 0) ∧ Passes s0 keeper a.toNat true)
    ∧ (let a : Dword := 0x8000010000#64; target a.toNat = .reg .tm 0 ∧ wideIn 0 Blk.tm.wides = some (0, 3, 0) ∧ Passes s0 control0 a.toNat false) := by
  refine ⟨?_, ?_, ?_, ?_⟩ <;> decide

theorem witness_AddressFormsAreChecked :
    (let a : Dword := 0x0001000000000000#64; natBit 62 a.toNat = false ∧ natBits 48 16 a.toNat ≠ 0)
    ∧ (let a : Dword := 0xC000000000000000#64; natBit 62 a.toNat = true ∧ natBit 63 a.toNat = true)
    ∧ (let a : Dword := 0x7FFF000000000000#64; natBit 62 a.toNat = true ∧ natBit 63 a.toNat = false ∧ natBit 62 (0xFFFFFFFFFFFF : Nat) = false ∧ natBits 48 16 (0xFFFFFFFFFFFF : Nat) = 0) := by
  refine ⟨?_, ?_, ?_⟩ <;> decide

theorem witness_HolesReadZeroAndIgnoreWrites :
    (let a : Dword := 0x800001FFFC#64; target a.toNat = .reg .tm 0xFFFC ∧ a.toNat = Blk.tm.base + 0xFFFC ∧ Blk.tm.fields 0xFFFC = [] ∧ Passes s0 keeper a.toNat false ∧ Passes s0 keeper a.toNat true) := by
  decide

theorem witness_OddRegisterAccessesFault :
    (s0.sendsTo keeper 0x8000010016 = [] ∧ target 0x8000010016 = .reg .tm 0x16 ∧ 0x8000010016 % 4 ≠ 0) := by
  decide

theorem witness_LockedFieldsStay :
    (let s := ((s0.wf (CD_CORE_MAP 0 0) CD_CORE_MAP_PRESENT 1).wf (PW_DOM 0) PW_DOM_STATE 2).wf (MB_BIND_1 0) MB_BIND_1_LOCKED 1; MB_BIND_0 0 < 2 ^ 48 ∧ Passes s keeper (MB_BIND_0 0) true ∧ s.rb (MB_BIND_1 0) MB_BIND_1_LOCKED = true)
    ∧ (let s := s0.wf (HM_STATUS 7) HM_STATUS_INIT_LOCK 1; Passes s keeper (HM_CFG 7) true ∧ s.rb (HM_STATUS 7) HM_STATUS_INIT_LOCK = true ∧ s.isLocal keeper = true ∧ masterOf keeper.num.toNat = .keeper)
    ∧ (let s := s0.wf KP_SEC_CTRL KP_SEC_CTRL_LOCK 1; Passes s keeper KP_SEC_CTRL true ∧ s.rb KP_SEC_CTRL KP_SEC_CTRL_LOCK = true) := by
  refine ⟨?_, ?_, ?_⟩ <;> decide

theorem witness_ReservedBitsStayZero :
    (let l : List RegField := (Blk.lk 0).fields 0; l ≠ [] ∧ ∀ f ∈ l, 31 < f.lo ∨ f.lo + f.width ≤ 31) := by
  decide

theorem witness_BasinAccessesComplete :
    (let s := (s0.wf (CD_CORE_MAP 0 0) CD_CORE_MAP_PRESENT 1).wf (PW_DOM 0) PW_DOM_STATE 2; let d : List Byte := [1#8, 2#8, 3#8, 4#8]; aligned 0x1FFFFFC 4 = true ∧ (s.marked 8 1 0x1FFFFFC 4).filter (fun k => !(decide (0x1FFFFFC ≤ k) && decide (k + 8 ≤ 0x1FFFFFC + 4))) = [] ∧ (s.marked 8 2 0x1FFFFFC 4).filter (fun k => !(decide (0x1FFFFFC ≤ k) && decide (k + 8 ≤ 0x1FFFFFC + 4))) = [] ∧ s.marked 8 1 0x1FFFFFC 4 = [] ∧ s.marked 8 2 0x1FFFFFC 4 = [] ∧ d.length = 4 ∧ PassesN s keeper 0x1FFFFFC 4 true ∧ PassesN s keeper 0x1FFFFFC 4 false)
    ∧ (let s : State := { (s0.wf (CD_CORE_MAP 0 0) CD_CORE_MAP_PRESENT 1).wf (PW_DOM 0) PW_DOM_STATE 2 with ecc := [(0x100, 1), (0x108, 2), (0x110, 2)] }; let d : List Byte := [1#8, 2#8, 3#8, 4#8]; d.length = 4 ∧ (s.marked 8 2 0x108 8).filter (fun k => !(decide (0x108 ≤ k) && decide (k + 8 ≤ 0x108 + 8))) = [] ∧ (s.marked 8 2 0x110 4).filter (fun k => !(decide (0x110 ≤ k) && decide (k + 8 ≤ 0x110 + 4))) ≠ [] ∧ s.marked 8 2 0x100 8 = [] ∧ s.marked 8 1 0x100 8 ≠ [] ∧ s.marked 8 2 0x108 8 ≠ [] ∧ PassesN s keeper 0x108 8 true ∧ PassesN s keeper 0x110 4 true ∧ PassesN s keeper 0x100 8 false ∧ PassesN s keeper 0x108 8 false) := by
  refine ⟨?_, ?_⟩ <;> decide

theorem witness_BasinPatrolCorrects :
    (let s := { (s0.wf (CD_CORE_MAP 15 63) CD_CORE_MAP_PRESENT 1).wf (PW_DOM 3) PW_DOM_STATE 2 with ecc := [(1023 * basinSize + 8 * 0x3FFFFF, 1)] }; s.present 1023 = true ∧ s.coreUp 1023 = true ∧ spGet 0 s.ecc (1023 * basinSize + 8 * 0x3FFFFF) = 1) := by
  decide

theorem witness_HbmAccessesComplete :
    (target (hbmBase + 0x40) = .hbm 0x40 ∧ aligned (hbmBase + 0x40) 32 = true ∧ s0.hbmCache.length = 8 ∧ s0.ecc = [] ∧ s0.allKeyed (hbmSpan (s0.integ (hbmHome 0x40)) 0x40 32).1 (hbmSpan (s0.integ (hbmHome 0x40)) 0x40 32).2 = true ∧ PassesN s0 keeper (hbmBase + 0x40) 32 true ∧ PassesN s0 keeper (hbmBase + 0x40) 32 false)
    ∧ (target (hbmBase + 0x2FFFFFFFC0) = .hbm 0x2FFFFFFFC0 ∧ aligned (hbmBase + 0x2FFFFFFFC0) 64 = true ∧ s0.allKeyed (hbmSpan (s0.integ (hbmHome 0x2FFFFFFFC0)) 0x2FFFFFFFC0 64).1 (hbmSpan (s0.integ (hbmHome 0x2FFFFFFFC0)) 0x2FFFFFFFC0 64).2 = true ∧ s0.hbmCache.length = 8 ∧ PassesN s0 control0 (hbmBase + 0x2FFFFFFFC0) 64 true ∧ PassesN s0 control0 (hbmBase + 0x2FFFFFFFC0) 64 false)
    ∧ (target (hbmBase + 0x43) = .hbm 0x43 ∧ aligned (hbmBase + 0x43) 1 = true ∧ s0.allKeyed (hbmSpan (s0.integ (hbmHome 0x43)) 0x43 1).1 (hbmSpan (s0.integ (hbmHome 0x43)) 0x43 1).2 = true ∧ PassesN s0 keeper (hbmBase + 0x43) 1 true)
    ∧ (let h := hbmHome 0x40; let s := s0.wf (HM_CFG h) HM_CFG_INTEG 1; target (hbmBase + 0x40) = .hbm 0x40 ∧ s.hbmCache.length = 8 ∧ s.integ h = true ∧ s.allKeyed (hbmSpan (s.integ h) 0x40 32).1 (hbmSpan (s.integ h) 0x40 32).2 = true ∧ PassesN s keeper (hbmBase + 0x40) 32 true ∧ PassesN s keeper (hbmBase + 0x40) 32 false) := by
  refine ⟨?_, ?_, ?_, ?_⟩ <;> decide

theorem witness_MemorySideOperationsComplete :
    (target hbmBase = .hbm 0 ∧ msopOk 3 0 = true ∧ msopOk 4 1 = true ∧ msopOk 0 2 = true ∧ msopOk 5 3 = true ∧ s0.hbmCache.length = 8 ∧ s0.ecc = [] ∧ s0.allKeyed (hbmSpan (s0.integ (hbmHome 0)) 0 64).1 (hbmSpan (s0.integ (hbmHome 0)) 0 64).2 = true ∧ PassesN s0 keeper hbmBase 64 true ∧ PassesN s0 keeper hbmBase 64 false) := by
  decide

theorem witness_MsopAddsInt64Lanes :
    (7 < 8) := by
  decide

set_option maxRecDepth 20000 in
theorem witness_MemoryServicesComplete :
    (let k := hbmBase + 0x40; let st : WharfId := 0; let s : State := { s0 with ecc := [(k, 1)] }; target k = .hbm 0x40 ∧ hbmHome 0x40 = st.val ∧ s.rf (HM_SCRUB st) HM_SCRUB_PERIOD ≠ 0 ∧ spGet 0 s.ecc (k / 32 * 32) = 1)
    ∧ (85 < (86#8).toNat ∧ (83#8).toNat ≤ 83 ∧ (s0.stackTemp 7 83).rb (HM_CFG 7) HM_CFG_REF2X = false)
    ∧ (s0.power.hbmHot.length = 8)
    ∧ (let s : State := { s0 with boot := { s0.boot with phase := 7 } }; s.atPhase 7 = true)
    ∧ (crosses 20 (0, 0) (dieRoute (0, 0) (1, 0)) = true) := by
  refine ⟨?_, ?_, ?_, ?_, ?_⟩ <;> decide

theorem witness_Ref10mFailsAndRequalifies :
    (let s : State := { s0 with boot := { s0.boot with uptime := 20000000000 } }; 10000 < 10001 ∧ 5000 < (-5001 : Int).natAbs ∧ s.rf TM_SRC_STATUS TM_SRC_STATUS_REF_OK = 0 ∧ s.time.refBadAt + 10000000000 ≤ s.boot.uptime ∧ s0.boot.uptime < s0.time.refBadAt + 10000000000) := by
  decide

theorem witness_PpsCommandsComplete :
    (let s : State := { s0 with time := { s0.time with ppsEdges := [7, 6] } }; ¬(s.time.ppsEdges.filter (fun x => decide (8 < x + 100000000))).length < 2 ∧ (s0.time.ppsEdges.filter (fun x => decide (8 < x + 100000000))).length < 2 ∧ s0.rb TM_SRC_STATUS TM_SRC_STATUS_TOD_VALID = false ∧ s0.time.ppsRef = none ∧ (s0.wf TM_SRC_STATUS TM_SRC_STATUS_TOD_VALID 1).rb TM_SRC_STATUS TM_SRC_STATUS_TOD_VALID = true)
    ∧ (let s : State := { s0.wf TM_SRC_STATUS TM_SRC_STATUS_TOD_VALID 1 with time := { s0.time with ppsRef := some (5 : Int) } }; (s.time.ppsEdges.filter (fun x => decide (2000000005 < x + 100000000))).length < 2 ∧ s.rb TM_SRC_STATUS TM_SRC_STATUS_TOD_VALID = true ∧ s.time.ppsRef = some (5 : Int) ∧ ppsInWindow 5 (2000001005 - sext 16 (s.rf TM_PPS_DELAY TM_PPS_DELAY_DELAY)) = true ∧ ppsInWindow 5 (2000001006 - sext 16 (s.rf TM_PPS_DELAY TM_PPS_DELAY_DELAY)) = false)
    ∧ (let s : State := (s0.wrWide TM_NOW_0 3 (1500000001 * 65536)); s.time.ppsLast + 1500000000 < s.now)
    ∧ (let s : State := { s0.wrWide TM_NOW_0 3 (10000000000 * 65536) with time := { s0.time with ppsRef := some (5 : Int), ppsLast := 9000000000 } }; s.rb TM_SRC_STATUS TM_SRC_STATUS_PPS_OK = false ∧ s.time.ppsBadAt + 10000000000 ≤ s.now ∧ s.now ≤ s.time.ppsLast + 1500000000 ∧ s.time.ppsRef.isSome = true) := by
  refine ⟨?_, ?_, ?_, ?_⟩ <;> decide

theorem witness_PtpMeasuresTheOffset :
    (let s : State := (((s0.wf (LK_CFG 15) LK_CFG_MODE 1).wf TM_SRC_CTRL TM_SRC_CTRL_PTP_PORT 15).wf (LK_STATE 15 0) LK_STATE_STATE 6); let u : State := { s with time := { s.time with ptpT1 := some 1000, ptpT2 := some 1100, ptpT3 := some 2000 } }; 15 = s.rf TM_SRC_CTRL TM_SRC_CTRL_PTP_PORT ∧ s.ethPort 15 = true ∧ s.linkSt 15 0 = 6 ∧ false = s.rb (LK_ETH_CFG 15 0) LK_ETH_CFG_PROFILE ∧ u.time.ptpT1 = some 1000 ∧ u.time.ptpT2 = some 1100 ∧ u.time.ptpT3 = some 2000)
    ∧ (let s : State := (s0.wrWide TM_NOW_0 3 (1000000001 * 65536)); s.time.ptpAt + 1000000000 < s.now) := by
  refine ⟨?_, ?_⟩ <;> decide

theorem witness_TimeOfDayCommandsComplete :
    (let s : State := (s0.wrWide TM_NOW_0 3 (1700000001 * 65536)); let u : State := s.wf TM_SRC_STATUS TM_SRC_STATUS_ACTIVE 1; let r : State := s.wf TM_LOCK_STATUS TM_LOCK_STATUS_STATE 1; s.isLocal keeper = true ∧ masterOf keeper.num.toNat = .keeper ∧ s.running = false ∧ s.active = 0 ∧ u.running = false ∧ u.active = 1 ∧ r.running = true ∧ ¬(s.isLocal control0 = true ∧ masterOf control0.num.toNat = .keeper) ∧ 5000000000 + 500000000 < 2 ^ 64) := by
  decide

theorem witness_TimeSourceCommandsComplete :
    (let s : State := s0.wf TM_SRC_STATUS TM_SRC_STATUS_ACTIVE 3; s.srcOk s.active = false ∧ s.srcOk 1 = false ∧ s.srcOk 2 = false ∧ s.srcOk 3 = false ∧ s0.srcOk s0.active = true)
    ∧ (let s : State := { (((s0.wf TM_SRC_STATUS TM_SRC_STATUS_PPS_OK 1).wf TM_SRC_STATUS TM_SRC_STATUS_REF_OK 1).wf TM_SRC_STATUS TM_SRC_STATUS_TOD_VALID 1).wrWide TM_NOW_0 3 (10000000000 * 65536) with time := { s0.time with since := [1, 0, 0] } }; let v : State := { s.wf TM_SRC_STATUS TM_SRC_STATUS_ACTIVE 2 with pending := [] }; LongOk s 1 ∧ s.active = 0 ∧ v.srcOk v.active = false ∧ v.srcOk 1 = true) := by
  refine ⟨?_, ?_⟩ <;> decide

theorem witness_TimeTicksComplete :
    (let s : State := (s0.wf TM_SRC_STATUS TM_SRC_STATUS_ACTIVE 3).wf TM_LOCK_STATUS TM_LOCK_STATUS_STATE 1; let h : State := { s0.wf TM_SRC_STATUS TM_SRC_STATUS_ERR_BOUND 7 with time := { s0.time with holdBase := 5 } }; s.active ≠ 0 ∧ s.running = true ∧ h.active = 0 ∧ (({ s with time := { s.time with eweBound := 1001 } }).srcBound 3) = 1001) := by
  decide

theorem witness_CorrectionIsBounded :
    (let s : State := (s0.wf TM_SRC_STATUS TM_SRC_STATUS_ACTIVE 2); let r : State := s.wf TM_LOCK_STATUS TM_LOCK_STATUS_STATE 1; r.running = true ∧ r.active ≠ 0 ∧ ((10 : Int) * 65536).natAbs ≤ 1000000 * 65536 / 100000 ∧ 1 < s.active ∧ s.running = false) := by
  decide

theorem witness_PpsOutCommandsComplete :
    (let s : State := (s0.wf TM_LOCK_CTRL TM_LOCK_CTRL_PPS_OUT_EN 1).wf TM_SRC_STATUS TM_SRC_STATUS_TOD_VALID 1; let u : State := { s0.wrWide TM_NOW_0 3 (100000000 * 65536) with pins := { s0.pins with ppsOut := true } }; s.ppsOutOn = true ∧ s.pins.ppsOut = false ∧ (s.now + 5) % 1000000000 ≤ 10 ∧ u.pins.ppsOut = true ∧ u.time.ppsOutAt + 100000000 ≤ u.now) := by
  decide

set_option maxRecDepth 20000 in
theorem witness_OwnVotesComplete :
    (let s : State := { State.reset with regs := [(TM_LOCK_STATUS, 1), (TM_NEXT_LOCK_0, 1000000)], lock := { s0.lock with causes := 1 } }; s.voteOpen = true ∧ s.ownVote ≠ 3 ∧ s.lock.causes ≠ 0 ∧ s.readyNow = false)
    ∧ (let s : State := { State.reset with regs := [(TM_LOCK_STATUS, 1), (TM_NEXT_LOCK_0, 1000000)] }; s.voteOpen = true ∧ s.ownVote = 0 ∧ s.readyNow = true) := by
  refine ⟨?_, ?_⟩ <;> decide

theorem witness_CastVoteShows :
    (let s : State := s0.wf TM_LOCK_STATUS TM_LOCK_STATUS_STATE 1; 3 < 4 ∧ s.inPound = true ∧ s.rf KP_FLEET_ID KP_FLEET_ID_ROLE = 0) := by
  decide

theorem witness_CutoffDecides :
    (let s : State := s0.wf TM_LOCK_STATUS TM_LOCK_STATUS_STATE 1; s.lockLive = true ∧ s.inPound = true ∧ s.lock.cut = false ∧ s.pastCut = true ∧ s.mayVote = true ∧ s.fleet.replaying = false ∧ s.rf KP_FLEET_ID KP_FLEET_ID_ROLE = 0 ∧ s.rf KP_FLEET_STBY KP_FLEET_STBY_LEASE ≠ 2 ∧ s.lock.decision = none ∧ s.lock.votes = [] ∧ s.fleet.members = []) := by
  decide

theorem witness_FirstVotesAreKept :
    (let s : State := { (s0.wf TM_LOCK_STATUS TM_LOCK_STATUS_STATE 1).wf KP_FLEET_ID KP_FLEET_ID_ROLE 3 with fleet := { s0.fleet with members := [⟨5, 1, 0, false, false, 0, 0, 0, [], false⟩] } }; s.lockLive = true ∧ s.inPound = true ∧ s.lock.cut = false ∧ s.role = 3 ∧ s.voters.any (fun m => m.dev == 5) = true ∧ s.voteOf 5 = none)
    ∧ (let s : State := { (s0.wf TM_LOCK_STATUS TM_LOCK_STATUS_STATE 1).wf KP_FLEET_ID KP_FLEET_ID_ROLE 2 with fleet := { s0.fleet with members := [⟨5, 1, 0, false, false, 0, 0, 0, [], false⟩] } }; let u : State := { s with lock := { s.lock with votes := s.lock.votes ++ [(⟨5, .veto, 0, false, 0⟩ : VoteRec)] } }; s.lockLive = true ∧ s.inPound = true ∧ s.lock.cut = false ∧ s.role = 2 ∧ s.voters.any (fun m => m.dev == 5) = true ∧ s.voteOf 5 = none ∧ u.combined false ≠ 0 ∧ s.lock.passed = []) := by
  refine ⟨?_, ?_⟩ <;> decide

theorem witness_DecisionsAreHeld :
    (let s : State := ((s0.wf TM_LOCK_STATUS TM_LOCK_STATUS_STATE 2).wf KP_FLEET_ID KP_FLEET_ID_ROLE 1).wrWide TM_NEXT_LOCK_0 2 1000000; let d : Decision := ⟨1000000, .commit, 0#256, 0#6, false, false, false, none⟩; s.lockLive = true ∧ s.inPound = true ∧ s.role = 1 ∧ d.lock = s.nextLock ∧ s.lock.decision = none ∧ s.now < s.nextLock)
    ∧ (let s : State := (s0.wf TM_LOCK_STATUS TM_LOCK_STATUS_STATE 2).wrWide TM_NOW_0 3 (20000 * 65536); let w : State := (s0.wf TM_LOCK_STATUS TM_LOCK_STATUS_STATE 2).wf KP_FLEET_ID KP_FLEET_ID_ROLE 1; let d : Decision := ⟨0, .commit, 0#256, 0#6, false, false, false, none⟩; s.lockLive = true ∧ s.inPound = true ∧ s.lock.start = none ∧ s.nextLock ≤ s.now ∧ s.lock.decision = none ∧ s.nextLock + 20000 ≤ s.now ∧ s.lock.deferred = [] ∧ w.role = 1 ∧ d.lock = w.nextLock ∧ w.lock.decision = none ∧ w.nextLock ≤ w.now ∧ w.now < w.nextLock + 20000 ∧ w.lock.lateError = false ∧ w.lockLive = true ∧ w.inPound = true) := by
  refine ⟨?_, ?_⟩ <;> decide

theorem witness_LockStartsAtItsInstant :
    (let d : Decision := ⟨0, .commit, 0#256, 0#6, false, false, false, none⟩; let s : State := { s0.wf TM_LOCK_STATUS TM_LOCK_STATUS_STATE 2 with lock := { s0.lock with decision := some d } }; s.lockLive = true ∧ s.inPound = true ∧ s.lock.start = none ∧ s.nextLock ≤ s.now ∧ s.lock.decision = some d ∧ d.outcome = .commit ∧ s.lock.lateError = false ∧ s.role = 0)
    ∧ (let d : Decision := ⟨0, .empty, 0#256, 0#6, false, false, false, none⟩; let s : State := { s0.wf TM_LOCK_STATUS TM_LOCK_STATUS_STATE 2 with lock := { s0.lock with decision := some d } }; s.lockLive = true ∧ s.inPound = true ∧ s.lock.start = none ∧ s.nextLock ≤ s.now ∧ s.lock.decision = some d ∧ d.outcome = .empty ∧ s.lock.lateError = false) := by
  refine ⟨?_, ?_⟩ <;> decide

theorem witness_HeldLocksMoveByAPound :
    (let d : Decision := ⟨0, .hold, 0#256, 0#6, false, false, false, none⟩; let s : State := { (s0.wf TM_LOCK_STATUS TM_LOCK_STATUS_STATE 2).wf TM_SCHED_0 TM_SCHED_0_POUND_US 7 with lock := { s0.lock with decision := some d } }; s.lockLive = true ∧ s.lock.decision = some d ∧ s.inPound = true ∧ s.lock.start = none ∧ s.nextLock ≤ s.now ∧ d.outcome = .hold ∧ d.wideRerun = false ∧ d.rerun = false) := by
  decide

theorem witness_CommitStepsComplete :
    (let d : Decision := ⟨0, .commit, 0#256, 0#6, false, false, false, none⟩; let s : State := { s0.wf TM_LOCK_STATUS TM_LOCK_STATUS_STATE 3 with lock := { s0.lock with decision := some d, start := some 0 } }; let b : State := { s with lock := { s.lock with lateError := true } }; s.lockLive = true ∧ s.lock.decision = some d ∧ s.lockSt = 3 ∧ s.lock.committed = false ∧ s.drained = true ∧ s.lock.lateError = false ∧ d.outcome ≠ .hold ∧ s.lock.changes = [] ∧ b.drained = true ∧ b.lock.lateError = true) := by
  decide

theorem witness_LocksEndAfterTheirWindow :
    (let d : Decision := ⟨0, .commit, 0#256, 0#6, false, false, false, none⟩; let s : State := { (s0.wf TM_LOCK_STATUS TM_LOCK_STATUS_STATE 3).wrWide TM_NOW_0 3 (20000 * 65536) with lock := { s0.lock with decision := some d, start := some 0, committed := true } }; s.lockLive = true ∧ s.lock.decision = some d ∧ s.lock.start = some 0 ∧ s.lockSt = 3 ∧ s.lock.committed = true ∧ 0 + 20000 ≤ s.now) := by
  decide

theorem witness_AnchorStartsThePound :
    (let s : State := { s0 with sched := some (anImage 0 []) }; s.sched.isSome = true ∧ s.lockSt = 0 ∧ s.lock.anchor ≤ s.now ∧ s.fleet.adrift = false) := by
  decide

theorem witness_ScalarInstructionsComplete :
    (let s := running 0 0x1FFFFFC; Ready s 0 4 ∧ ((10#11).toNat, 1#64) ∈ [(9, 0#64), (10, if (0#64).toNat < (1#64).toNat then 1#64 else 0#64)] ∧ (0x80#16).toNat / 64 % 4 = 2 ∧ (0xC0#16).toNat / 64 % 4 = 3) := by
  decide

theorem witness_TillerLoadsAndStoresComplete :
    (let s := running 1023 0; Ready s 1023 4 ∧ (s.core 1023).ea 0 8#16 < 0x800000000 ∧ (s.core 1023).ea 0 0x7FF8#16 % 8 = 0 ∧ s.marked 8 1 8 8 = [] ∧ s.marked 8 2 8 8 = [])
    ∧ (let s := (running 0 0); PassesN s (s.self 0) 8 8 false ∧ PassesN s (s.self 0) 8 8 true ∧ PassesN s (s.self 0) 8 4 true ∧ PassesN s (s.self 0) 8 4 false) := by
  refine ⟨?_, ?_⟩ <;> decide

theorem witness_BranchesAndJumpsComplete :
    (Ready (running 5 0x1FFFFFC) 5 4) := by
  decide

theorem witness_TillerWaitsComplete :
    (let s := running 0 4; Ready s 0 4 ∧ (4#16).toNat = 4 ∧ (s.core 0).emptyQs (255 % 256) = true ∧ natBit (7 % 8) (s.core 0).issued = false ∧ (s.core 0).rg 0 ≤ s.now)
    ∧ (let s := running 0 4; let e : QEntry := ⟨0, 4, 0, ⟨0#32, 0#32, 0#32, 0#32⟩, [], true, 0, false⟩; let u := s.modCore 0 (fun k => { k with queue := [e], issued := 16 + 4, g := List.replicate 32 5#64, wake := true }); let w := s.modCore 0 (fun k => { k with g := List.replicate 32 5#64, wake := false }); Ready u 0 4 ∧ (u.core 0).emptyQs (16 % 256) = false ∧ natBit (2 % 8) (u.core 0).issued = true ∧ (u.core 0).inQ (2 % 8) = [] ∧ u.now < (u.core 0).rg 1 ∧ (u.core 0).wake = true ∧ w.now < (w.core 0).rg 1 ∧ (w.core 0).wake = false)
    ∧ (let s := (running 0 4).modCore 0 (fun k => { k with stall := .wfe 0 }); s.tstate 0 = 1 ∧ (s.core 0).stall = .wfe 0 ∧ 0 ≤ s.now) := by
  refine ⟨?_, ?_, ?_⟩ <;> decide

theorem witness_VectorOperationsComplete :
    (let s := running 0 0; let t : TileWords := ⟨0#32, 1026#32, 0#32, 0#32⟩; let z : TileWords := ⟨BitVec.ofNat 32 (4 * 2 ^ 15), 1026#32, 0#32, 0#32⟩; let ok : TileWords → Nat → Bool := fun t v => match s.vinstr 0 (entryOf s 0 (t.asVector v)) with | some i => s.vectorBounds 0 i == stOK && i.vop == v | none => false; Idle s 0 ∧ (List.range 15).all (fun v => v == 12 || ok t v) = true ∧ [0x10, 0x11, 0x12, 0x13, 0x14].all (ok z) = true) := by
  decide

theorem witness_IntegerLanesWrap :
    (let s := running 0 0; let z : TileWords := ⟨BitVec.ofNat 32 (4 * 2 ^ 15), 1026#32, 0#32, 0#32⟩; let i : Nat → VInstr := fun v => ⟨v, 4, false, 0, 2, 0, 1, 0, 1, 0, 0, 0, some .tiesEven⟩; Idle s 0 ∧ [0x00, 0x01, 0x02, 0x07, 0x08, 0x09, 0x0A, 0x0B, 0x0D, 0x0E, 0x10, 0x11, 0x12, 0x13, 0x14].all (fun v => s.vinstr 0 (entryOf s 0 (z.asVector v)) == some (i v) && s.vectorBounds 0 (i v) == stOK) = true ∧ vtype 4 = VType.int 32 true) := by
  decide

set_option maxRecDepth 20000 in
theorem witness_FloatLanesFollowIeee :
    (let s := running 0 0; let z : TileWords := ⟨BitVec.ofNat 32 0, 1026#32, 0#32, 0#32⟩; let i : Nat → VInstr := fun v => ⟨v, 0, false, 0, 2, 0, 1, 0, 1, 0, 0, 0, some .tiesEven⟩; Idle s 0 ∧ (List.range 12).all (fun v => s.vinstr 0 (entryOf s 0 (z.asVector v)) == some (i v) && s.vectorBounds 0 (i v) == stOK) = true ∧ vtype 0 = VType.fp fp32F) := by
  decide

set_option maxRecDepth 20000 in
theorem witness_VectorMovesLeaveTheirResults :
    (let s := running 0 0; let z : TileWords := ⟨BitVec.ofNat 32 (4 * 2 ^ 15), 1026#32, 5#32, 0#32⟩; let i : Nat → VInstr := fun v => ⟨v, 4, false, 0, 2, 0, 1, 0, 1, 5, 0, 5, some .tiesEven⟩; let st : TileWords := ⟨BitVec.ofNat 32 (4 * 2 ^ 15), 1026#32, 0#32, 0#32⟩; let j : VInstr := ⟨0x21, 4, false, 0, 2, 0, 1, 0, 1, 0, 0, 0, some .tiesEven⟩; Idle s 0 ∧ [0x0C, 0x18, 0x19, 0x28].all (fun v => s.vinstr 0 (entryOf s 0 (z.asVector v)) == some (i v) && s.vectorBounds 0 (i v) == stOK) = true ∧ vtype 4 = VType.int 32 true ∧ vtype (5 % 8) = VType.int 64 true ∧ s.vinstr 0 (entryOf s 0 (st.asVector 0x21)) = some j ∧ s.vectorBounds 0 j = stOK ∧ s.basinReach 0 256 = stOK ∧ s.ecc = [])
    ∧ (let s := (running 0 0).setBytes 512 (toBytes 8 (5 * 2 ^ 24 + 15030965 * 2 ^ 32)); let t : TileWords := ⟨0#32, 1026#32, 0#32, 0#32⟩; let w := t.asVector 0x22; Idle s 0 ∧ (match s.vinstr 0 (entryOf s 0 w) with | some i => s.vectorBounds 0 i == stOK && i.vop == 0x22 && i.nreg == 1 && i.sel == some .tiesEven && (let u := s.queued 0 w; u.checkBarges 0 i.addr isBargeFmt false [0] == (stOK, u)) && !(s.barge i.addr 0).invalid && decide (i.vd + bargeRegs (s.barge i.addr 0).fmt ≤ 32) | none => false) = true) := by
  refine ⟨?_, ?_⟩ <;> decide

set_option maxRecDepth 20000 in
theorem witness_VectorMovesAndReductionsComplete :
    (let s := running 0 0; let t : TileWords := ⟨0#32, 1026#32, 0#32, 0#32⟩; let ok : TileWords → Nat → Bool := fun t v => match s.vinstr 0 (entryOf s 0 (t.asVector v)) with | some i => s.vectorBounds 0 i == stOK && i.vop == v && s.basinReach i.addr (256 * i.nreg) == stOK | none => false; Idle s 0 ∧ s.ecc = [] ∧ [0x0C, 0x18, 0x19, 0x20, 0x21, 0x28].all (ok t) = true)
    ∧ (let s := (running 0 0).setBytes 512 (toBytes 8 (5 * 2 ^ 24 + 15030965 * 2 ^ 32)); let t : TileWords := ⟨0#32, 1026#32, 0#32, 0#32⟩; let w := t.asVector 0x22; let b : TileWords := ⟨0#32, BitVec.ofNat 32 (1026 + 2 ^ 20), 5#32, 0#32⟩; let x := b.asVector 0x23; let r := s.modCore 0 (fun k => { k with g := List.replicate 32 59#64 }); (match s.vinstr 0 (entryOf s 0 w) with | some i => s.vectorBounds 0 i == stOK && i.vop == 0x22 && (let u := s.queued 0 w; u.checkBarges 0 i.addr isBargeFmt false (List.range i.nreg) == (stOK, u) && (u.vecLdb 0 i 0 0 ⟨0, 0, u.streams 0⟩ i.nreg).1 == stOK) | none => false) = true ∧ (match r.vinstr 0 (entryOf r 0 x) with | some i => r.vectorBounds 0 i == stOK && i.vop == 0x23 && (r.record 0 (2 * natBits 6 13 i.imm) false).isSome | none => false) = true) := by
  refine ⟨?_, ?_⟩ <;> decide

theorem witness_MovesComplete :
    (let s := running 0 0; let t : TileWords := ⟨0#32, 1#32, 0#32, 0#32⟩; Idle s 0 ∧ (List.range 6).all (fun k => decide (MoveGood k 0 (entryOf s 0 (t.asMove k)) s)) = true ∧ s.basinReach 0 64 = stOK ∧ s.basinReach 0 4 = stOK ∧ s.ecc = []) := by
  decide

theorem witness_MatrixInstructionsComplete :
    (let s := running 0 0; let t : TileWords := ⟨0#32, 0#32, BitVec.ofNat 32 (3 * 2 ^ 24 + 3 * 2 ^ 28), 0#32⟩; let e := entryOf s 0 (t.asClass 0x30); let x := entryOf s 0 (t.asClass 0x35); let z : TileWords := ⟨0#32, 0#32, BitVec.ofNat 32 (8 * 2 ^ 24), 0#32⟩; let v := entryOf s 0 (z.asClass 0x31); Idle s 0 ∧ [e, x].all (fun e => gemmEncOk e.words && !e.words.dyn && !natBit 19 e.words.w0.toNat && s.tileBounds 0 e.words ⟨e.rg (e.words.f0 11 5), e.words.f2 24 4, e.words.kMax⟩ ⟨e.rg (e.words.f0 6 5), e.words.f2 28 4, e.words.kMax⟩ (e.words.f2 0 15) == stOK) = true ∧ (s.core 0).keyOk (e.words.f3 8 8) (keyOf e.words 0) false = true ∧ s.tileBad 0 e e.words ⟨e.rg (e.words.f0 11 5), e.words.f2 24 4, e.words.kMax⟩ ⟨e.rg (e.words.f0 6 5), e.words.f2 28 4, e.words.kMax⟩ = false ∧ convertEncOk v.words = true ∧ v.words.dyn = false ∧ s.convertBounds 0 v.words (v.rg (v.words.f0 11 5)) = stOK ∧ (s.recordsFrom 0 (v.words.f3 0 13) (natBit 24 v.words.w0.toNat) (natBit 23 v.words.w0.toNat) 0 v.words.nMax).isSome = true) := by
  decide

theorem witness_FencesComplete :
    (let s := running 0 0; let t : TileWords := ⟨0#32, 0#32, 0#32, 0#32⟩; let u := s.modCore 0 (fun k => { k with unacked := 1, queue := [⟨0, 0, 0, t, [], true, 0, false⟩] }); Ready s 0 16 ∧ Ready u 0 16 ∧ ((t.asOwn 0x36 0).f0 0 16 = 0 ∧ (t.asOwn 0x36 3).f3 0 24 = 0 ∧ (s.core 0).emptyQs (t.asOwn 0x36 3).waitm = true) ∧ s.fenceMet 0 0 0 = true ∧ s.fenceMet 0 1 0 = true ∧ s.fenceMet 0 2 0 = true ∧ s.fenceMet 0 3 0 = true ∧ u.fenceMet 0 0 1 = false ∧ u.fenceMet 0 1 0 = false ∧ u.fenceMet 0 2 0 = false ∧ s.rf (CO_TSTATUS 0) CO_TSTATUS_TOKENS = 0 ∧ s.isLocal ⟨0, 0⟩ = true ∧ masterOf 0 = .tiller 0 ∧ masterOf (0xC00#12).toNat = .engine 2048) := by
  decide

theorem witness_ClaimsComplete :
    (let t : TileWords := ⟨BitVec.ofNat 32 (2 ^ 23), 0#32, 0#32, 0#32⟩; let s := (running 0 0).wf (claimReg true 0 0 0) KP_CLAIM_ARMING_LIMIT 5; let w := t.asOwn 0x34 0; let x := t.asOwn 0x34 1; Ready s 0 16 ∧ w.f0 16 1 = 0 ∧ w.f0 0 6 = 0 ∧ w.f3 0 24 = 0 ∧ (s.core 0).emptyQs w.waitm = true ∧ natBit 23 w.w0.toNat = true ∧ w.f0 17 6 < 16 ∧ s.claimLimit true 0 0 ≠ 0 ∧ s.rf (CO_TSTATUS 0) CO_TSTATUS_TOKENS < 4 ∧ (s.claim (claimKey true 0 0)).reclaim = [] ∧ s.rf (claimReg true 0 0 1) KP_CLAIM_PROGRESS_NEXT < s.claimLimit true 0 0 ∧ x.f0 16 1 = 0 ∧ x.f0 0 6 = 0 ∧ x.f3 0 24 = 0 ∧ (s.core 0).emptyQs x.waitm = true ∧ natBit 23 x.w0.toNat = true ∧ x.f0 17 6 < 16 ∧ s.fenceMet 0 1 0 = true)
    ∧ (let t : TileWords := ⟨BitVec.ofNat 32 (2 ^ 23), 0#32, 0#32, 0#32⟩; let w := t.asOwn 0x34 0; let s := ((running 0 0).wf (claimReg true 0 0 0) KP_CLAIM_ARMING_LIMIT 5).modCore 0 (fun k => { k with stall := .tile w }); s.tstate 0 = 1 ∧ (s.core 0).stall = .tile w ∧ w.cls = 0x34 ∧ w.f0 24 2 = 0 ∧ (s.runClaim 0 w).isSome = true) := by
  refine ⟨?_, ?_⟩ <;> decide

theorem witness_QueueEventsComplete :
    (let e : QEntry := ⟨3, 7, 0, ⟨0#32, 0#32, 0#32, 0#32⟩, [], true, 0x10, false⟩; let s := (running 0 0).modCore 0 (fun k => { k with queue := [e] }); let f : QEntry := ⟨3, 4, 0, ⟨0#32, 0#32, 0#32, 0#32⟩, [], false, 0, false⟩; let u := (running 0 0).modCore 0 (fun k => { k with stall := .queueFull f }); (s.core 0).queue = [e] ∧ e.q = (7 : Fin 8).val ∧ e.started = true ∧ stInformational e.status = true ∧ (s.core 0).stall = .none ∧ (u.core 0).stall = .queueFull f ∧ u.tstate 0 = 1 ∧ ((u.core 0).inQ f.q).length < 8 ∧ f.q < 5) := by
  decide

set_option maxRecDepth 20000 in
theorem witness_RingQueueCommandsComplete :
    (let s : State := ((s0.wf (KP_RING_OWNER 15) KP_RING_OWNER_OWNER 0xD00).wb (KP_RING_CFG 15) KP_RING_CFG_EN true).wf (KP_RING_STATUS 15) KP_RING_STATUS_STATE 1; PassesN s keeper (doorbellBase + 8 * 15) 8 true ∧ s.rf (KP_RING_OWNER 15) KP_RING_OWNER_OWNER = identWord keeper ∧ s.rb (KP_RING_CFG 15) KP_RING_CFG_EN = true ∧ s.ringAhead 15 ≤ 1 ∧ (natBits 0 32 (1#64).toNat + 2 ^ 32 - s.rd (KP_RING_CONS 15)) % 2 ^ 32 = 1 ∧ 1 ≤ s.ringSlots 15 ∧ s.rf (KP_RING_OWNER 15) KP_RING_OWNER_OWNER ≠ identWord control0 ∧ s.ringSlots 15 < 17 ∧ s.ringAhead 15 ≤ 17)
    ∧ (let s : State := (((s0.wb (KP_RING_CFG 0) KP_RING_CFG_EN true).wf (KP_RING_STATUS 0) KP_RING_STATUS_STATE 1).wr (KP_RING_PROD 0) 1).wrWide (KP_RING_BASE_0 0) 2 ksramBase; s.ringReady 0 = true ∧ s.resolve (s.ringAddr 0 (s.rd (KP_RING_CONS 0))) = some (s.devId, ksramBase) ∧ (s.checkLocal (s.self 0xD00) ksramBase 64 false).1 = stOK ∧ (s.memRd ksramBase 64).1 = stOK)
    ∧ (let s : State := (((s0.wb (KP_RING_CFG 0) KP_RING_CFG_EN true).wf (KP_RING_STATUS 0) KP_RING_STATUS_STATE 1).wr (KP_RING_PROD 0) 1).wrWide (KP_RING_BASE_0 0) 2 ksramBase; let z : State := (s.wf (KP_FLEET_ID) KP_FLEET_ID_DEV_ID 3).wrWide (KP_RING_BASE_0 0) 2 (2 ^ 62 + 5 * 2 ^ 48); z.ringReady 0 = true ∧ z.resolve (z.ringAddr 0 (z.rd (KP_RING_CONS 0))) = some (5, 0) ∧ 5 ≠ z.devId)
    ∧ (let s : State := (((s0.wb (KP_RING_CFG 0) KP_RING_CFG_EN true).wf (KP_RING_STATUS 0) KP_RING_STATUS_STATE 1).wr (KP_RING_PROD 0) 1).wrWide (KP_RING_BASE_0 0) 2 ksramBase; let z : State := (s.wf (KP_FLEET_ID) KP_FLEET_ID_DEV_ID 3).wrWide (KP_RING_BASE_0 0) 2 (2 ^ 62 + 5 * 2 ^ 48); let y : State := { z with remotes := [⟨⟨3#14, 0xD00#12⟩, 4613093393310941184, 64, 1, some (stOK, [5#8]), false, none⟩] }; z.self 0xD00 = ⟨3#14, 0xD00#12⟩ ∧ z.ringAddr 0 0 = 4613093393310941184 ∧ z.remoteGot ⟨3#14, 0xD00#12⟩ 4613093393310941184 64 = none ∧ y.remoteGot ⟨3#14, 0xD00#12⟩ 4613093393310941184 64 = some (stOK, [5#8]) ∧ y.ringReady 0 = true)
    ∧ (let h : State := s0.wf (KP_RING_STATUS 0) KP_RING_STATUS_STATE 2; Passes h keeper (KP_RING_CTRL 0) true ∧ h.rf (KP_RING_STATUS 0) KP_RING_STATUS_STATE = 2) := by
  refine ⟨?_, ?_, ?_, ?_, ?_⟩ <;> decide

theorem witness_FetchedDescriptorsStandInOrder :
    (ringOpOk (natBits 0 8 4) = true) := by
  decide

theorem witness_RingCommandsComplete :
    (let d : RingExec := ⟨7, [0, 0, ksramBase, 64, 0, 0, 0, 0], false, none, false, none⟩; let s : State := s0.setRing 2 [d]; let t : State := s0.setRing 2 [{ d with words := [1, 0, ksramBase, 64, 0, 0, 0, 0] }]; let im := anImage 1000000 []; let u : State := (s0.wf TM_LOCK_STATUS TM_LOCK_STATUS_STATE 1).setRing 2 [{ d with words := [1 + 2 ^ 10, 9, ksramBase, 64, 0, 0, 0, 0] }]; (s.ringBegin 2 (7#32).toNat 0 = some d) ∧ t.ringBegin 2 7 1 = some { d with words := [1, 0, ksramBase, 64, 0, 0, 0, 0] } ∧ t.dmaRangeOk (t.self 0xD00) ksramBase 64 false = true ∧ t.lockSt = 0 ∧ t.schedBad im true = false ∧ u.lockSt = 1 ∧ (u.ringBegin 2 7 1).isSome = true ∧ u.epochPast 9 = false ∧ u.schedBad im false = false ∧ u.dmaRangeOk (u.self 0xD00) ksramBase 64 false = true)
    ∧ (let w := [2 + 2 ^ 10, 9, ksramBase, 1, 0, 0, 0, 0]; let s : State := (s0.setRing 2 [⟨7, w, false, none, false, none⟩]).setBytes ksramBase (toBytes 8 (TM_LOCK_CTRL) ++ toBytes 8 5); let z : State := (s0.wf (KP_FLEET_ID) KP_FLEET_ID_DEV_ID 3).setRing 2 [⟨7, [2 + 2 ^ 10, 9, 2 ^ 62 + 5 * 2 ^ 48, 1, 0, 0, 0, 0], false, none, false, none⟩]; s.ringBegin 2 7 2 = some ⟨7, w, false, none, false, none⟩ ∧ (⟨7, w, false, none, false, none⟩ : RingExec).eb = true ∧ s.allGot (s.self 0xD00) (listPieces ksramBase 1) = true ∧ z.allGot (z.self 0xD00) (listPieces (2 ^ 62 + 5 * 2 ^ 48) 1) = false ∧ (z.ringBegin 2 7 2).isSome = true ∧ z.epochPast 9 = false ∧ s.epochPast 9 = false ∧ (s.configList ksramBase 1).1 = stOK ∧ (s.configList ksramBase 1).2.2.portsBad (s.configList ksramBase 1).2.1 = false) := by
  refine ⟨?_, ?_⟩ <;> decide

set_option maxRecDepth 20000 in
theorem witness_ServeAndCopyComplete :
    (let d : RingExec := ⟨7, [3, 0, ksramBase, 0, 0, 0, 0, 0], true, some 0, true, none⟩; let s : State := (s0.setRing 2 [d]).wf (KP_RING_OWNER 2) KP_RING_OWNER_OWNER (identWord keeper); let q : RingExec := { d with epoch := some 7 }; let v : State := s; let s : State := s.setRing 2 [q]; let n := (d.reqTotal + 64 + 63) / 64; (s.ring 2).find? (fun d => d.index == (7#32).toNat && d.op == 3 && d.served) = some q ∧ (v.ring 2).find? (fun d => d.index == (7#32).toNat && d.op == 3 && d.served) = some d ∧ (s.requestRead 2 q n).1 = stOK ∧ q.epoch.all (fun e => (s.requestRead 2 q n).2.retained e) = false ∧ (v.requestRead 2 d n).1 = stOK ∧ d.epoch.all (fun e => (v.requestRead 2 d n).2.retained e) = true)
    ∧ (let c : RingExec := ⟨7, [4, 0, ksramBase, ksramBase, 0, 0, 0, 0], false, none, false, some 2048⟩; let t : State := s0.setRing 2 [c]; let f : RingExec := { c with words := [4, 0, 2 ^ 62 + 5 * 2 ^ 48, ksramBase, 64, 0, 0, 0] }; let z : State := (s0.wf (KP_FLEET_ID) KP_FLEET_ID_DEV_ID 3).setRing 2 [f]; let u : State := s0.setRing 2 [{ c with begun := true, engine := some 2048 }]; t.ringBegin 2 (7#32).toNat 4 = some c ∧ t.lockSt ≠ 3 ∧ t.copyRemote c = [] ∧ ((t.copyMoved (t.copyMove 2048 c).2 2048 []).engine 2048).remote = 0 ∧ z.ringBegin 2 7 4 = some f ∧ z.allGot (z.engineId 2048) (z.copyRemote f) = false ∧ u.ringBegin 2 7 4 = none ∧ (u.ring 2).find? (fun d => d.index == (7#32).toNat && d.op == 4 && d.begun) = some { c with begun := true, engine := some 2048 } ∧ (u.engine 2048).remote = 0) := by
  refine ⟨?_, ?_⟩ <;> decide

set_option maxRecDepth 20000 in
theorem witness_FragmentsComplete :
    (let pl : Plan := ⟨4, 64⟩; let h : ServeHeader := ⟨1#8, 1#8, 0#8, 0#8, 4#16, 0#8, 0#8, 9#64, 0#48, 0#8, 0#8, 8#32, 0#32, 7#128, 5#16⟩; let s : State := { ((((s0.wf (LK_CFG 15) LK_CFG_MODE 1).wb (WH_INTAKE_CFG 7 1) WH_INTAKE_CFG_EN true).wf TM_LOCK_STATUS TM_LOCK_STATUS_STATE 1).wf (PW_DOM 3) PW_DOM_STATE 2) with sched := some { anImage 0 [] with plans := [pl] } }; let x : Reassembly := ⟨7, 5, 9, 0, h, [], [], 0, 4096⟩; let t : State := s.setPort 15 ⟨[x], [], [(0, 4096)], 0, 0, false⟩; let w : State := ((s.wf (WH_INTAKE_SIZE 7 1) WH_INTAKE_SIZE_SIZE_MIB 16).wf KP_BOOT_STATUS KP_BOOT_STATUS_STAGE 7); s.intakeOn 15 = true ∧ s.portOn 15 = true ∧ s.fragmentStatus 15 h = stOK ∧ s.portRbLow 15 = true ∧ t.fragmentStatus 15 h = stOK ∧ (s.port 15).reasm = [] ∧ (t.port 15).reasm.find? (fun x => x.of h) = some x ∧ s.fragmentStatus 15 { h with ver := 2#8 } ≠ stOK ∧ t.fresh x 0 [5#8] = ([5#8], t) ∧ ({ x with frags := [(0, [5#8])], fidx := [0] } : Reassembly).complete = false ∧ ({ x with frags := [(0, List.replicate 8 5#8)], fidx := [0] } : Reassembly).complete = true ∧ w.portRbLow 15 = false ∧ ¬ w.poolFree 15 < poolBytes 8 ∧ w.fragmentStatus 15 h = stOK) := by
  decide

theorem witness_IntakeCommandsComplete :
    (let h : ServeHeader := ⟨1#8, 1#8, 0#8, 0#8, 4#16, 0#8, 0#8, 9#64, 0#48, 0#8, 0#8, 8#32, 0#32, 7#128, 5#16⟩; let x : Reassembly := ⟨7, 5, 9, 0, h, [], [], 0, 4096⟩; let t : State := (s0.wrWide TM_NOW_0 3 (10000000 * 65536)).setPort 0 ⟨[x], [(7, 5, 9, 0), (7, 5, 8, 0)], [(0, 4096)], 0, 0, false⟩; (t.port 0).reasm.find? (fun x => x.client == (7#128).toNat && x.clientPort == (5#16).toNat && x.reqId == (9#64).toNat) = some x ∧ x.first + 10000000 ≤ t.now)
    ∧ (let d : RingExec := ⟨3, [3, 0, ksramBase, 8 + 4 * 2 ^ 32, 0, 0, 0, 0], false, none, false, none⟩; let im := { anImage 0 [] with plans := [⟨4, 64⟩] }; let s : State := { ((s0.wf TM_LOCK_STATUS TM_LOCK_STATUS_STATE 1).setRing 15 [d]).wf (KP_RING_OWNER 15) KP_RING_OWNER_OWNER (identWord keeper) with sched := some im, lock := { s0.lock with history := [(0, 0)] } }; let v := s.setPort 0 { s.port 0 with slotAt := s.now + 1 }; s.sched = some im ∧ s.slotDue 0 = true ∧ d.reqClass = 0 ∧ (v.requestRead 15 d 1).1 = stOK ∧ 0 < im.quota ∧ s.ring 15 = [d] ∧ (List.range 15).all (fun x => s.ring x == []) = true ∧ d.op = 3 ∧ (s.replyTo d).2.2 = 0 ∧ (s.planOf d.reqPlan).isSome = true ∧ s.retained (s.bindEpoch d) = true) := by
  refine ⟨?_, ?_⟩ <;> decide

theorem witness_DmaControlCompletes :
    (let e : EngineId := 2048; let s : State := running 0 0; let t : State := running 0 0; let z : State := (running 0 0).wf (CO_TSTATUS 0) CO_TSTATUS_STATE 0; Passes z keeper (DM_GO 1) true ∧ masterOf keeper.num.toNat = .keeper ∧ z.tstate 0 ≠ 1 ∧ Passes s keeper (DM_GO e) true ∧ 2048 ≤ e.val ∧ (s.engine e).chains.length < 8 ∧ Passes t (t.self 0) (DM_GO 1) true ∧ engineCore 1 = some 0 ∧ t.isLocal (t.self 0) = true ∧ (t.self 0).num.toNat = 0)
    ∧ (let s : State := ((running 0 0).setEngine 0 ⟨[⟨0, 2, none⟩], 0, none, none, stOK_EMPTY, 0, 0⟩).wf (DM_STATUS 0) DM_STATUS_STATE 1; let f := s.dmaFetch 0 (s.engine 0).descAddr; let d : DmaDesc := (natBits 0 64 f.2.1, natBits 64 64 f.2.1, natBits 128 64 f.2.1, natBits 192 64 f.2.1); let t : State := (running 0 0).setEngine 0 ⟨[⟨0, 2, none⟩], 1, some d, some stOK, stOK_EMPTY, 0, 0⟩; let u : State := (running 0 0).setEngine 0 ⟨[⟨0, 2, none⟩], 0, some d, some stOK, stOK_EMPTY, 0, 0⟩; let h : State := s.wf (DM_STATUS 0) DM_STATUS_STATE 2; let q : State := ((s0.wf (KP_FLEET_ID) KP_FLEET_ID_DEV_ID 3).setEngine 2048 ⟨[⟨2 ^ 62 + 5 * 2 ^ 48, 2, none⟩], 0, none, none, stOK_EMPTY, 0, 0⟩).wf (DM_STATUS 2048) DM_STATUS_STATE 1; s.rf (DM_STATUS 0) DM_STATUS_STATE = 1 ∧ (s.engine 0).chains ≠ [] ∧ (s.engine 0).desc = none ∧ s.lockSt ≠ 3 ∧ s.allGot (s.engineId 0) [((s.engine 0).descAddr, 32)] = true ∧ q.allGot (q.engineId 2048) [((q.engine 2048).descAddr, 32)] = false ∧ (q.engine 2048).descAddr % 32 = 0 ∧ q.rf (DM_STATUS 2048) DM_STATUS_STATE = 1 ∧ f.1 = stOK ∧ (f.2.2.dmaCheck 0 d).1 = stOK ∧ (t.engine 0).moved = some stOK ∧ (t.engine 0).chains = [⟨0, 2, none⟩] ∧ 2 ≤ (t.engine 0).index + 1 ∧ (u.engine 0).index + 1 < 2 ∧ Passes h keeper (DM_CTRL 0) true ∧ h.rf (DM_STATUS 0) DM_STATUS_STATE = 2) := by
  refine ⟨?_, ?_⟩ <;> decide

set_option maxRecDepth 20000 in
theorem witness_DmaOperationsComplete :
    (let mk := fun (op x : Nat) => (((64, 128, x + op * 2 ^ 40, 0) : DmaDesc)); let st := fun (op x : Nat) => (((running 0 0).setEngine 0 ⟨[⟨0, 2, none⟩], 0, some (mk op x), none, stOK_EMPTY, 0, 0⟩).wf (DM_STATUS 0) DM_STATUS_STATE 1).setBytes 64 (List.replicate 64 5#8); (st 0 64).ecc = [] ∧ dDst (mk 0 64) < 0x800000000 ∧ dLen (mk 0 64) = 64 ∧ dRows (mk 0 64) = 1 ∧ dNarrow (mk 0 64) = false ∧ ((st 0 64).checkLocal ((st 0 64).engineId 0) 128 64 true).1 = stOK ∧ dDst (mk 0 64) % 64 = 0 ∧ ((st 0 64).checkLocal ((st 0 64).engineId 0) 64 64 false).1 = stOK ∧ (st 0 64).dmaMay 0 0 = some (mk 0 64) ∧ (st 1 64).dmaMay 0 1 = some (mk 1 64) ∧ (st 4 0).dmaMay 0 4 = some (mk 4 0) ∧ ((st 4 0).checkLocal ((st 4 0).engineId 0) 128 8 true).1 = stOK)
    ∧ (let m : DmaDesc := (hbmBase, hbmBase + 64, 64 + 2 * 2 ^ 40 + 3 * 2 ^ 44, 0); let b : DmaDesc := (0, 1152, 1 + 3 * 2 ^ 40, 0); let z : DmaDesc := (0, 1152, 3 * 2 ^ 40, 0); let r : DmaDesc := (2 ^ 62 + 5 * 2 ^ 48, 1152, 64, 0); let st := fun (d : DmaDesc) => ((running 0 0).setEngine 0 ⟨[⟨0, 2, none⟩], 0, some d, none, stOK_EMPTY, 0, 0⟩).wf (DM_STATUS 0) DM_STATUS_STATE 1; let rd := (st m).dmaRd 0 hbmBase 64; let ms := rd.2.2.msop (rd.2.2.engineId 0) (hbmBase + 64) 3 0 0; let gg := (st b).getGroup 0 0; let pg := gg.2.2.putGroup 0 (dCls b) 1152 (some 0) (1152, 576) gg.2.1; let far := (st r).wf (KP_FLEET_ID) KP_FLEET_ID_DEV_ID 3; dLen m ≠ 0 ∧ ((st m).dmaRows 0 m 0 (dRows m)).1 = .ok ∧ (st m).dmaMay 0 2 = some m ∧ dLen b ≠ 0 ∧ ((st b).dmaRows 0 b 0 (dRows b)).1 = .ok ∧ (st b).dmaMay 0 3 = some b ∧ dRows m = 1 ∧ (st m).dmaRemote m = [] ∧ dLen m = 64 ∧ dMtype m = 3 ∧ dMop m = 0 ∧ rd.1 = stOK ∧ ms.1 = stOK ∧ rd.2.2.resolve (hbmBase + 64) = some (rd.2.2.devId, hbmBase + 64) ∧ dLen b = 1 ∧ dRows b = 1 ∧ gg.1 = .ok ∧ pg.1 = .ok ∧ dCrc b = false ∧ (st z).dmaMay 0 3 = some z ∧ dLen z = 0 ∧ far.dmaMay 0 0 = some r ∧ far.allGot (far.engineId 0) (far.dmaRemote r) = false) := by
  refine ⟨?_, ?_⟩ <;> decide

theorem witness_MailboxSendsComplete :
    (let s : State := (running 0 0).modCore 0 (fun k => { k with g := (List.replicate 32 0#64).set 1 (BitVec.ofNat 64 (mbBase 5)) }); let a : Nat := 2 ^ 62 + 5 * 2 ^ 48 + mbBase 5; let z : State := (((running 0 0).wf (KP_FLEET_ID) KP_FLEET_ID_DEV_ID 3).wf (LK_STATE 2 0) LK_STATE_STATE 3).modCore 0 (fun k => { k with g := (List.replicate 32 0#64).set 1 (BitVec.ofNat 64 a) }); let w : State := { z with fleet := { z.fleet with bank0 := [(5, 0x82)] } }; Ready s 0 4 ∧ s.resolve ((s.core 0).rg 1) = some (s.devId, mbBase 5) ∧ Ready w 0 4 ∧ w.resolve ((w.core 0).rg 1) = some (5, mbBase 5) ∧ 5 ≠ w.devId ∧ w.egressStatus 5 0 = stOK)
    ∧ (let s : State := running 1023 0; Passes s keeper (MB_MSG_0 4095) true)
    ∧ (let d : Send := ⟨keeper, mbBase 5, 9#128, none, none⟩; let s : State := { (((running 1 0).wb (MB_BIND_0 5) MB_BIND_0_VALID true).wf (MB_BIND_0 5) MB_BIND_0_SMASK 0).wf (MB_BIND_1 5) MB_BIND_1_SDEV 0 with sends := [d] }; let f : State := s.wb (MB_STATUS 5) MB_STATUS_FULL true; let n : State := s.wb (MB_BIND_0 5) MB_BIND_0_VALID false; let a : State := s.wf (CD_CORE_MAP 0 1) CD_CORE_MAP_PRESENT 0; target d.addr = .reg (.mb 5) 0 ∧ s.present (5 / 4) = true ∧ s.inReset (5 / 4) = false ∧ s.permits d.src (.reg (.mb 5) 0x10) true = true ∧ s.bound 5 d.src = true ∧ s.full 5 = false ∧ f.full 5 = true ∧ n.bound 5 d.src = false ∧ a.present 1 = false) := by
  refine ⟨?_, ?_, ?_⟩ <;> decide

set_option maxRecDepth 20000 in
set_option exponentiation.threshold 600 in
theorem witness_MailboxCommandsComplete :
    (let s : State := running 0 0; let t : State := ((running 0 0).wb (MB_STATUS 3) MB_STATUS_FULL true).setChan 3 (BitVec.ofNat 128 (9 + 7 * 2 ^ 64)); let n : State := (running 0 0).setNotes 0 [9#64, 8#64]; Ready s 0 4 ∧ Ready t 0 4 ∧ Ready n 0 4 ∧ t.full (4 * 0 + 3 % 4) = true ∧ t.rb (MB_STATUS 3) MB_STATUS_WAITING = false ∧ s.full (4 * 0 + 2 % 4) = false ∧ s.notesOf 0 = [] ∧ n.notesOf 0 = [9#64, 8#64] ∧ (15#11).toNat < 16)
    ∧ (let s : State := running 1023 0; let k := 0x80000000 + identWord keeper; let u := s.wr (MB_LOCK 4095) k; Passes s keeper (MB_LOCK 4095) false ∧ s.rd (MB_LOCK 4095) = 0 ∧ Passes s keeper (MB_LOCK 4095) true ∧ u.rd (MB_LOCK 4095) = k ∧ Passes u control0 (MB_LOCK 4095) false ∧ u.rd (MB_LOCK 4095) ≠ 0x80000000 + identWord control0)
    ∧ (let m : Ident := ⟨0#14, 5#12⟩; let s : State := { s0 with notesOut := [(m, 9#64)] }; let f : State := s.setNotes 5 (List.replicate 8 1#64); let y : Flit := ⟨0#2, .head, BitVec.ofNat 512 (headBits (noteHead ⟨1#14, 0xD00#12⟩ m 9#64))⟩; let g : State := (s0.wf KP_FLEET_ID KP_FLEET_ID_ROLE 1).modSub 15 7 (fun k => { k with rx := [y] }); let z : Flit := ⟨0#2, .head, BitVec.ofNat 512 (headBits (noteHead ⟨1#14, 0xD00#12⟩ control0 9#64))⟩; let h : State := (s0.wf KP_FLEET_ID KP_FLEET_ID_ROLE 1).modSub 0 0 (fun k => { k with rx := [z] }); h.notesOut = [] ∧ h.noteIn = some (0, z, control0, 9#64) ∧ h.isLocal control0 = true ∧ g.notesOut = [] ∧ g.noteIn = some (127, y, m, 9#64) ∧ g.isLocal m = true ∧ (g.notesOf 5).length < 8 ∧ s.isLocal m = true ∧ masterOf m.num.toNat = .tiller 5 ∧ (s.notesOf 5).length < 8 ∧ 8 ≤ (f.notesOf 5).length ∧ s0.isLocal ⟨1#14, 5#12⟩ = false ∧ s.isLocal keeper = true ∧ masterOf keeper.num.toNat = .keeper ∧ masterOf control0.num.toNat = .control 0) := by
  refine ⟨?_, ?_, ?_⟩ <;> decide

theorem witness_TrainingCommandsComplete :
    (let s : State := (running 1023 0).wf (CO_TSTATUS 1023) CO_TSTATUS_STATE 0; Passes s keeper (CO_OBS 1023 2047) true ∧ s.tstate 1023 ≠ 1 ∧ Passes s keeper (CO_GN_PART_0 1023) true ∧ Passes s keeper (CO_LOSS_0 1023) true)
    ∧ (let s : State := (s0.wb KP_TRAIN_CTRL KP_TRAIN_CTRL_GN_EN true).wf TM_LOCK_STATUS TM_LOCK_STATUS_STATE 1; let t : State := { s with train := { s.train with sum := some 5 } }; let u : State := { s with train := { s.train with sum := some 5, result := some (1, 2, false), samples := [(0, 5)] } }; let v : State := (t.wf KP_FLEET_ID KP_FLEET_ID_ROLE 3); let l : State := (t.wf KP_FLEET_ID KP_FLEET_ID_ROLE 2); s.gnEn = true ∧ s.inPound = true ∧ s.train.sum = none ∧ s.gnReady = true ∧ s.role ≠ 1 ∧ (s.wf KP_FLEET_ID KP_FLEET_ID_ROLE 1).role = 1 ∧ t.train.sum = some 5 ∧ t.train.result = none ∧ t.inPound = true ∧ t.role = 0 ∧ v.role = 3 ∧ l.role = 2 ∧ l.summed.all (fun _ => false) = true ∧ v.summed.all (fun _ => false) = true ∧ u.train.delivered = false ∧ u.train.sum.isSome = true ∧ u.role = 0 ∧ u.train.result = some (1, 2, false) ∧ u.train.samples = [(0, 5)]) := by
  refine ⟨?_, ?_⟩ <;> decide

theorem witness_LinkTrainingCommandsComplete :
    (let s : State := s0.setLink 0 0 1; let o : State := ((s0.setLink 15 0 2).wb (LK_STATE 15 0) LK_STATE_KPH false).modSub 15 0 (fun k => { k with readySent := true, readyPeer := true, credits := [1, 1, 1, 1] }); let n : State := s.wf (LK_LANES 0) LK_LANES_FAILED 255; s.linkSt 0 0 = 1 ∧ s.subExists 0 0 = true ∧ ((s.wf (LK_LANES 0) LK_LANES_FAILED (s.rf (LK_LANES 0) LK_LANES_FAILED ||| ((1#8).toNat &&& laneMask (0 * s.nominal 0) (s.nominal 0)))).laneGroup 0 0 3 = some (2, 4)) ∧ o.linkSt 15 0 = 2 ∧ (o.sub 15 0).readySent = true ∧ (o.sub 15 0).readyPeer = true ∧ (o.sub 15 0).keyReadyWaits = false ∧ (o.sub 15 0).queue = [] ∧ o.tx = [] ∧ (o.sub 15 0).resend = none ∧ o.replayRoom 15 0 = true ∧ n.laneGroup 0 0 3 = none ∧ o.fleet.adrift = false) := by
  decide

set_option maxRecDepth 20000 in
theorem witness_LinkRecoveryCommandsComplete :
    (let a : State := s0.setLink 0 0 3; let b : State := s0.setLink 0 0 4; let r : State := s0.setLink 0 0 5; let o : State := r.modSub 0 0 (fun k => { k with back := 2 }); let w : State := r.modSub 0 0 (fun k => { k with back := 4 }); let n : State := r.wf (LK_LANES 0) LK_LANES_FAILED 255; a.linkSt 0 0 = 3 ∧ (0 : Fin 8).val / a.nominal 0 = 0 ∧ a.subExists 0 0 = true ∧ b.linkSt 0 0 = 4 ∧ r.linkSt 0 0 = 5 ∧ (r.sub 0 0).back = 3 ∧ r.laneGroup 0 0 3 = some (3, 0) ∧ (o.sub 0 0).back = 2 ∧ (w.sub 0 0).back = 4 ∧ n.laneGroup 0 0 3 = none ∧ n.laneGroup 0 0 0 = none ∧ n.linkSt 0 0 = 5)
    ∧ (let r : State := ((s0.setLink 0 0 5).wrWide TM_NOW_0 3 (100000000 * 65536)); let d : State := (s0.wf (PW_DOM 0) PW_DOM_STATE 2).wrWide TM_NOW_0 3 (1000000000 * 65536); let e : State := (s0.wf (LK_CFG 0) LK_CFG_MODE 1).wf (PW_DOM 0) PW_DOM_STATE 2; let u : State := e.setLink 0 1 6; let q : State := d.modSub 15 0 (fun k => { k with replay := [⟨0, 0, ⟨0#20, 0#20, false, false, 0#2, 0#12, [], 0, 0#64⟩⟩] }); let v : State := { q with net := { q.net with reconf := [(15, 1, 0, 0)] } }; d.net.reconf.any (fun x => x.1 == 15) = false ∧ (List.range 8).all (fun b => (d.sub 15 b).replay == []) = true ∧ (q.sub 15 0).replay ≠ [] ∧ v.portDrained 15 0 = true ∧ r.linkSt 0 0 = 5 ∧ (r.sub 0 0).trainAt + 100000000 ≤ r.now ∧ d.linkSt 0 0 = 0 ∧ d.subExists 0 0 = true ∧ d.portOn 0 = true ∧ (d.sub 0 0).downAt + 1000000000 ≤ d.now ∧ d.portCfgOk 15 (0#2).toNat (3#2).toNat = true ∧ e.ethPort 0 = true ∧ e.portOn 0 = true ∧ u.linkSt 0 (1 : Fin 2) = 6) := by
  refine ⟨?_, ?_⟩ <;> decide

set_option maxRecDepth 20000 in
theorem witness_LinkControlCommandsComplete :
    (let s : State := s0.setLink 15 0 3; let t : State := s0.setLink 15 0 4; let r : State := s0.setLink 15 0 5; let v : State := t.wf (PW_DOM 3) PW_DOM_STATE 2; let c : State := s.modSub 15 0 (fun k => { k with towSince := some 0 }); s.subExists 15 0 = true ∧ Passes s keeper (LK_CTRL 15 0) true ∧ s.linkSt 15 0 = 3 ∧ s.linkMoves 15 0 = false ∧ t.linkSt 15 0 = 4 ∧ t.linkMoves 15 0 = false ∧ t.subExists 15 0 = true ∧ Passes t keeper (LK_CTRL 15 0) true ∧ r.linkSt 15 0 = 5 ∧ r.linkMoves 15 0 = true ∧ (r.sub 15 0).towSince = none ∧ c.linkMoves 15 0 = true ∧ (c.sub 15 0).towSince ≠ none ∧ c.linkSt 15 0 = 3 ∧ t.portOn 15 = false ∧ v.linkSt 15 0 = 4 ∧ v.portOn 15 = true ∧ v.subExists 15 0 = true ∧ Passes v keeper (LK_CTRL 15 0) true ∧ Passes r keeper (LK_CTRL 15 0) true) := by
  decide

set_option maxRecDepth 20000 in
theorem witness_TowpathChangesComplete :
    (let s : State := s0.setLink 15 0 3; let c : State := s.modSub 15 0 (fun k => { k with towSince := some 0 }); let e : State := s.modSub 15 0 (fun k => { k with towSince := some 0, enterSent := true }); let q : State := s.modSub 15 0 (fun k => { k with towSince := some 0, towPeer := true }); let f : State := ((s0.setLink 15 0 4).wf (PW_DOM 3) PW_DOM_STATE 2).modSub 15 0 (fun k => { k with fullSince := some 0 }); let n : State := f.wf (LK_LANES 15) LK_LANES_FAILED 255; (c.sub 15 0).towSince = some 0 ∧ c.linkSt 15 0 = 3 ∧ (c.sub 15 0).resend = none ∧ (c.sub 15 0).towPeer = false ∧ (c.sub 15 0).enterSent = false ∧ (c.sub 15 0).replay = [] ∧ (e.sub 15 0).enterSent = true ∧ (e.sub 15 0).queue.any Flit.towpathEnter = false ∧ (q.sub 15 0).towSince = some 0 ∧ q.linkSt 15 0 = 3 ∧ (q.sub 15 0).towPeer = true ∧ f.linkSt 15 0 = 4 ∧ (f.sub 15 0).fullSince.isSome = true ∧ f.portOn 15 = true ∧ f.laneGroup 15 0 3 = some (3, 0) ∧ f.fleet.adrift = false ∧ n.laneGroup 15 0 3 = none) := by
  decide

theorem witness_LinkKeyCommandsComplete :
    (let s : State := (s0.setLink 3 0 3).modSub 3 0 (fun k => { k with switchDue := true, keys := [some 5#320, some 6#320], oldAckAt := some 0, txNum := 7 }); let t : State := s.wrWide TM_NOW_0 3 (1000000 * 65536); let u : State := s.wrWide (LK_KEYCNT_0 3 0) 2 (2 ^ 42); (s.sub 3 0).switchDue = true ∧ s.linkSt 3 0 = 3 ∧ ((s.sub 3 0).keys.getD (!(s.rb (LK_STATE 3 0) LK_STATE_KPH)).toNat none).isSome = true ∧ (t.sub 3 0).oldAckAt = some 0 ∧ true ≠ t.rb (LK_STATE 3 0) LK_STATE_KPH ∧ 0 + 1000000 ≤ t.now ∧ u.linkSt 3 0 = 3 ∧ 2 ^ 42 ≤ u.rdWide (LK_KEYCNT_0 3 0) 2) := by
  decide

set_option maxRecDepth 20000 in
theorem witness_CodewordsLeaveInOrder :
    (let cw : Codeword := ⟨5#20, 0#20, false, false, 0#2, 5#12, List.replicate 10 idleFlit, 0, 0#64⟩; let s : State := (s0.setLink 3 0 3).modSub 3 0 (fun k => { k with keys := [some 5#320, none], txNum := 2 ^ 20 - 1, rxNum := 2 ^ 20 }); let r : State := s.modSub 3 0 (fun k => { k with txNum := 7, replay := [⟨5, 1, cw⟩, ⟨6, 1, cw⟩], resend := some 5 }); s.linkSt 3 0 = 3 ∧ (s.sub 3 0).resend = none ∧ s.replayRoom 3 0 = true ∧ r.linkSt 3 0 = 3 ∧ r.rf (LK_STATE 3 0) LK_STATE_WIDTH = 0 ∧ (r.sub 3 0).resend = some 5 ∧ (r.sub 3 0).replay.find? (fun x => x.num == 5) = some ⟨5, 1, cw⟩) := by
  decide

theorem witness_CodewordCommandsComplete :
    (let s : State := (s0.setLink 3 0 3).modSub 3 0 (fun k => { k with keys := [some 5#320, none], txNum := 2 ^ 20 - 1, rxNum := 2 ^ 20 }); let many : Codeword := ⟨0#20, 0#20, false, false, 0#2, 5#12, [], 17, 0#64⟩; let erased : Codeword := ⟨0#20, 0#20, false, true, 0#2, 5#12, [], 0, 0#64⟩; let u : State := (((s.bump (LK_RETRY 3 0) 1).acked 3 0 (0#20).toNat).modSub 3 0 (fun k => { k with replay := k.replay.map (fun x => { x with resent := x.resent + 1 }), resend := (k.replay.head?).map Sent.num })); let v : State := s.modSub 3 0 (fun k => { k with replay := [⟨2 ^ 20 - 2, 7, many⟩] }); let w : State := (((v.bump (LK_RETRY 3 0) 1).acked 3 0 (0#20).toNat).modSub 3 0 (fun k => { k with replay := k.replay.map (fun x => { x with resent := x.resent + 1 }), resend := (k.replay.head?).map Sent.num })); s.linkSt 3 0 = 3 ∧ 16 < many.symbolErrors ∧ erased.symbolErrors = 0 ∧ s.icvPasses 3 0 erased = false ∧ (u.sub 3 0).replay.any (fun x => decide (8 ≤ x.resent)) = false ∧ (w.sub 3 0).replay.any (fun x => decide (8 ≤ x.resent)) = true) := by
  decide

theorem witness_LinkTimeCommandsComplete :
    (let s : State := (s0.setLink 3 0 3).modSub 3 0 (fun k => { k with reqT1 := some 65536 }); let m : State := (s0.setLink 3 0 4).wf KP_FLEET_ID KP_FLEET_ID_ROLE 2; let w : State := (s0.setLink 3 0 3).wb (LK_STATE 3 0) LK_STATE_TT_SRC true; let z : State := s0.wrWide TM_NOW_0 3 (10000001 * 65536); s.linkTalks 3 0 = true ∧ (s.sub 3 0).reqT1 = some (65536#80).toNat ∧ (s.sub 3 0).delays = [] ∧ 2 ≤ m.role ∧ m.linkSt 3 0 = 4 ∧ w.rb (LK_STATE 3 0) LK_STATE_TT_SRC = true ∧ w.linkSt 3 0 = 3 ∧ (z.sub 3 0).ttAt + 10000000 < z.now) := by
  decide

theorem witness_RequestCommandsComplete :
    (let s : State := (s0.setLink 3 0 3).wf KP_FLEET_ID KP_FLEET_ID_ROLE 1; let h : Head := ⟨BitVec.ofNat 64 (2 ^ 62 + ksramBase), keeper, 1#8, 0#8, 0, 7#32, 0#48, 0#8, 0#8, true⟩; s.inFleet = true ∧ headLocal h = some ksramBase ∧ Arrives s 3 0 1 true h ∧ boundTo h = none ∧ (s.readRun h.src ksramBase (pieces 8)).1 = stOK ∧ Arrives s 3 0 2 true { h with op := 2#8 } ∧ (s.writeRun h.src ksramBase [1#8, 2#8] (pieces 2)).1 = some stOK ∧ Arrives s 3 0 5 false { h with op := 5#8 })
    ∧ (let s : State := (((s0.setLink 3 0 3).setLink 4 1 3).wf KP_FLEET_ID KP_FLEET_ID_ROLE 1).modSub 3 0 (fun k => { k with outstanding := [7] }); let h : Head := ⟨BitVec.ofNat 64 (2 ^ 62 + ksramBase), keeper, 6#8, 0#8, 0, 7#32, 0#48, 0#8, 0#8, true⟩; s.outstandingOn h.tid.toNat = some (3, 0) ∧ Arrives s 3 0 6 true h ∧ Arrives s 3 0 7 true { h with op := 7#8 })
    ∧ (let q : State := (((s0.wb (KP_RING_CFG 15) KP_RING_CFG_EN true).wf (KP_RING_STATUS 15) KP_RING_STATUS_STATE 1).wf (KP_RING_OWNER 15) KP_RING_OWNER_OWNER 0xD00).wb (KP_RING_CFG 15) KP_RING_CFG_EN true; let s : State := (q.setLink 3 0 3).wf KP_FLEET_ID KP_FLEET_ID_ROLE 1; let h : Head := ⟨BitVec.ofNat 64 (2 ^ 62 + (doorbellBase + 120)), keeper, 4#8, 0#8, 0, 7#32, 0#48, 0#8, 0#8, true⟩; let g : Head := { h with addr := BitVec.ofNat 64 (2 ^ 62 + hbmBase), op := 3#8 }; headLocal h = some (doorbellBase + 120) ∧ target (doorbellBase + 120) = .reg .doorbell 120 ∧ Arrives s 3 0 4 true h ∧ (s.localWr h.src (doorbellBase + 120) (toBytes 8 1)).1 = some stOK ∧ Arrives s 3 0 3 true g ∧ (s.msop g.src hbmBase 3 0 0).1 = stOK) := by
  refine ⟨?_, ?_, ?_⟩ <;> decide

set_option maxRecDepth 20000 in
theorem witness_ForwardingAndFramesComplete :
    (let s : State := (((s0.setLink 3 0 3).setLink 4 1 3).wf KP_FLEET_ID KP_FLEET_ID_ROLE 1).modSub 3 0 (fun k => { k with outstanding := [7] }); let b : State := { s with fleet := { s.fleet with bank0 := spPut 0 s.fleet.bank0 9 (128 + 4 + 16) } }; let g : Head := ⟨BitVec.ofNat 64 (2 ^ 62 + 9 * 2 ^ 48), keeper, 1#8, 0#8, 0, 7#32, 0#48, 0#8, 0#8, true⟩; b.linkTalks 3 0 = true ∧ headGood g = true ∧ b.acceptsTx 3 0 g (1#2 == 3#2) = true ∧ b.inFleet = true ∧ headDev g ≠ b.devId ∧ b.egress (headDev g) = some (4, 1) ∧ b.linkSt 4 1 = 3 ∧ b.fleet.adrift = false ∧ s.egress (headDev g) = none ∧ s.linkTalks 3 0 = true ∧ s.acceptsTx 3 0 g (1#2 == 3#2) = true ∧ s.inFleet = true ∧ headDev g ≠ s.devId)
    ∧ (let e : State := ((s0.setLink 3 1 6).wf (LK_CFG 3) LK_CFG_MODE 1).wf (LK_ETH_CFG 3 1) LK_ETH_CFG_MTU 1500; let m : State := e.wb (LK_ETH_CFG 3 1) LK_ETH_CFG_MSEC false; let f : EthFrame := ⟨.ptp, 100, none, 0#128, none⟩; let n : EthFrame := ⟨.neighbourOrEcho, 100, none, BitVec.ofNat 128 (0xFF * 2 ^ 120), none⟩; let v : State := e; let c : State := { v with caks := spPut 0#256 v.caks 7 9#256 }; let g : EthFrame := { n with sec := some ⟨1#64, 0#2, 1#64⟩ }; e.linkSt 3 (1 : Fin 2) = 6 ∧ e.ethPort 3 = true ∧ e.frameMine 3 1 { f with bytes := 20000 } = false ∧ m.frameMine 3 1 f = true ∧ m.frameMine 3 1 n = true ∧ m.boot.keeperDown = false ∧ m.rb (LK_ETH_CFG 3 1) LK_ETH_CFG_MSEC = false ∧ v.rb (LK_ETH_CFG 3 1) LK_ETH_CFG_MSEC = true ∧ n.sec.bind (v.macsecTake 3 1 true) = none ∧ (g.sec.bind (c.macsecTake 3 1 true)).isSome = true) := by
  refine ⟨?_, ?_⟩ <;> decide

theorem witness_EpochBoundReadsNeedRetention :
    (let s : State := (s0.setLink 3 0 3).wf KP_FLEET_ID KP_FLEET_ID_ROLE 1; let p : State := s.wrWide TM_EPOCH_0 2 9; let h : Head := ⟨BitVec.ofNat 64 (2 ^ 62 + ksramBase), keeper, 1#8, 0#8, 0, 7#32, 1#48, 1#8, 0#8, true⟩; Arrives s 3 0 1 true h ∧ natBit 0 h.flags.toNat = true ∧ s.epoch < h.epoch.toNat ∧ Arrives p 3 0 1 true h ∧ p.pastEpoch h.epoch.toNat = none ∧ h.epoch.toNat + max 1 (p.rf TM_SCHED_0 TM_SCHED_0_RETAIN) ≤ p.epoch)
    ∧ (let c : RingExec := ⟨7, [4 + 2 ^ 10, 1, ksramBase, ksramBase, 64, 0, 0, 0], false, none, false, some 2048⟩; let s : State := s0.setRing 2 [c]; let d : RingExec := ⟨3, [3 + 2 ^ 10, 1, ksramBase, 8 + 4 * 2 ^ 32, 0, 0, 0, 0], false, none, false, none⟩; let im := { anImage 0 [] with plans := [⟨4, 64⟩] }; let t : State := { ((s0.wf TM_LOCK_STATUS TM_LOCK_STATUS_STATE 1).setRing 15 [d]).wf (KP_RING_OWNER 15) KP_RING_OWNER_OWNER (identWord keeper) with sched := some im }; let u : State := t.setPort 0 { t.port 0 with slotAt := t.now + 1 }; t.slotDue 0 = true ∧ (u.requestRead 15 d 1).1 = stOK ∧ s.allGot (s.engineId 2048) (s.copyRemote c) = true ∧ s.epoch < 1 ∧ s.ringBegin 2 (7#32).toNat 4 = some c ∧ c.eb = true ∧ c.target = 1 ∧ s.lockSt ≠ 3 ∧ t.epoch < 1 ∧ t.sched = some im ∧ 0 < im.quota ∧ t.ring 15 = [d] ∧ (List.range 15).all (fun x => t.ring x == []) = true ∧ d.op = 3 ∧ (t.replyTo d).2.2 = 0 ∧ (t.planOf d.reqPlan).isSome = true ∧ t.bindEpoch d = 1) := by
  refine ⟨?_, ?_⟩ <;> decide

/-- A codeword that its link's key passes, whatever the tag's function is. -/
theorem witness_CodewordCommandsComplete_passes :
    let cw : Codeword := ⟨0#20, 0#20, false, false, 0#2, 5#12, [idleFlit, ⟨2#2, .body, 9#512⟩], 16, 0#64⟩
    let s : State := (s0.setLink 3 0 3).modSub 3 0 (fun k => { k with keys := [some 5#320, none], rxNum := 2 ^ 20 })
    let good : Codeword := { cw with icv := cwIcv cw (some 5#320) 1 (2 ^ 20) }
    let late : Codeword := { cw with seq := 1#20, icv := cwIcv { cw with seq := 1#20 } (some 5#320) 1 (2 ^ 20 + 1) }
    s.linkSt 3 0 = 3 ∧ good.symbolErrors ≤ 16 ∧ s.icvPasses 3 0 good = true ∧ good.seq.toNat = (s.sub 3 0).rxNum % 2 ^ 20
      ∧ s.icvPasses 3 0 late = true ∧ late.seq.toNat ≠ (s.sub 3 0).rxNum % 2 ^ 20 := by
  have h : ∀ (s : State) (c : Codeword) (m : BitVec 320) (n : Nat), s.linkSt 3 0 = 3 → (s.sub 3 0).keys.getD c.kph.toNat none = some m →
      nearCount (s.sub 3 0).rxNum c.seq.toNat = n → s.icvPasses 3 0 { c with icv := cwIcv c (some m) 1 n } = true := by
    intro s c m n hl hk hn
    subst hn
    unfold State.icvPasses
    simp only [hl, hk, if_neg (show ¬((3 : Nat) = 2) by decide)]
    exact beq_self_eq_true _
  exact ⟨by decide, by decide, h _ _ _ _ (by decide) (by rfl) (by decide), by decide, h _ _ _ _ (by decide) (by rfl) (by decide), by decide⟩

theorem witness_AdmissionsComplete :
    (let mgr : State := s0.wf KP_FLEET_ID KP_FLEET_ID_ROLE 3; let d : RingExec := ⟨7, [0x10, 0, 4, 5, ksramBase, 0, 0, 0], false, none, false, none⟩; let f : RingExec := { d with words := [0x10, 0, 4, 5, 2 ^ 62 + 5 * 2 ^ 48, 0, 0, 0] }; let s : State := (mgr.setRing 15 [d]).setBytes ksramBase [1#8]; let z : State := (mgr.setRing 15 [f]).wf KP_FLEET_ID KP_FLEET_ID_DEV_ID 3; let w : State := { s.wrWide TM_NOW_0 3 (12000000000 * 65536) with fleet := { s0.fleet with waits := [(0x10, 0, 15, 7)] } }; FleetStarts s 15 (7#32).toNat 0x10 d ∧ s.fleet.waits = [] ∧ s.allGot (s.self 0xD00) (recordPlaces s d) = true ∧ FleetStarts z 15 7 0x10 f ∧ z.fleet.waits = [] ∧ z.allGot (z.self 0xD00) (recordPlaces z f) = false ∧ w.fleet.waits = [(0x10, 0, (15 : Fin 16).val, (7#32).toNat)] ∧ w.ringFind 15 (7#32).toNat = some d ∧ 0 + 12000000000 ≤ w.now) := by
  decide

theorem witness_BoundDescriptorsComplete :
    (let mgr : State := s0.wf KP_FLEET_ID KP_FLEET_ID_ROLE 3; let dd := fun (op w2 w3 : Nat) => (⟨7, [op + 2 ^ 10, 9, w2, w3, 0, 0, 0, 0], false, none, false, none⟩ : RingExec); let de := fun (op w2 w3 : Nat) => (⟨7, [op, 9, w2, w3, 0, 0, 0, 0], false, none, false, none⟩ : RingExec); let st := fun (d : RingExec) => mgr.setRing 15 [d]; let z : State := (st (de 0x12 (2 ^ 62 + 5 * 2 ^ 48) 1)).wf KP_FLEET_ID KP_FLEET_ID_DEV_ID 3; FleetStarts (st (dd 0x11 4 0)) 15 7 0x11 (dd 0x11 4 0) ∧ (dd 0x11 4 0).eb = true ∧ (st (dd 0x11 4 0)).epochPast (dd 0x11 4 0).target = false ∧ FleetStarts (st (dd 0x12 0 0)) 15 7 0x12 (dd 0x12 0 0) ∧ ((st (dd 0x12 0 0)).loadBanks 0 0).1 = stOK ∧ (st (dd 0x12 0 0)).allGot ((st (dd 0x12 0 0)).self 0xD00) ((st (dd 0x12 0 0)).bankPieces 0 0) = true ∧ (st (dd 0x12 0 0)).epochPast 9 = false ∧ FleetStarts (st (de 0x12 0 0)) 15 7 0x12 (de 0x12 0 0) ∧ (de 0x12 0 0).eb = false ∧ FleetStarts z 15 7 0x12 (de 0x12 (2 ^ 62 + 5 * 2 ^ 48) 1) ∧ z.allGot (z.self 0xD00) (z.bankPieces (2 ^ 62 + 5 * 2 ^ 48) 1) = false ∧ FleetStarts (st (dd 0x1A 0 0)) 15 7 0x1A (dd 0x1A 0 0) ∧ FleetStarts (st (dd 0x13 ksramBase 64)) 15 7 0x13 (dd 0x13 ksramBase 64) ∧ (st (dd 0x13 ksramBase 64)).resolve ksramBase = some (0, ksramBase) ∧ natBits 0 32 ((dd 0x13 ksramBase 64).word 3) ≠ 0 ∧ (st (dd 0x13 ksramBase 64)).dmaRangeOk ((st (dd 0x13 ksramBase 64)).self 0xD00) ksramBase 64 false = true) := by
  decide

theorem witness_OrderDescriptorsComplete :
    (let mgr : State := s0.wf KP_FLEET_ID KP_FLEET_ID_ROLE 2; let de := fun (op w2 : Nat) => (⟨7, [op, 9, w2, 0, 0, 0, 0, 0], false, none, false, none⟩ : RingExec); let st := fun (d : RingExec) => mgr.setRing 0 [d]; let wk : State := { (st (de 0x19 5)).setLink 4 1 3 with fleet := { s0.fleet with bank0 := spPut 0 s0.fleet.bank0 5 (128 + 4 + 16) } }; let bh : State := ((st (de 0x18 4)).setMembers [⟨4, 1, 0, false, false, 0, 0, 0, [], false⟩]).wrWide TM_EPOCH_0 2 3; let wa : State := (st (de 0x1B (2 ^ 14))).setMembers [⟨4, 1, 0, false, false, 0, 0, 0, [], false⟩]; let rp : State := { st (de 0x16 4) with fleet := { s0.fleet with replace := some ⟨5, 6, some (0, 9)⟩ } }; (List.range 4).all (fun i => decide (FleetStarts (st (de 0x14 i)) 0 7 0x14 (de 0x14 i) ∧ natBits 0 2 ((de 0x14 i).word 2) = i)) = true ∧ [0x15, 0x16, 0x17, 0x18, 0x1B].all (fun op => decide (FleetStarts (st (de op 4)) 0 7 op (de op 4))) = true ∧ FleetStarts (st (de 0x1B 0)) 0 7 0x1B (de 0x1B 0) ∧ natBit 14 ((de 0x1B 0).word 2) = false ∧ (de 0x1B 0).device = (st (de 0x1B 0)).devId ∧ natBit 14 ((de 0x1B 4).word 2) = false ∧ (de 0x1B 4).device ≠ (st (de 0x1B 4)).devId ∧ FleetStarts wa 0 7 0x1B (de 0x1B (2 ^ 14)) ∧ natBit 14 ((de 0x1B (2 ^ 14)).word 2) = true ∧ wa.governed ≠ [] ∧ (st (de 0x1B (2 ^ 14))).governed = [] ∧ (st (de 0x16 4)).fleet.replace = none ∧ FleetStarts rp 0 7 0x16 (de 0x16 4) ∧ rp.fleet.replace.bind (fun x => x.ref) = some (0, 9) ∧ FleetStarts bh 0 7 0x18 (de 0x18 4) ∧ bh.governed.any (fun m => m.dev == (de 0x18 4).device && decide (m.epoch < bh.epoch)) = true ∧ ((st (de 0x18 4)).governed.any (fun m => m.dev == (de 0x18 4).device && decide (m.epoch < (st (de 0x18 4)).epoch))) = false ∧ FleetStarts wk 0 7 0x19 (de 0x19 5) ∧ wk.egress (de 0x19 5).device = some (4, 1) ∧ wk.egressStatus (de 0x19 5).device 3 = stOK ∧ wk.rf (LK_STATE 4 1) LK_STATE_PEER ≠ (de 0x19 5).device ∧ (wk.wf (LK_STATE 4 1) LK_STATE_PEER 5).rf (LK_STATE 4 1) LK_STATE_PEER = (de 0x19 5).device ∧ (st (de 0x19 5)).egress (de 0x19 5).device = none) := by
  decide

theorem witness_FleetOrdersComplete :
    (let up : State := { s0 with boot := { s0.boot with phase := 5, keeperDown := false } }; let s : State := (up.wf KP_FLEET_ID KP_FLEET_ID_ROLE 1).wf KP_FLEET_ID KP_FLEET_ID_MGR_ID 5; let m : Ident := ⟨5#14, 0xD00#12⟩; s.acceptsOrder m (.wake 3#4) = true ∧ s.keeperUp = true ∧ s.fleet.adrift = false ∧ up.inFleet = false ∧ up.keeperUp = true ∧ up.fleet.adrift = false ∧ (s.wb KP_FLEET_CFG KP_FLEET_CFG_KR_AUTH true).acceptsOrder m .keeperReset = true ∧ (s.wb KP_FLEET_CFG KP_FLEET_CFG_KR_AUTH true).rb KP_FLEET_CFG KP_FLEET_CFG_KR_AUTH = true ∧ s.inFleet = true ∧ (4#14).toNat ≠ s.manager ∧ s.rf KP_FLEET_STBY KP_FLEET_STBY_LEASE ≠ 3) := by
  decide

theorem witness_FleetSupervisionCompletes :
    (let mem : Member := ⟨5, 1, 0, false, false, 0, 0, 0, [], false⟩; let base : State := (s0.wf KP_FLEET_ID KP_FLEET_ID_ROLE 3).setMembers [mem]; let late : State := { base.wrWide TM_NOW_0 3 (10000000000 * 65536) with fleet := { base.fleet with asked := [((5#14).toNat, 0, 1, 2)] } }; let rep : State := { base with fleet := { base.fleet with repairAt := some (0, some (5, 6)) } }; let chk : State := { base.wb KP_FLEET_CFG KP_FLEET_CFG_REPLAY true with fleet := { base.fleet with replace := some ⟨5, 6, none⟩ } }; let snp : State := { base with fleet := { base.fleet with snaps := [⟨false, some (3, 0), none, [], []⟩, Snap.initial] } }; let up : State := { s0 with boot := { s0.boot with phase := 5, keeperDown := false } }; 2 ≤ base.role ∧ base.member (5#14).toNat = some mem ∧ late.fleet.asked = [((5#14).toNat, 0, 1, 2)] ∧ 0 + 10000000000 ≤ late.now ∧ rep.fleet.repairAt = some (0, some (5, 6)) ∧ chk.fleet.replace = some ⟨5, 6, none⟩ ∧ chk.fleet.repairNext = none ∧ chk.rb KP_FLEET_CFG KP_FLEET_CFG_REPLAY = true ∧ [] = chk.lossRecord 5 ∧ [1#64] ≠ chk.lossRecord 5 ∧ (snp.fleet.snaps.getD false.toNat Snap.initial).running = some (3, 0) ∧ (snp.fleet.snaps.getD false.toNat Snap.initial).runRefs = [] ∧ false.toNat < snp.fleet.snaps.length ∧ up.keeperUp = true ∧ up.fleet.adrift = false) := by
  decide

set_option maxRecDepth 20000 in
theorem witness_BroadcastCommandsComplete :
    (let k : Bcast := ⟨3, 1, ksramBase, [], 0, 0, 1000000000, 9, [], 0, false, false, none⟩; let mem : Member := ⟨5, 1, 0, false, false, 0, 0, 0, [], false⟩; let base : State := (s0.wf KP_FLEET_ID KP_FLEET_ID_ROLE 3).setMembers [mem]; let s : State := base.setCast k; let t : State := (base.setCast { k with missingAt := 1 }).wrWide TM_NOW_0 3 (200000000 * 65536); let v : State := { (base.setCast { k with blocks := 0 }) with boot := { s0.boot with phase := 5, keeperDown := false } }; let z : State := s.wrWide TM_NOW_0 3 (1000000000 * 65536); s.fleet.bcast = some k ∧ (3#8).toNat = k.number ∧ (0#16).toNat < k.blocks ∧ (79#8).toNat < 80 ∧ k.got.contains (128 * (0#16).toNat + (79#8).toNat) = false ∧ (List.replicate 4096 7#8).length = 4096 ∧ k.lacking ≠ [] ∧ k.windowEnd ≤ s.now ∧ ({ k with missingAt := 1 } : Bcast).lacking ≠ [] ∧ 1 + 100000000 ≤ t.now ∧ t.now < k.deadline ∧ t.fleet.bcast = some { k with missingAt := 1 } ∧ 2 ≤ s.role ∧ s.member (5#14).toNat = some mem ∧ v.fleet.bcast = some { k with blocks := 0 } ∧ ({ k with blocks := 0 } : Bcast).lacking = [] ∧ v.keeperUp = true ∧ z.fleet.bcast = some k ∧ k.deadline ≤ z.now) := by
  decide

theorem witness_LeaseCommandsComplete :
    (let up : State := { s0 with boot := { s0.boot with phase := 5, keeperDown := false } }; let s : State := up.wf KP_FLEET_ID KP_FLEET_ID_DUTY 2; let m : State := (s0.wf KP_FLEET_ID KP_FLEET_ID_ROLE 2); let x : State := m.wf KP_FLEET_STBY KP_FLEET_STBY_LEASE 1; let z : State := { ((s.wf KP_FLEET_STBY KP_FLEET_STBY_LEASE 1).wrWide TM_NOW_0 3 (10000000 * 65536)) with fleet := { s0.fleet with lease := some (5, 10) } }; s.rf KP_FLEET_ID KP_FLEET_ID_DUTY = 2 ∧ s.leaseSt ≠ 3 ∧ s.keeperUp = true ∧ 2 ≤ m.role ∧ m.leaseSt < 2 ∧ 2 ≤ x.role ∧ x.leaseSt = 1 ∧ x.rdWide KP_LEASE_EXP_0 2 ≤ x.now ∧ z.fleet.lease = some (5, 10) ∧ z.rf KP_FLEET_ID KP_FLEET_ID_DUTY = 2 ∧ z.leaseSt = 1 ∧ takeoverAt 5 10 ≤ z.now) := by
  decide

/-- A report with the nonce that a manager sent, whatever it is. -/
theorem witness_AdmissionsComplete_nonce :
    let s : State := s0.wf KP_FLEET_ID KP_FLEET_ID_ROLE 3
    let x : AdmissionRecord := ⟨1#32, 0#8, 0#8, 0#8, 0#8, 0#128, [], 0#256⟩
    let p : Report := ⟨5#128, false, 0#8, BitVec.ofNat 256 s.random.1, [], true⟩
    p.signatureGood = true ∧ p.nonce.toNat = s.random.1 % 2 ^ 256 ∧ recordMatches x p = true ∧ recordBad x = false
      ∧ recordMatches { x with serial := 4#128 } p = false := by
  refine ⟨rfl, by simp only [BitVec.toNat_ofNat], by decide, rfl, by decide⟩

theorem witness_StartUpCommandsComplete :
    (let ph := fun (n : Nat) => ({ s0 with boot := { s0.boot with phase := n } } : State); let p0 : State := ph 0; let low : State := { p0 with pins := { p0.pins with resetN := false } }; let hi : State := { p0 with pins := { p0.pins with resetN := true } }; let p5 : State := (ph 5).wf (PW_DOM 0) PW_DOM_STATE 2; p0.boot.phase = 0 ∧ p0.boot.hold = .none ∧ 40000 ≤ (48000#16).toNat ∧ hi.pins.resetN = true ∧ low.pins.resetN = false ∧ (ph 1).atPhase 1 = true ∧ (ph 2).atPhase 2 = true ∧ (ph 3).atPhase 3 = true ∧ (ph 4).atPhase 4 = true ∧ p5.atPhase 5 = true ∧ p5.rf (PW_DOM 1) PW_DOM_STATE = 0 ∧ (∀ k : Fin 4, k < (1 : Fin 4) → p5.domOn k = true) ∧ (ph 6).atPhase 6 = true ∧ (ph 8).atPhase 8 = true ∧ (ph 9).atPhase 9 = true ∧ (ph 1).starting = true ∧ 1 ≤ (9#8).toNat ∧ (9#8).toNat ≤ 9) := by
  decide

theorem witness_DeviceResetsComplete :
    (let r : State := { s0 with boot := { s0.boot with phase := 10 } }; let hs : State := { s0 with boot := { s0.boot with hold := .supply 3 } }; let lv : State := (s0.wf PW_IN PW_IN_VIN 40000); let p : State := { s0 with boot := { s0.boot with hold := .pin } }; let k : State := { s0 with boot := { s0.boot with hold := .kpReset }, pins := { s0.pins with resetN := true } }; let l : State := { k with pins := { k.pins with resetN := false } }; let d : State := { r with boot := { r.boot with keeperDown := true } }; (r.boot.hold = .none ∧ r.boot.phase ≠ 0) ∧ hs.boot.hold = .supply 3 ∧ (lv.boot.hold = .none ∧ lv.boot.phase = 0 ∧ 40000 ≤ lv.rf PW_IN PW_IN_VIN) ∧ ¬(r.boot.hold = .pin ∨ r.boot.hold = .none ∧ r.boot.phase = 0 ∧ 40000 ≤ r.rf PW_IN PW_IN_VIN) ∧ natBits 16 16 (0xB0070003#32).toNat = 0xB007 ∧ natBit 0 (0xB0070003#32).toNat = true ∧ natBits 16 16 (0xB0070002#32).toNat = 0xB007 ∧ natBit 0 (0xB0070002#32).toNat = false ∧ natBit 1 (0xB0070002#32).toNat = true ∧ p.boot.hold = .pin ∧ k.boot.hold = .kpReset ∧ k.pins.resetN = true ∧ l.boot.hold = .kpReset ∧ l.pins.resetN = false ∧ Passes r keeper KP_RESET true ∧ natBits 16 16 (1#32).toNat ≠ 0xB007 ∧ d.boot.keeperDown = true) := by
  decide

theorem witness_PartialResetsComplete :
    (let s : State := (running 1023 0).wf (PW_DOM 3) PW_DOM_STATE 2; let b : State := { s with boot := { s.boot with resets := [⟨0, 1023, false⟩] } }; let f : State := { s with boot := { s.boot with resets := [⟨0, 1023, true⟩] } }; let w : State := { s with lock := { s.lock with window := true } }; let f2 : State := { s with boot := { s.boot with resets := [⟨2, 3, true⟩] } }; Passes s keeper PW_RESET true ∧ (63#10).toNat < 64 ∧ (3#10).toNat < 4 ∧ 64 ≤ (64#10).toNat ∧ 4 ≤ (4#10).toNat ∧ w.lock.window = true ∧ s0.lock.window = false ∧ s0.rf (PW_DOM (scopePart 2 3)) PW_DOM_STATE = 0 ∧ s.rf (PW_DOM (scopePart 1 63)) PW_DOM_STATE = 2 ∧ s.joins 1 63 = false ∧ b.joins 0 1023 = true ∧ s.lock.window = false ∧ s.domOn (corePart (1023 : Fin 1024)) = true ∧ s.boot.resets = [] ∧ s.present (1023 : Fin 1024) = true ∧ (∀ i : Fin 2, s.rf (DM_STATUS (2 * 1023 + i)) DM_STATUS_STATE ≠ 2) ∧ b.boot.resets.contains ⟨(0 : Fin 3), (1023 : Fin 1024), false⟩ = true ∧ b.scopeDrained 0 1023 = true ∧ f.boot.resets.contains ⟨(0 : Fin 3), (1023 : Fin 1024), true⟩ = true ∧ f2.boot.resets.contains ⟨(2 : Fin 3), (3 : Fin 1024), true⟩ = true ∧ (2 : Fin 3) = 2 ∧ f2.testHolds 3 = false) := by
  decide

set_option maxRecDepth 20000 in
theorem witness_PowerDomainsChange :
    (let on : State := s0.wf (PW_DOM 3) PW_DOM_STATE 2; let wk : State := s0.wf (PW_DOM 3) PW_DOM_STATE 1; let wd : State := s0.wf (PW_DOM 3) PW_DOM_STATE 5; let dr : State := s0.wf (PW_DOM 3) PW_DOM_STATE 3; let dp : State := s0.wf (PW_DOM 3) PW_DOM_STATE 4; let rs : State := { on with boot := { on.boot with resets := [⟨2, 3, false⟩] } }; let w : State := { on with lock := { on.lock with window := true } }; Passes w keeper (PW_DOM 3) true ∧ w.lock.window = true ∧ Passes s0 keeper (PW_DOM 3) true ∧ s0.lock.window = false ∧ s0.testHolds 3 = false ∧ on.testHolds 3 = false ∧ dp.testHolds 3 = false ∧ wd.testHolds 3 = false ∧ on.lock.window = false ∧ Passes dp keeper (PW_DOM 3) true ∧ dp.rf (PW_DOM 3) PW_DOM_STATE = 4 ∧ dp.scopeDrained 2 3 = true ∧ Passes rs keeper (PW_DOM 3) true ∧ rs.rf (PW_DOM 3) PW_DOM_STATE = 2 ∧ rs.partInReset 3 = true ∧ rs.testHolds 3 = false ∧ s0.rf (PW_DOM 3) PW_DOM_STATE = 0 ∧ Passes on keeper (PW_DOM 3) true ∧ on.rf (PW_DOM 3) PW_DOM_STATE = 2 ∧ on.partInReset 3 = false ∧ wk.rf (PW_DOM 3) PW_DOM_STATE = 1 ∧ wd.rf (PW_DOM 3) PW_DOM_STATE = 5 ∧ diePart 0 = 0 ∧ dr.rf (PW_DOM 3) PW_DOM_STATE = 3 ∧ dr.scopeDrained 2 3 = true) := by
  decide

set_option maxRecDepth 20000 in
theorem witness_SelfTestCommandsComplete :
    (let t : SelfTest := ⟨true, 0, 0, [], [], 0⟩; let s : State := { s0 with boot := { s0.boot with test := some t } }; let p : State := s0.wf (PW_DOM 3) PW_DOM_STATE 2; let l1 : State := s0.setLockSt 1; let b : State := { s0 with sec := { s0.sec with auth := some ⟨1, 0, 0⟩ }, fuses := { s0.fuses with soft := [.coreSite 1 2] } }; let f : State := { b with boot := { b.boot with burning := [.coreSite 1 2] } }; let g : State := { f with fuses := { f.fuses with fused := List.replicate 256 (.coreSite 0 0) } }; l1.lockSt ≠ 0 ∧ Passes l1 keeper KP_TEST_CTRL true ∧ (natBit (2 : Fin 4) (12#4).toNat = true ∧ p.domOn (2 : Fin 4) = false) ∧ natBits 16 16 (1#32).toNat ≠ 0xB007 ∧ natBits 16 16 (0xB0070001#32).toNat = 0xB007 ∧ natBit 0 (0xB0070001#32).toNat = true ∧ s0.holds 1 = none ∧ Passes s0 keeper KP_REPAIR_CTRL true ∧ Passes s0 keeper KP_TEST_CTRL true ∧ isKeeperOrControl keeper = true ∧ s0.boot.test = none ∧ s0.lockSt = 0 ∧ (maskParts (8#4).toNat).all (fun k => p.domOn k) = true ∧ Passes p keeper KP_TEST_CTRL true ∧ Passes s control0 KP_TEST_CTRL true ∧ isKeeperOrControl control0 = true ∧ s.boot.test ≠ none ∧ s.boot.test = some t ∧ t.ran + 1 < t.slices ∧ Passes b keeper KP_REPAIR_CTRL true ∧ masterOf keeper.num.toNat = .keeper ∧ b.holds 1 = some ⟨1, 0, 0⟩ ∧ b.lockSt = 0 ∧ b.boot.test = none ∧ b.boot.burning = [] ∧ f.boot.burning = [.coreSite 1 2] ∧ f.eFuses < 256 ∧ g.boot.burning = [.coreSite 1 2] ∧ isEFuse (.coreSite 1 2) = true ∧ 256 ≤ g.eFuses) := by
  decide

theorem witness_TimedOutSlicesAreIncomplete :
    (let t : SelfTest := ⟨false, 8, 71, [], [], 0⟩; let s : State := { s0 with boot := { s0.boot with test := some t } }; let v : State := { s0 with boot := { s0.boot with test := some { t with ran := 70 } } }; s.boot.test = some t ∧ t.slices ≤ t.ran + 1 ∧ v.boot.test = some { t with ran := 70 } ∧ 70 + 1 < t.slices) := by
  decide

theorem witness_SecurityCommandsComplete :
    (let up : State := { s0 with boot := { s0.boot with phase := 5, keeperDown := false } }; let full : State := { up with sec := { up.sec with attested := List.replicate 16 0 } }; let eph : State := { (s0.wrWide TM_NOW_0 3 (1000000000 * 65536)) with sec := { s0.sec with ephemeral := some 0 } }; let ses : State := { up with sec := { up.sec with session := some 5#256, drbgRequests := 2 ^ 20 }, fuses := { up.fuses with operatorKeys := [5#256] } }; let au := fun (op arg : Nat) => ({ (s0.wf KP_BOOT_STATUS KP_BOOT_STATUS_STAGE 7).wf KP_SEC_STATUS KP_SEC_STATUS_SVN_ACTIVE 9 with sec := { s0.sec with auth := some ⟨op, arg, 0⟩ } } : State); let old : State := { (s0.wrWide TM_NOW_0 3 (600000000000 * 65536)) with sec := { s0.sec with auth := some ⟨1, 0, 0⟩ } }; let r4 : State := { up with sec := { up.sec with auth := some ⟨4, 0, 0⟩ } }; up.keeperUp = true ∧ (up.sec.attested.filter (fun t => decide (up.now < t + 1000000000))).length < 16 ∧ full.keeperUp = true ∧ 16 ≤ (full.sec.attested.filter (fun t => decide (full.now < t + 1000000000))).length ∧ eph.sec.ephemeral = some 0 ∧ 0 + 1000000000 ≤ eph.now ∧ ses.sec.session.isSome = true ∧ ses.keeperUp = true ∧ old.sec.auth = some ⟨1, 0, 0⟩ ∧ 0 + 600000000000 ≤ old.now ∧ (au 2 3).sec.auth = some ⟨2, 3, 0⟩ ∧ (au 2 3).hdr (au 2 3).slot 13 1 ≠ (3 : Fin 4).val ∧ (au 3 9).sec.auth = some ⟨3, 9, 0⟩ ∧ (9#8).toNat ≤ (au 3 9).rf KP_SEC_STATUS KP_SEC_STATUS_SVN_ACTIVE ∧ (au 3 9).rf KP_BOOT_STATUS KP_BOOT_STATUS_STAGE = 7 ∧ r4.keeperUp = true ∧ (r4.holds 4).isSome = true ∧ up.fuses.operatorKeys = [] ∧ ses.fuses.operatorKeys.contains 5#256 = true ∧ ([1#8] : List Byte).length ≤ slotSize ∧ 2 ^ 20 ≤ ses.sec.drbgRequests ∧ Passes s0 keeper (HM_KREG 0 15) true ∧ s0.epochPast (9#48).toNat = false ∧ s0.epochPast (0#48).toNat = true) := by
  decide

theorem witness_EventCommandsComplete :
    (let e : Event := ⟨5, 0x11, 0, 0, 7, 9⟩; let s : State := { s0.wf EV_CTRL EV_CTRL_MIN_SEV 0 with events := [e] }; let n : State := { s.wf EV_CTRL EV_CTRL_MIN_SEV 1 with events := [e] }; let f : State := { s.wr EV_HEAD 4096 with events := [e] }; s.events = [e] ∧ s.boot.keeperDown = false ∧ s.fleet.adrift = false ∧ e.sev < 2 ∧ e.cls < 0x30 ∧ s.evDue e = true ∧ s.evRoom = true ∧ n.events = [e] ∧ n.evDue e = false ∧ f.events = [e] ∧ f.boot.keeperDown = false ∧ f.fleet.adrift = false ∧ f.evDue e = true ∧ f.evRoom = false ∧ Passes s keeper EV_TAIL true ∧ (s.rd EV_HEAD + 2 ^ 32 - (0#32).toNat) % 2 ^ 32 ≤ 4096 ∧ 4096 < (s.rd EV_HEAD + 2 ^ 32 - (1#32).toNat) % 2 ^ 32) := by
  decide

theorem witness_ClockAndLimitCommandsComplete :
    (let hot : State := s0.wf PW_POWER PW_POWER_AVG 65535; Passes s0 keeper PW_LIMIT true ∧ Passes s0 keeper PW_CLK true ∧ s0.rf PW_POWER PW_POWER_AVG * 100 ≤ s0.rf PW_LIMIT PW_LIMIT_EFFECTIVE * 97 ∧ hot.rf PW_LIMIT PW_LIMIT_EFFECTIVE * 97 < hot.rf PW_POWER PW_POWER_AVG * 100) := by
  decide

theorem witness_SupplyCommandsComplete :
    (let on : State := { s0 with boot := { s0.boot with phase := 10 }, pins := { s0.pins with thermTripN := true } }; let h1 : State := { s0 with boot := { s0.boot with hold := .supply 1 }, pins := { s0.pins with resetN := true } }; let h4 : State := { s0 with boot := { s0.boot with hold := .supply 4 }, pins := { s0.pins with resetN := true } }; let tr : State := { s0 with boot := { s0.boot with hold := .trip }, pins := { s0.pins with thermTripN := false } }; (37999#16).toNat < 38000 ∧ (37999#16).toNat < 41000 ∧ 1000 ≤ 1000 ∧ 59000 < (59001#16).toNat ∧ 41000 ≤ (41000#16).toNat ∧ (59000#16).toNat ≤ 59000 ∧ 1050 < 1051 ∧ 63000 < (63001#16).toNat ∧ s0.power.warned.getD (2 : Fin 3) 0 = 0 ∧ on.powered = true ∧ on.boot.hold = .none ∧ 14000 < (14001#16).toNat ∧ h1.boot.hold = .supply 1 ∧ 40000 ≤ (40000#16).toNat ∧ h1.pins.resetN = true ∧ h4.boot.hold = .supply 4 ∧ h4.pins.resetN = true ∧ on.pins.thermTripN = true ∧ 105 ≤ (105#8).toNat ∧ tr.pins.thermTripN = false ∧ tr.boot.hold = .trip ∧ (80#8).toNat ≤ 80) := by
  decide

end Sys2Proof.Tests
end

section
/-! PROOFS. Registers and addresses: what a field is after a write and in a read, what is reserved, the completion of the register commands, the
forms of an address, and writes to locked fields (R10 to R12, R14 to R16, R50). -/

namespace Sys2Proof.Machine

/-! ## Fields of a word (R11, R14) -/

theorem natBits_mod (lo w x : Nat) : natBits lo w x % 2 ^ w = natBits lo w x := Nat.mod_mod _ _

theorem natBits_of_zero (lo w : Nat) : natBits lo w 0 = 0 := by simp [natBits]

theorem natBit_eq_natBits (i x : Nat) : natBit i x = (natBits i 1 x == 1) := rfl

/-- A field after a write of its register: it stays where its access code bars the write, drops the bits written as 1 where it is W1C, and is
what was written otherwise. -/
theorem natBits_writeFields (locked : Bool) (v : Nat) (f : RegField) : ∀ (l : List RegField) (w : Nat),
    l.Pairwise (fun f g => f.lo + f.width ≤ g.lo ∨ g.lo + g.width ≤ f.lo) → f ∈ l →
    natBits f.lo f.width (writeFields l locked w v) =
      if f.acc = .ro ∨ (f.acc = .rwl ∧ locked = true) then natBits f.lo f.width w
      else if f.acc = .w1c then natBits f.lo f.width w - (natBits f.lo f.width w &&& natBits f.lo f.width v)
      else natBits f.lo f.width v
  | g :: t, w, hp, hf => by
    obtain ⟨hg, ht⟩ := List.pairwise_cons.1 hp
    rw [writeFields_cons]
    rcases List.mem_cons.1 hf with rfl | hft
    · rw [writeFields_keeps_other locked v f t _ (fun x hx => (hg x hx).symm)]
      have hsub := Nat.lt_of_le_of_lt (Nat.sub_le (natBits f.lo f.width w) (natBits f.lo f.width w &&& natBits f.lo f.width v))
        (Nat.mod_lt _ (Nat.two_pow_pos f.width))
      split
      · rfl
      · rw [natBits_natPut_same]
        split
        · exact Nat.mod_eq_of_lt hsub
        · exact natBits_mod ..
    · rw [natBits_writeFields locked v f t _ ht hft]
      have keep : ∀ y, natBits f.lo f.width (natPut g.lo g.width w y) = natBits f.lo f.width w :=
        fun y => natBits_natPut_other _ _ (hg f hft).symm
      simp only [apply_ite (natBits f.lo f.width), keep, ite_self]

/-- A field that meets none of a register's fields reads of the register as zero. -/
theorem readFields_keeps_other (w : Nat) (g : RegField) (l : List RegField) (h : ∀ f ∈ l, f.lo + f.width ≤ g.lo ∨ g.lo + g.width ≤ f.lo) :
    natBits g.lo g.width (readFields l w) = 0 := by
  suffices ∀ r, natBits g.lo g.width (l.foldl (fun r f => if f.acc = .wo then r else natPut f.lo f.width r (natBits f.lo f.width w)) r)
      = natBits g.lo g.width r from (this 0).trans (natBits_of_zero ..)
  induction l with
  | nil => exact fun r => rfl
  | cons f t ih =>
    intro r
    rw [List.foldl_cons, ih (fun x hx => h x (List.mem_cons_of_mem _ hx))]
    split
    · rfl
    · exact natBits_natPut_other _ _ (h f (List.mem_cons_self ..)).symm

theorem writtenFieldsFollow : WrittenFieldsFollow := by
  intro l locked old v _ _ hp f hf
  rw [natBits_writeFields locked v f l old hp hf]
  cases f.acc <;> cases locked <;> rfl

theorem readFieldsFollow : ReadFieldsFollow := by
  intro l w _ hp f hf
  rw [readFields, readFields_from w l 0 hp f hf, natBits_of_zero]

/-- Settles O8: a field after a write from `natBits_writeFields`, by induction on the register's fields; a read by `readFields_from`. -/
theorem fieldsFollowTheirAccessCodes : Obligations.FieldsFollowTheirAccessCodes := ⟨writtenFieldsFollow, readFieldsFollow⟩

theorem reservedFieldsStayZero : ReservedFieldsStayZero := by
  intro l locked old v i h
  have hd : ∀ f ∈ l, f.lo + f.width ≤ i ∨ i + 1 ≤ f.lo := fun f hf => (h f hf).symm
  constructor
  · exact congrArg (fun x => x == 1) (readFields_keeps_other v ⟨i, 1, .ro, 0⟩ l hd)
  · rw [natBit_eq_natBits, natBit_eq_natBits, writeFields_keeps_other locked v ⟨i, 1, .ro, 0⟩ l old hd]

/-! ## An access to a register past its checks -/

section
variable {s : State} {m : Ident} {a o : Nat} {b : Blk}

/-- A read of one register of this device past its checks. -/
theorem busRead_reg (hl : a < 2 ^ 48) (ht : target a = .reg b o) (hb : b ≠ .doorbell) (ha : a % 4 = 0) (hc : Passes s m a false) :
    s.busRead m a 4 = (s.regRead m b o).2.reply stOK (toBytes 4 (s.regRead m b o).1) := by
  have hr : s.localRd m a 4 = (stOK, toBytes 4 (s.regRead m b o).1, (s.regRead m b o).2) := by
    unfold State.localRd
    rw [flushSends_none hc.1]
    dsimp only
    rw [ht, checkLocal_ok hc.2]
    cases b
    case doorbell => exact absurd rfl hb
    all_goals
      dsimp only
      rw [if_neg (by omega), if_neg (by simp)]
  rw [State.busRead, resolve_local s hl]
  simp only [ne_eq, not_true_eq_false, if_false, hr]

/-- A write of one register of this device past its checks, by its command. -/
theorem registerWrite_reg {addr : Dword} {value : Word} (hl : addr.toNat < 2 ^ 48) (ht : target addr.toNat = .reg b o) (hb : b ≠ .doorbell)
    (ha : addr.toNat % 4 = 0) (hc : Passes s m addr.toNat true) (hi : s.integDenied m b o value.toNat = false) (hm : ∀ x, b = .mb x → o ≠ 0x10) :
    exec (.registerWrite m addr 4 value) s = .next ((s.regWrite m b o value.toNat).reply stOK []) := by
  have hv : value.toNat % 2 ^ 32 = value.toNat := Nat.mod_eq_of_lt value.isLt
  have := put32_reg (v := value.toNat) hl ht hb ha hc.2 (by rw [hv]; exact hi) hm hc.1
  rw [hv, State.put32] at this
  exact congrArg _ this

end


/-! ## Offsets without a register (R50)

Groups of words are written as `Blk.wides` writes them: offset of the first, stride, count, words in a row. -/

/-- The offsets at which a write does something else than store the register's fields. -/
def Blk.active : Blk → List (Nat × Nat × Nat × Nat)
  | .kp => [(0x30, 0, 1, 1), (0x50, 0, 1, 1), (0x60, 0, 1, 1), (0xC00, 0, 1, 1), (0xC80, 0, 1, 1), (0x800, 0x20, 16, 8)]
  | .tm => [(0x14, 0, 1, 1), (0x3C, 0, 1, 1)]
  | .pw => [(0x8, 0, 1, 2), (0x100, 4, 4, 1), (0x200, 0, 1, 1)]
  | .ev => [(0x8, 0, 1, 1), (0x14, 0, 1, 1)]
  | .co _ => [(0x200, 0, 1, 1), (0x208, 0, 1, 1), (0x4000, 4, 2048, 1)]
  | .hm _ => [(0, 0, 1, 1), (0x100, 4, 16, 1)]
  | .lk _ => [(0, 0, 1, 1), (0x100, 0x40, 8, 1), (0x110, 0x40, 8, 1)]
  | .dm _ => [(0, 0, 1, 2), (0x20, 0, 1, 2)]
  | .mb _ => [(0, 0, 1, 2), (0xC, 0, 1, 2)]
  | _ => []

/-- Below this offset a block has every register of its table. -/
def Blk.full : Blk → Nat
  | .ev => 0x1000
  | .mb _ => 0x100
  | .cc _ => 0
  | _ => 0x10000

/-- Every word of a group lies in a row of the block's table: the row holds the group's first occurrence of the word and strides as the group does. -/
def Blk.tabled (b : Blk) (x : Nat × Nat × Nat × Nat) : Bool :=
  match x with
  | (w, st, n, k) => w % 4 == 0 && st % 4 == 0 && decide (w + n * st + 4 * k ≤ b.full) && (List.range k).all fun j => b.rows.any fun r =>
    r.holds (w + 4 * j) && (n == 1 || decide (r.s1 = st ∧ w + 4 * j < r.off + st ∧ n ≤ r.n1))

theorem tabled_wides_active (b : Blk) : (b.wides ++ b.active).all b.tabled = true := by cases b <;> rfl

theorem rows_have_fields (b : Blk) : b.rows.all (fun r => !r.fields.isEmpty) = true := by cases b <;> rfl

/-- A row that holds an offset in its first stride holds the offset any number of strides further within its count. -/
theorem RegRow.holds_shift {r : RegRow} {o i : Nat} (h : r.holds o = true) (ho : o < r.off + r.s1) (hi : i < r.n1) : r.holds (o + i * r.s1) = true := by
  have hpos : 0 < r.s1 := by
    rcases Nat.eq_zero_or_pos r.s1 with h0 | h0
    · simp [RegRow.holds, h0] at h ho; omega
    · exact h0
  unfold RegRow.holds at h ⊢
  simp only [Nat.ne_of_gt hpos, if_false, Bool.and_eq_true, decide_eq_true_eq] at h ⊢
  have hle : r.off ≤ o := h.1.1
  have hd : o + i * r.s1 - r.off = (o - r.off) + i * r.s1 := by omega
  have h0 : (o - r.off) / r.s1 = 0 := Nat.div_eq_of_lt (by omega)
  rw [h0] at h
  rw [hd, Nat.add_mul_div_right _ _ hpos, h0, Nat.zero_add, Nat.add_sub_cancel]
  simp only [Nat.zero_mul, Nat.sub_zero] at h
  exact ⟨⟨by omega, hi, h.1.2.2⟩, h.2⟩

theorem fields_ne_nil_of_holds {b : Blk} {o : Nat} {r : RegRow} (hr : r ∈ b.rows) (h : r.holds o = true) (ho : o < b.full) : b.fields o ≠ [] := by
  have hpres : b.fields o = ((b.rows.find? (fun r => r.holds o)).map (fun r => r.fields)).getD [] := by
    unfold Blk.fields
    cases b
    case ev | mb => exact if_neg fun h => Nat.not_le.2 ho (of_decide_eq_true ((Bool.and_eq_true_iff.1 h).1))
    case cc => exact absurd ho (Nat.not_lt_zero _)
    all_goals exact if_neg Bool.false_ne_true
  rw [hpres]
  cases hf : b.rows.find? (fun r => r.holds o) with
  | none => exact absurd h (List.find?_eq_none.1 hf r hr)
  | some q =>
    have hq : (!q.fields.isEmpty) = true := List.all_eq_true.1 (rows_have_fields b) q (List.mem_of_find?_eq_some hf)
    intro (h : q.fields = [])
    rw [h] at hq
    exact absurd hq (by decide)

/-- An offset of a group whose every word is tabled holds a register. -/
theorem fields_ne_nil_of_wideIn {b : Blk} {o : Nat} (h4 : o % 4 = 0) : ∀ l : List (Nat × Nat × Nat × Nat), l.all b.tabled = true →
    wideIn o l ≠ none → b.fields o ≠ []
  | [], _, h => absurd rfl h
  | (w, st, n, k) :: t, hl, h => by
    rw [List.all_cons, Bool.and_eq_true] at hl
    unfold wideIn at h
    dsimp only at h
    generalize (if st = 0 then 0 else (o - w) / st) = i at h
    split at h
    · rename_i hin
      obtain ⟨-, hin, hlo, hhi⟩ := hin
      have htab := hl.1
      simp only [Blk.tabled, Bool.and_eq_true, beq_iff_eq, decide_eq_true_eq, List.all_eq_true, List.mem_range, List.any_eq_true, Bool.or_eq_true] at htab
      obtain ⟨⟨⟨hw, hst⟩, hfull⟩, hrow⟩ := htab
      have hst4 : i * st % 4 = 0 := by rw [Nat.mul_mod, hst, Nat.mul_zero]
      have hlast : i * st ≤ n * st := Nat.mul_le_mul_right _ (Nat.le_of_lt hin)
      obtain ⟨r, hr, hh, hs⟩ := hrow ((o - (w + i * st)) / 4) (by omega)
      have ho : o = w + 4 * ((o - (w + i * st)) / 4) + i * st := by omega
      refine fields_ne_nil_of_holds hr ?_ (by omega)
      rcases hs with hn | ⟨rfl, hfirst, hn⟩
      · obtain rfl : i = 0 := by omega
        simp only [Nat.zero_mul, Nat.add_zero] at ho hh
        rwa [← ho] at hh
      · rw [ho]; exact RegRow.holds_shift hh hfirst (by omega)
    · exact fields_ne_nil_of_wideIn h4 t hl.2 h

theorem wideIn_none_of_hole {b : Blk} {o : Nat} (h4 : o % 4 = 0) (h : b.fields o = []) : wideIn o b.wides = none ∧ wideIn o b.active = none := by
  have := tabled_wides_active b
  rw [List.all_append, Bool.and_eq_true] at this
  exact ⟨by_contra fun hw => fields_ne_nil_of_wideIn h4 _ this.1 hw h, by_contra fun hw => fields_ne_nil_of_wideIn h4 _ this.2 hw h⟩

theorem wideIn_cons_none (o w st n k : Nat) (t : List (Nat × Nat × Nat × Nat)) : wideIn o ((w, st, n, k) :: t) = none ↔
    ¬(w ≤ o ∧ (if st = 0 then 0 else (o - w) / st) < n ∧ w + (if st = 0 then 0 else (o - w) / st) * st ≤ o
      ∧ o < w + (if st = 0 then 0 else (o - w) / st) * st + 4 * k) ∧ wideIn o t = none := by
  rw [wideIn]
  generalize (if st = 0 then 0 else (o - w) / st) = i
  split
  · rename_i h
    exact ⟨fun e => absurd e (Option.some_ne_none _), fun e => absurd h e.1⟩
  · rename_i h
    exact ⟨fun e => ⟨h, e⟩, And.right⟩

section
variable {s : State} {m : Ident} {b : Blk} {o v : Nat}

/-- At an offset that is not active no write is barred, and none is locked. -/
theorem unbarred_of_not_active (h : wideIn o b.active = none) :
    s.integDenied m b o v = false ∧ s.lockedAt b o = false ∧ ∀ x, b = .mb x → o ≠ 0x10 := by
  cases b <;> simp only [Blk.active, wideIn_cons_none, OfNat.ofNat_ne_zero, if_true, if_false] at h
  case hm n =>
    have ho : o ≠ 0 := by omega
    simp [State.integDenied, State.lockedAt, ho]
  case mb x =>
    have ho : ¬ o < 8 ∧ o ≠ 0x10 := by omega
    simp [State.integDenied, State.lockedAt, ho]
  all_goals simp [State.integDenied, State.lockedAt]

theorem regStoreRwl_of_unlocked (h : s.lockedAt b o = false) : s.regStoreRwl m b o v = s.regStore b o v := by
  simp [State.regStoreRwl, h]

/-- At an offset that is not active a write stores the fields and does nothing else. -/
theorem regWrite_of_not_active (ht : target (b.base + o) = .reg b o) (h4 : o % 4 = 0) (h : wideIn o b.active = none) :
    s.regWrite m b o v = s.regStore b o v := by
  have hu := (unbarred_of_not_active (s := s) (m := m) (v := v) h).2.1
  cases b <;> simp only [Blk.active, wideIn_cons_none, OfNat.ofNat_ne_zero, if_true, if_false] at h <;> unfold State.regWrite
  case kp =>
    dsimp only
    rw [State.kpWrite, if_neg (by omega), if_neg (by omega), if_neg (by omega), if_neg (by omega), if_neg (by omega), if_neg (by omega)]
  case tm =>
    dsimp only [State.tmWrite]
    rw [if_neg (by omega), if_neg (by omega)]
  case pw =>
    dsimp only
    rw [State.pwWrite, if_neg (by omega), if_neg (by omega), if_neg (by omega), if_neg (by omega)]
  case ev =>
    dsimp only
    rw [State.evWrite, if_neg (by omega), if_neg (by omega)]
  case co c =>
    have hobs : isObs (coBase c + o) = false := by
      unfold isObs
      rw [show coBase c + o = (Blk.co c).base + o from rfl, ht]
      simp only [decide_eq_false_iff_not]
      omega
    dsimp only [State.coWrite]
    rw [if_neg (by simp [hobs]), if_neg (by omega), if_neg (by omega)]
  case hm n =>
    dsimp only
    rw [State.hmWrite, if_neg (by omega), if_neg (by omega), regStoreRwl_of_unlocked hu]
  case lk p =>
    dsimp only [State.lkWrite]
    rw [if_neg (by omega), if_neg (by omega), if_neg (by omega)]
  case dm e =>
    dsimp only
    rw [State.dmWrite, if_neg (by omega), if_neg (by omega), if_neg (by omega)]
  case mb x =>
    dsimp only [State.mbWrite]
    rw [if_neg (by omega), if_neg (by omega), regStoreRwl_of_unlocked hu]
  case doorbell | cd | wh | cc => rfl

end

theorem readFields_nil (w : Nat) : readFields [] w = 0 := rfl

theorem writeFields_nil (locked : Bool) (w v : Nat) : writeFields [] locked w v = w := rfl

/-- A write of a hole puts the word back as it stands. -/
theorem regStore_hole {s : State} {b : Blk} {o : Nat} (v : Nat) (h4 : o % 4 = 0) (h : b.fields o = []) :
    s.regStore b o v = s.wr (b.base + o) (s.rd (b.base + o)) := by
  simp only [State.regStore, (wideIn_none_of_hole h4 h).1, h, writeFields_nil]

/-- A read of a hole: no wide quantity has a word there, and there is no field to read. -/
theorem regRead_hole {s : State} {m : Ident} {b : Blk} {o : Nat} (h4 : o % 4 = 0) (h : b.fields o = []) : s.regRead m b o = (0, s) := by
  obtain ⟨hw, ha⟩ := wideIn_none_of_hole h4 h
  unfold State.regRead
  split
  · have : o ≠ 0xC := by
      simp only [Blk.active, wideIn_cons_none, if_true] at ha
      omega
    rw [if_neg this, h, readFields_nil]
  · simp only [hw, h, readFields_nil]

theorem holesReadZeroAndIgnoreWrites : HolesReadZeroAndIgnoreWrites := by
  intro m addr value b o s hl ht hb h4 hbase hf
  have ho : o % 4 = 0 := by have := blk_base_aligned b; omega
  have ha := (wideIn_none_of_hole ho hf).2
  obtain ⟨hi, -, hm⟩ := unbarred_of_not_active (s := s) (m := m) (v := value.toNat) ha
  refine ⟨fun hc => ?_, fun hc => ⟨(s.wr (b.base + o) (s.rd (b.base + o))).reply stOK [], ?_, rfl, fun a => rd_wr_own_value _ _, rfl⟩⟩
  · have := busRead_reg hl ht hb h4 hc
    rw [regRead_hole ho hf, show toBytes 4 0 = [0#8, 0#8, 0#8, 0#8] by decide] at this
    exact congrArg Host.Outcome.next this
  · rw [registerWrite_reg hl ht hb h4 hc hi hm, regWrite_of_not_active (hbase ▸ ht) ho ha, regStore_hole _ ho hf]

/-- Settles O9: a bit outside every field by the fields' frame; an offset without a register because every word that a write or a wide quantity
treats apart is in the block's table. -/
theorem reservedBitsStayZero : Obligations.ReservedBitsStayZero := ⟨reservedFieldsStayZero, holesReadZeroAndIgnoreWrites⟩


/-! ## Completion of the register commands (R10, R11, R15) -/

section
variable {s : State} {m : Ident} {b : Blk} {o v : Nat}

theorem lockedAt_plain (h : plainPlace b o = true) : s.lockedAt b o = false := by
  cases b
  case hm | mb => simp [plainPlace] at h
  all_goals rfl

theorem regStore_plain_narrow (h : plainPlace b o = true) (hw : wideIn o b.wides = none) :
    s.regStore b o v = s.wr (b.base + o) (writeFields (b.fields o) false (s.rd (b.base + o)) v) := by
  rw [State.regStore, hw, lockedAt_plain h]

theorem regStore_high {lo n i : Nat} (hw : wideIn o b.wides = some (lo, n, i + 1)) : s.regStore b o v = s.setBuffer (b.base + o) v := by
  simp only [State.regStore, hw]

theorem regStore_low {lo n : Nat} (hw : wideIn o b.wides = some (lo, n, 0)) : s.regStore b o v = s.applyWide b lo v 0 n := by
  simp only [State.regStore, hw]

theorem regRead_low {lo n : Nat} (hb : ∀ x, b ≠ .mb x) (hw : wideIn o b.wides = some (lo, n, 0)) :
    s.regRead m b o = (readFields (b.fields o) (s.regWord b o), s.loadCapture b lo n) := by
  unfold State.regRead
  split
  · exact absurd rfl (hb _)
  · simp only [hw]

/-- One word of a wide quantity set, its buffer emptied. -/
def State.setWideWord (s : State) (b : Blk) (x w : Nat) : State :=
  { s.wr (b.base + x) (writeFields (b.fields x) false (s.rd (b.base + x)) w) with wbuf := s.wbuf.filter (fun z => z.1 != b.base + x) }

theorem buffered_setWideWord_same (x w : Nat) : (s.setWideWord b x w).buffered (b.base + x) = none := by
  simp only [State.buffered, State.setWideWord, find_after_filter_same, Option.map_none]

theorem buffered_setWideWord_other {x a : Nat} (w : Nat) (h : a ≠ b.base + x) : (s.setWideWord b x w).buffered a = s.buffered a := by
  simp only [State.buffered, State.setWideWord, find_after_filter_other h]

theorem rd_setWideWord_same (x w : Nat) :
    (s.setWideWord b x w).rd (b.base + x) = writeFields (b.fields x) false (s.rd (b.base + x)) w % 2 ^ 32 := State.rd_wr_same ..

theorem rd_setWideWord_other {x a : Nat} (w : Nat) (h : a ≠ b.base + x) : (s.setWideWord b x w).rd a = s.rd a := State.rd_wr_other _ _ h

/-- A write of the lowest word of two sets the higher one to its buffer, or leaves it where that is unwritten. -/
theorem applyWide_two : s.applyWide b o v 0 2 =
    (s.setWideWord b o v).setWideWord b (o + 4) ((s.buffered (b.base + (o + 4))).getD (s.rd (b.base + (o + 4)))) := by
  have hne : b.base + (o + 4) ≠ b.base + o := by omega
  have hdef : s.applyWide b o v 0 2 = (s.setWideWord b o v).setWideWord b (o + 4)
      (((s.setWideWord b o v).buffered (b.base + (o + 4))).getD ((s.setWideWord b o v).rd (b.base + (o + 4)))) := rfl
  rw [hdef, buffered_setWideWord_other v hne, rd_setWideWord_other v hne]

theorem rd_reply (st : Nat) (d : List Byte) (a : Nat) : (s.reply st d).rd a = s.rd a := rfl

theorem buffered_reply (st : Nat) (d : List Byte) (a : Nat) : (s.reply st d).buffered a = s.buffered a := rfl

theorem plainRegistersComplete : PlainRegistersComplete := by
  intro m addr value b o s hl ht hb h4
  refine ⟨fun hp hw hc => ?_, fun lo n i hp hw hc => ?_, fun hp hw hc => ?_, fun lo n hd hmb hw hc => ?_⟩
  · have := plain_write (value := value) hl ht hb h4 hp hc
    rw [regStore_plain_narrow hp hw, ← hb] at this
    exact congrArg Host.Outcome.next this
  · have := plain_write (value := value) hl ht hb h4 hp hc
    rw [regStore_high hw, ← hb] at this
    exact congrArg Host.Outcome.next this
  · have := plain_write (value := value) hl ht hb h4 hp hc
    rw [regStore_low hw, applyWide_two] at this
    have hne : b.base + (o + 4) ≠ b.base + o := by omega
    rw [hb, show b.base + o + 4 = b.base + (o + 4) by omega]
    generalize (s.buffered (b.base + (o + 4))).getD (s.rd (b.base + (o + 4))) = w at this ⊢
    refine ⟨_, congrArg Host.Outcome.next this, ?_, ?_, ?_, ?_, fun a h0 h1 => ?_, rfl⟩
    · rw [rd_reply, rd_setWideWord_other _ hne.symm, rd_setWideWord_same]
    · rw [rd_reply, rd_setWideWord_same, rd_setWideWord_other _ hne]
    · rw [buffered_reply, buffered_setWideWord_other _ hne.symm, buffered_setWideWord_same]
    · rw [buffered_reply, buffered_setWideWord_same]
    · rw [rd_reply, rd_setWideWord_other _ h1, rd_setWideWord_other _ h0]
  · have := busRead_reg hl ht hd h4 hc
    rw [regRead_low hmb hw] at this
    exact congrArg Host.Outcome.next this

/-- A write of a register's address with another size than 4 bytes or off a multiple of 4 bytes ends in the alignment check. -/
theorem localWr_reg_odd {a : Nat} {bs : List Byte} (ht : target a = .reg b o) (hb : b ≠ .doorbell) (hf : s.sendsTo m a = [])
    (h : bs.length ≠ 4 ∨ a % 4 ≠ 0) : s.localWr m a bs = (some stALIGN_FAULT, s) := by
  have hw : s.regWr m b o a bs.length (ofBytes bs) = (some stALIGN_FAULT, s) := if_pos h
  unfold State.localWr
  rw [flushSends_none hf]
  dsimp only
  rw [ht]
  cases b
  case doorbell => exact absurd rfl hb
  all_goals exact hw

end

theorem oddRegisterAccessesFault : OddRegisterAccessesFault := by
  intro m addr size value b o s hl ht hb hf h
  show Host.Outcome.next (s.busWrite m addr.toNat (toBytes size value.toNat)) = _
  rw [State.busWrite, resolve_local s hl]
  simp only [ne_eq, not_true_eq_false, if_false]
  rw [localWr_reg_odd ht hb hf (by rw [toBytes_length]; exact h)]

/-- Settles O10: past its checks each command comes down to `State.regStore` or `State.regRead`, one lemma for each of their branches. -/
theorem registerCommandsComplete : Obligations.RegisterCommandsComplete := ⟨plainRegistersComplete, oddRegisterAccessesFault⟩

/-! ## The forms of an address (R16) -/

theorem addr_lt_of_local {a : Nat} (h : a < 2 ^ 64) (hd : natBits 48 16 a = 0) : a < 2 ^ 48 := by
  unfold natBits at hd; omega

theorem resolve_global (s : State) {a : Nat} (h62 : natBit 62 a = true) (h63 : natBit 63 a = false) :
    s.resolve a = some (natBits 48 14 a, natBits 0 48 a) := by
  rw [State.resolve, h63, h62, if_neg Bool.false_ne_true, if_pos rfl]

/-- An address that breaks R16 names nothing. -/
theorem resolve_broken (s : State) {a : Nat}
    (h : (natBit 62 a = false ∧ natBits 48 16 a ≠ 0) ∨ (natBit 62 a = true ∧ natBit 63 a = true)) : s.resolve a = none := by
  unfold State.resolve
  rcases h with ⟨h62, hd⟩ | ⟨-, h63⟩
  · have : ¬ a < 2 ^ 48 := fun hl => hd (by simp only [natBits, Nat.div_eq_of_lt hl, Nat.zero_mod])
    rw [h62, if_neg this, if_neg Bool.false_ne_true, ite_self]
  · rw [h63, if_pos rfl]

section
variable {s : State} {a : Nat} (h : s.resolve a = none)
include h

theorem busWrite_unresolved (m : Ident) (bs : List Byte) : s.busWrite m a bs = s.reply stBOUNDS_FAULT [] := by rw [State.busWrite, h]

theorem busRead_unresolved (m : Ident) (n : Nat) : s.busRead m a n = s.reply stBOUNDS_FAULT [] := by rw [State.busRead, h]

theorem busAccess_unresolved (m : Ident) (n : Nat) (w : Bool) (d : List Byte) : s.busAccess m a n w d = s.reply stBOUNDS_FAULT [] := by
  cases w
  · exact busRead_unresolved h m n
  · exact busWrite_unresolved h m _

theorem msopCmd_unresolved (m : Ident) (ty mop x : Nat) : s.msopCmd m a ty mop x = s.reply stBOUNDS_FAULT [] := by rw [State.msopCmd, h]

end

/-- Settles O11: `State.resolve` by the two top bits, and every access of an address that it gives no place for. -/
theorem addressFormsAreChecked : Obligations.AddressFormsAreChecked := by
  intro m addr s
  refine ⟨fun _ hd => resolve_local s (addr_lt_of_local addr.isLt hd), resolve_global s, fun h => ?_⟩
  have hn := resolve_broken s h
  refine ⟨fun size v => congrArg Host.Outcome.next (busWrite_unresolved hn m _), congrArg Host.Outcome.next (busRead_unresolved hn m 4),
    fun size w d u => ?_, fun size nr w d u => ?_,
    fun v => ⟨congrArg Host.Outcome.next (busWrite_unresolved hn m _), congrArg Host.Outcome.next (busWrite_unresolved hn m _)⟩, fun ty x c hc => ?_⟩
  · show execBasinAccess m addr size w d u s = _
    rw [execBasinAccess, hn]
    exact congrArg Host.Outcome.next (busAccess_unresolved hn m _ _ _)
  · show execHbmAccess m addr size nr w d u s = _
    rw [execHbmAccess, hn]
  · simp only [List.mem_cons, List.not_mem_nil, or_false] at hc
    rcases hc with rfl | rfl | rfl | rfl
    · exact congrArg Host.Outcome.next (msopCmd_unresolved hn m _ 0 _)
    · exact congrArg Host.Outcome.next (msopCmd_unresolved hn m _ 1 _)
    · exact congrArg Host.Outcome.next (msopCmd_unresolved hn m _ 2 _)
    · exact congrArg Host.Outcome.next (msopCmd_unresolved hn m _ 3 _)

/-! ## Locked fields (R12) -/

section
variable {s : State} {m : Ident} {a o : Nat}

theorem registerWrite_at {b : Blk} {value : Word} (hl : a < 2 ^ 48) (ht : target a = .reg b o) (hb : b ≠ .doorbell) (ha : a % 4 = 0)
    (hc : Passes s m a true) (hi : s.integDenied m b o value.toNat = false) (hm : ∀ x, b = .mb x → o ≠ 0x10) :
    exec (.registerWrite m (BitVec.ofNat 64 a) 4 value) s = .next ((s.regWrite m b o value.toNat).reply stOK []) := by
  have h : (BitVec.ofNat 64 a).toNat = a := by rw [BitVec.toNat_ofNat]; omega
  exact registerWrite_reg (by rwa [h]) (by rwa [h]) hb (by rwa [h]) (by rwa [h]) hi hm

/-- A register-access event moves no register below the cores' event counters. -/
theorem regEvent_rd_below {x : Nat} (hx : x < ccBase 0) : (s.regEvent m a).rd x = s.rd x :=
  regEvent_rd m fun c k => by simp only [EV_CCNT, ccBase] at *; omega

/-- A write to the locked binding of a mailbox channel is recorded and stores nothing. -/
theorem regWrite_locked_binding {x v : Nat} (hx : x < 4096) (ho : o = 0 ∨ o = 4) (hlock : s.rb (MB_BIND_1 x) MB_BIND_1_LOCKED = true) :
    s.regWrite m (.mb x) o v = (s.regEvent m (mbBase x + o)).wr (mbBase x + o) ((s.regEvent m (mbBase x + o)).rd (mbBase x + o)) := by
  have hrd : (s.regEvent m (mbBase x + o)).rd (MB_BIND_1 x) = s.rd (MB_BIND_1 x) :=
    regEvent_rd_below (by simp only [MB_BIND_1, mbBase, ccBase]; omega)
  have hlk : s.lockedAt (.mb x) o = true := by rcases ho with rfl | rfl <;> simp [State.lockedAt, hlock]
  have hlk' : (s.regEvent m (mbBase x + o)).lockedAt (.mb x) o = true := by
    rw [← hlk]; simp only [State.lockedAt, State.rb, State.rf, hrd]
  have hfields : ∀ f ∈ (Blk.mb x).fields o, f.acc = .rwl := by
    rcases ho with rfl | rfl
    · exact List.forall_mem_cons.2 ⟨rfl, List.forall_mem_cons.2 ⟨rfl, List.forall_mem_singleton.2 rfl⟩⟩
    · exact List.forall_mem_cons.2 ⟨rfl, List.forall_mem_singleton.2 rfl⟩
  have hw : wideIn o (Blk.mb x).wides = none := by rcases ho with rfl | rfl <;> rfl
  show s.mbWrite m x o v = _
  dsimp only [State.mbWrite]
  rw [if_neg (by omega), if_neg (by omega), State.regStoreRwl, hlk, if_pos rfl, State.regStore, hw]
  dsimp only
  rw [show (Blk.mb x).base = mbBase x from rfl, hlk', writeFields_locked _ hfields]

theorem regWrite_locked_binding_rd {x v : Nat} (hx : x < 4096) (ho : o = 0 ∨ o = 4) (hlock : s.rb (MB_BIND_1 x) MB_BIND_1_LOCKED = true) :
    (s.regWrite m (.mb x) o v).rd (mbBase x + o) = s.rd (mbBase x + o) := by
  rw [regWrite_locked_binding hx ho hlock, rd_wr_own_value, regEvent_rd_below (by simp only [mbBase, ccBase]; omega)]

theorem syncRefresh_events (n : Nat) : (s.syncRefresh n).events = s.events := by
  unfold State.syncRefresh
  dsimp only
  split
  · rfl
  · split <;> rfl

theorem syncRefresh_rd {n x : Nat} (h : x ≠ HM_STATUS n) : (s.syncRefresh n).rd x = s.rd x := by
  unfold State.syncRefresh State.wb State.wf
  dsimp only
  split
  · exact State.rd_wr_other _ _ h
  · split
    · exact State.rd_wr_other _ _ h
    · rfl

/-- A write of a controller's configuration under INIT_LOCK is recorded and stores the fields that are not locked. -/
theorem regWrite_locked_hm {n v : Nat} (hn : n < 8) (hlock : s.rb (HM_STATUS n) HM_STATUS_INIT_LOCK = true) :
    s.regWrite m (.hm n) 0 v = ((s.regEvent m (HM_CFG n)).wr (HM_CFG n)
      (writeFields ((Blk.hm n).fields 0) true ((s.regEvent m (HM_CFG n)).rd (HM_CFG n)) v)).syncRefresh n := by
  have hrd : (s.regEvent m (HM_CFG n)).rd (HM_STATUS n) = s.rd (HM_STATUS n) :=
    regEvent_rd_below (by simp only [HM_STATUS, hmBase, ccBase]; omega)
  have hlk : s.lockedAt (.hm n) 0 = true := by simp [State.lockedAt, hlock]
  have hlk' : (s.regEvent m (HM_CFG n)).lockedAt (.hm n) 0 = true := by
    rw [← hlk]; simp only [State.lockedAt, State.rb, State.rf, hrd]
  have hw : wideIn 0 (Blk.hm n).wides = none := rfl
  show s.hmWrite m n 0 v = _
  rw [State.hmWrite, if_neg (by decide), if_pos rfl, State.regStoreRwl, hlk, if_pos rfl, State.regStore, hw]
  dsimp only
  rw [show (Blk.hm n).base + 0 = HM_CFG n from rfl, hlk']

/-- INTEG stays through a write of a controller's configuration whose RWL fields are locked. -/
theorem integ_writeFields_locked (n w v : Nat) : natBits 0 1 (writeFields ((Blk.hm n).fields 0) true w v) = natBits 0 1 w :=
  natBits_writeFields true v ⟨0, 1, .rwl, 0⟩ ((Blk.hm n).fields 0) w
    (List.pairwise_cons.2 ⟨List.forall_mem_singleton.2 (.inl (by decide)), List.pairwise_singleton ..⟩) (List.mem_cons_self ..)

theorem regWrite_locked_hm_integ {n v : Nat} (hn : n < 8) (hlock : s.rb (HM_STATUS n) HM_STATUS_INIT_LOCK = true) :
    (s.regWrite m (.hm n) 0 v).rf (HM_CFG n) HM_CFG_INTEG = s.rf (HM_CFG n) HM_CFG_INTEG := by
  have hne : HM_CFG n ≠ HM_STATUS n := by simp [HM_CFG, HM_STATUS]
  have hlow : ∀ x, natBits 0 1 (x % 2 ^ 32) = natBits 0 1 x := fun x => by unfold natBits; omega
  rw [regWrite_locked_hm hn hlock, State.rf, syncRefresh_rd hne, State.rd_wr_same, regEvent_rd_below (by simp only [HM_CFG, hmBase, ccBase]; omega)]
  exact (hlow _).trans (integ_writeFields_locked ..)

theorem regWrite_locked_secCtrl {v : Nat} (h : s.rb KP_SEC_CTRL KP_SEC_CTRL_LOCK = true) : s.regWrite m .kp 0xC00 v = s.regEvent m KP_SEC_CTRL := if_pos h

end

/-- Settles O12: in each of the three blocks the write is a register-access event, and the word written is the one that stood, or keeps INTEG. -/
theorem lockedFieldsStay : Obligations.LockedFieldsStay := by
  intro m a value s hl hc hcase
  rcases hcase with ⟨x, hx, ha, hlock⟩ | ⟨n, hn, rfl, hlock, hloc, hk⟩ | ⟨rfl, hlock⟩
  · obtain ⟨o, ho, rfl⟩ : ∃ o, (o = 0 ∨ o = 4) ∧ a = mbBase x + o := by
      rcases ha with rfl | rfl
      · exact ⟨0, .inl rfl, rfl⟩
      · exact ⟨4, .inr rfl, rfl⟩
    have h4 : (mbBase x + o) % 4 = 0 := by simp only [mbBase]; omega
    have hrd := regWrite_locked_binding_rd (m := m) (v := value.toNat) hx ho hlock
    refine ⟨_, registerWrite_at hl (target_mb hx (by omega)) (by simp) h4 hc rfl (fun _ _ => by omega), rfl, ?_, fun _ _ => hrd, fun _ _ => ?_⟩
    · rw [State.reply_events, regWrite_locked_binding hx ho hlock]
      exact regEvent_events m hl
    · exact congrArg (natBits 0 1) hrd
  · have h4 : HM_CFG n % 4 = 0 := by simp only [HM_CFG, hmBase]; omega
    have hi : s.integDenied m (.hm n) 0 value.toNat = false := by simp [State.integDenied, hloc, hk]
    refine ⟨_, registerWrite_at hl (target_hm hn (by decide)) (by simp) h4 hc hi (by simp), rfl, ?_, fun x hx => ?_, fun _ _ => ?_⟩
    · rw [State.reply_events, regWrite_locked_hm hn hlock, syncRefresh_events]
      exact regEvent_events m hl
    · unfold HM_CFG hmBase MB_BIND_0 MB_BIND_1 mbBase KP_SEC_CTRL kpBase at hx
      omega
    · exact regWrite_locked_hm_integ hn hlock
  · have hrd : (s.regWrite m .kp 0xC00 value.toNat).rd KP_SEC_CTRL = s.rd KP_SEC_CTRL := by
      rw [regWrite_locked_secCtrl hlock, regEvent_rd_below (by decide)]
    have ht : target KP_SEC_CTRL = .reg .kp 0xC00 := target_kp (by decide)
    refine ⟨_, registerWrite_at hl ht (by simp) rfl hc rfl (by simp), rfl, ?_, fun _ _ => hrd, fun _ _ => ?_⟩
    · rw [State.reply_events, regWrite_locked_secCtrl hlock]
      exact regEvent_events m hl
    · exact congrArg (natBits 0 1) hrd

end Sys2Proof.Machine
end

section
/-! PROOFS. The clock and the power limit: what each of their shared operations leaves in the fields that the bounds are read from, which registers
it leaves alone, and the completion of their commands (R3, R489, R493 to R495, R498, R512, R513). -/

namespace Sys2Proof.Machine

/-! ## Registers left alone -/

section
variable {s t u : State} {l : List Nat} {a : Nat}

theorem RegsBut.refl (s : State) (l : List Nat) : RegsBut s s l := fun _ _ => rfl

theorem RegsBut.trans (h : RegsBut s t l) (h' : RegsBut t u l) : RegsBut s u l := fun x hx => (h' x hx).trans (h x hx)

theorem RegsBut.mono {l' : List Nat} (h : RegsBut s t l) (hl : l ⊆ l') : RegsBut s t l' := fun x hx => h x fun hm => hx (hl hm)

theorem RegsBut.of_regs (h : RegsBut s t l) (hr : u.regs = t.regs) : RegsBut s u l := fun x hx => (rd_of_regs x hr).trans (h x hx)

theorem RegsBut.wf (h : RegsBut s t l) (ha : a ∈ l) (f : Fld) (v : Nat) : RegsBut s (t.wf a f v) l :=
  fun x hx => (State.rd_wr_other _ _ (ne_of_mem_of_not_mem ha hx).symm).trans (h x hx)

theorem RegsBut.rf (h : RegsBut s t l) (ha : a ∉ l) (f : Fld) : t.rf a f = s.rf a f := congrArg (natBits f.lo f.width) (h a ha)

theorem rf_of_regs (h : t.regs = s.regs) (f : Fld) : t.rf a f = s.rf a f := congrArg (natBits f.lo f.width) (rd_of_regs a h)

theorem rf_lt (f : Fld) : s.rf a f < 2 ^ f.width := Nat.mod_lt _ (Nat.two_pow_pos _)

/-- A field reads what was written to it where that fits. -/
theorem rf_wf_fits {f : Fld} {v : Nat} (hf : f.lo + f.width ≤ 32) (hv : v < 2 ^ f.width) : (s.wf a f v).rf a f = v := by
  rw [State.rf_wf_same _ _ _ _ hf, Nat.mod_eq_of_lt hv]

end

/-- `t` is `s` but for its registers. -/
def OnlyRegs (s t : State) : Prop := ∃ r, t = { s with regs := r }

section
variable {s t : State}

theorem OnlyRegs.refl (s : State) : OnlyRegs s s := ⟨s.regs, rfl⟩

theorem OnlyRegs.wf (h : OnlyRegs s t) (a : Nat) (f : Fld) (v : Nat) : OnlyRegs s (t.wf a f v) := by
  obtain ⟨_, rfl⟩ := h
  exact ⟨_, rfl⟩

theorem OnlyRegs.trans {u : State} (h : OnlyRegs s t) (h' : OnlyRegs t u) : OnlyRegs s u := by
  obtain ⟨_, rfl⟩ := h
  obtain ⟨_, rfl⟩ := h'
  exact ⟨_, rfl⟩

theorem OnlyRegs.power (h : OnlyRegs s t) : t.power = s.power := by
  obtain ⟨_, rfl⟩ := h
  rfl

end

/-! ## The effective limit and the clock's bounds (R489, R512) -/

section
variable {s t : State}

theorem effective_lt (s : State) : s.effective < 2 ^ 16 := by
  have : s.rf PW_IN PW_IN_VIN < 2 ^ 16 := rf_lt _
  unfold State.effective
  omega

theorem syncEffective_effective (s : State) : s.syncEffective.rf PW_LIMIT PW_LIMIT_EFFECTIVE = s.effective :=
  rf_wf_fits (by decide) (effective_lt s)

theorem syncEffective_limit (s : State) : s.syncEffective.rf PW_LIMIT PW_LIMIT_LIMIT = s.rf PW_LIMIT PW_LIMIT_LIMIT :=
  State.rf_wf_disjoint _ _ _ _ _ (by decide) (by decide)

theorem regsBut_syncEffective (s : State) : RegsBut s s.syncEffective [PW_LIMIT] := (RegsBut.refl s _).wf (by decide) _ _

theorem RegsBut.pwrMax {l : List Nat} (h : RegsBut s t l) (hl : KP_PART_INFO ∉ l) : t.pwrMax = s.pwrMax := h.rf hl _

theorem RegsBut.clkMax {l : List Nat} (h : RegsBut s t l) (hl : KP_PART_INFO ∉ l) : t.clkMax = s.clkMax := h.rf hl _

theorem RegsBut.otherBound {l : List Nat} (h : RegsBut s t l) (hk : KP_PART_INFO ∉ l) (hc : PW_CLK ∉ l) (hp : t.power.ceiling = s.power.ceiling) :
    t.otherBound = s.otherBound := by
  rw [State.otherBound, h.rf hc, h.clkMax hk, hp, State.otherBound]

theorem otherBound_lt (s : State) : s.otherBound < 2 ^ 12 := by
  have : s.rf PW_CLK PW_CLK_REQ < 2 ^ 12 := rf_lt _
  unfold State.otherBound
  omega

theorem regsBut_syncClock (s : State) : RegsBut s s.syncClock [PW_CLK] :=
  ((((RegsBut.refl s _).wf (by decide) _ _).wf (by decide) _ _).wf (by decide) _ _).wf (by decide) _ _

theorem onlyRegs_syncClock (s : State) : OnlyRegs s s.syncClock :=
  ((((OnlyRegs.refl s).wf _ _ _).wf _ _ _).wf _ _ _).wf _ _ _

/-- The fields of PW_CLK below ACTUAL stay as they are written. -/
theorem syncClock_low (s : State) {g : Fld} (h : g.lo + g.width ≤ 16) : s.syncClock.rf PW_CLK g = s.rf PW_CLK g := by
  unfold State.syncClock State.wb
  dsimp only
  rw [State.rf_wf_disjoint _ _ _ _ _ (by decide) (.inl (h.trans (by decide))), State.rf_wf_disjoint _ _ _ _ _ (by decide) (.inl (h.trans (by decide))),
    State.rf_wf_disjoint _ _ _ _ _ (by decide) (.inl (h.trans (by decide))), State.rf_wf_disjoint _ _ _ _ _ (by decide) (.inl h)]

theorem syncClock_actual (s : State) : s.syncClock.rf PW_CLK PW_CLK_ACTUAL = max 200 (min s.otherBound s.power.limiter) := by
  have := otherBound_lt s
  unfold State.syncClock State.wb
  dsimp only
  rw [State.rf_wf_disjoint _ _ _ _ _ (by decide) (by decide), State.rf_wf_disjoint _ _ _ _ _ (by decide) (by decide),
    State.rf_wf_disjoint _ _ _ _ _ (by decide) (by decide)]
  exact rf_wf_fits (by decide) (by show _ < 2 ^ 12; omega)

end

/-! ## Writes of PW_LIMIT and PW_CLK (R3, R489, R494, R495) -/

section
variable {s : State}

theorem pwLimit_limit (v : Nat) : (s.pwLimit v).rf PW_LIMIT PW_LIMIT_LIMIT = max 10 (min (v % 256) s.pwrMax) := by
  rw [State.pwLimit, syncEffective_limit]
  exact rf_wf_fits (by decide) (by show _ < 2 ^ 8; omega)

theorem pwLimit_effective (v : Nat) : (s.pwLimit v).rf PW_LIMIT PW_LIMIT_EFFECTIVE
    = min (min ((s.pwLimit v).rf PW_LIMIT PW_LIMIT_LIMIT * 100) (s.pwrMax * 100)) (120 * s.rf PW_IN PW_IN_VIN / 1000) := by
  unfold State.pwLimit
  generalize hu : s.wf PW_LIMIT PW_LIMIT_LIMIT (max 10 (min (v % 256) s.pwrMax)) = u
  have h : RegsBut s u [PW_LIMIT] := hu ▸ (RegsBut.refl s _).wf (by decide) _ _
  rw [syncEffective_effective, syncEffective_limit, State.effective, h.pwrMax (by decide), h.rf (a := PW_IN) (by decide)]

theorem regsBut_pwLimit (v : Nat) : RegsBut s (s.pwLimit v) [PW_LIMIT] :=
  ((RegsBut.refl s _).wf (by decide) _ _).trans (regsBut_syncEffective _)

theorem pwClk_req (v : Nat) : (s.pwClk v).rf PW_CLK PW_CLK_REQ = max 200 (min (natBits 0 12 v) s.clkMax) := by
  have : natBits 0 12 v < 2 ^ 12 := Nat.mod_lt _ (by decide)
  rw [State.pwClk, syncClock_low _ (by decide), State.wb, State.rf_wf_disjoint _ _ _ _ _ (by decide) (by decide)]
  exact rf_wf_fits (by decide) (by show _ < 2 ^ 12; omega)

theorem pwClk_ssc (v : Nat) : (s.pwClk v).rb PW_CLK PW_CLK_SSC_EN = natBit 12 v := by
  rw [State.rb, State.pwClk, syncClock_low _ (by decide), State.wb, State.rf_wf_same _ _ _ _ (by decide)]
  cases natBit 12 v <;> rfl

theorem pwClk_actual (v : Nat) : (s.pwClk v).rf PW_CLK PW_CLK_ACTUAL = max 200 (min (s.pwClk v).otherBound s.power.limiter) := by
  unfold State.pwClk
  generalize hu : (s.wf PW_CLK PW_CLK_REQ (max 200 (min (natBits 0 12 v) s.clkMax))).wb PW_CLK PW_CLK_SSC_EN (natBit 12 v) = u
  have hb : u.syncClock.otherBound = u.otherBound := by
    rw [State.otherBound, State.otherBound, syncClock_low _ (by decide), (regsBut_syncClock u).clkMax (by decide), (onlyRegs_syncClock u).power]
  have hp : u.power = s.power := hu ▸ rfl
  rw [syncClock_actual, hb, hp]

theorem regsBut_pwClk (v : Nat) : RegsBut s (s.pwClk v) [PW_CLK] :=
  (((RegsBut.refl s _).wf (by decide) _ _).wf (by decide) _ _).trans (regsBut_syncClock _)

/-- A write of a PW_ register by its command, past its checks. -/
theorem put32_pw {m : Ident} {o : Nat} {v : Word} (ho : o < 0x10000) (h4 : o % 4 = 0) (hc : Passes s m (pwBase + o) true) :
    s.put32 m (pwBase + o) v.toNat = (s.pwWrite m o v.toNat).reply stOK [] := by
  have := put32_reg (v := v.toNat) (by unfold pwBase; omega) (target_pw ho) (by simp) (by unfold pwBase; omega) hc.2 rfl (by simp) hc.1
  rwa [Nat.mod_eq_of_lt v.isLt] at this

end

/-! ## Events of the power unit (R490, R498) -/

section
variable {s : State}

theorem masterOf_pwSrc (s : State) : masterOf (s.pwSrc % 4096) = .reserved := by
  have : s.pwSrc % 4096 = 0xF21 := by unfold State.pwSrc State.src; omega
  exact (congrArg masterOf this).trans rfl

/-- An event of the power unit that is no input of the risk score is recorded, and nothing else happens. -/
theorem post_pwSrc {cls : Nat} (h : ¬(cls = 0x02 ∨ cls = 0x1B)) (st d : Nat) :
    s.post cls st s.pwSrc d = { s with events := s.events ++ [⟨s.now, cls, classSev cls, st, s.pwSrc % 2 ^ 26, d % 2 ^ 64⟩] } := by
  unfold State.post State.postSev
  dsimp only
  rw [if_neg h, masterOf_pwSrc]

/-- `t` is `s` but for its registers, the limiter's bound, the instants of the warnings, and the events. -/
def SupplyFrame (s t : State) : Prop :=
  ∃ r lim w e, t = { s with regs := r, power := { s.power with limiter := lim, warned := w }, events := e }

theorem SupplyFrame.trans {t u : State} (h : SupplyFrame s t) (h' : SupplyFrame t u) : SupplyFrame s u := by
  obtain ⟨_, _, _, _, rfl⟩ := h
  obtain ⟨_, _, _, _, rfl⟩ := h'
  exact ⟨_, _, _, _, rfl⟩

theorem SupplyFrame.eq {t : State} (h : SupplyFrame s t) :
    t = { s with regs := t.regs, power := { s.power with limiter := t.power.limiter, warned := t.power.warned }, events := t.events } := by
  obtain ⟨_, _, _, _, rfl⟩ := h
  rfl

/-- A warning that is absent leaves the limiter's bound, and of the registers all but its bit's. -/
theorem unwarn_frame (s : State) (kind : Nat) :
    SupplyFrame s (s.unwarn kind) ∧ (s.unwarn kind).power.limiter = s.power.limiter ∧ RegsBut s (s.unwarn kind) [PW_SUPPLY] := by
  unfold State.unwarn
  split
  · exact ⟨⟨_, _, _, _, rfl⟩, rfl, RegsBut.wf ((RegsBut.refl s _).of_regs rfl) (by decide) _ _⟩
  · exact ⟨⟨_, _, _, _, rfl⟩, rfl, RegsBut.refl _ _⟩

/-- A warning of kind 4 leaves the limiter's bound and every register. -/
theorem warn_four_frame (s : State) (vin : Nat) :
    SupplyFrame s (s.warn 4 vin) ∧ (s.warn 4 vin).power.limiter = s.power.limiter ∧ (s.warn 4 vin).regs = s.regs := by
  unfold State.warn
  dsimp only
  split
  · rw [if_neg (by decide), post_pwSrc (by decide)]
    exact ⟨⟨_, _, _, _, rfl⟩, rfl, rfl⟩
  · exact ⟨⟨_, _, _, _, rfl⟩, rfl, rfl⟩

end

/-! ## The limiter's sample (R490, R493, R494) -/

/-- The telemetry of a sample and the effective limit that follows from it. -/
def State.sampled (s : State) (vin iin avg peak : Nat) : State :=
  ((((s.wf PW_IN PW_IN_VIN vin).wf PW_IN PW_IN_IIN iin).wf PW_POWER PW_POWER_AVG avg).wf PW_POWER PW_POWER_PEAK peak).syncEffective

/-- The warnings of the input that a voltage ends. -/
def State.unwarnInput (s : State) (vin : Nat) : State :=
  let s := if 41000 ≤ vin then s.unwarn 1 else s
  if vin ≤ 59000 then s.unwarn 2 else s

/-- The limiter's bound lowered. -/
def State.lowered (s : State) (down : Nat) : State :=
  if down = 0 then s else { s with power := { s.power with limiter := max 200 (min s.otherBound s.power.limiter - down) } }

/-- A warning of kind 4 where the limiter holds the clock below 700 MHz. -/
def State.warnLimited (s : State) (vin : Nat) : State := if s.rb PW_CLK PW_CLK_LIMITED && decide (s.power.limiter < 700) then s.warn 4 vin else s

theorem exec_limiterSample (vin iin avg peak : BitVec 16) (lower : BitVec 12) (s : State) : exec (.limiterSample vin iin avg peak lower) s =
    .next ((((s.sampled vin.toNat iin.toNat avg.toNat peak.toNat).unwarnInput vin.toNat).lowered (lower.toNat / 5 * 5)).syncClock.warnLimited vin.toNat) := rfl

section
variable {s : State} {vin iin avg peak : Nat}

theorem onlyRegs_sampled : OnlyRegs s (s.sampled vin iin avg peak) :=
  (((((OnlyRegs.refl s).wf _ _ _).wf _ _ _).wf _ _ _).wf _ _ _).wf _ _ _

theorem regsBut_sampled : RegsBut s (s.sampled vin iin avg peak) [PW_IN, PW_POWER, PW_LIMIT] :=
  (((((RegsBut.refl s _).wf (by decide) _ _).wf (by decide) _ _).wf (by decide) _ _).wf (by decide) _ _).wf (by decide) _ _

theorem sampled_input (hv : vin < 2 ^ 16) (hi : iin < 2 ^ 16) :
    (s.sampled vin iin avg peak).rf PW_IN PW_IN_VIN = vin ∧ (s.sampled vin iin avg peak).rf PW_IN PW_IN_IIN = iin := by
  unfold State.sampled
  rw [(regsBut_syncEffective _).rf (by decide), (regsBut_syncEffective _).rf (by decide)]
  simp only [State.rf_wf_other _ _ _ _ (show PW_IN ≠ PW_POWER by decide)]
  exact ⟨(State.rf_wf_disjoint _ _ _ _ _ (by decide) (by decide)).trans (rf_wf_fits (by decide) hv), rf_wf_fits (by decide) hi⟩

theorem sampled_power (ha : avg < 2 ^ 16) (hp : peak < 2 ^ 16) :
    (s.sampled vin iin avg peak).rf PW_POWER PW_POWER_AVG = avg ∧ (s.sampled vin iin avg peak).rf PW_POWER PW_POWER_PEAK = peak := by
  unfold State.sampled
  rw [(regsBut_syncEffective _).rf (by decide), (regsBut_syncEffective _).rf (by decide)]
  exact ⟨(State.rf_wf_disjoint _ _ _ _ _ (by decide) (by decide)).trans (rf_wf_fits (by decide) ha), rf_wf_fits (by decide) hp⟩

theorem sampled_effective (hv : vin < 2 ^ 16) : (s.sampled vin iin avg peak).rf PW_LIMIT PW_LIMIT_EFFECTIVE
    = min (min (s.rf PW_LIMIT PW_LIMIT_LIMIT * 100) (s.pwrMax * 100)) (120 * vin / 1000) := by
  unfold State.sampled
  generalize hu : (((s.wf PW_IN PW_IN_VIN vin).wf PW_IN PW_IN_IIN iin).wf PW_POWER PW_POWER_AVG avg).wf PW_POWER PW_POWER_PEAK peak = u
  have h : RegsBut s u [PW_IN, PW_POWER] :=
    hu ▸ ((((RegsBut.refl s _).wf (by decide) _ _).wf (by decide) _ _).wf (by decide) _ _).wf (by decide) _ _
  have hvin : u.rf PW_IN PW_IN_VIN = vin := by
    rw [← hu, State.rf_wf_other _ _ _ _ (by decide), State.rf_wf_other _ _ _ _ (by decide), State.rf_wf_disjoint _ _ _ _ _ (by decide) (by decide)]
    exact rf_wf_fits (by decide) hv
  rw [syncEffective_effective, State.effective, h.pwrMax (by decide), h.rf (by decide), hvin]

theorem unwarnInput_frame (s : State) (vin : Nat) :
    SupplyFrame s (s.unwarnInput vin) ∧ (s.unwarnInput vin).power.limiter = s.power.limiter ∧ RegsBut s (s.unwarnInput vin) [PW_SUPPLY] := by
  have step : ∀ (u : State) (c : Prop) [Decidable c] (kind : Nat), let t := if c then u.unwarn kind else u
      SupplyFrame u t ∧ t.power.limiter = u.power.limiter ∧ RegsBut u t [PW_SUPPLY] := by
    intro u c _ kind
    dsimp only
    split
    · exact unwarn_frame u kind
    · exact ⟨⟨_, _, _, _, rfl⟩, rfl, RegsBut.refl _ _⟩
  obtain ⟨f1, l1, r1⟩ := step s (41000 ≤ vin) 1
  obtain ⟨f2, l2, r2⟩ := step (if 41000 ≤ vin then s.unwarn 1 else s) (vin ≤ 59000) 2
  exact ⟨f1.trans f2, l2.trans l1, r1.trans r2⟩

theorem warnLimited_frame (s : State) (vin : Nat) :
    SupplyFrame s (s.warnLimited vin) ∧ (s.warnLimited vin).power.limiter = s.power.limiter ∧ (s.warnLimited vin).regs = s.regs := by
  unfold State.warnLimited
  split
  · exact warn_four_frame s vin
  · exact ⟨⟨_, _, _, _, rfl⟩, rfl, rfl⟩

theorem OnlyRegs.supplyFrame {t : State} (h : OnlyRegs s t) : SupplyFrame s t := by
  obtain ⟨_, rfl⟩ := h
  exact ⟨_, _, _, _, rfl⟩

theorem SupplyFrame.ceiling {t : State} (h : SupplyFrame s t) : t.power.ceiling = s.power.ceiling := by
  obtain ⟨_, _, _, _, rfl⟩ := h
  rfl

theorem lowered_frame (s : State) (down : Nat) : SupplyFrame s (s.lowered down) ∧ (s.lowered down).regs = s.regs
    ∧ (s.lowered down).power.limiter = if down = 0 then s.power.limiter else max 200 (min s.otherBound s.power.limiter - down) := by
  unfold State.lowered
  split
  · exact ⟨⟨_, _, _, _, rfl⟩, rfl, rfl⟩
  · exact ⟨⟨_, _, _, _, rfl⟩, rfl, rfl⟩

end

/-- What a sample leaves: its telemetry and the effective limit, the limiter's bound lowered, and the clock at the least of its bounds. -/
theorem limiterSample_completes (vin iin avg peak : BitVec 16) (lower : BitVec 12) (s : State) : let down := lower.toNat / 5 * 5
    ∃ t : State, exec (.limiterSample vin iin avg peak lower) s = .next t ∧ t.rf PW_IN PW_IN_VIN = vin.toNat ∧ t.rf PW_IN PW_IN_IIN = iin.toNat
      ∧ t.rf PW_POWER PW_POWER_AVG = avg.toNat ∧ t.rf PW_POWER PW_POWER_PEAK = peak.toNat
      ∧ t.rf PW_LIMIT PW_LIMIT_EFFECTIVE = min (min (s.rf PW_LIMIT PW_LIMIT_LIMIT * 100) (s.pwrMax * 100)) (120 * vin.toNat / 1000)
      ∧ t.power.limiter = (if down = 0 then s.power.limiter else max 200 (min s.otherBound s.power.limiter - down))
      ∧ t.rf PW_CLK PW_CLK_ACTUAL = max 200 (min s.otherBound t.power.limiter)
      ∧ RegsBut s t [PW_IN, PW_POWER, PW_LIMIT, PW_CLK, PW_SUPPLY]
      ∧ t = { s with regs := t.regs, power := { s.power with limiter := t.power.limiter, warned := t.power.warned }, events := t.events } := by
  intro down
  obtain ⟨hvin, hiin⟩ := sampled_input (s := s) (avg := avg.toNat) (peak := peak.toNat) vin.isLt iin.isLt
  obtain ⟨havg, hpeak⟩ := sampled_power (s := s) (vin := vin.toNat) (iin := iin.toNat) avg.isLt peak.isLt
  have heff := sampled_effective (s := s) (iin := iin.toNat) (avg := avg.toNat) (peak := peak.toNat) vin.isLt
  have f1 := onlyRegs_sampled (s := s) (vin := vin.toNat) (iin := iin.toNat) (avg := avg.toNat) (peak := peak.toNat)
  have r1 := regsBut_sampled (s := s) (vin := vin.toNat) (iin := iin.toNat) (avg := avg.toNat) (peak := peak.toNat)
  rw [exec_limiterSample]
  generalize s.sampled vin.toNat iin.toNat avg.toNat peak.toNat = a at *
  obtain ⟨f2, l2, r2⟩ := unwarnInput_frame a vin.toNat
  generalize a.unwarnInput vin.toNat = b at *
  have ob : b.otherBound = s.otherBound := ((r1.mono (by decide : _ ⊆ [PW_IN, PW_POWER, PW_LIMIT, PW_SUPPLY])).trans (r2.mono (by decide))).otherBound
    (by decide) (by decide) (f1.supplyFrame.trans f2).ceiling
  obtain ⟨f3, g3, l3⟩ := lowered_frame b down
  generalize b.lowered down = c at *
  have oc : c.otherBound = s.otherBound := ((RegsBut.refl b []).of_regs g3).otherBound (by decide) (by decide) f3.ceiling ▸ ob
  have f4 := onlyRegs_syncClock c
  have r4 := regsBut_syncClock c
  have hact := syncClock_actual c
  generalize c.syncClock = d at *
  obtain ⟨f5, l5, g5⟩ := warnLimited_frame d vin.toNat
  generalize d.warnLimited vin.toNat = t at *
  have rt : RegsBut a t [PW_SUPPLY, PW_CLK] :=
    ((((r2.mono (by decide)).of_regs g3).trans (r4.mono (by decide)))).of_regs g5
  have lt : t.power.limiter = c.power.limiter := l5.trans (congrArg Power.limiter f4.power)
  refine ⟨t, rfl, ?_, ?_, ?_, ?_, ?_, ?_, ?_, (r1.mono (by decide)).trans (rt.mono (by decide)),
    (f1.supplyFrame.trans (f2.trans (f3.trans (f4.supplyFrame.trans f5)))).eq⟩
  · rw [rt.rf (by decide), hvin]
  · rw [rt.rf (by decide), hiin]
  · rw [rt.rf (by decide), havg]
  · rw [rt.rf (by decide), hpeak]
  · rw [rt.rf (by decide), heff]
  · rw [lt, l3, ob, l2, f1.power]
  · rw [rf_of_regs g5, hact, oc, lt]

/-! ## The thermal throttle and the clock's way up (R493, R498) -/

section
variable {s : State}

/-- A change of the bounds alone, and the clock after it: the registers but PW_CLK stay. -/
theorem rebound_frame (s : State) (p : Power) : ∃ t : State, ({ s with power := p } : State).syncClock = t ∧ RegsBut s t [PW_CLK]
    ∧ ∃ r, t = { s with regs := r, power := p } := by
  have hr : RegsBut s ({ s with power := p } : State) [PW_CLK] := (RegsBut.refl s _).of_regs rfl
  generalize hu : ({ s with power := p } : State) = u at hr ⊢
  have r := regsBut_syncClock u
  have f := onlyRegs_syncClock u
  generalize u.syncClock = t at r f ⊢
  obtain ⟨_, rfl⟩ := f
  subst hu
  exact ⟨_, rfl, hr.trans r, _, rfl⟩

theorem clockRaise_completes (h : s.rf PW_POWER PW_POWER_AVG * 100 ≤ s.rf PW_LIMIT PW_LIMIT_EFFECTIVE * 97) : ∃ t : State, exec .clockRaise s = .next t
    ∧ RegsBut s t [PW_CLK]
    ∧ t = { s with regs := t.regs, power := { s.power with limiter := if s.otherBound ≤ s.power.limiter + 5 then s.clkMax else s.power.limiter + 5 } } := by
  obtain ⟨t, ht, hr, _, rfl⟩ := rebound_frame s { s.power with limiter := if s.otherBound ≤ s.power.limiter + 5 then s.clkMax else s.power.limiter + 5 }
  refine ⟨_, ?_, hr, rfl⟩
  show execClockRaise s = _
  rw [execClockRaise, if_pos h]
  exact congrArg Host.Outcome.next ht

theorem clockRaise_idle (h : s.rf PW_LIMIT PW_LIMIT_EFFECTIVE * 97 < s.rf PW_POWER PW_POWER_AVG * 100) : exec .clockRaise s = .next s :=
  if_neg (Nat.not_le.2 h)

/-- The registers of a junction reading. -/
def State.junctionRegs (s : State) (j i : Nat) : State :=
  let u := ((s.wf PW_TEMP PW_TEMP_JMAX j).wf PW_TEMP PW_TEMP_JDIE i).wf (PW_DIE_TEMP i) PW_DIE_TEMP_TEMP j
  u.wf (PW_DIE_TEMP i) PW_DIE_TEMP_PEAK (max j (u.rf (PW_DIE_TEMP i) PW_DIE_TEMP_PEAK))

theorem junction_eq (s : State) (j i : Nat) : s.junction j i = (s.junctionRegs j i).riskInput 3 j := rfl

/-- A junction reading shows in PW_TEMP and in its die's register, and is an input of the risk score; nothing else changes. -/
theorem junction_frame {j : Nat} (hj : j < 2 ^ 8) (i : Nat) (s : State) : ∃ t : State, s.junction j i = t ∧ t.rf PW_TEMP PW_TEMP_JMAX = j
    ∧ RegsBut s t [PW_TEMP, PW_DIE_TEMP i] ∧ ∃ r k, t = { s with regs := r, fleet := { s.fleet with risk := k } } := by
  have hne : PW_TEMP ≠ PW_DIE_TEMP i := by unfold PW_TEMP PW_DIE_TEMP; omega
  have hr : RegsBut s (s.junctionRegs j i) [PW_TEMP, PW_DIE_TEMP i] :=
    ((((RegsBut.refl s _).wf (by simp) _ _).wf (by simp) _ _).wf (by simp) _ _).wf (by simp) _ _
  have hf : OnlyRegs s (s.junctionRegs j i) := ((((OnlyRegs.refl s).wf _ _ _).wf _ _ _).wf _ _ _).wf _ _ _
  have hjm : (s.junctionRegs j i).rf PW_TEMP PW_TEMP_JMAX = j := by
    unfold State.junctionRegs
    dsimp only
    rw [State.rf_wf_other _ _ _ _ hne, State.rf_wf_other _ _ _ _ hne, State.rf_wf_disjoint _ _ _ _ _ (by decide) (by decide)]
    exact rf_wf_fits (by decide) hj
  rw [junction_eq]
  generalize s.junctionRegs j i = u at hr hf hjm ⊢
  obtain ⟨_, rfl⟩ := hf
  exact ⟨_, rfl, hjm, hr.of_regs rfl, _, _, rfl⟩

theorem junction_keeps_clkMax {t : State} {i : Nat} (h : RegsBut s t [PW_TEMP, PW_DIE_TEMP i]) : t.clkMax = s.clkMax := by
  refine h.clkMax ?_
  simp only [List.mem_cons, List.not_mem_nil, or_false, not_or]
  unfold KP_PART_INFO PW_TEMP PW_DIE_TEMP kpBase pwBase
  omega

/-- A junction reading and the ceiling set after it, which both throttle commands share. -/
theorem junction_setCeiling {j : Nat} (hj : j < 2 ^ 8) (i c : Nat) (s : State) : ∃ t : State,
    ({ s.junction j i with power := { s.power with ceiling := c } } : State).syncClock = t ∧ t.rf PW_TEMP PW_TEMP_JMAX = j
      ∧ RegsBut s t [PW_TEMP, PW_DIE_TEMP i, PW_CLK]
      ∧ ∃ r k, t = { s with regs := r, power := { s.power with ceiling := c }, fleet := { s.fleet with risk := k } } := by
  obtain ⟨u, hu, hjm, hr, hf⟩ := junction_frame hj i s
  rw [hu]
  obtain ⟨t, ht, hrt, hft⟩ := rebound_frame u { s.power with ceiling := c }
  refine ⟨t, ht, (hrt.rf (by decide) _).trans hjm, (hr.mono (by simp)).trans (hrt.mono (by simp)), ?_⟩
  obtain ⟨_, _, rfl⟩ := hf
  obtain ⟨_, rfl⟩ := hft
  exact ⟨_, _, rfl⟩

theorem throttleUp_completes (j : Byte) (die : Fin 25) (s : State) : ∃ t : State, exec (.throttleUp j die) s = .next t
    ∧ t.rf PW_TEMP PW_TEMP_JMAX = j.toNat ∧ RegsBut s t [PW_TEMP, PW_DIE_TEMP die, PW_CLK]
    ∧ t = { s with regs := t.regs, power := { s.power with ceiling := if j.toNat ≤ 92 then min s.clkMax (s.power.ceiling + 25) else s.power.ceiling },
                   fleet := { s.fleet with risk := t.fleet.risk } } := by
  obtain ⟨u, hu, hjm, hr, hf⟩ := junction_frame j.isLt die s
  have hpow : u.power = s.power := by obtain ⟨_, _, rfl⟩ := hf; rfl
  show ∃ t, execThrottleUp j die s = _ ∧ _
  rw [execThrottleUp]
  dsimp only
  by_cases h : j.toNat ≤ 92
  · obtain ⟨t, ht, hjt, hrt, hft⟩ := junction_setCeiling j.isLt die (min s.clkMax (s.power.ceiling + 25)) s
    rw [hu] at ht ⊢
    rw [if_pos h, if_pos h, hpow, junction_keeps_clkMax hr, ht]
    refine ⟨t, rfl, hjt, hrt, ?_⟩
    obtain ⟨_, _, rfl⟩ := hft
    rfl
  · rw [if_neg h, if_neg h, hu]
    refine ⟨u, rfl, hjm, hr.mono (by simp), ?_⟩
    obtain ⟨_, _, rfl⟩ := hf
    rfl

theorem throttleDown_completes (j : Byte) (die : Fin 25) (s : State) : ∃ t : State, exec (.throttleDown j die) s = .next t
    ∧ t.rf PW_TEMP PW_TEMP_JMAX = j.toNat ∧ RegsBut s t [PW_TEMP, PW_DIE_TEMP die, PW_CLK]
    ∧ t = { s with regs := t.regs, power := { s.power with ceiling := if 95 < j.toNat then max 200 (s.power.ceiling - 25) else s.power.ceiling },
                   events := t.events, fleet := { s.fleet with risk := t.fleet.risk } } := by
  obtain ⟨u, hu, hjm, hr, hf⟩ := junction_frame j.isLt die s
  have hpow : u.power = s.power := by obtain ⟨_, _, rfl⟩ := hf; rfl
  show ∃ t, execThrottleDown j die s = _ ∧ _
  rw [execThrottleDown]
  dsimp only
  by_cases h : 95 < j.toNat
  · obtain ⟨t, ht, hjt, hrt, hft⟩ := junction_setCeiling j.isLt die (max 200 (s.power.ceiling - 25)) s
    rw [hu] at ht ⊢
    rw [if_pos h, if_pos h, hpow, ht, post_pwSrc (by decide)]
    split
    · refine ⟨_, rfl, hjt, hrt.of_regs rfl, ?_⟩
      obtain ⟨_, _, rfl⟩ := hft
      rfl
    · refine ⟨t, rfl, hjt, hrt, ?_⟩
      obtain ⟨_, _, rfl⟩ := hft
      rfl
  · rw [if_neg h, if_neg h, hu]
    refine ⟨u, rfl, hjm, hr.mono (by simp), ?_⟩
    obtain ⟨_, _, rfl⟩ := hf
    rfl

theorem onlyRegs_pwLimit (v : Nat) : OnlyRegs s (s.pwLimit v) := ((OnlyRegs.refl s).wf _ _ _).wf _ _ _

theorem onlyRegs_pwClk (v : Nat) : OnlyRegs s (s.pwClk v) := (((OnlyRegs.refl s).wf _ _ _).wf _ _ _).trans (onlyRegs_syncClock _)

theorem pwLimitWrite_completes {m : Ident} (v : Word) (hc : Passes s m PW_LIMIT true) : ∃ t : State, exec (.pwLimitWrite m v) s = .next t
    ∧ t.rf PW_LIMIT PW_LIMIT_LIMIT = max 10 (min (v.toNat % 256) s.pwrMax)
    ∧ t.rf PW_LIMIT PW_LIMIT_EFFECTIVE = min (min (t.rf PW_LIMIT PW_LIMIT_LIMIT * 100) (s.pwrMax * 100)) (120 * s.rf PW_IN PW_IN_VIN / 1000)
    ∧ RegsBut s t [PW_LIMIT] ∧ t = { s with regs := t.regs, resp := ⟨stOK, []⟩ } := by
  have hw := put32_pw (o := 0x8) (v := v) (by decide) (by decide) hc
  rw [State.pwWrite, if_pos rfl] at hw
  have hlim := pwLimit_limit (s := s) v.toNat
  have heff := pwLimit_effective (s := s) v.toNat
  have hr := regsBut_pwLimit (s := s) v.toNat
  have hf := onlyRegs_pwLimit (s := s) v.toNat
  generalize s.pwLimit v.toNat = u at *
  have hrep : RegsBut u (u.reply stOK []) [] := fun x _ => rd_reply ..
  refine ⟨u.reply stOK [], congrArg Host.Outcome.next hw, ?_, ?_, hr.of_regs rfl, ?_⟩
  · rw [hrep.rf (by decide), hlim]
  · rw [hrep.rf (by decide), hrep.rf (by decide), heff]
  obtain ⟨_, rfl⟩ := hf
  rfl

theorem pwClkWrite_completes {m : Ident} (v : Word) (hc : Passes s m PW_CLK true) : ∃ t : State, exec (.pwClkWrite m v) s = .next t
    ∧ t.rf PW_CLK PW_CLK_REQ = max 200 (min (natBits 0 12 v.toNat) s.clkMax) ∧ t.rb PW_CLK PW_CLK_SSC_EN = natBit 12 v.toNat
    ∧ t.rf PW_CLK PW_CLK_ACTUAL = max 200 (min t.otherBound s.power.limiter)
    ∧ RegsBut s t [PW_CLK] ∧ t = { s with regs := t.regs, resp := ⟨stOK, []⟩ } := by
  have hw := put32_pw (o := 0xC) (v := v) (by decide) (by decide) hc
  rw [State.pwWrite, if_neg (by decide), if_pos rfl] at hw
  have hreq := pwClk_req (s := s) v.toNat
  have hssc := pwClk_ssc (s := s) v.toNat
  have hact := pwClk_actual (s := s) v.toNat
  have hr := regsBut_pwClk (s := s) v.toNat
  have hf := onlyRegs_pwClk (s := s) v.toNat
  generalize s.pwClk v.toNat = u at *
  have hrep : RegsBut u (u.reply stOK []) [] := fun x _ => rd_reply ..
  have hb : (u.reply stOK []).otherBound = u.otherBound := hrep.otherBound List.not_mem_nil List.not_mem_nil (congrArg Power.ceiling (State.reply_power ..))
  refine ⟨u.reply stOK [], congrArg Host.Outcome.next hw, ?_, ?_, ?_, hr.of_regs rfl, ?_⟩
  · rw [hrep.rf (by decide), hreq]
  · rw [State.rb, hrep.rf (by decide), ← hssc, State.rb]
  · rw [hrep.rf (by decide), hb, hact]
  obtain ⟨_, rfl⟩ := hf
  rfl

end

/-- Settles O59: one completion lemma for each command, over what `State.syncEffective` and `State.syncClock` leave in PW_LIMIT and PW_CLK. -/
theorem clockAndLimitCommandsComplete : Obligations.ClockAndLimitCommandsComplete := fun s =>
  ⟨fun _ v hc => pwLimitWrite_completes v hc, fun _ v hc => pwClkWrite_completes v hc,
    fun vin iin avg peak lower => limiterSample_completes vin iin avg peak lower s, clockRaise_completes, clockRaise_idle,
    fun j die => ⟨throttleDown_completes j die s, throttleUp_completes j die s⟩, fun _ => rfl⟩

end Sys2Proof.Machine
end

section
/-! PROOFS. Network time: wide registers, the sources of time and what a change, a pulse, a message or a tick of the time unit leaves (R53 to R64, R376). -/

namespace Sys2Proof.Machine

/-! ## Wide registers (R15) -/

section
variable {s t : State} {l : List Nat} {a : Nat}

theorem RegsBut.wr (h : RegsBut s t l) (ha : a ∈ l) (v : Nat) : RegsBut s (t.wr a v) l :=
  fun x hx => (State.rd_wr_other _ _ (ne_of_mem_of_not_mem ha hx).symm).trans (h x hx)

theorem RegsBut.wrWide (h : RegsBut s t l) {n : Nat} (ha : wordsAt a n ⊆ l) (v : Nat) : RegsBut s (t.wrWide a n v) l := by
  induction n with
  | zero => exact h
  | succ n ih =>
    have hs : wordsAt a n ⊆ wordsAt a (n + 1) := List.map_subset _ (List.range_subset.2 n.le_succ)
    exact (ih (List.Subset.trans hs ha)).wr (ha (List.mem_map_of_mem (List.mem_range.2 n.lt_succ_self))) _

theorem rdWide_congr {n : Nat} (h : ∀ i < n, t.rd (a + 4 * i) = s.rd (a + 4 * i)) : t.rdWide a n = s.rdWide a n := by
  induction n with
  | zero => rfl
  | succ n ih => rw [State.rdWide, State.rdWide, ih fun i hi => h i (hi.trans n.lt_succ_self), h n n.lt_succ_self]

theorem RegsBut.rdWide (h : RegsBut s t l) {n : Nat} (ha : ∀ i < n, a + 4 * i ∉ l) : t.rdWide a n = s.rdWide a n :=
  rdWide_congr fun i hi => h _ (ha i hi)

theorem RegsBut.now (h : RegsBut s t l) (ha : ∀ i < 3, TM_NOW_0 + 4 * i ∉ l) : t.now = s.now := congrArg (· / 65536) (h.rdWide ha)

/-- A wide quantity reads back what was written to it, as far as its words hold it. -/
theorem rdWide_wrWide (s : State) (a n v : Nat) : (s.wrWide a n v).rdWide a n = v % 2 ^ (32 * n) := by
  induction n with
  | zero => simp [State.rdWide, Nat.mod_one]
  | succ n ih =>
    rw [State.rdWide, State.wrWide, rdWide_congr (s := s.wrWide a n v) fun i hi => State.rd_wr_other _ _ (by omega), ih, State.rd_wr_same, Nat.mod_mod,
      Nat.mul_succ, Nat.pow_add, Nat.mod_mul, Nat.mul_comm (2 ^ (32 * n))]

theorem onlyRegs_wrWide (h : OnlyRegs s t) (a n v : Nat) : OnlyRegs s (t.wrWide a n v) := h.trans ⟨_, wrWide_eq a n v⟩

end

/-! ## Bits of TM_SRC_STATUS -/

section
variable {s : State}

/-- A bit of TM_SRC_STATUS moves it and the instants since which the sources are qualified. -/
theorem setSrc_sets (s : State) (x : TimeState) (f : Fld) (b : Bool) :
    ∃ l, ({ s with time := x } : State).setSrc f b = { s.wf TM_SRC_STATUS f b.toNat with time := { x with since := l } } := ⟨_, rfl⟩

/-! ## REF10M_IN (R57) -/

theorem ref10mFail_completes {absentNs : Nat} {ppb : Int} (h : 10000 < absentNs ∨ 5000 < ppb.natAbs) :
    ∃ t : State, exec (.ref10mFail absentNs ppb) s = .next t
      ∧ t = { s.wf TM_SRC_STATUS TM_SRC_STATUS_REF_OK 0 with time := { s.time with refBadAt := s.boot.uptime, since := t.time.since } } := by
  obtain ⟨l, hl⟩ := setSrc_sets s { s.time with refBadAt := s.boot.uptime } TM_SRC_STATUS_REF_OK false
  exact ⟨_, if_pos h, hl ▸ rfl⟩

theorem ref10mFail_idle {absentNs : Nat} {ppb : Int} (ha : absentNs ≤ 10000) (hp : ppb.natAbs ≤ 5000) : exec (.ref10mFail absentNs ppb) s = .next s :=
  if_neg (by omega)

theorem ref10mRequalify_completes (hok : s.rf TM_SRC_STATUS TM_SRC_STATUS_REF_OK = 0) (hup : s.time.refBadAt + 10000000000 ≤ s.boot.uptime) :
    ∃ t : State, exec .ref10mRequalify s = .next t
      ∧ t = { s.wf TM_SRC_STATUS TM_SRC_STATUS_REF_OK 1 with time := { s.time with since := t.time.since } } := by
  obtain ⟨l, hl⟩ := setSrc_sets s s.time TM_SRC_STATUS_REF_OK true
  exact ⟨_, if_pos (by simp [State.rb, hok, hup]), hl ▸ rfl⟩

theorem ref10mRequalify_early (hup : s.boot.uptime < s.time.refBadAt + 10000000000) : exec .ref10mRequalify s = .next s :=
  if_neg (by simp [hup])

/-! ## PPS_IN (R56) -/

/-- The edges of the last 100 ms before an edge. -/
def State.recentEdges (s : State) (at_ : Nat) : List Nat := s.time.ppsEdges.filter (fun x => decide (at_ < x + 100000000))

/-- An edge has been counted among those of the last 100 ms. -/
def State.ppsSeen (s : State) (at_ : Nat) : State := { s with time := { s.time with ppsEdges := at_ :: s.recentEdges at_, ppsLast := at_ } }

theorem ppsAnyEdge_quiet {at_ : Nat} (h : (s.recentEdges at_).length < 2) : s.ppsAnyEdge at_ = s.ppsSeen at_ :=
  if_neg (Nat.not_lt.2 (Nat.succ_le_of_lt h))

theorem ppsAnyEdge_third {at_ : Nat} (h : ¬(s.recentEdges at_).length < 2) : s.ppsAnyEdge at_ = (s.ppsSeen at_).ppsFailed at_ :=
  if_pos (Nat.succ_lt_succ (Nat.lt_of_not_le (fun h' => h (Nat.lt_succ_of_le h'))))

theorem ppsFailed_sets (s : State) (x : TimeState) (at_ : Nat) : ∃ l, ({ s with time := x } : State).ppsFailed at_
    = { s.wf TM_SRC_STATUS TM_SRC_STATUS_PPS_OK 0 with time := { x with ppsBadAt := max x.ppsBadAt at_, since := l } } :=
  setSrc_sets s { x with ppsBadAt := max x.ppsBadAt at_ } TM_SRC_STATUS_PPS_OK false

theorem ppsInFallingEdge_third {at_ : Nat} (h : ¬(s.recentEdges at_).length < 2) : ∃ t : State, exec (.ppsInFallingEdge at_) s = .next t
    ∧ t = { (s.ppsSeen at_).wf TM_SRC_STATUS TM_SRC_STATUS_PPS_OK 0 with
            time := { (s.ppsSeen at_).time with ppsBadAt := max s.time.ppsBadAt at_, since := t.time.since } } := by
  obtain ⟨l, hl⟩ := ppsFailed_sets s (s.ppsSeen at_).time at_
  exact ⟨_, congrArg Host.Outcome.next ((ppsAnyEdge_third h).trans hl), rfl⟩

/-- A rising edge as PPS_DELAY has it (R56). -/
def State.edgeAt (s : State) (at_ : Nat) : Int := at_ - sext 16 (s.rf TM_PPS_DELAY TM_PPS_DELAY_DELAY)

/-- A rising edge that is not the third of 100 ms: its effect by what the window says of it. -/
theorem ppsEdge_quiet {at_ : Nat} (h : (s.recentEdges at_).length < 2) : exec (.ppsEdge at_) s =
    if !s.rb TM_SRC_STATUS TM_SRC_STATUS_TOD_VALID then .next (s.ppsSeen at_)
    else if s.time.ppsRef.elim true (fun r => ppsInWindow r (s.edgeAt at_)) then
      .next { s.ppsSeen at_ with time := { (s.ppsSeen at_).time with ppsRef := some (s.edgeAt at_) } }
    else .next (({ s.ppsSeen at_ with time := { (s.ppsSeen at_).time with ppsBadAt := max s.time.ppsBadAt at_ } }).post 0x11 stOK s.tmSrc at_) := by
  show execPpsEdge at_ s = _
  unfold execPpsEdge
  rw [ppsAnyEdge_quiet h]
  cases hr : s.time.ppsRef <;> simp only [State.ppsSeen, hr] <;> rfl

theorem ppsFail_completes (h : s.time.ppsLast + 1500000000 < s.now) : ∃ t : State, exec .ppsFail s = .next t
    ∧ t = { s.wf TM_SRC_STATUS TM_SRC_STATUS_PPS_OK 0 with time := { s.time with ppsBadAt := max s.time.ppsBadAt s.now, since := t.time.since } } := by
  obtain ⟨l, hl⟩ := ppsFailed_sets s s.time s.now
  exact ⟨_, congrArg Host.Outcome.next ((if_pos h).trans hl), rfl⟩

theorem ppsRequalify_completes (hok : s.rb TM_SRC_STATUS TM_SRC_STATUS_PPS_OK = false) (hbad : s.time.ppsBadAt + 10000000000 ≤ s.now)
    (hlast : s.now ≤ s.time.ppsLast + 1500000000) (href : s.time.ppsRef.isSome = true) : ∃ t : State, exec .ppsRequalify s = .next t
    ∧ t = { s.wf TM_SRC_STATUS TM_SRC_STATUS_PPS_OK 1 with time := { s.time with since := t.time.since } } := by
  obtain ⟨l, hl⟩ := setSrc_sets s s.time TM_SRC_STATUS_PPS_OK true
  exact ⟨_, if_pos (by simp [hok, hbad, hlast, href]), hl ▸ rfl⟩

theorem ppsInCommandsComplete : PpsInCommandsComplete := by
  intro at_ s
  refine ⟨fun h => congrArg Host.Outcome.next (ppsAnyEdge_quiet h), ppsInFallingEdge_third, fun h htod => ?_, fun h htod => ⟨fun href => ?_, fun r href => ⟨fun hw => ?_, fun hw => ?_⟩⟩,
    ppsFail_completes, ppsRequalify_completes⟩
  all_goals rw [ppsEdge_quiet h, htod]
  · rfl
  · rw [href]
    rfl
  · rw [href, Option.elim, State.edgeAt, hw]
    rfl
  · rw [href, Option.elim, State.edgeAt, hw]
    rfl

theorem ppsOutCommandsComplete : PpsOutCommandsComplete := fun _ =>
  ⟨fun hon hlow hsec => if_pos (by simp [hon, hlow, hsec]), fun hhigh hnow => if_pos (by simp [hhigh, hnow])⟩

end

/-- Settles O18: REF10M_FAIL and REF10M_REQUALIFY each inside and outside their condition. -/
theorem ref10mFailsAndRequalifies : Obligations.Ref10mFailsAndRequalifies := fun _ _ _ =>
  ⟨ref10mFail_completes, ref10mFail_idle, ref10mRequalify_completes, ref10mRequalify_early⟩

/-- Settles O19: an edge first counts among those of the last 100 ms, and a rising one then meets the window, by its reference. -/
theorem ppsCommandsComplete : Obligations.PpsCommandsComplete := ⟨ppsInCommandsComplete, ppsOutCommandsComplete⟩

end Sys2Proof.Machine
end
section
/-! PROOFS. The time of day and PTP: what a step of network time, a time of day and a PTP message leave (R54, R55, R61, R376). -/

namespace Sys2Proof.Machine

/-- `t` is `s` but for what the time unit keeps, its status register and the count. -/
def TimeOnly (s t : State) : Prop := t = { s with regs := t.regs, time := t.time } ∧ RegsBut s t (TM_SRC_STATUS :: wordsAt TM_NOW_0 3)

section
variable {s t u : State}

theorem TimeOnly.refl (s : State) : TimeOnly s s := ⟨rfl, RegsBut.refl _ _⟩

theorem TimeOnly.trans (h : TimeOnly s t) (h' : TimeOnly t u) : TimeOnly s u := by
  obtain ⟨ht, hr⟩ := h
  obtain ⟨hu, hr'⟩ := h'
  refine ⟨?_, hr.trans hr'⟩
  rw [hu, ht]

theorem timeOnly_of_regs {x : TimeState} (h : RegsBut s t (TM_SRC_STATUS :: wordsAt TM_NOW_0 3)) (ht : OnlyRegs { s with time := x } t) : TimeOnly s t := by
  obtain ⟨r, rfl⟩ := ht
  exact ⟨rfl, h⟩

theorem timeOnly_time (s : State) (x : TimeState) : TimeOnly s { s with time := x } := timeOnly_of_regs ((RegsBut.refl s _).of_regs rfl) (.refl _)

theorem regsBut_setSrc (s : State) (f : Fld) (b : Bool) : RegsBut s (s.setSrc f b) [TM_SRC_STATUS] :=
  RegsBut.of_regs ((RegsBut.refl s _).wf (List.mem_singleton_self _) f b.toNat) rfl

theorem timeOnly_setSrc (s : State) (f : Fld) (b : Bool) : TimeOnly s (s.setSrc f b) := ⟨rfl, (regsBut_setSrc s f b).mono (by simp)⟩

theorem setSrc_time (s : State) (f : Fld) (b : Bool) : (s.setSrc f b).time = { s.time with since := (s.setSrc f b).time.since } := rfl

theorem setSrc_rdNow (s : State) (f : Fld) (b : Bool) : (s.setSrc f b).rdWide TM_NOW_0 3 = s.rdWide TM_NOW_0 3 := (regsBut_setSrc s f b).rdWide (by decide)

theorem setSrc_now (s : State) (f : Fld) (b : Bool) : (s.setSrc f b).now = s.now := congrArg (· / 65536) (setSrc_rdNow s f b)

theorem setSrc_true (s : State) {f : Fld} (h : f.lo + f.width ≤ 32) (hw : f.width = 1) : (s.setSrc f true).rf TM_SRC_STATUS f = 1 := by
  rw [setSrc_rf f true h, hw]
  rfl

/-! ## Steps of network time (R61) -/

theorem timeOnly_stepTime (s : State) (d : Int) : TimeOnly s (s.stepTime d) :=
  timeOnly_of_regs (RegsBut.wrWide ((RegsBut.refl s _).of_regs rfl) (List.subset_cons_self _ _) _) (onlyRegs_wrWide (.refl _) _ _ _)

theorem regsBut_stepTime (s : State) (d : Int) : RegsBut s (s.stepTime d) (wordsAt TM_NOW_0 3) := 
  RegsBut.wrWide ((RegsBut.refl s _).of_regs rfl) (List.Subset.refl _) _

theorem stepTime_time (s : State) (d : Int) : (s.stepTime d).time = s.time.step d := by
  unfold State.stepTime
  rw [wrWide_eq]

theorem stepTime_rdNow (s : State) (d : Int) : (s.stepTime d).rdWide TM_NOW_0 3 = (d * 65536 + s.rdWide TM_NOW_0 3).toNat % 2 ^ 80 := by
  unfold State.stepTime
  rw [rdWide_wrWide]
  exact Nat.mod_eq_of_lt (lt_of_lt_of_le (Nat.mod_lt _ (by decide)) (by decide))

/-- A step to an instant that the count can hold moves the whole nanoseconds by it. -/
theorem stepTime_now {d : Int} (h0 : 0 ≤ d + s.now) (h1 : d + s.now < 2 ^ 64) : (s.stepTime d).now = (d + s.now).toNat := by
  unfold State.now at *
  rw [stepTime_rdNow]
  omega

/-! ## The time of day (R55) -/

/-- The difference of a time of day is kept as the most recent one. -/
def State.todKept (s : State) (d : Int) : State := { s with time := { s.time with todAhead := d } }

theorem todKept_setSrc_time (s : State) (d : Int) (f : Fld) (b : Bool) :
    ((s.todKept d).setSrc f b).time = { s.time with todAhead := d, since := ((s.todKept d).setSrc f b).time.since } := rfl

theorem running_time (s : State) (x : TimeState) : ({ s with time := x } : State).running = s.running := rfl

theorem active_time (s : State) (x : TimeState) : ({ s with time := x } : State).active = s.active := rfl

theorem rdNow_time (s : State) (x : TimeState) : ({ s with time := x } : State).rdWide TM_NOW_0 3 = s.rdWide TM_NOW_0 3 := rfl

theorem now_time (s : State) (x : TimeState) : ({ s with time := x } : State).now = s.now := rfl

theorem supplyTod_eq (s : State) (ns : Nat) : s.supplyTod ns = (if s.running ∨ 1 < s.active then s.todKept (ns - s.now)
    else (s.todKept (ns - s.now)).stepTime (if s.active = 1 then wholeSeconds ((ns : Int) - s.now) else (ns : Int) - s.now)).setSrc TM_SRC_STATUS_TOD_VALID true := by
  have hr : (s.todKept (ns - s.now)).running = s.running := running_time _ _
  have ha : (s.todKept (ns - s.now)).active = s.active := active_time _ _
  rw [← hr, ← ha]
  rfl

theorem supplyTod_keeps {ns : Nat} (h : s.running = true ∨ 1 < s.active) : s.supplyTod ns = (s.todKept (ns - s.now)).setSrc TM_SRC_STATUS_TOD_VALID true := by
  rw [supplyTod_eq, if_pos h]

theorem supplyTod_steps {ns : Nat} (h : ¬(s.running = true ∨ 1 < s.active)) : s.supplyTod ns
    = ((s.todKept (ns - s.now)).stepTime (if s.active = 1 then wholeSeconds ((ns : Int) - s.now) else (ns : Int) - s.now)).setSrc TM_SRC_STATUS_TOD_VALID true := by
  rw [supplyTod_eq, if_neg h]

theorem timeOnly_supplyTod (s : State) (ns : Nat) : TimeOnly s (s.supplyTod ns) := by
  have hk : TimeOnly s (s.todKept (ns - s.now)) := timeOnly_time s _
  by_cases h : s.running = true ∨ 1 < s.active
  · exact supplyTod_keeps h ▸ hk.trans (timeOnly_setSrc _ _ _)
  · exact supplyTod_steps h ▸ hk.trans ((timeOnly_stepTime _ _).trans (timeOnly_setSrc _ _ _))

theorem supplyTod_valid (s : State) (ns : Nat) : (s.supplyTod ns).rf TM_SRC_STATUS TM_SRC_STATUS_TOD_VALID = 1 := setSrc_true _ (by decide) rfl

theorem supplyTod_rdNow {ns : Nat} (h : s.running = true ∨ 1 < s.active) : (s.supplyTod ns).rdWide TM_NOW_0 3 = s.rdWide TM_NOW_0 3 := by
  rw [supplyTod_keeps h, setSrc_rdNow]
  exact rdNow_time _ _

/-- A time of day that the count takes moves it by the whole difference, or by the seconds of it on source 1. -/
theorem supplyTod_now {ns : Nat} (h : ¬(s.running = true ∨ 1 < s.active)) (h0 : 500000000 ≤ ns) (h1 : ns + 500000000 < 2 ^ 64) :
    (s.supplyTod ns).now = ((if s.active = 1 then wholeSeconds ((ns : Int) - s.now) else (ns : Int) - s.now) + s.now).toNat := by
  have hn : (s.todKept (ns - s.now)).now = s.now := now_time _ _
  rw [supplyTod_steps h, setSrc_now, stepTime_now, hn] <;> rw [hn] <;> unfold wholeSeconds <;> split <;> omega

theorem timeOfDayWrite_keeper {m : Ident} (ns : Nat) (hl : s.isLocal m = true) (hk : masterOf m.num.toNat = .keeper) :
    exec (.timeOfDayWrite m ns) s = .next (s.supplyTod ns) := if_pos ⟨hl, hk⟩

theorem timeOfDayWritesComplete : TimeOfDayWritesComplete := by
  refine ⟨fun m ns s hl hk h1 h0 => ?_, fun m ns s h => if_neg h⟩
  obtain ⟨hframe, hregs⟩ := timeOnly_supplyTod s ns
  refine ⟨_, timeOfDayWrite_keeper ns hl hk, supplyTod_valid s ns, fun hr ha => ?_, fun hr ha => ?_, fun h => ⟨supplyTod_rdNow h, ?_⟩, hregs, hframe⟩
  · rw [supplyTod_now (by simp [hr, ha]) h0 h1, if_neg (by omega)]
    omega
  · rw [supplyTod_now (by simp [hr, ha]) h0 h1, if_pos ha]
    unfold wholeSeconds
    omega
  · rw [supplyTod_keeps h]
    exact todKept_setSrc_time _ _ _ _

/-! ## PTP (R54, R376) -/

/-- A Delay_Req leaves without a MACsec tag. -/
theorem sendFrame_delayReq (s : State) (p i : Nat) : s.sendFrame p i .delayReq = { s with net := { s.net with
    frames := s.net.frames ++ [⟨2 * p + i, .delayReq, if s.rb (LK_ETH_CFG p i) LK_ETH_CFG_VLAN_EN then some (s.rf (LK_ETH_CFG p i) LK_ETH_CFG_VID) else none, none⟩] } } := by
  unfold State.sendFrame
  simp only [bne_self_eq_false, Bool.and_false, Bool.false_eq_true, if_false]

section
variable {port : PortId} {udp slave : Bool} {msg : PtpMsg} {t1 t2 t3 t4 : Nat}

/-- A message on interface 0 of the PTP port, in ETH_UP, over the transport of PROFILE (R54, R376). -/
def State.ptpHeard (s : State) (port : PortId) (udp : Bool) : Prop :=
  port.val = s.rf TM_SRC_CTRL TM_SRC_CTRL_PTP_PORT ∧ s.ethPort port = true ∧ s.linkSt port 0 = 6 ∧ udp = s.rb (LK_ETH_CFG port 0) LK_ETH_CFG_PROFILE

theorem ptpHeard_not_refused (h : s.ptpHeard port udp) :
    ¬(port.val ≠ s.rf TM_SRC_CTRL TM_SRC_CTRL_PTP_PORT ∨ !s.ethPort port ∨ s.linkSt port 0 ≠ 6 ∨ udp ≠ s.rb (LK_ETH_CFG port 0) LK_ETH_CFG_PROFILE) := by
  obtain ⟨hp, he, hl, hu⟩ := h
  simp only [← hp, he, hl, ← hu, ne_eq, not_true_eq_false, Bool.not_true, Bool.false_eq_true, or_self, not_false_eq_true]

theorem ptpMessage_notSlave (h : s.ptpHeard port udp) : exec (.ptpMessage port false udp msg) s = .next (s.setSrc TM_SRC_STATUS_PTP_OK false) :=
  if_neg (ptpHeard_not_refused h)

theorem ptpMessage_sync (h : s.ptpHeard port udp) : exec (.ptpMessage port true udp (.sync (some t1) t2)) s = .next (s.ptpAsk port t1 t2) :=
  if_neg (ptpHeard_not_refused h)

theorem ptpMessage_sync_twoStep (h : s.ptpHeard port udp) : exec (.ptpMessage port true udp (.sync none t2)) s
    = .next { s with time := { s.time with ptpT1 := none, ptpT2 := some t2, ptpT3 := none } } := if_neg (ptpHeard_not_refused h)

theorem ptpMessage_followUp (h : s.ptpHeard port udp) (h2 : s.time.ptpT2 = some t2) :
    exec (.ptpMessage port true udp (.followUp t1)) s = .next (s.ptpAsk port t1 t2) := by
  refine (if_neg (ptpHeard_not_refused h)).trans ?_
  simp [h2]

theorem ptpMessage_delayResp (h : s.ptpHeard port udp) (h1 : s.time.ptpT1 = some t1) (h2 : s.time.ptpT2 = some t2) (h3 : s.time.ptpT3 = some t3) :
    exec (.ptpMessage port true udp (.delayResp t4)) s = .next (s.ptpDone t1 t2 t3 t4) := by
  refine (if_neg (ptpHeard_not_refused h)).trans ?_
  simp [h1, h2, h3]

/-- What a completed measurement keeps beside the time of day: its instant and the offset. -/
def State.ptpKept (s : State) (n : Nat) (o : Int) : State :=
  { s with time := { s.time with ptpAt := n, offset := o, ptpT1 := none, ptpT2 := none, ptpT3 := none } }

theorem ptpKept_setSrc_time (s : State) (n : Nat) (o : Int) (f : Fld) (b : Bool) : ∃ l, ((s.ptpKept n o).setSrc f b).time
    = { s.time with ptpAt := n, offset := o, ptpT1 := none, ptpT2 := none, ptpT3 := none, since := l } := ⟨_, rfl⟩

theorem ptpDone_eq (s : State) (t1 t2 t3 t4 : Nat) : ∃ ns : Nat, s.ptpDone t1 t2 t3 t4
    = ((s.supplyTod ns).ptpKept (s.supplyTod ns).now (if (s.supplyTod ns).active = 2 then ptpOffset t1 t2 t3 t4 else (s.supplyTod ns).time.offset)).setSrc
        TM_SRC_STATUS_PTP_OK true := ⟨_, rfl⟩

theorem todKept_offset (s : State) (d : Int) : (s.todKept d).time.offset = s.time.offset := rfl

theorem step_offset (x : TimeState) (d : Int) : (x.step d).offset = x.offset := rfl

theorem todKept_keeps (s : State) (d : Int) : (s.todKept d).active = s.active ∧ (s.todKept d).time.offset = s.time.offset := ⟨rfl, rfl⟩

/-- A time of day leaves the active source and the offset measured. -/
theorem supplyTod_keeps_offset (s : State) (ns : Nat) : (s.supplyTod ns).active = s.active ∧ (s.supplyTod ns).time.offset = s.time.offset := by
  have hs : ∀ u : State, (u.setSrc TM_SRC_STATUS_TOD_VALID true).active = u.active := fun u => setSrc_rf_other _ _ _ (by decide) (by decide)
  obtain ⟨ha, ho⟩ := todKept_keeps s (ns - s.now)
  rw [supplyTod_eq, hs, setSrc_time]
  split
  · exact ⟨ha, ho⟩
  · rw [stepTime_time, step_offset]
    exact ⟨((regsBut_stepTime _ _).rf (by decide) _).trans ha, ho⟩

/-- A measurement at the instant `n` with the offset `o`, kept after the time of day. -/
theorem ptpKept_setSrc_completes {u : State} {n : Nat} (hn : u.now = n) (o : Int) : ∃ t : State, (u.ptpKept n o).setSrc TM_SRC_STATUS_PTP_OK true = t
    ∧ t.rf TM_SRC_STATUS TM_SRC_STATUS_PTP_OK = 1 ∧ t.rf TM_SRC_STATUS TM_SRC_STATUS_TOD_VALID = u.rf TM_SRC_STATUS TM_SRC_STATUS_TOD_VALID ∧ t.time.ptpAt = t.now
    ∧ t.time.ptpT1 = none ∧ t.time.ptpT2 = none ∧ t.time.ptpT3 = none ∧ t.time.offset = o ∧ t.rdWide TM_NOW_0 3 = u.rdWide TM_NOW_0 3 ∧ TimeOnly u t := by
  obtain ⟨l, ht⟩ := ptpKept_setSrc_time u n o TM_SRC_STATUS_PTP_OK true
  refine ⟨_, rfl, setSrc_true _ (by decide) rfl, setSrc_rf_other _ _ _ (by decide) (by decide), ?_, ?_, ?_, ?_, ?_, (setSrc_rdNow _ _ _).trans (rdNow_time u _),
    (timeOnly_time u _).trans (timeOnly_setSrc _ _ _)⟩
  · rw [setSrc_now, ht]
    exact hn.symm
  all_goals rw [ht]

theorem ptpDone_completes (s : State) (t1 t2 t3 t4 : Nat) : ∃ t : State, s.ptpDone t1 t2 t3 t4 = t
    ∧ t.rf TM_SRC_STATUS TM_SRC_STATUS_PTP_OK = 1 ∧ t.rf TM_SRC_STATUS TM_SRC_STATUS_TOD_VALID = 1 ∧ t.time.ptpAt = t.now
    ∧ t.time.ptpT1 = none ∧ t.time.ptpT2 = none ∧ t.time.ptpT3 = none
    ∧ t.time.offset = (if s.active = 2 then (((t1 : Int) - t2) + ((t4 : Int) - t3)) / 2 else s.time.offset)
    ∧ (s.running = true → t.rdWide TM_NOW_0 3 = s.rdWide TM_NOW_0 3)
    ∧ t = { s with regs := t.regs, time := t.time } ∧ RegsBut s t (TM_SRC_STATUS :: wordsAt TM_NOW_0 3) := by
  obtain ⟨ns, hd⟩ := ptpDone_eq s t1 t2 t3 t4
  obtain ⟨ha, ho⟩ := supplyTod_keeps_offset s ns
  rw [hd, ha, ho]
  obtain ⟨t, ht, hok, htod, hat, h1, h2, h3, hoff, hnow, hf⟩ :=
    ptpKept_setSrc_completes (u := s.supplyTod ns) rfl (if s.active = 2 then ptpOffset t1 t2 t3 t4 else s.time.offset)
  obtain ⟨hframe, hregs⟩ := (timeOnly_supplyTod s ns).trans hf
  exact ⟨t, ht, hok, htod.trans (supplyTod_valid s ns), hat, h1, h2, h3, hoff, fun h => hnow.trans (supplyTod_rdNow (.inl h)), hframe, hregs⟩

theorem ptpMeasuresTheOffset : PtpMeasuresTheOffset := by
  refine ⟨fun port udp t1 t2 t3 t4 s hp he hl hu => ?_, fun s h => ?_⟩
  · have h : s.ptpHeard port udp := ⟨hp, he, hl, hu⟩
    have hask : s.ptpAsk port t1 t2 = _ := sendFrame_delayReq _ _ _
    refine ⟨(ptpMessage_sync h).trans (congrArg _ hask), ptpMessage_sync_twoStep h, fun h2 => (ptpMessage_followUp h h2).trans (congrArg _ hask), fun h1 h2 h3 => ?_,
      fun msg => ⟨_, ptpMessage_notSlave h, rfl⟩⟩
    obtain ⟨t, ht, hdone⟩ := ptpDone_completes s t1 t2 t3 t4
    exact ⟨t, ht ▸ ptpMessage_delayResp h h1 h2 h3, hdone⟩
  · exact ⟨_, congrArg Host.Outcome.next (if_pos h), rfl⟩

end

end

/-- Settles O20: a time of day moves the count by the whole difference, by its seconds or not at all; a measurement supplies one and keeps its offset. -/
theorem timeOfDayCommandsComplete : Obligations.TimeOfDayCommandsComplete := ⟨timeOfDayWritesComplete, ptpMeasuresTheOffset⟩

end Sys2Proof.Machine
end
section
/-! PROOFS. Changes of the time source, and the tick of the time unit: which source is taken, and what the count, the bound and the correction are
(R53, R58 to R62). -/

namespace Sys2Proof.Machine

/-! ## Events of units that are no master (R475) -/

section
variable {s t : State}

/-- An event of a unit that is no master and no input of the risk score is recorded, and nothing else happens. -/
theorem post_reserved {cls src : Nat} (h : ¬(cls = 0x02 ∨ cls = 0x1B)) (hm : masterOf (src % 4096) = .reserved) (st d : Nat) :
    s.post cls st src d = { s with events := s.events ++ [⟨s.now, cls, classSev cls, st, src % 2 ^ 26, d % 2 ^ 64⟩] } := by
  unfold State.post State.postSev
  dsimp only
  rw [if_neg h, hm]

theorem masterOf_tmSrc (s : State) : masterOf (s.tmSrc % 4096) = .reserved := by
  have : s.tmSrc % 4096 = 0xF20 := by unfold State.tmSrc State.src; omega
  exact (congrArg masterOf this).trans rfl

theorem RegsBut.tmSrc {l : List Nat} (h : RegsBut s t l) (hl : KP_FLEET_ID ∉ l) : t.tmSrc = s.tmSrc := by
  unfold State.tmSrc State.src State.devId
  rw [h.rf hl]

theorem active_lt (s : State) : s.active < 4 := rf_lt _

theorem rb_eq_true {a : Nat} {f : Fld} : s.rb a f = true ↔ s.rf a f = 1 := beq_iff_eq

/-! ## Which source is taken (R58) -/

theorem bestSource_eq {k : Nat} (hk : k ≤ 3) (hok : k ≠ 0 → s.srcOk k = true) (hno : ∀ j : Nat, 1 ≤ j → j ≤ 3 → k = 0 ∨ j < k → s.srcOk j = false) :
    s.bestSource = k := by
  unfold State.bestSource
  rcases Nat.eq_zero_or_pos k with rfl | hpos
  · rw [List.find?_range_eq_none.2 fun i hi => by rw [hno (i + 1) (by omega) (by omega) (.inl rfl)]; rfl]
    rfl
  · obtain ⟨i, rfl⟩ : ∃ i, k = i + 1 := ⟨k - 1, by omega⟩
    have hf : (List.range 3).find? (fun i => s.srcOk (i + 1)) = some i :=
      List.find?_range_eq_some.2 ⟨hok (by omega), List.mem_range.2 (by omega), fun j hj => by rw [hno (j + 1) (by omega) (by omega) (.inr (by omega))]; rfl⟩
    rw [hf]
    rfl

/-- What SOURCE_UPGRADE looks for: `LongOk` of source `i + 1`. -/
def State.longOk (s : State) : Nat → Bool := fun i =>
  s.srcOk (i + 1) && s.time.since.getD i 0 != 0 && decide (s.time.since.getD i 0 + 9999999999 ≤ s.now)

theorem longOk_iff (s : State) (i : Nat) : s.longOk i = true ↔ LongOk s (i + 1) := by
  simp only [State.longOk, LongOk, Bool.and_eq_true, bne_iff_ne, decide_eq_true_eq, Nat.add_sub_cancel, and_assoc]

theorem sourceUpgrade_changes {k : Nat} (h1 : 1 ≤ k) (h3 : k ≤ 3) (ha : s.active = 0 ∨ k < s.active) (hk : LongOk s k) (hno : ∀ j : Nat, 1 ≤ j → j < k → ¬LongOk s j) :
    exec .sourceUpgrade s = .next (s.changeSource k) := by
  obtain ⟨i, rfl⟩ : ∃ i, k = i + 1 := ⟨k - 1, by omega⟩
  have hf : (List.range 3).find? s.longOk = some i := List.find?_range_eq_some.2 ⟨(longOk_iff s i).2 hk, List.mem_range.2 (by omega), fun j hj => by
    rw [Bool.not_eq_true', ← Bool.not_eq_true, longOk_iff]
    exact hno (j + 1) (by omega) (by omega)⟩
  show execSourceUpgrade s = _
  unfold execSourceUpgrade
  unfold State.longOk at hf
  simp only [hf, if_pos ha]

theorem sourceFailover_changes {k : Nat} (ha : s.srcOk s.active = false) (hk : s.bestSource = k) : exec .sourceFailover s = .next (s.changeSource k) := by
  rw [← hk]
  exact congrArg Host.Outcome.next (if_neg (by simp [ha]))

/-- The registers that a change to a source moves, before it is recorded. -/
def State.sourceTaken (s : State) (k : Nat) (x : TimeState) : State :=
  if k = 0 then { s.wf TM_SRC_STATUS TM_SRC_STATUS_ACTIVE k with time := x }
  else ({ s.wf TM_SRC_STATUS TM_SRC_STATUS_ACTIVE k with time := x } : State).setBound (s.srcBound k)

/-- What a change of the source keeps: the start of a holdover, or that the new source's offset is not measured yet. -/
def TimeState.sourceChange (x : TimeState) (k at_ bound : Nat) : TimeState :=
  if k = 0 then { x with holdSince := at_, holdBase := bound } else { x with changed := true }

theorem sourceTaken_frame (s : State) {k : Nat} (hk : k ≤ 3) (x : TimeState) : ∃ t : State, s.sourceTaken k x = t ∧ t.active = k
    ∧ (k ≠ 0 → t.rf TM_SRC_STATUS TM_SRC_STATUS_ERR_BOUND = min 0xFFFF (s.srcBound k)) ∧ RegsBut s t [TM_SRC_STATUS] ∧ ∃ r, t = { s with regs := r, time := x } := by
  have ha : (s.wf TM_SRC_STATUS TM_SRC_STATUS_ACTIVE k).active = k := rf_wf_fits (by decide) (by show _ < 2 ^ 2; omega)
  have hr : RegsBut s ({ s.wf TM_SRC_STATUS TM_SRC_STATUS_ACTIVE k with time := x } : State) [TM_SRC_STATUS] :=
    RegsBut.of_regs ((RegsBut.refl s _).wf (List.mem_singleton_self _) _ _) rfl
  unfold State.sourceTaken
  split
  · exact ⟨_, rfl, ha, fun h => absurd ‹k = 0› h, hr, _, rfl⟩
  · exact ⟨_, rfl, (State.rf_wf_disjoint _ _ _ _ _ (by decide) (by decide)).trans ha, fun _ => rf_wf_fits (by decide) (by show _ < 2 ^ 16; omega),
      hr.wf (List.mem_singleton_self _) _ _, _, rfl⟩

theorem changeSource_eq (s : State) (k : Nat) : ∃ x, x = s.time.sourceChange k s.now (s.rf TM_SRC_STATUS TM_SRC_STATUS_ERR_BOUND)
    ∧ s.changeSource k = (s.sourceTaken k x).post 0x10 stOK (s.sourceTaken k x).tmSrc (s.active + k * 4) := by
  have hn : (s.wf TM_SRC_STATUS TM_SRC_STATUS_ACTIVE k).now = s.now := ((RegsBut.refl s _).wf (List.mem_singleton_self _) _ _).now (by decide)
  refine ⟨_, rfl, ?_⟩
  unfold State.changeSource State.sourceTaken TimeState.sourceChange
  dsimp only
  split
  · rw [hn]
    rfl
  · rfl

theorem changeSource_changes {k : Nat} (hk : k ≤ 3) : SourceChanges s (s.changeSource k) k := by
  obtain ⟨x, hx, hc⟩ := changeSource_eq s k
  obtain ⟨t, ht, ha, hb, hr, r, hf⟩ := sourceTaken_frame s hk x
  have hlt := active_lt s
  rw [hc, ht, post_reserved (by decide) (masterOf_tmSrc t)]
  refine ⟨ha, ?_, fun h0 => ?_, fun h0 => ⟨?_, hb h0⟩, hr.of_regs rfl, ?_⟩
  · rw [hr.now (by decide), hr.tmSrc (by decide), Nat.mod_eq_of_lt (show s.active + k * 4 < 2 ^ 64 by omega), Nat.mul_comm k]
    subst hf
    rfl
  · subst hf
    exact hx.trans (if_pos h0)
  · subst hf
    exact hx.trans (if_neg h0)
  · subst hf
    rfl

theorem timeSourceChangesComplete : TimeSourceChangesComplete :=
  ⟨fun _ _ ha h3 hok hno => ⟨_, sourceFailover_changes ha (bestSource_eq h3 hok hno), changeSource_changes h3⟩,
    fun _ ha => congrArg Host.Outcome.next (if_pos ha),
    fun _ _ h1 h3 ha hk hno => ⟨_, sourceUpgrade_changes h1 h3 ha hk hno, changeSource_changes h3⟩⟩

/-! ## What counts with the time that passes (R513) -/

theorem RegsBut.bump {l : List Nat} {a : Nat} (h : RegsBut s t l) (ha : a ∈ l) (n : Nat) : RegsBut s (t.bump a n) l := h.wr ha _

/-- `t` is `s` after `elapsed` ns on the resonator, but for its registers, what the time unit keeps, the events and the parts of units of R513. -/
def Elapsed (elapsed : Nat) (s t : State) : Prop := ∃ r x e lim thr hot nj,
  t = { s with regs := r, time := x, events := e, boot := { s.boot with uptime := s.boot.uptime + elapsed },
               power := { s.power with limitedNs := lim, throttledNs := thr, hotNs := hot, energyNj := nj } }

theorem Elapsed.eq {n : Nat} (h : Elapsed n s t) :
    t = { s with regs := t.regs, time := t.time, events := t.events, boot := { s.boot with uptime := s.boot.uptime + n },
                 power := { s.power with limitedNs := t.power.limitedNs, throttledNs := t.power.throttledNs, hotNs := t.power.hotNs, energyNj := t.power.energyNj } } := by
  obtain ⟨_, _, _, _, _, _, _, rfl⟩ := h
  rfl

theorem Elapsed.of_regs_time {n : Nat} {u : State} (h : Elapsed n s t) (hu : u = { t with regs := u.regs, time := u.time, events := u.events }) : Elapsed n s u := by
  obtain ⟨_, _, _, _, _, _, _, rfl⟩ := h
  exact ⟨_, _, _, _, _, _, _, hu⟩

/-- What `countTime` adds to the registers of R513. -/
def State.countRegs (s : State) (lim thr hot nj : Nat) : State :=
  let t := ((s.bump PW_LIMITED_MS lim).bump PW_THROTTLE_MS thr).bump PW_HBM_HOT_MS hot
  t.wrWide PW_ENERGY_0 2 ((t.rdWide PW_ENERGY_0 2 + nj) % 2 ^ 64)

theorem countRegs_frame (s : State) (lim thr hot nj : Nat) :
    OnlyRegs s (s.countRegs lim thr hot nj) ∧ RegsBut s (s.countRegs lim thr hot nj) (PW_LIMITED_MS :: PW_THROTTLE_MS :: PW_HBM_HOT_MS :: wordsAt PW_ENERGY_0 2) := by
  refine ⟨onlyRegs_wrWide ⟨_, rfl⟩ _ _ _, RegsBut.wrWide ?_ (fun _ h => by simp [h]) _⟩
  exact (((RegsBut.refl s _).bump (by simp) _).bump (by simp) _).bump (by simp) _

theorem countTime_eq (s : State) (n : Nat) : ∃ b p lim thr hot nj, s.countTime n = ({ s with boot := b, power := p } : State).countRegs lim thr hot nj
    ∧ b = { s.boot with uptime := s.boot.uptime + n }
    ∧ p = { s.power with limitedNs := p.limitedNs, throttledNs := p.throttledNs, hotNs := p.hotNs, energyNj := p.energyNj } :=
  ⟨_, _, _, _, _, _, rfl, rfl, rfl⟩

theorem countTime_frame (s : State) (n : Nat) : Elapsed n s (s.countTime n) ∧ (s.countTime n).time = s.time ∧ (s.countTime n).events = s.events
    ∧ RegsBut s (s.countTime n) (PW_LIMITED_MS :: PW_THROTTLE_MS :: PW_HBM_HOT_MS :: wordsAt PW_ENERGY_0 2) := by
  obtain ⟨b, p, lim, thr, hot, nj, hc, hb, hp⟩ := countTime_eq s n
  rw [hc]
  obtain ⟨hf, hr⟩ := countRegs_frame ({ s with boot := b, power := p } : State) lim thr hot nj
  generalize State.countRegs _ lim thr hot nj = t at *
  obtain ⟨r, rfl⟩ := hf
  refine ⟨⟨r, s.time, s.events, p.limitedNs, p.throttledNs, p.hotNs, p.energyNj, ?_⟩, rfl, rfl, hr⟩
  rw [← hb, ← hp]

/-! ## The tick (R53, R60 to R62) -/

/-- A tick up to the correction that a step makes: the count, and what counts with it. -/
def State.counted (s : State) (elapsed : Nat) (offset : Int) : State :=
  (s.wrWide TM_NOW_0 3 (((s.rdWide TM_NOW_0 3 : Int) + (elapsed * 65536 : Nat) + s.slew elapsed offset).toNat % 2 ^ 80)).countTime elapsed

/-- What a tick does on a source: the offset measured and the source's bound. -/
def State.measured (s : State) (offset : Int) : State :=
  ({ s with time := { s.time with offset := offset, changed := false } }).setBound (s.srcBound s.active)

/-- What a tick does in holdover: the bound, which never falls. -/
def State.inHoldover (s : State) : State :=
  s.setBound (max (s.time.holdBase + holdoverError (s.now - s.time.holdSince)) (s.rf TM_SRC_STATUS TM_SRC_STATUS_ERR_BOUND))

theorem exec_tick (elapsed : Nat) (offset : Int) (s : State) : ∃ u : State, (s.counted elapsed offset).correction offset = u
    ∧ exec (.timeDisciplineTick elapsed offset) s = .next (if u.active = 0 then u.inHoldover.judgeTime false else (u.measured offset).judgeTime u.time.changed) := by
  refine ⟨_, rfl, ?_⟩
  show execTimeDisciplineTick elapsed offset s = _
  unfold execTimeDisciplineTick
  dsimp only
  rw [← State.counted]
  split
  · rfl
  · rfl

/-- The registers that a tick moves. -/
abbrev tickRegs : List Nat := TM_SRC_STATUS :: PW_LIMITED_MS :: PW_THROTTLE_MS :: PW_HBM_HOT_MS :: wordsAt PW_ENERGY_0 2 ++ wordsAt TM_NOW_0 3

theorem counted_frame (s : State) (elapsed : Nat) (offset : Int) : Elapsed elapsed s (s.counted elapsed offset) ∧ (s.counted elapsed offset).time = s.time
    ∧ RegsBut s (s.counted elapsed offset) (PW_LIMITED_MS :: PW_THROTTLE_MS :: PW_HBM_HOT_MS :: wordsAt PW_ENERGY_0 2 ++ wordsAt TM_NOW_0 3)
    ∧ (s.counted elapsed offset).rdWide TM_NOW_0 3 = ((s.rdWide TM_NOW_0 3 : Int) + (elapsed * 65536 : Nat) + s.slew elapsed offset).toNat % 2 ^ 80 := by
  unfold State.counted
  generalize ((s.rdWide TM_NOW_0 3 : Int) + (elapsed * 65536 : Nat) + s.slew elapsed offset).toNat = n
  have hr := RegsBut.wrWide (RegsBut.refl s (wordsAt TM_NOW_0 3)) (List.Subset.refl _) (n % 2 ^ 80)
  have hn := rdWide_wrWide s TM_NOW_0 3 (n % 2 ^ 80)
  obtain ⟨r, hw⟩ := onlyRegs_wrWide (.refl s) TM_NOW_0 3 (n % 2 ^ 80)
  obtain ⟨he, ht, -, hc⟩ := countTime_frame (s.wrWide TM_NOW_0 3 (n % 2 ^ 80)) elapsed
  refine ⟨?_, ht.trans (by rw [hw]), (hr.mono (by decide)).trans (hc.mono (by decide)), (hc.rdWide (by decide)).trans (hn.trans ?_)⟩
  · rw [hw] at he ⊢
    exact he
  · exact Nat.mod_eq_of_lt (lt_of_lt_of_le (Nat.mod_lt _ (by decide)) (by decide))

theorem running_of_regs {l : List Nat} (h : RegsBut s t l) (hl : TM_LOCK_STATUS ∉ l) : t.running = s.running := by
  unfold State.running State.lockSt
  rw [h.rf hl]

theorem correction_none {offset : Int} (h : s.active = 0 ∨ s.running = true) : s.correction offset = s := if_pos h

theorem correction_steps (offset : Int) (h : ¬(s.active = 0 ∨ s.running = true)) : ∃ d, s.correction offset = s.stepTime d ∧ (1 < s.active → d = offset) :=
  ⟨_, if_neg h, fun ha => if_neg (by omega)⟩

theorem step_eweBound (x : TimeState) (d : Int) : (x.step d).eweBound = x.eweBound := rfl

/-- A tick up to the judgement of the bound. -/
theorem corrected_frame (s : State) (elapsed : Nat) (offset : Int) : let u := (s.counted elapsed offset).correction offset
    Elapsed elapsed s u ∧ u.time.eweBound = s.time.eweBound ∧ u.active = s.active
      ∧ RegsBut s u (PW_LIMITED_MS :: PW_THROTTLE_MS :: PW_HBM_HOT_MS :: wordsAt PW_ENERGY_0 2 ++ wordsAt TM_NOW_0 3)
      ∧ (s.active = 0 ∨ s.running = true → u.time = s.time
          ∧ u.rdWide TM_NOW_0 3 = ((s.rdWide TM_NOW_0 3 : Int) + (elapsed * 65536 : Nat) + s.slew elapsed offset).toNat % 2 ^ 80)
      ∧ (1 < s.active → s.running = false → u.rdWide TM_NOW_0 3
          = (offset * 65536 + (((s.rdWide TM_NOW_0 3 : Int) + (elapsed * 65536 : Nat) + s.slew elapsed offset).toNat % 2 ^ 80 : Nat)).toNat % 2 ^ 80) := by
  intro u
  obtain ⟨he, ht, hr, hn⟩ := counted_frame s elapsed offset
  have ha : (s.counted elapsed offset).active = s.active := hr.rf (by decide) _
  have hrun := running_of_regs hr (by decide)
  by_cases h : s.active = 0 ∨ s.running = true
  · have hu : u = s.counted elapsed offset := correction_none (by rwa [ha, hrun])
    rw [hu]
    refine ⟨he, congrArg TimeState.eweBound ht, ha, hr.mono (by decide), fun _ => ⟨ht, hn⟩, fun h1 h2 => ?_⟩
    rw [h2] at h
    exact absurd (h.resolve_right (by decide)) (by omega)
  · obtain ⟨d, hd, hoff⟩ := correction_steps (s := s.counted elapsed offset) offset (by rwa [ha, hrun])
    obtain ⟨hf, -⟩ := timeOnly_stepTime (s.counted elapsed offset) d
    have hreg := regsBut_stepTime (s.counted elapsed offset) d
    have hu : u = (s.counted elapsed offset).stepTime d := hd
    rw [hu]
    refine ⟨he.of_regs_time ?_, ?_, ?_, (hr.mono (by decide)).trans (hreg.mono (by decide)), fun h' => absurd h' h, fun h1 _ => ?_⟩
    · obtain ⟨r, x, hx⟩ : ∃ r x, (s.counted elapsed offset).stepTime d = { s.counted elapsed offset with regs := r, time := x } := ⟨_, _, hf⟩
      rw [hx]
    · rw [stepTime_time, step_eweBound, ht]
    · rw [← ha]
      exact hreg.rf (by decide) _
    · rw [stepTime_rdNow, hn, hoff (ha ▸ h1)]

/-- The judgement of the bound moves TIME_LOST, which is set above 1000 ns, and may record the loss (R62). -/
theorem judgeTime_frame (s : State) (fresh : Bool) : ∃ t : State, s.judgeTime fresh = t
    ∧ t.rf TM_SRC_STATUS TM_SRC_STATUS_ERR_BOUND = s.rf TM_SRC_STATUS TM_SRC_STATUS_ERR_BOUND
    ∧ (1000 < s.rf TM_SRC_STATUS TM_SRC_STATUS_ERR_BOUND → t.rf TM_SRC_STATUS TM_SRC_STATUS_TIME_LOST = 1)
    ∧ RegsBut s t [TM_SRC_STATUS] ∧ ∃ r e, t = { s with regs := r, events := e } := by
  have hw : ∀ b : Bool, RegsBut s (s.wb TM_SRC_STATUS TM_SRC_STATUS_TIME_LOST b) [TM_SRC_STATUS]
      ∧ (s.wb TM_SRC_STATUS TM_SRC_STATUS_TIME_LOST b).rf TM_SRC_STATUS TM_SRC_STATUS_ERR_BOUND = s.rf TM_SRC_STATUS TM_SRC_STATUS_ERR_BOUND := fun b =>
    ⟨(RegsBut.refl s _).wf (List.mem_singleton_self _) _ _, State.rf_wf_disjoint _ _ _ _ _ (by decide) (by decide)⟩
  have hset : (s.wb TM_SRC_STATUS TM_SRC_STATUS_TIME_LOST true).rf TM_SRC_STATUS TM_SRC_STATUS_TIME_LOST = 1 := rf_wf_fits (by decide) (by decide)
  unfold State.judgeTime
  dsimp only
  by_cases hb : 1000 < s.rf TM_SRC_STATUS TM_SRC_STATUS_ERR_BOUND ∨ (fresh ∧ 1000 < s.time.offset.natAbs)
  · rw [if_pos hb]
    by_cases hl : s.rb TM_SRC_STATUS TM_SRC_STATUS_TIME_LOST = true
    · rw [if_pos hl]
      exact ⟨s, rfl, rfl, fun _ => rb_eq_true.1 hl, .refl _ _, _, _, rfl⟩
    · rw [if_neg hl]
      split
      · exact ⟨_, rfl, (hw true).2, fun _ => hset, (hw true).1, _, _, rfl⟩
      · rw [post_reserved (by decide) (masterOf_tmSrc _)]
        exact ⟨_, rfl, (hw true).2, fun _ => hset, (hw true).1.of_regs rfl, _, _, rfl⟩
  · rw [if_neg hb]
    split
    · exact ⟨_, rfl, (hw false).2, fun h => absurd (.inl h) hb, (hw false).1, _, _, rfl⟩
    · exact ⟨s, rfl, rfl, fun h => absurd (.inl h) hb, .refl _ _, _, _, rfl⟩

/-- A bound written to ERR_BOUND, and its judgement. -/
theorem setBound_judgeTime (s : State) (n : Nat) (fresh : Bool) : ∃ t : State, (s.setBound n).judgeTime fresh = t
    ∧ t.rf TM_SRC_STATUS TM_SRC_STATUS_ERR_BOUND = min 0xFFFF n ∧ (1000 < min 0xFFFF n → t.rf TM_SRC_STATUS TM_SRC_STATUS_TIME_LOST = 1)
    ∧ RegsBut s t [TM_SRC_STATUS] ∧ ∃ r e, t = { s with regs := r, events := e } := by
  have hb : (s.setBound n).rf TM_SRC_STATUS TM_SRC_STATUS_ERR_BOUND = min 0xFFFF n := rf_wf_fits (by decide) (by show _ < 2 ^ 16; omega)
  obtain ⟨t, ht, hbt, hlost, hrt, r, e, hf⟩ := judgeTime_frame (s.setBound n) fresh
  rw [hb] at hbt hlost
  exact ⟨t, ht, hbt, hlost, RegsBut.trans ((RegsBut.refl s _).wf (List.mem_singleton_self _) _ _) hrt, r, e, hf⟩

/-- The effect of a tick: the count and what counts with it, then the bound of the source or of the holdover, and its judgement. -/
theorem tick_completes (elapsed : Nat) (offset : Int) (s : State) : ∃ u t : State, (s.counted elapsed offset).correction offset = u
    ∧ exec (.timeDisciplineTick elapsed offset) s = .next t ∧ t.rdWide TM_NOW_0 3 = u.rdWide TM_NOW_0 3 ∧ Elapsed elapsed s t ∧ RegsBut s t tickRegs
    ∧ (s.active ≠ 0 → t.time = { u.time with offset := offset, changed := false } ∧ t.rf TM_SRC_STATUS TM_SRC_STATUS_ERR_BOUND = min 0xFFFF (s.srcBound s.active)
        ∧ (1000 < min 0xFFFF (s.srcBound s.active) → t.rf TM_SRC_STATUS TM_SRC_STATUS_TIME_LOST = 1))
    ∧ (s.active = 0 → t.time = u.time ∧ t.rf TM_SRC_STATUS TM_SRC_STATUS_ERR_BOUND
        = min 0xFFFF (max (u.time.holdBase + holdoverError (t.now - u.time.holdSince)) (s.rf TM_SRC_STATUS TM_SRC_STATUS_ERR_BOUND))) := by
  obtain ⟨u, hu, hx⟩ := exec_tick elapsed offset s
  obtain ⟨he, hb, ha, hr, -, -⟩ := corrected_frame s elapsed offset
  rw [hu] at he hb ha hr
  by_cases h0 : s.active = 0
  · rw [ha, if_pos h0, State.inHoldover, hr.rf (by decide)] at hx
    obtain ⟨t, ht, hbt, -, hrt, r, e, hf⟩ :=
      setBound_judgeTime u (max (u.time.holdBase + holdoverError (u.now - u.time.holdSince)) (s.rf TM_SRC_STATUS TM_SRC_STATUS_ERR_BOUND)) false
    rw [ht] at hx
    refine ⟨u, t, hu, hx, hrt.rdWide (by decide), he.of_regs_time ?_, (hr.mono (by decide)).trans (hrt.mono (by decide)), fun h => absurd h0 h, fun _ => ⟨?_, ?_⟩⟩
    · rw [hf]
    · rw [hf]
    · rw [hbt, hrt.now (by decide)]
  · have hsrc : u.srcBound u.active = s.srcBound s.active := by rw [State.srcBound, hb, ha, State.srcBound]
    rw [if_neg (ha ▸ h0), State.measured, hsrc] at hx
    have hm : RegsBut u ({ u with time := { u.time with offset := offset, changed := false } } : State) [TM_SRC_STATUS] := (RegsBut.refl u _).of_regs rfl
    obtain ⟨t, ht, hbt, hlost, hrt, r, e, hf⟩ :=
      setBound_judgeTime ({ u with time := { u.time with offset := offset, changed := false } } : State) (s.srcBound s.active) u.time.changed
    have hrm := hm.trans hrt
    rw [ht] at hx
    refine ⟨u, t, hu, hx, hrm.rdWide (by decide), he.of_regs_time ?_, (hr.mono (by decide)).trans (hrm.mono (by decide)), fun _ => ⟨?_, hbt, hlost⟩, fun h => absurd h h0⟩
    · rw [hf]
    · rw [hf]

theorem slew_holdover (elapsed : Nat) (offset : Int) (h : s.active = 0) : s.slew elapsed offset = 0 := if_pos (.inl h)

theorem slew_idle (elapsed : Nat) (offset : Int) (h : s.running = false) : s.slew elapsed offset = 0 := if_pos (.inr (by simp [h]))

/-- The correction of a running schedule: within 10 ppm of the time elapsed, never past the offset, and the whole of it where it is small (R61). -/
theorem slew_bounds (elapsed : Nat) (offset : Int) (hr : s.running = true) : (s.slew elapsed offset).natAbs ≤ elapsed * 65536 / 100000
    ∧ (s.slew elapsed offset).natAbs ≤ (offset * 65536).natAbs
    ∧ (s.active ≠ 0 → (offset * 65536).natAbs ≤ elapsed * 65536 / 100000 → s.slew elapsed offset = offset * 65536) := by
  unfold State.slew
  rw [hr]
  generalize elapsed * 65536 / 100000 = limit
  generalize offset * 65536 = o
  split
  · exact ⟨by omega, by omega, fun h _ => absurd (‹s.active = 0 ∨ (!true) = true›.resolve_right (by decide)) h⟩
  · dsimp only
    exact ⟨by omega, by omega, fun _ _ => by omega⟩

/-- The four figures of R60. -/
theorem holdoverError_figures : ∀ z ∈ [(10 ^ 9, 10), (10 ^ 10, 100), (10 ^ 11, 1000), (10 ^ 12, 12000)], holdoverError z.1 = z.2 := by
  simp only [List.mem_cons, List.not_mem_nil, or_false, forall_eq_or_imp, forall_eq]
  exact ⟨rfl, rfl, rfl, rfl⟩

theorem timeTicksComplete : TimeTicksComplete := by
  intro elapsed offset s
  obtain ⟨u, t, hu, hx, hn, he, hr, hon, hoff⟩ := tick_completes elapsed offset s
  obtain ⟨-, -, -, -, hkeep, -⟩ := corrected_frame s elapsed offset
  rw [hu] at hkeep
  refine ⟨t, hx, he.eq, hr, fun h => ?_, fun h => ?_⟩
  · obtain ⟨htime, hbound, hlost⟩ := hon h
    refine ⟨by rw [htime], by rw [htime], hbound, hlost, fun hrun => ?_⟩
    rw [htime, (hkeep (.inr hrun)).1]
  · obtain ⟨htime, hbound⟩ := hoff h
    obtain ⟨hsame, hcount⟩ := hkeep (.inl h)
    have hlt : s.rf TM_SRC_STATUS TM_SRC_STATUS_ERR_BOUND < 2 ^ 16 := rf_lt _
    rw [hsame] at hbound
    refine ⟨htime.trans hsame, ?_, ?_, fun z hz hnow => ?_⟩
    · rw [hn, hcount, slew_holdover _ _ h, Int.add_zero, ← Nat.cast_add, Int.toNat_natCast]
    · rw [hbound]
      exact le_min (Nat.le_of_lt_succ hlt) (le_max_right _ _)
    · rw [hbound, hnow, Nat.add_sub_cancel_left, holdoverError_figures z hz]
      exact min_le_min le_rfl (le_max_left _ _)

end

/-- Settles O21: the first source that serves is taken, and a tick is its count, its correction and the judgement of its bound. -/
theorem timeSourceCommandsComplete : Obligations.TimeSourceCommandsComplete := ⟨timeSourceChangesComplete, timeTicksComplete⟩

/-- Settles O22: the bounds of `State.slew` while a schedule runs, and the step of the whole offset where none does. -/
theorem correctionIsBounded : Obligations.CorrectionIsBounded := by
  intro elapsed offset s
  obtain ⟨u, t, hu, hx, hn, -⟩ := tick_completes elapsed offset s
  obtain ⟨-, -, -, -, hkeep, hstep⟩ := corrected_frame s elapsed offset
  rw [hu] at hkeep hstep
  refine ⟨fun hrun => ⟨t, _, hx, hn.trans (hkeep (.inr hrun)).2, slew_bounds elapsed offset hrun⟩, fun ha hrun => ⟨t, hx, ?_⟩⟩
  rw [hn, hstep ha hrun, slew_idle _ _ hrun, Int.add_zero, ← Nat.cast_add, Int.toNat_natCast]

end Sys2Proof.Machine
end
section
/-! PROOFS. Votes, the cut-off, decisions, and the start and the hold of a lock (R70 to R81, R384, R409). -/

namespace Sys2Proof.Machine

/-! ## TM_LOCK_STATUS -/

section
variable {s t : State}

theorem running_of_inPound (h : s.inPound = true) : s.running = true := by
  unfold State.inPound at h
  unfold State.running
  simp only [Bool.or_eq_true, beq_iff_eq] at h
  rcases h with h | h <;> rw [h] <;> rfl

theorem setLockSt_running (h : s.running = true) (n : Nat) : s.setLockSt n = s.wf TM_LOCK_STATUS TM_LOCK_STATUS_STATE n := by
  unfold State.setLockSt
  rw [if_pos h]

theorem setLockSt_lockSt (s : State) {n : Nat} (hn : n < 8) : (s.setLockSt n).lockSt = n := rf_wf_fits (by decide) hn

theorem setVote_running (s : State) (v : Nat) : (s.setVote v).running = s.running := by
  unfold State.running State.lockSt
  rw [State.setVote, State.rf_wf_disjoint _ _ _ _ _ (by decide) (by decide)]

theorem regsBut_of_lock (x : LockState) (l : List Nat) : RegsBut s { s with lock := x } l := (RegsBut.refl s l).of_regs rfl

/-! ## Own votes (R70 to R72, R81) -/

theorem voteReady_completes (ho : s.voteOpen = true) (hv : s.ownVote = 0) (hr : s.readyNow = true) : exec .voteReady s = .next (s.castVote 1) :=
  congrArg Host.Outcome.next (if_pos (by simp [ho, hv, hr]))

theorem voteReady_idle (hr : s.readyNow = false) : exec .voteReady s = .next s := congrArg Host.Outcome.next (if_neg (by simp [hr]))

theorem voteVeto_completes (ho : s.voteOpen = true) (hv : s.ownVote ≠ 3) (hc : s.lock.causes ≠ 0) : exec .voteVeto s = .next (s.castVote 3) :=
  congrArg Host.Outcome.next (if_pos (by simp [ho, hv, hc]))

theorem ownVotesComplete : OwnVotesComplete := fun _ ho => ⟨voteReady_completes ho, voteVeto_completes ho, voteReady_idle⟩

theorem passUp_not_lower (h : s.role ≠ 2) (final : Bool) : s.passUp final = s := if_pos (.inl h)

/-- The registers of a vote that a stand-alone device casts. -/
theorem castVote_alone {v : Nat} (hp : s.inPound = true) (hr : s.role = 0) :
    s.castVote v = (s.wf TM_LOCK_STATUS TM_LOCK_STATUS_VOTE v).wf TM_LOCK_STATUS TM_LOCK_STATUS_STATE 2 := by
  have hrole : ((s.wf TM_LOCK_STATUS TM_LOCK_STATUS_VOTE v).wf TM_LOCK_STATUS TM_LOCK_STATUS_STATE 2).role = 0 :=
    (((RegsBut.refl s _).wf (List.mem_singleton_self TM_LOCK_STATUS) _ _).wf (List.mem_singleton_self _) _ _).rf (by decide) _ |>.trans hr
  unfold State.castVote
  rw [setLockSt_running (by rw [setVote_running, running_of_inPound hp]), State.setVote]
  dsimp only
  rw [if_neg (by rw [hrole]; decide), passUp_not_lower (by rw [hrole]; decide)]

theorem castVote_alone_ownVote {v : Nat} (hv : v < 4) (hp : s.inPound = true) (hr : s.role = 0) : (s.castVote v).ownVote = v := by
  rw [castVote_alone hp hr]
  exact (State.rf_wf_disjoint _ _ _ _ _ (by decide) (by decide)).trans (rf_wf_fits (by decide) hv)

theorem castVote_alone_regs {v : Nat} (hp : s.inPound = true) (hr : s.role = 0) : RegsBut s (s.castVote v) [TM_LOCK_STATUS] ∧ OnlyRegs s (s.castVote v) := by
  rw [castVote_alone hp hr]
  exact ⟨((RegsBut.refl s _).wf (List.mem_singleton_self _) _ _).wf (List.mem_singleton_self _) _ _, ((OnlyRegs.refl s).wf _ _ _).wf _ _ _⟩

theorem castVoteShows : CastVoteShows := by
  intro v s hv hp hr
  obtain ⟨r, h⟩ := (castVote_alone_regs hp hr (v := v)).2
  refine ⟨castVote_alone_ownVote hv hp hr, ?_, by rw [h]⟩
  rw [castVote_alone hp hr]
  exact rf_wf_fits (by decide) (by decide)

/-! ## The cut-off of a device that stands alone (R70 to R72) -/

/-- The vote that stands after the cut-off. -/
def State.dueVote (s : State) : Nat := if s.lock.causes ≠ 0 then 3 else if s.ownVote = 0 then 2 else s.ownVote

theorem dueVote_lt (s : State) : s.dueVote < 4 := by
  have : s.ownVote < 4 := rf_lt _
  unfold State.dueVote
  split
  · decide
  · split
    · decide
    · exact this

theorem dueVote_pos (s : State) : s.dueVote ≠ 0 := by
  unfold State.dueVote
  split
  · decide
  · split
    · decide
    · assumption

theorem cutVote_eq (hm : s.mayVote = true) (hr : s.fleet.replaying = false) : s.cutVote = if s.ownVote = s.dueVote then s else s.castVote s.dueVote := by
  unfold State.cutVote State.dueVote
  rw [if_neg (by simp [hm, hr])]
  by_cases hc : s.lock.causes ≠ 0
  · rw [if_pos hc, if_pos hc]
  · rw [if_neg hc, if_neg hc]
    by_cases h0 : s.ownVote = 0
    · rw [if_pos h0, if_pos h0, if_neg (by rw [h0]; decide)]
    · rw [if_neg h0, if_neg h0, if_pos rfl]

theorem cutVote_alone (hm : s.mayVote = true) (hr : s.fleet.replaying = false) (hp : s.inPound = true) (h0 : s.role = 0) : ∃ u : State, s.cutVote = u
    ∧ u.ownVote = s.dueVote ∧ RegsBut s u [TM_LOCK_STATUS] ∧ (s.ownVote = s.dueVote → u.regs = s.regs) ∧ OnlyRegs s u := by
  rw [cutVote_eq hm hr]
  split
  · exact ⟨s, rfl, by assumption, .refl _ _, fun _ => rfl, .refl s⟩
  · obtain ⟨hregs, hframe⟩ := castVote_alone_regs hp h0 (v := s.dueVote)
    exact ⟨_, rfl, castVote_alone_ownVote (dueVote_lt s) hp h0, hregs, fun h => absurd h (by assumption), hframe⟩

/-- The combined vote of a device without members is its own, once it has one. -/
theorem combined_alone (hm : s.fleet.members = []) (hv : s.ownVote < 4) (h0 : s.ownVote ≠ 0) : s.combined true = s.ownVote := by
  unfold State.combined State.voters
  rw [hm]
  have : s.ownVote = 1 ∨ s.ownVote = 2 ∨ s.ownVote = 3 := by omega
  rcases this with h | h | h <;> rw [h] <;> rfl

theorem takeDecision_alone (h0 : s.role = 0) (hl : s.rf KP_FLEET_STBY KP_FLEET_STBY_LEASE ≠ 2) (hd : s.lock.decision = none) : s.takeDecision = { s with
    lock := { s.lock with decision := some s.lockDecision },
    fleet := { s.fleet with repairNext := if s.lockDecision.repair then none else s.fleet.repairNext, rerunNext := s.fleet.rerunNext && !s.lockDecision.rerun } } := by
  have h3 : ∀ (x : LockState) (y : Fleet), ({ s with lock := x, fleet := y } : State).role = 0 := fun _ _ => h0
  unfold State.takeDecision
  rw [if_neg (by simp [h0, hl, hd])]
  dsimp only
  rw [if_neg (by rw [h3]; decide)]

theorem lockDecision_outcome {v : Nat} (h : s.combined true = v) : s.lockDecision.lock = s.nextLock
    ∧ (v = 1 → s.lockDecision.outcome = .commit) ∧ (v = 2 → s.lockDecision.outcome = .hold) ∧ (v = 3 → s.lockDecision.outcome = .empty) := by
  unfold State.lockDecision
  rw [h]
  refine ⟨rfl, ?_, ?_, ?_⟩
  all_goals
    rintro rfl
    rfl

/-- The cut-off is noted with the causes that stand. -/
def State.cutNoted (s : State) : State := { s with lock := { s.lock with cut := true, cutCauses := s.lock.causes } }

theorem cutNoted_frame (s : State) (l : List Nat) : RegsBut s s.cutNoted l := regsBut_of_lock _ l

theorem voteCutoff_alone (hl : s.lockLive = true) (hp : s.inPound = true) (hc : s.lock.cut = false) (hpast : s.pastCut = true) (hr : s.cutVote.role = 0) :
    exec .voteCutoff s = .next s.cutVote.cutNoted.takeDecision := by
  have hrole : s.cutVote.cutNoted.role = 0 := hr
  show execVoteCutoff s = _
  unfold execVoteCutoff
  rw [if_neg (by simp [hl, hp, hc, hpast])]
  dsimp only
  rw [← State.cutNoted, passUp_not_lower (by rw [hrole]; decide), if_neg (by rw [hrole]; decide)]

theorem cutoffDecides : CutoffDecides := by
  intro s hl hp hc hpast hm hrep h0 hlease hdec hvotes hmem v
  obtain ⟨u, hu, hvote, hregs, hsame, hframe⟩ := cutVote_alone hm hrep hp h0
  have hrole : u.role = 0 := (hregs.rf (by decide) _).trans h0
  have hlu : u.lock = s.lock ∧ u.fleet = s.fleet := by
    obtain ⟨_, rfl⟩ := hframe
    exact ⟨rfl, rfl⟩
  have hcomb : u.cutNoted.combined true = s.dueVote := by
    have hov : u.cutNoted.ownVote = s.dueVote := hvote
    rw [combined_alone (s := u.cutNoted) ((congrArg Fleet.members hlu.2).trans hmem) (hov ▸ dueVote_lt s) (hov ▸ dueVote_pos s), hov]
  obtain ⟨hlock, hout⟩ := lockDecision_outcome hcomb
  have hx := voteCutoff_alone hl hp hc hpast (hu ▸ hrole)
  have hdu : u.cutNoted.lock.decision = none := (congrArg LockState.decision hlu.1).trans hdec
  rw [hu, takeDecision_alone (s := u.cutNoted) hrole (by rwa [(cutNoted_frame u [TM_LOCK_STATUS]).rf (by decide), hregs.rf (by decide)]) hdu] at hx
  generalize u.cutNoted.lockDecision = d at *
  have hnext : s.nextLock = u.cutNoted.nextLock := ((hregs.trans (cutNoted_frame u _)).rdWide (by decide)).symm
  refine ⟨_, d, hx, hlock.trans hnext.symm, hvote, hout.1, hout.2.1, hout.2.2, hregs.of_regs rfl, hsame, ?_⟩
  obtain ⟨_, rfl⟩ := hframe
  rfl

end

/-- Settles O23: without members a device's own vote is the combined one, and the cut-off casts what is due before it decides. -/
theorem votesOfTheDeviceComplete : Obligations.VotesOfTheDeviceComplete := ⟨ownVotesComplete, castVoteShows, cutoffDecides⟩

end Sys2Proof.Machine
end
section
/-! PROOFS. Votes at a manager, decisions at a worker, and the start and the hold of a lock (R72 to R81, R384, R409). -/

namespace Sys2Proof.Machine

/-! ## Messages of the Keeper -/

section
variable {s t : State}

/-- A message of the Keeper joins those on their way out, and nothing else happens. -/
theorem send_eq (s : State) (dev cls op : Nat) (ws : List Nat) : s.send dev cls op ws = { s with tx := (s.send dev cls op ws).tx } := rfl

theorem regsBut_send (s : State) (dev cls op : Nat) (ws : List Nat) (l : List Nat) : RegsBut s (s.send dev cls op ws) l := (RegsBut.refl s l).of_regs rfl

/-! ## Votes at a manager (R72, R384) -/

theorem voteWords_ne_nil (s : State) (v : Nat) (layers : BitVec 256) (ovr : Bool) (causes : Nat) : s.voteWords v layers ovr causes ≠ [] := List.cons_ne_nil _ _

/-- The words of the combined vote that a manager passes up. -/
def State.passedWords (s : State) : List Nat :=
  s.voteWords (s.combined false) s.layerUnion s.anyOver (if s.combined false = 3 then s.causeUnion else 0)

theorem passUp_unknown (h : s.combined false = 0) : s.passUp false = s := if_pos (.inr (.inl h))

/-- A lower manager that has passed nothing up passes up the combined vote that it knows. -/
theorem passUp_first (hr : s.role = 2) (hv : s.combined false ≠ 0) (hp : s.lock.passed = []) :
    s.passUp false = { s with tx := (s.send s.manager 0 txVote s.passedWords).tx, lock := { s.lock with passed := s.passedWords } } := by
  have hw : s.passedWords ≠ [] := voteWords_ne_nil _ _ _ _ _
  unfold State.passUp
  dsimp only
  rw [← State.passedWords, if_neg (by simp [hr, hv, hw, hp])]
  rfl

/-- The first vote of a device for the coming lock stands among the votes. -/
theorem vote_first {worker : BitVec 14} {v : Vote} {layers : BitVec 256} {ovr : Bool} {causes : BitVec 6} (hl : s.lockLive = true) (hp : s.inPound = true)
    (hc : s.lock.cut = false) (hr : s.role = 2 ∨ s.role = 3) (hw : s.voters.any (fun m => m.dev == worker.toNat) = true) (hn : s.voteOf worker.toNat = none) :
    exec (.vote worker s.nextLock v layers ovr causes) s = .next (({ s with lock := { s.lock with votes := s.lock.votes ++
      [(⟨worker.toNat, v, layers, ovr, causes.toNat⟩ : VoteRec)] } } : State).passUp false |>.endWaits 0x18 worker.toNat stOK) := by
  show execVote worker s.nextLock v layers ovr causes s = _
  unfold execVote
  dsimp only
  rw [if_neg (by rcases hr with h | h <;> simp [hl, hp, hc, h, hw]), hn]

theorem firstVotesAreKept : FirstVotesAreKept := by
  intro worker v layers ovr causes s hl hp hc hr hw hn u ws
  have hx : exec (.vote worker s.nextLock v layers ovr causes) s = .next ((u.passUp false).endWaits 0x18 worker.toNat stOK) := vote_first hl hp hc hr hw hn
  refine ⟨fun h => ?_, fun h2 hv hpass => ?_⟩
  · have hu : u.passUp false = u := h.elim (fun h3 => passUp_not_lower (s := u) (show s.role ≠ 2 by rw [h3]; decide) _) passUp_unknown
    rw [hx, hu]
  · have hu : u.passUp false = _ := passUp_first (s := u) h2 hv hpass
    rw [hx, hu]
    rfl

/-! ## Decisions at a worker, and the start of a lock (R74 to R76, R267, R409) -/

/-- A decision is held for the coming lock. -/
def State.decided (s : State) (d : Decision) : State := { s with lock := { s.lock with decision := some d } }

theorem decided_reads (s : State) (d : Decision) : (s.decided d).role = s.role ∧ (s.decided d).now = s.now ∧ (s.decided d).nextLock = s.nextLock := ⟨rfl, rfl, rfl⟩

/-- A decision for the coming lock that comes before its end is taken at a worker. -/
theorem decision_worker {d : Decision} (hl : s.lockLive = true) (hp : s.inPound = true) (hr : s.role = 1) (hd : d.lock = s.nextLock) (hn : s.lock.decision = none)
    (hlate : s.now < s.nextLock + 20000) : exec (.decision d) s =
      if s.now < s.nextLock ∨ d.outcome = .hold then .next (s.decided d) else .next ((s.decided d).startLock d s.now) := by
  obtain ⟨hrole, hnow, hnext⟩ := decided_reads s d
  show execDecision d s = _
  unfold execDecision
  rw [if_neg (by simp [hl, hp, hr, hd, hn, hlate])]
  dsimp only
  rw [← State.decided, if_neg (show ¬((s.decided d).role = 2 ∧ _) by rw [hrole, hr]; simp), hnow, hnext]

/-- The lock has started at an instant. -/
def State.lockStarted (s : State) (at_ : Nat) : State := { s with lock := { s.lock with start := some at_, window := true, committed := false } }

theorem sendLease_worker (h : s.role = 0 ∨ s.role = 1) (l : Nat) : s.sendLease l = s := if_neg fun hn => by
  rcases h with h | h <;> simp [h] at hn

theorem sendLease_sends (s : State) (l : Nat) : ∃ x, s.sendLease l = { s with tx := x } := by
  unfold State.sendLease
  split
  · exact ⟨_, send_eq ..⟩
  · exact ⟨_, rfl⟩

theorem sendLease_running (s : State) (l : Nat) : (s.sendLease l).running = s.running := by
  obtain ⟨x, h⟩ := sendLease_sends s l
  rw [h]
  rfl

/-- A lock that starts with no late error is LOCKING, with the lease sent; EMPTY stops the tillers. -/
theorem startLock_starts {d : Decision} {at_ : Nat} (he : s.lock.lateError = false) (hp : s.inPound = true) : s.startLock d at_ =
    let u := ((s.lockStarted at_).sendLease s.nextLock).wf TM_LOCK_STATUS TM_LOCK_STATUS_STATE 3
    if d.outcome = .empty then u.stopCores else u := by
  have hr : ((s.lockStarted at_).sendLease s.nextLock).running = true := (sendLease_running _ _).trans (running_of_inPound hp)
  unfold State.startLock
  rw [if_neg (by simp [he]), ← setLockSt_running hr]
  rfl

theorem lockInstant_undecided (hl : s.lockLive = true) (hp : s.inPound = true) (hs : s.lock.start = none) (hn : s.nextLock ≤ s.now) (hd : s.lock.decision = none) :
    exec .lockInstant s = .next { s with lock := { s.lock with window := true } } := by
  show execLockInstant s = _
  unfold execLockInstant
  rw [if_neg (by simp [hl, hp, hs, hn]), hd]

theorem lockInstant_decided {d : Decision} (hl : s.lockLive = true) (hp : s.inPound = true) (hs : s.lock.start = none) (hn : s.nextLock ≤ s.now)
    (hd : s.lock.decision = some d) (ho : d.outcome ≠ .hold) : exec .lockInstant s = .next (s.startLock d s.nextLock) := by
  show execLockInstant s = _
  unfold execLockInstant
  rw [if_neg (by simp [hl, hp, hs, hn]), hd]
  dsimp only
  rw [if_neg ho]

theorem lockStartsAtItsInstant : LockStartsAtItsInstant := by
  intro d s hl hp hs hn hd he u
  refine ⟨fun ho => ?_, fun ho => ?_, fun hr => sendLease_worker (s := u) hr s.nextLock⟩
  all_goals rw [lockInstant_decided hl hp hs hn hd (by rw [ho]; simp), startLock_starts he hp]
  · exact congrArg Host.Outcome.next (if_neg (by rw [ho]; simp))
  · exact congrArg Host.Outcome.next (if_pos ho)

/-! ## Out of step (R74, R75, R80) -/

theorem onlyRegs_syncResets (s : State) : OnlyRegs s s.syncResets := (((OnlyRegs.refl s).wf _ _ _).wf _ _ _).wf _ _ _

theorem regsBut_syncResets (s : State) : RegsBut s s.syncResets [PW_RESET_STATUS] :=
  (((RegsBut.refl s _).wf (List.mem_singleton_self _) _ _).wf (List.mem_singleton_self _) _ _).wf (List.mem_singleton_self _) _ _

/-- The lock window closes with nothing deferred. -/
theorem runDeferred_none (h : s.lock.deferred = []) : ∃ t : State, s.runDeferred = t ∧ RegsBut s t [PW_RESET_STATUS]
    ∧ ∃ r, t = { s with regs := r, lock := { s.lock with deferred := [], window := false } } := by
  unfold State.runDeferred
  rw [h]
  obtain ⟨r, hr⟩ := onlyRegs_syncResets { s with lock := { s.lock with deferred := [], window := false } }
  exact ⟨_, rfl, (regsBut_of_lock _ _).trans (regsBut_syncResets _), r, hr⟩

/-- What a device shows once it is OUT_OF_STEP. -/
def State.outShown (s : State) : State :=
  ((s.wf TM_LOCK_STATUS TM_LOCK_STATUS_STATE 4).wf TM_LOCK_STATUS TM_LOCK_STATUS_LAST 3).wf KP_TRAIN_LAST KP_TRAIN_LAST_OUTCOME 3

theorem outShown_frame (s : State) : s.outShown.lockSt = 4 ∧ s.outShown.rf TM_LOCK_STATUS TM_LOCK_STATUS_LAST = 3
    ∧ s.outShown.rf KP_TRAIN_LAST KP_TRAIN_LAST_OUTCOME = 3 ∧ RegsBut s s.outShown [TM_LOCK_STATUS, KP_TRAIN_LAST] ∧ OnlyRegs s s.outShown := by
  refine ⟨?_, ?_, rf_wf_fits (by decide) (by decide), (((RegsBut.refl s _).wf (by simp) _ _).wf (by simp) _ _).wf (by simp) _ _, (((OnlyRegs.refl s).wf _ _ _).wf _ _ _).wf _ _ _⟩
  · unfold State.lockSt State.outShown
    rw [State.rf_wf_other _ _ _ _ (by decide), State.rf_wf_disjoint _ _ _ _ _ (by decide) (by decide)]
    exact rf_wf_fits (by decide) (by decide)
  · unfold State.outShown
    rw [State.rf_wf_other _ _ _ _ (by decide)]
    exact rf_wf_fits (by decide) (by decide)

/-- A decision no longer stands, and no lock runs. -/
def State.undecided (s : State) : State := { s with lock := { s.lock with decision := none, start := none, committed := false, lateError := false } }

theorem outOfStep_eq (hp : s.inPound = true) : s.outOfStep = (s.outShown.undecided.post 0x15 stOK s.outShown.undecided.tmSrc s.nextLock).runDeferred := by
  unfold State.outOfStep
  dsimp only
  rw [setLockSt_running (running_of_inPound hp), ← State.outShown, ← State.undecided]

theorem outOfStep_completes (hp : s.inPound = true) (hd : s.lock.decision = none) (hf : s.lock.deferred = []) : ∃ t : State, s.outOfStep = t ∧ t.lockSt = 4
    ∧ t.rf TM_LOCK_STATUS TM_LOCK_STATUS_LAST = 3 ∧ t.rf KP_TRAIN_LAST KP_TRAIN_LAST_OUTCOME = 3
    ∧ t.events = s.events ++ [⟨s.now, 0x15, 2, stOK, s.tmSrc % 2 ^ 26, s.nextLock % 2 ^ 64⟩] ∧ RegsBut s t [TM_LOCK_STATUS, KP_TRAIN_LAST, PW_RESET_STATUS]
    ∧ t = { s with regs := t.regs, events := t.events, lock := { s.lock with start := none, committed := false, lateError := false, window := false } } := by
  obtain ⟨hst, hlast, hout, hr, hframe⟩ := outShown_frame s
  have hnow : s.outShown.undecided.now = s.now := (hr.of_regs rfl : RegsBut s s.outShown.undecided _).now (by decide)
  have hsrc : s.outShown.undecided.tmSrc = s.tmSrc := (hr.of_regs rfl : RegsBut s s.outShown.undecided _).tmSrc (by decide)
  obtain ⟨ro, hro⟩ := hframe
  rw [outOfStep_eq hp, post_reserved (by decide) (masterOf_tmSrc _), hnow, hsrc]
  obtain ⟨t, ht, hrt, r, hft⟩ := runDeferred_none (s := { s.outShown.undecided with
    events := s.outShown.undecided.events ++ [⟨s.now, 0x15, 2, stOK, s.tmSrc % 2 ^ 26, s.nextLock % 2 ^ 64⟩] }) (by rw [hro]; exact hf)
  have hut : RegsBut s.outShown t [PW_RESET_STATUS] := RegsBut.trans ((RegsBut.refl _ _).of_regs rfl) hrt
  refine ⟨t, ht, (hut.rf (by decide) _).trans hst, (hut.rf (by decide) _).trans hlast, (hut.rf (by decide) _).trans hout, ?_,
    (hr.mono (by simp)).trans (hut.mono (by simp)), ?_⟩
  · rw [hft, hro]
    rfl
  · rw [hft, hro]
    unfold State.undecided
    simp only [hd, hf]

theorem noDecisionTimeout_completes (hl : s.lockLive = true) (hp : s.inPound = true) (hd : s.lock.decision = none) (hn : s.nextLock + 20000 ≤ s.now) :
    exec .noDecisionTimeout s = .next s.outOfStep := if_pos (by simp [hl, hp, hd, hn])

theorem decisionsAreHeld : DecisionsAreHeld := by
  intro d s hl hp
  refine ⟨fun hr hd hn hearly => ?_, fun hr hd hn hdue hlate ho he => ?_, fun hs hn hd => lockInstant_undecided hl hp hs hn hd, fun hd hn hf => ?_⟩
  · rw [decision_worker hl hp hr hd hn (by omega), if_pos (.inl hearly)]
    rfl
  · rw [decision_worker hl hp hr hd hn hlate, if_neg (by rw [ho]; simp [hdue]), startLock_starts (s := s.decided d) he hp, ho]
    dsimp only
    rw [if_neg (by simp), sendLease_worker (s := (s.decided d).lockStarted s.now) (.inr hr)]
    rfl
  · obtain ⟨t, ht, hout⟩ := outOfStep_completes hp hd hf
    exact ⟨t, ht ▸ noDecisionTimeout_completes hl hp hd hn, hout⟩

/-! ## A held lock (R78, R79, R81) -/

theorem postSev_tmSrc {cls : Nat} (h : ¬(cls = 0x02 ∨ cls = 0x1B)) (sev st d : Nat) : ∃ e, s.postSev cls sev st s.tmSrc d = { s with events := e } := by
  unfold State.postSev
  dsimp only
  rw [if_neg h, masterOf_tmSrc]
  exact ⟨_, rfl⟩

theorem noteTimeLost_frame (s : State) : ∃ e, s.noteTimeLost = { s with events := e } := by
  unfold State.noteTimeLost
  split
  · exact ⟨_, post_reserved (by decide) (masterOf_tmSrc s) _ _⟩
  · exact ⟨_, rfl⟩

theorem lockReport_frame (s : State) (outcome : Nat) (losses : List Dword) :
    ∃ x rep, s.lockReport outcome losses = { s with tx := x, lock := { s.lock with reported := rep } } := by
  unfold State.lockReport
  split
  · exact ⟨_, _, rfl⟩
  · exact ⟨_, _, rfl⟩

/-- The registers of a HOLD at a lock instant: LAST, HOLDS and KP_TRAIN_LAST. -/
def State.holdShown (s : State) : State :=
  ((s.wf TM_LOCK_STATUS TM_LOCK_STATUS_LAST 2).bumpF TM_LOCK_STATUS TM_LOCK_STATUS_HOLDS 1).wf KP_TRAIN_LAST KP_TRAIN_LAST_OUTCOME 2

/-- The pound that goes on after a HOLD: its next lock, STATE and VOTE. -/
def State.poundGoesOn (s : State) (l : Nat) : State := ((s.wrWide TM_NEXT_LOCK_0 2 ((l + s.poundNs) % 2 ^ 64)).setLockSt 1).setVote 0

/-- A HOLD drops the votes and the decision. -/
def LockState.held (k : LockState) : LockState := { k with
  causes := if k.lateError then k.causes ||| 2 else k.causes, lateError := false, votes := [], cut := false, cutCauses := 0, passed := [],
  decision := none, ovr := false, extended := true }

/-- What a HOLD without a rerun does once the pound goes on: the repair that it orders, the lease, the loss of time and the report. -/
def State.holdTold (s : State) (d : Decision) (l : Nat) : State :=
  let s := if d.repair then
      { s with fleet := { s.fleet with repairAt := some (l + 8000, d.idChange.map (fun c => (c.1.toNat, c.2.toNat))) } } else s
  ((s.sendLease l).noteTimeLost).lockReport 2 []

theorem holdLock_eq {d : Decision} (hw : d.wideRerun = false) (hr : d.rerun = false) (l : Nat) : ∃ sev n, s.holdLock d l =
    State.holdTold (let u := (s.holdShown.postSev 0x13 sev stLOCK_HELD s.holdShown.tmSrc n).poundGoesOn l; { u with lock := u.lock.held }) d l := by
  refine ⟨if s.rf TM_LOCK_STATUS TM_LOCK_STATUS_HOLDS < s.holdShown.rf TM_LOCK_CTRL TM_LOCK_CTRL_HOLD_LIMIT
    ∧ s.holdShown.rf TM_LOCK_STATUS TM_LOCK_STATUS_HOLDS = s.holdShown.rf TM_LOCK_CTRL TM_LOCK_CTRL_HOLD_LIMIT then 2 else 1,
    s.holdShown.rf TM_LOCK_STATUS TM_LOCK_STATUS_HOLDS, ?_⟩
  unfold State.holdLock
  rw [hw, hr]
  rfl

theorem holdShown_frame (s : State) : s.holdShown.rf TM_LOCK_STATUS TM_LOCK_STATUS_HOLDS = satAdd (2 ^ TM_LOCK_STATUS_HOLDS.width - 1) (s.rf TM_LOCK_STATUS TM_LOCK_STATUS_HOLDS) 1
    ∧ s.holdShown.rf TM_LOCK_STATUS TM_LOCK_STATUS_LAST = 2 ∧ s.holdShown.rf KP_TRAIN_LAST KP_TRAIN_LAST_OUTCOME = 2
    ∧ RegsBut s s.holdShown [TM_LOCK_STATUS, KP_TRAIN_LAST] ∧ OnlyRegs s s.holdShown ∧ s.holdShown.inPound = s.inPound := by
  unfold State.holdShown State.bumpF
  refine ⟨?_, ?_, rf_wf_fits (by decide) (by decide), (((RegsBut.refl s _).wf (by simp) _ _).wf (by simp) _ _).wf (by simp) _ _,
    (((OnlyRegs.refl s).wf _ _ _).wf _ _ _).wf _ _ _, ?_⟩
  · rw [State.rf_wf_other _ _ _ _ (by decide), State.rf_wf_disjoint s TM_LOCK_STATUS TM_LOCK_STATUS_LAST TM_LOCK_STATUS_HOLDS _ (by decide) (by decide)]
    exact rf_wf_fits (by decide) (Nat.lt_of_le_of_lt (Nat.min_le_left _ _) (by decide))
  · rw [State.rf_wf_other _ _ _ _ (by decide), State.rf_wf_disjoint _ _ _ _ _ (by decide) (by decide)]
    exact rf_wf_fits (by decide) (by decide)
  · unfold State.inPound State.lockSt
    rw [State.rf_wf_other _ _ _ _ (by decide), State.rf_wf_disjoint _ _ _ _ _ (by decide) (by decide), State.rf_wf_disjoint _ _ _ _ _ (by decide) (by decide)]

theorem running_wrNextLock (s : State) (n : Nat) : (s.wrWide TM_NEXT_LOCK_0 2 n).running = s.running :=
  running_of_regs (RegsBut.wrWide (.refl s _) (List.Subset.refl _) n) (by decide)

theorem nextLock_wrNextLock (s : State) (n : Nat) : (s.wrWide TM_NEXT_LOCK_0 2 n).nextLock = n % 2 ^ 64 := rdWide_wrWide s TM_NEXT_LOCK_0 2 n

theorem poundGoesOn_frame (hp : s.inPound = true) (l : Nat) : (s.poundGoesOn l).nextLock = (l + s.poundNs) % 2 ^ 64 ∧ (s.poundGoesOn l).lockSt = 1
    ∧ (s.poundGoesOn l).ownVote = 0 ∧ (∀ f : Fld, 3 ≤ f.lo → f.lo + f.width ≤ 16 → (s.poundGoesOn l).rf TM_LOCK_STATUS f = s.rf TM_LOCK_STATUS f)
    ∧ RegsBut s (s.poundGoesOn l) (TM_LOCK_STATUS :: wordsAt TM_NEXT_LOCK_0 2) ∧ OnlyRegs s (s.poundGoesOn l) := by
  unfold State.poundGoesOn
  have hn := nextLock_wrNextLock s ((l + s.poundNs) % 2 ^ 64)
  have hrun := (running_wrNextLock s ((l + s.poundNs) % 2 ^ 64)).trans (running_of_inPound hp)
  have hr := RegsBut.wrWide (.refl s _) (List.Subset.refl (wordsAt TM_NEXT_LOCK_0 2)) ((l + s.poundNs) % 2 ^ 64)
  have hf := onlyRegs_wrWide (.refl s) TM_NEXT_LOCK_0 2 ((l + s.poundNs) % 2 ^ 64)
  rw [Nat.mod_mod] at hn
  rw [setLockSt_running hrun, State.setVote]
  generalize s.wrWide TM_NEXT_LOCK_0 2 ((l + s.poundNs) % 2 ^ 64) = u at *
  have hu := ((RegsBut.refl u [TM_LOCK_STATUS]).wf (List.mem_singleton_self _) TM_LOCK_STATUS_STATE 1).wf (List.mem_singleton_self _) TM_LOCK_STATUS_VOTE 0
  refine ⟨(hu.rdWide (by decide)).trans hn, ?_, rf_wf_fits (by decide) (by decide), fun f h3 h16 => ?_, (hr.mono (by simp)).trans (hu.mono (by simp)), (hf.wf _ _ _).wf _ _ _⟩
  · exact (State.rf_wf_disjoint _ _ _ _ _ (by decide) (by decide)).trans (rf_wf_fits (by decide) (by decide))
  · rw [State.rf_wf_disjoint _ _ TM_LOCK_STATUS_VOTE f _ (by decide) (.inl h16), State.rf_wf_disjoint _ _ TM_LOCK_STATUS_STATE f _ (by decide) (.inr h3)]
    exact hr.rf (by decide) f

theorem holdTold_frame (s : State) (d : Decision) (l : Nat) : ∃ e x rep fl, s.holdTold d l = { s with events := e, tx := x, fleet := fl, lock := { s.lock with reported := rep } } := by
  unfold State.holdTold
  dsimp only
  generalize hu : (if d.repair = true then _ else s : State) = u
  obtain ⟨x, hx⟩ := sendLease_sends u l
  obtain ⟨e, he⟩ := noteTimeLost_frame (u.sendLease l)
  obtain ⟨y, rep, hy⟩ := lockReport_frame (u.sendLease l).noteTimeLost 2 []
  refine ⟨e, y, rep, u.fleet, ?_⟩
  rw [hy, he, hx, ← hu]
  split <;> rfl

/-- The pound that goes on once a HOLD has shown itself and been recorded. -/
theorem held_poundGoesOn (hp : s.inPound = true) (e : List Event) (l : Nat) : ∃ v : State, ({ s.holdShown with events := e } : State).poundGoesOn l = v
    ∧ v.nextLock = (l + s.poundNs) % 2 ^ 64 ∧ v.rf TM_LOCK_STATUS TM_LOCK_STATUS_HOLDS
      = satAdd (2 ^ TM_LOCK_STATUS_HOLDS.width - 1) (s.rf TM_LOCK_STATUS TM_LOCK_STATUS_HOLDS) 1
    ∧ v.rf TM_LOCK_STATUS TM_LOCK_STATUS_LAST = 2 ∧ v.rf KP_TRAIN_LAST KP_TRAIN_LAST_OUTCOME = 2 ∧ v.lockSt = 1 ∧ v.ownVote = 0
    ∧ RegsBut s v (TM_LOCK_STATUS :: KP_TRAIN_LAST :: wordsAt TM_NEXT_LOCK_0 2) ∧ ∃ r, v = { s with regs := r, events := e } := by
  obtain ⟨hholds, hlast, hout, hrs, ⟨r1, hs⟩, hin⟩ := holdShown_frame s
  have hre : RegsBut s.holdShown { s.holdShown with events := e } [] := (RegsBut.refl _ _).of_regs rfl
  generalize hu : ({ s.holdShown with events := e } : State) = u at hre ⊢
  have hpe : u.inPound = true := by
    rw [← hp, ← hin, State.inPound, State.lockSt, hre.rf (by simp)]
    rfl
  obtain ⟨hnext, hst, hvote, hkeep, hrg, ⟨r2, hg⟩⟩ := poundGoesOn_frame hpe l
  have hns : u.poundNs = s.poundNs := by rw [State.poundNs, hre.rf (by simp), hrs.rf (by decide), State.poundNs]
  rw [hns] at hnext
  have hreg : RegsBut s (u.poundGoesOn l) (TM_LOCK_STATUS :: KP_TRAIN_LAST :: wordsAt TM_NEXT_LOCK_0 2) :=
    (hrs.mono (by simp)).trans ((hre.mono (by simp)).trans (hrg.mono (by simp)))
  generalize u.poundGoesOn l = v at *
  refine ⟨v, rfl, hnext, ?_, ?_, ?_, hst, hvote, hreg, r2, ?_⟩
  · rw [hkeep _ (by decide) (by decide), hre.rf (by simp), hholds]
  · rw [hkeep _ (by decide) (by decide), hre.rf (by simp), hlast]
  · rw [hrg.rf (by decide), hre.rf (by simp), hout]
  · rw [hg, ← hu, hs]

theorem holdLock_completes {d : Decision} (hp : s.inPound = true) (hw : d.wideRerun = false) (hr : d.rerun = false) : ∃ u : State, s.holdLock d s.nextLock = u
    ∧ u.nextLock = (s.nextLock + s.poundNs) % 2 ^ 64
    ∧ u.rf TM_LOCK_STATUS TM_LOCK_STATUS_HOLDS = satAdd (2 ^ TM_LOCK_STATUS_HOLDS.width - 1) (s.rf TM_LOCK_STATUS TM_LOCK_STATUS_HOLDS) 1
    ∧ u.rf TM_LOCK_STATUS TM_LOCK_STATUS_LAST = 2 ∧ u.rf KP_TRAIN_LAST KP_TRAIN_LAST_OUTCOME = 2 ∧ u.lockSt = 1 ∧ u.ownVote = 0 ∧ u.epoch = s.epoch
    ∧ u.lock.decision = none ∧ u.lock.votes = [] ∧ u.lock.cut = false ∧ u.lock.extended = true ∧ u.mem = s.mem ∧ u.cores = s.cores
    ∧ RegsBut s u (TM_LOCK_STATUS :: KP_TRAIN_LAST :: wordsAt TM_NEXT_LOCK_0 2) := by
  generalize s.nextLock = l
  obtain ⟨sev, n, hu⟩ := holdLock_eq (s := s) hw hr l
  obtain ⟨e, he⟩ := postSev_tmSrc (s := s.holdShown) (cls := 0x13) (by decide) sev stLOCK_HELD n
  obtain ⟨v, hv, hnext, hholds, hlast, hout, hst, hvote, hrv, r, hfv⟩ := held_poundGoesOn hp e l
  rw [he, hv] at hu
  obtain ⟨e2, x, rep, fl, ht⟩ := holdTold_frame { v with lock := v.lock.held } d l
  have hru : RegsBut s (State.holdTold { v with lock := v.lock.held } d l) (TM_LOCK_STATUS :: KP_TRAIN_LAST :: wordsAt TM_NEXT_LOCK_0 2) :=
    hrv.of_regs (by rw [ht])
  have hvu : RegsBut v (State.holdTold { v with lock := v.lock.held } d l) [] := (RegsBut.refl v []).of_regs (by rw [ht])
  refine ⟨_, hu, (hvu.rdWide (by simp)).trans hnext, (hvu.rf (by simp) _).trans hholds, (hvu.rf (by simp) _).trans hlast, (hvu.rf (by simp) _).trans hout,
    (hvu.rf (by simp) _).trans hst, (hvu.rf (by simp) _).trans hvote, hru.rdWide (by decide), ?_, ?_, ?_, ?_, ?_, ?_, hru⟩
  · rw [ht]
    rfl
  · rw [ht]
    rfl
  · rw [ht]
    rfl
  · rw [ht]
    rfl
  · rw [ht, hfv]
  · rw [ht, hfv]

theorem heldLocksMoveByAPound : HeldLocksMoveByAPound := by
  intro d s hl hd hp hs hn ho u
  refine ⟨?_, fun hw hr => ?_⟩
  swap
  · obtain ⟨t, ht, hheld⟩ := holdLock_completes hp hw hr
    rw [← ht] at hheld
    exact hheld
  show execLockHold s = _
  unfold execLockHold
  rw [if_neg (by simp [hl, hp, hs, hn]), hd]
  dsimp only
  rw [if_pos ho]

end

/-- Settles O24: the first vote of a device, and a decision by the instant at which it comes; without one the device is OUT_OF_STEP. -/
theorem votesAndDecisionsAreKept : Obligations.VotesAndDecisionsAreKept := ⟨firstVotesAreKept, decisionsAreHeld⟩

/-- Settles O26: a lock starts by `startLock_starts`; a hold shows itself, lets the pound go on and tells the fleet, and each stage has its frame. -/
theorem locksRunOrHold : Obligations.LocksRunOrHold := ⟨lockStartsAtItsInstant, heldLocksMoveByAPound⟩

end Sys2Proof.Machine
end
section
/-! PROOFS. What leaves the lock machinery and the time unit's block alone, the first pound, and the commit step and the end of a lock (R65, R75 to R83, R217, R234, R388, R398). -/

namespace Sys2Proof.Machine

/-! ## The lock machinery is left alone -/

section
variable {s t u : State} {a : Nat}

/-- An address below or above the time unit's block. -/
def OffTm (a : Nat) : Prop := a < tmBase ∨ pwBase ≤ a

/-- The lock machinery, and every register of the time unit's block, are as they were. -/
structure LockKept (s t : State) : Prop where
  lock : t.lock = s.lock
  tm : ∀ a, ¬OffTm a → t.rd a = s.rd a

theorem LockKept.refl (s : State) : LockKept s s := ⟨rfl, fun _ _ => rfl⟩

theorem LockKept.trans (h : LockKept s t) (h' : LockKept t u) : LockKept s u := ⟨h'.lock.trans h.lock, fun a ha => (h'.tm a ha).trans (h.tm a ha)⟩

/-- Changes beside the registers and the lock machinery keep both. -/
theorem LockKept.of_same (h : LockKept s t) (hr : u.regs = t.regs) (hl : u.lock = t.lock) : LockKept s u :=
  ⟨hl.trans h.lock, fun a ha => (rd_of_regs a hr).trans (h.tm a ha)⟩

theorem LockKept.wr (h : LockKept s t) (ha : OffTm a) (v : Nat) : LockKept s (t.wr a v) :=
  ⟨h.lock, fun b hb => (State.rd_wr_other t v (ne_of_mem_of_not_mem (s := {x | OffTm x}) ha hb).symm).trans (h.tm b hb)⟩

theorem LockKept.wf (h : LockKept s t) (ha : OffTm a) (f : Fld) (v : Nat) : LockKept s (t.wf a f v) := h.wr ha _

theorem LockKept.wb (h : LockKept s t) (ha : OffTm a) (f : Fld) (b : Bool) : LockKept s (t.wb a f b) := h.wr ha _

theorem LockKept.wrWide (h : LockKept s t) (n : Nat) (ha : ∀ i < n, OffTm (a + 4 * i)) (v : Nat) : LockKept s (t.wrWide a n v) := by
  induction n with
  | zero => exact h
  | succ n ih => exact (ih fun i hi => ha i (hi.trans n.lt_succ_self)).wr (ha n n.lt_succ_self) _

theorem LockKept.ite {p : Prop} [Decidable p] {x y : State} (hx : LockKept s x) (hy : LockKept s y) : LockKept s (if p then x else y) := by
  split
  · exact hx
  · exact hy

theorem LockKept.foldl {α : Type} {f : State → α → State} {l : List α} (hf : ∀ u x, x ∈ l → LockKept u (f u x)) (h : LockKept s t) : LockKept s (l.foldl f t) := by
  induction l generalizing t with
  | nil => exact h
  | cons x l ih => exact ih (fun u y hy => hf u y (List.mem_cons_of_mem _ hy)) (h.trans (hf t x List.mem_cons_self))

theorem LockKept.rf (h : LockKept s t) (ha : ¬OffTm a) (f : Fld) : t.rf a f = s.rf a f := congrArg (natBits f.lo f.width) (h.tm a ha)

theorem LockKept.rdWide (h : LockKept s t) (n : Nat) (ha : ∀ i < n, ¬OffTm (a + 4 * i)) : t.rdWide a n = s.rdWide a n := rdWide_congr fun i hi => h.tm _ (ha i hi)

theorem not_offTm_lockStatus : ¬OffTm TM_LOCK_STATUS := by unfold OffTm; decide

theorem not_offTm_sched : ¬OffTm TM_SCHED_0 := by unfold OffTm; decide

theorem LockKept.retainK (h : LockKept s t) : t.retainK = s.retainK := congrArg (max 1) (h.rf not_offTm_sched _)

theorem lockKept_fleet (s : State) (f : Fleet) : LockKept s { s with fleet := f } := (LockKept.refl s).of_same rfl rfl

theorem lockKept_train (s : State) (x : Train) : LockKept s { s with train := x } := (LockKept.refl s).of_same rfl rfl

theorem lockKept_setCore (s : State) (c : Nat) (k : Core) : LockKept s (s.setCore c k) := (LockKept.refl s).of_same rfl rfl

theorem lockKept_setPort (s : State) (p : Nat) (k : Intake) : LockKept s (s.setPort p k) := (LockKept.refl s).of_same rfl rfl

/-! ### Registers of the cores and of the Keeper -/

theorem offTm_of_high (h : 0x8010000000 ≤ a) (n : Nat) : OffTm (a + n) := .inr (by unfold pwBase; omega)

theorem offTm_co (c n : Nat) : OffTm (coBase c + n) := offTm_of_high (by unfold coBase; omega) n

theorem offTm_co2 (c m n : Nat) : OffTm (coBase c + m + n) := offTm_of_high (by unfold coBase; omega) n

theorem offTm_kp {n : Nat} (h : n < 0x10000) : OffTm (kpBase + n) := .inl (by unfold tmBase kpBase; omega)

theorem offTm_kp2 {m n : Nat} (h : m + n < 0x10000) : OffTm (kpBase + m + n) := .inl (by unfold tmBase kpBase; omega)

/-! ## Trackers at a lock (R217 to R225) -/

theorem lockKept_postSev (s : State) (cls sev st src d : Nat) : LockKept s (s.postSev cls sev st src d) := by
  unfold State.postSev
  dsimp only
  generalize hu : (if cls = 0x02 ∨ cls = 0x1B then _ else _ : State) = u
  have h : LockKept s u := by
    rw [← hu]
    exact LockKept.ite ((LockKept.refl s).of_same rfl rfl) ((LockKept.refl s).of_same rfl rfl)
  have hb (c : Nat) : LockKept s (if cls < 0x30 then u.bump (EV_CCNT c cls) 1 else u) := (h.wr (offTm_of_high (by unfold ccBase; omega) _) _).ite h
  split
  · exact hb _
  · exact LockKept.ite (h.wr (offTm_of_high (by unfold ccBase; omega) _) _) h
  · exact h

theorem lockKept_setObs (s : State) (c t k v : Nat) : LockKept s (s.setObs c t k v) := (LockKept.refl s).wr (offTm_co2 _ _ _) _

theorem lockKept_setRecords (s : State) (c t : Nat) (x : Dy) : LockKept s (s.setRecords c t x) :=
  (LockKept.refl s).foldl fun u _ _ => (LockKept.refl u).wr (offTm_co2 _ _ _) _

theorem lockKept_pushHist (s : State) (c t : Nat) (cur : Dy) (drop : Bool) : LockKept s (s.pushHist c t cur drop) := by
  unfold State.pushHist
  dsimp only
  generalize hu : (if drop = true then _ else s : State) = u
  have h : LockKept s u := hu ▸ ((LockKept.refl s).wf (offTm_co2 _ _ _) _ _).ite (LockKept.refl s)
  exact ((h.trans (lockKept_setObs ..)).wf (offTm_co2 _ _ _) _ _).wf (offTm_co2 _ _ _) _ _

theorem lockKept_foldTracker (s : State) (c t : Nat) : LockKept s (s.foldTracker c t) := by
  unfold State.foldTracker
  dsimp only
  refine (LockKept.refl s).ite ?_
  generalize hu : (if (obsVal (s.obs c t 16)).m = 0 then s else _ : State) = u
  have h : LockKept s u := hu ▸ (LockKept.refl s).ite (((lockKept_pushHist ..).trans (lockKept_setRecords ..)).ite ((lockKept_setObs ..).trans (lockKept_setRecords ..)))
  have hr := h.wf (offTm_co2 _ _ _ : OffTm (CO_TRK_STATUS c t)) CO_TRK_STATUS_RG_RUN
  refine LockKept.ite ?_ (hr _)
  exact (((hr _).wb (offTm_co2 _ _ _) _ _).trans (lockKept_setObs ..)).trans (lockKept_postSev ..)

theorem lockKept_clearTracker (s : State) (c t : Nat) : LockKept s (s.clearTracker c t) := by
  have ha : OffTm (CO_TRK_STATUS c t) := offTm_co2 _ _ _
  have h := (((((LockKept.refl s).wb ha CO_TRK_STATUS_RG false).wb ha CO_TRK_STATUS_SAT_SEEN false).wb ha CO_TRK_STATUS_FLUSH_RG false).wb ha CO_TRK_STATUS_PACK false).wf ha
    CO_TRK_STATUS_GAUGED 0
  exact (h.trans (lockKept_setObs ..)).ite ((h.foldl fun u i _ => lockKept_setObs ..).ite h)

theorem lockKept_clearSlot (s : State) (c t : Nat) : LockKept s (s.clearSlot c t) :=
  LockKept.ite (((((LockKept.refl s).wrWide 2 (fun _ _ => offTm_of_high (by unfold CO_STAT_SSE_0 coBase; omega) _) _).wrWide 2
    (fun _ _ => offTm_of_high (by unfold CO_STAT_COUNT_0 coBase; omega) _) _).wr (offTm_co2 _ _ _) _).wr (offTm_co2 _ _ _) _ |>.wr (offTm_co2 _ _ _) _) (.refl s)

theorem lockKept_trackersLock (s : State) (commit : Bool) : LockKept s (s.trackersLock commit) :=
  (LockKept.refl s).foldl fun u _ _ => (LockKept.refl u).foldl fun v _ _ =>
    (((lockKept_foldTracker v _ _).ite (.refl v)).trans (lockKept_clearTracker ..)).trans (lockKept_clearSlot ..)

/-! ## The sluice at a lock (R234, R243) -/

theorem offTm_sluiceBit {l : Nat} (h : l < 256) : OffTm (KP_SLUICE_SET 0 + 4 * (l / 32)) := .inl (by unfold KP_SLUICE_SET kpBase tmBase; omega)

theorem offTm_sluiceLeft {l : Nat} (h : l < 256) : OffTm (KP_SLUICE_LEFT l) := offTm_kp2 (by omega)

theorem lockKept_sluiceSet (s : State) (un : BitVec 256) : LockKept s (s.sluiceSet un) := by
  unfold State.sluiceSet
  refine (LockKept.refl s).foldl fun u l hl => ?_
  have hl : l < 256 := List.mem_range.1 hl
  dsimp only
  generalize hv : (if u.maskBit (KP_SLUICE_SET 0) l = true ∧ u.rf (KP_SLUICE_LEFT l) KP_SLUICE_LEFT_LEFT ≠ 0xFFFF then _ else u : State) = v
  have h : LockKept u v := hv ▸ (((LockKept.refl u).wf (offTm_sluiceLeft hl) _ _).wr (offTm_sluiceBit hl) _).ite (.refl u)
  exact ((h.wr (offTm_sluiceBit hl) _).wf (offTm_sluiceLeft hl) _ _).ite h

theorem lockKept_mirrorSluice (s : State) : LockKept s s.mirrorSluice :=
  (LockKept.refl s).foldl fun u c _ => (LockKept.refl u).foldl fun v i _ => by
    dsimp only
    generalize hw : (if v.rd (CO_SLUICE c 0 + 4 * i) = _ then v else _ : State) = w
    have h : LockKept v w := hw ▸ (LockKept.refl v).ite ((LockKept.refl v).wr (offTm_co2 c _ _) _)
    exact h.ite (h.wr (offTm_co2 c _ _) _)

theorem lockKept_syncDemand (s : State) : LockKept s s.syncDemand :=
  (LockKept.refl s).foldl fun u c _ => (LockKept.refl u).ite ((LockKept.refl u).wf (offTm_co c _) _ _)

theorem lockKept_sluiceLock (s : State) (un : BitVec 256) : LockKept s (s.sluiceLock un) := by
  unfold State.sluiceLock
  have h := ((lockKept_sluiceSet s un).wrWide (a := KP_SLUICE_PEND 0) 8 (fun i hi => .inl (by unfold KP_SLUICE_PEND kpBase tmBase; omega)) 0).trans (lockKept_mirrorSluice _)
  exact ((h.wb (offTm_kp (by decide)) _ _).wb (offTm_kp (by decide)) _ _).trans (lockKept_syncDemand _)

/-! ## Training, snapshots and the risk score at a lock (R260 to R270, R397 to R399) -/

theorem lockKept_parityEpoch (s : State) (e : Nat) : LockKept s (s.parityEpoch e) :=
  (LockKept.refl s).foldl fun u g hg => ((LockKept.refl u).wrWide 2 (fun i hi => .inl (by
    have := List.mem_range.1 hg
    unfold KP_GRP_PEPOCH_0 kpBase tmBase
    omega)) e).ite (.refl u)

theorem lockKept_spikeCommit (s : State) : LockKept s s.spikeCommit :=
  (LockKept.refl s).foldl fun u c hc => by
    have hc := List.mem_range.1 hc
    exact (((LockKept.refl u).wrWide 2 (fun i hi => .inl (by unfold KP_SPIKE_MEAN_0 kpBase tmBase; omega)) _).wrWide 2
      (fun i hi => .inl (by unfold KP_SPIKE_VAR_0 kpBase tmBase; omega)) _).wf (offTm_kp2 (by omega)) _ _

theorem lockKept_nfClear (s : State) : LockKept s s.nfClear :=
  (LockKept.refl s).foldl fun u k hk => (LockKept.refl u).wr (offTm_kp2 (by have := List.mem_range.1 hk; omega)) _

theorem lockKept_count48 (s : State) (n : Nat) (h : n < 0x1000) : LockKept s (s.count48 (kpBase + n)) :=
  (LockKept.refl s).wrWide 2 (fun i hi => .inl (by unfold kpBase tmBase; omega)) _

theorem lockKept_trainCommit (s : State) : LockKept s s.trainCommit := by
  unfold State.trainCommit
  dsimp only
  have h := (((lockKept_spikeCommit s).trans (lockKept_nfClear _)).wf (offTm_kp (by decide) : OffTm KP_TRAIN_LAST) KP_TRAIN_LAST_OUTCOME 0).wf
    (offTm_kp (by decide) : OffTm KP_TRAIN_LAST) KP_TRAIN_LAST_EMPTIES 0
  exact ((h.trans (lockKept_count48 _ 0x208 (by decide))).trans (lockKept_count48 _ 0x210 (by decide))).ite h

/-- An EMPTY lock changes nothing of the lock machinery but the flag for EMPTY_LIMIT. -/
theorem trainEmpty_kept (s : State) (causes : Nat) : ∃ b, LockKept { s with lock := { s.lock with emptied := b } } (s.trainEmpty causes) := by
  unfold State.trainEmpty
  dsimp only
  generalize hu : State.bumpF _ KP_TRAIN_LAST KP_TRAIN_LAST_EMPTIES 1 = u
  generalize decide (s.rf KP_TRAIN_LAST KP_TRAIN_LAST_EMPTIES < u.rf KP_TRAIN_CTRL KP_TRAIN_CTRL_EMPTY_LIMIT
    ∧ u.rf KP_TRAIN_LAST KP_TRAIN_LAST_EMPTIES = u.rf KP_TRAIN_CTRL KP_TRAIN_CTRL_EMPTY_LIMIT) = b
  have ha : OffTm KP_TRAIN_LAST := offTm_kp (by decide)
  have h : LockKept s u := by
    rw [← hu]
    exact ((((lockKept_train s _).trans (lockKept_nfClear _)).wf ha _ _).wf ha _ _).wf ha _ _
  have hb : LockKept { s with lock := { s.lock with emptied := b } } { u with lock := { u.lock with emptied := b } } :=
    ⟨congrArg (fun k : LockState => { k with emptied := b }) h.lock, h.tm⟩
  have hp := hb.trans (lockKept_postSev _ 0x14 (if b then 2 else 1) stOK (u.src 0xD00) (causes % 64 + u.rf KP_TRAIN_LAST KP_TRAIN_LAST_EMPTIES * 2 ^ 8))
  exact ⟨b, (hp.trans (lockKept_count48 _ 0x210 (by decide))).ite hp⟩

theorem lockKept_syncSnaps (s : State) : LockKept s s.syncSnaps :=
  (((LockKept.refl s).wb (offTm_kp (by decide)) _ _).wb (offTm_kp (by decide)) _ _).wb (offTm_kp (by decide)) _ _

theorem lockKept_snapDue (s : State) (i : Nat) : LockKept s (s.snapDue i) := (lockKept_fleet s _).trans (lockKept_syncSnaps _)

theorem lockKept_recordSnap (s : State) (e i : Nat) : LockKept s (s.recordSnap e i) := by
  unfold State.recordSnap
  dsimp only
  refine (lockKept_syncSnaps s).ite (LockKept.trans (LockKept.wf ?_ (offTm_kp (by decide)) _ _) (lockKept_syncSnaps _))
  exact lockKept_fleet s _

theorem lockKept_snapStep (s : State) (commit : Bool) (e : Nat) : LockKept s (s.snapStep commit e) := by
  unfold State.snapStep
  dsimp only
  generalize hu : (if commit = true then _ else s : State) = u
  have h : LockKept s u := by
    rw [← hu]
    exact (lockKept_fleet s _).ite (.refl s)
  exact ((((h.trans (lockKept_snapDue ..)).ite h).trans (lockKept_recordSnap ..))).trans (lockKept_recordSnap ..)

theorem lockKept_dueIf (s : State) (b : Bool) (i : Nat) : LockKept s (if b = true then s.snapDue i else s) := (lockKept_snapDue ..).ite (.refl s)

theorem lockKept_healthStep (s : State) : LockKept s s.healthStep :=
  (((lockKept_fleet s _).wf (offTm_kp (n := 0xA20) (by decide)) KP_RISK_SCORE _).trans (lockKept_dueIf ..)).trans (lockKept_dueIf ..)

/-! ## The cores of a pound that starts (R170, R207, R212, R217) -/

theorem lockKept_armClaims (s : State) (restart : Bool) : LockKept s (s.armClaims restart) := by
  unfold State.armClaims
  refine LockKept.foldl (fun u x hx => ?_) ((LockKept.refl s).of_same (u := { s with claims := [] }) rfl rfl)
  have ha (k : Nat) (hk : k < 16) : OffTm (claimReg x.1 x.2.1 x.2.2 0 + k) := by
    unfold claimReg
    split
    · have hn : x.2.2 < 16 := by
        simp only [allCounters, List.mem_append, List.mem_map, List.mem_flatMap, List.mem_range] at hx
        obtain ⟨n, hn, rfl⟩ | ⟨d, _, n, _, rfl⟩ := hx
        · exact hn
        · simp at *
      exact .inl (by unfold KP_CLAIM_ARMING kpBase tmBase; omega)
    · exact .inr (by unfold CD_CLAIM_ARMING cdBase pwBase; omega)
  exact (((LockKept.refl u).wf (ha 8 (by decide)) _ _).wf (ha 12 (by decide)) _ _).ite
    (((((LockKept.refl u).wf (ha 0 (by decide)) _ _).wr (ha 4 (by decide)) _).wr (ha 8 (by decide)) _).wr (ha 12 (by decide)) _)

theorem lockKept_idleOthers (s : State) (run : List Nat) : LockKept s (s.idleOthers run) :=
  (LockKept.refl s).foldl fun u _ _ => ((LockKept.refl u).wf (offTm_co _ _) _ _).ite (.refl u)

theorem lockKept_syncQueues (s : State) (c : Nat) : LockKept s (s.syncQueues c) := ((LockKept.refl s).wr (offTm_co _ _) _).wr (offTm_co _ _) _

theorem lockKept_startCore (s : State) (c : Nat) (wide : Bool) : LockKept s (s.startCore c wide) :=
  (((lockKept_setCore s c _).trans (lockKept_syncQueues _ c)).wf (offTm_co _ _ : OffTm (CO_TSTATUS c)) _ _).wf (offTm_co _ _ : OffTm (CO_TSTATUS c)) _ _

theorem lockKept_clearFault (s : State) (c : Nat) : LockKept s (s.clearFault c) := by
  have h : OffTm (CO_TSTATUS c) := offTm_co _ _
  exact ((((lockKept_setCore s c _).wb h _ _).wf h _ _).wf h _ _).wf (offTm_co _ _) _ _

theorem lockKept_clearFaults (s : State) : LockKept s s.clearFaults := (LockKept.refl s).foldl fun _ _ _ => lockKept_clearFault ..

theorem lockKept_gnStart (s : State) (taking : List Nat) : LockKept s (s.gnStart taking) := by
  unfold State.gnStart
  exact ((LockKept.refl s).foldl fun u c _ => (LockKept.refl u).wr (offTm_co c _) _).trans (lockKept_train _ _)

theorem lockKept_trainStart (s : State) (taking : List Nat) : LockKept s (s.trainStart taking) :=
  (((lockKept_train s _).trans (lockKept_gnStart _ taking)).wb (offTm_kp2 (by decide) : OffTm (KP_SPIKE_STATUS 0)) _ _).wb (offTm_kp2 (by decide) : OffTm (KP_SPIKE_STATUS 1)) _ _

/-- The cores of a pound that begins leave the lock machinery alone. -/
theorem lockKept_startCores (s : State) : LockKept s (s.startCores false) := by
  unfold State.startCores
  dsimp only
  rw [if_neg (by simp)]
  refine LockKept.trans (LockKept.trans ?_ (lockKept_clearFaults _)) (lockKept_trainStart ..)
  refine LockKept.foldl (fun u c _ => ?_) ((lockKept_armClaims s false).trans (lockKept_idleOthers ..))
  exact LockKept.trans ((LockKept.refl u).foldl fun _ _ _ => lockKept_clearTracker ..) (lockKept_startCore ..)

theorem lockKept_syncPorts (s : State) : LockKept s s.syncPorts :=
  (LockKept.refl s).foldl fun u p _ => by
    have ha : OffTm (WH_INTAKE_STATUS (p / 2) (p % 2)) := offTm_of_high (by unfold whBase; omega) _
    exact (LockKept.refl u).ite ((((lockKept_setPort u p _).wf ha _ _).wb ha _ _).wb ha _ _)

/-! ## The commit step (R75, R76, R78, R82, R83) -/

/-- The lock machinery after the same change. -/
theorem LockKept.relock (h : LockKept s t) (f : LockState → LockState) : LockKept { s with lock := f s.lock } { t with lock := f t.lock } := ⟨congrArg f h.lock, h.tm⟩

/-- The retained epochs and their slots once a lock has set the epoch to `e`. -/
def LockState.flipped (k : LockState) (retain : Nat) (commit : Bool) (e : Nat) : LockState :=
  if commit then { k with history := (e, k.rot % (retain + 1)) :: k.history, rot := k.rot + 1, image := k.imageWork }
  else { k with history := (e, (k.history.headD (0, 0)).2) :: k.history }

theorem flip_kept (s : State) (commit : Bool) (e : Nat) : LockKept { s with lock := s.lock.flipped s.retainK commit e } (s.flip commit e) := by
  unfold State.flip LockState.flipped
  cases commit with
  | true =>
    dsimp only
    rw [if_pos rfl, if_pos rfl]
    exact (lockKept_parityEpoch ..).trans (lockKept_trainCommit _)
  | false => exact .refl _

theorem seedPound_kept (s : State) (e : Nat) : ∃ n, LockKept { s with lock := { s.lock with poundSeed := n } } (s.seedPound e) := ⟨_, rfl, fun _ _ => rfl⟩

theorem lockKept_configStep (h : s.lock.changes = []) (e : Nat) : LockKept s (s.configStep e) := by
  have hs : s.configStep e = { s with lock := { s.lock with changes := [] } } := by
    unfold State.configStep
    rw [h]
    rfl
  rw [hs]
  exact ⟨congrArg (fun l => { s.lock with changes := l }) h.symm, fun _ _ => rfl⟩

/-- What the commit step does before LAST and HOLDS are set. -/
def State.commitFlip (s : State) (d : Decision) (commit : Bool) : State :=
  let u := (((s.trackersLock commit).sluiceLock d.layers).flip commit (s.epoch + 1)).seedPound (s.epoch + 1 + 1)
  if commit then u else u.trainEmpty d.causes.toNat

theorem commitFlip_kept (s : State) (d : Decision) (commit : Bool) : ∃ n b,
    LockKept { s with lock := { s.lock.flipped s.retainK commit (s.epoch + 1) with poundSeed := n, emptied := b } } (s.commitFlip d commit) := by
  unfold State.commitFlip
  have h0 := (lockKept_trackersLock s commit).trans (lockKept_sluiceLock _ d.layers)
  generalize (s.trackersLock commit).sluiceLock d.layers = u at h0
  have h1 := (h0.relock fun k => k.flipped s.retainK commit (s.epoch + 1)).trans (h0.retainK ▸ flip_kept u commit (s.epoch + 1))
  generalize u.flip commit (s.epoch + 1) = v at h1
  obtain ⟨n, hn⟩ := seedPound_kept v (s.epoch + 1 + 1)
  have h2 := (h1.relock fun k => { k with poundSeed := n }).trans hn
  generalize v.seedPound (s.epoch + 1 + 1) = w at h2
  cases commit with
  | true => exact ⟨n, _, h2⟩
  | false =>
    obtain ⟨b, hb⟩ := trainEmpty_kept w d.causes.toNat
    exact ⟨n, b, (h2.relock fun k => { k with emptied := b }).trans hb⟩

/-- LAST and HOLDS of a lock that commits. -/
def State.lockShown (s : State) (commit : Bool) : State := (s.wf TM_LOCK_STATUS TM_LOCK_STATUS_LAST (if commit then 0 else 1)).wf TM_LOCK_STATUS TM_LOCK_STATUS_HOLDS 0

theorem lockShown_reads (s : State) (commit : Bool) : (s.lockShown commit).rf TM_LOCK_STATUS TM_LOCK_STATUS_LAST = (if commit then 0 else 1)
    ∧ (s.lockShown commit).rf TM_LOCK_STATUS TM_LOCK_STATUS_HOLDS = 0 ∧ (s.lockShown commit).lockSt = s.lockSt := by
  unfold State.lockShown State.lockSt
  refine ⟨?_, rf_wf_fits (by decide) (by decide), ?_⟩
  · rw [State.rf_wf_disjoint _ _ _ _ _ (by decide) (by decide)]
    exact rf_wf_fits (by decide) (by cases commit <;> decide)
  · rw [State.rf_wf_disjoint _ _ _ _ _ (by decide) (by decide), State.rf_wf_disjoint _ _ _ _ _ (by decide) (by decide)]

theorem lockSteps_eq (s : State) (d : Decision) : s.lockSteps d =
    let t := ((((s.commitFlip d (d.outcome == .commit)).lockShown (d.outcome == .commit)).configStep (s.epoch + 1)).snapStep (d.outcome == .commit) (s.epoch + 1)).healthStep
    { t with lock := { t.lock with committed := true } } := rfl

/-- The commit step: the status shows the outcome, and the new epoch stands in the history. -/
theorem lockSteps_completes (d : Decision) (hc : s.lock.changes = []) : ∃ (n : Nat) (b : Bool),
    (s.lockSteps d).lock = { s.lock.flipped s.retainK (d.outcome == .commit) (s.epoch + 1) with poundSeed := n, emptied := b, committed := true }
    ∧ (s.lockSteps d).rf TM_LOCK_STATUS TM_LOCK_STATUS_LAST = (if (d.outcome == .commit) = true then 0 else 1)
    ∧ (s.lockSteps d).rf TM_LOCK_STATUS TM_LOCK_STATUS_HOLDS = 0 ∧ (s.lockSteps d).lockSt = s.lockSt := by
  rw [lockSteps_eq]
  generalize (d.outcome == Outcome.commit) = commit
  obtain ⟨n, b, h⟩ := commitFlip_kept s d commit
  have hch : (s.commitFlip d commit).lock.changes = [] := by
    rw [h.lock, LockState.flipped]
    cases commit <;> exact hc
  have hst : (s.commitFlip d commit).lockSt = s.lockSt := h.rf not_offTm_lockStatus _
  have hlock := h.lock
  generalize s.commitFlip d commit = u at hch hst hlock
  obtain ⟨hl, hh, hs⟩ := lockShown_reads u commit
  have hk := ((lockKept_configStep (s := u.lockShown commit) hch (s.epoch + 1)).trans (lockKept_snapStep _ commit (s.epoch + 1))).trans (lockKept_healthStep _)
  have hul : (u.lockShown commit).lock = u.lock := rfl
  generalize u.lockShown commit = v at hl hh hs hk hul
  generalize ((v.configStep (s.epoch + 1)).snapStep commit (s.epoch + 1)).healthStep = w at hk
  have hw := hk.lock.trans (hul.trans hlock)
  exact ⟨n, b, congrArg (fun k : LockState => { k with committed := true }) hw, (hk.rf not_offTm_lockStatus _).trans hl, (hk.rf not_offTm_lockStatus _).trans hh,
    (hk.rf not_offTm_lockStatus _).trans (hs.trans hst)⟩

theorem commitStepsComplete : CommitStepsComplete := by
  intro d s hl hd hst hc hdr
  have hx : exec .lockCommitStep s = if s.lock.lateError = true then .next s.outOfStep else .next (s.lockSteps d) := by
    show execLockCommitStep s = _
    unfold execLockCommitStep
    rw [hd]
    dsimp only
    rw [if_neg (by simp [hl, hst, hc, hdr])]
  refine ⟨fun he ho hch => ?_, fun he => hx.trans (if_pos he)⟩
  obtain ⟨n, b, hlock, hlast, hholds, hlst⟩ := lockSteps_completes d hch
  refine ⟨s.lockSteps d, hx.trans (if_neg (by simp [he])), ?_, hholds, hlst.trans hst, fun hcom => ?_, fun hem => ?_⟩
  · rw [hlock]
  · rw [hlast, hlock, hcom]
    exact ⟨rfl, rfl, rfl⟩
  · rw [hlast, hlock, hem]
    exact ⟨rfl, rfl, rfl⟩

/-! ## A pound starts, and a lock ends (R65, R68, R76, R80, R81, R388) -/

/-- The lock machinery of a pound that starts. -/
def State.poundBegun (s : State) : LockState := { s.lock with
  extended := false, poundStart := s.lock.origin, votes := [], cut := false, cutCauses := 0, passed := [], decision := none, start := none,
  committed := false, causes := (if natBit 0 s.lock.cutCauses then 0 else s.lock.causes % 2) ||| (if s.lock.lateError then 2 else 0), ovr := false,
  lateError := false, emptied := false, imageWork := s.imageNow }

theorem poundStart_eq (s : State) : s.poundStart =
    ((({ s with lock := s.poundBegun, fleet := { s.fleet with losses := [] } } : State).startCores false).setLockSt 1).setVote 0 := rfl

/-- A pound starts in state POUND with no vote and no decision. -/
theorem poundStart_starts (s : State) : s.poundStart.lockSt = 1 ∧ s.poundStart.ownVote = 0 ∧ s.poundStart.lock = s.poundBegun := by
  rw [poundStart_eq]
  have h := lockKept_startCores { s with lock := s.poundBegun, fleet := { s.fleet with losses := [] } }
  generalize State.startCores _ false = u at h
  have hl : u.lock = s.poundBegun := h.lock
  unfold State.setLockSt State.setVote
  have hv : LockKept u (if u.running = true then u else u.syncPorts) := (LockKept.refl u).ite (lockKept_syncPorts u)
  generalize (if u.running = true then u else u.syncPorts) = v at hv
  refine ⟨?_, rf_wf_fits (by decide) (by decide), hv.lock.trans hl⟩
  exact (State.rf_wf_disjoint _ _ _ _ _ (by decide) (by decide)).trans (rf_wf_fits (by decide) (by decide))

theorem epoch_wrNextLock (s : State) (n : Nat) : (s.wrWide TM_NEXT_LOCK_0 2 n).epoch = s.epoch :=
  RegsBut.rdWide (RegsBut.wrWide (.refl s _) (List.Subset.refl _) n) (by decide)

theorem anchorReached_starts (hs : s.sched.isSome = true) (hst : s.lockSt = 0) (hn : s.lock.anchor ≤ s.now) (ha : s.fleet.adrift = false) :
    let u := s.wrWide TM_NEXT_LOCK_0 2 ((s.lock.anchor + s.poundNs) % 2 ^ 64)
    exec .anchorReached s = .next ((({ u with lock := { u.lock with origin := s.lock.anchor } } : State).seedPound (s.epoch + 1)).poundStart.endAllWaits 0x15 stOK) := by
  intro u
  have he : u.epochW = s.epoch + 1 := congrArg (· + 1) (epoch_wrNextLock s _)
  show execAnchorReached s = _
  unfold execAnchorReached
  rw [if_pos (by simp [hs, hst, hn, ha]), ← he]
  rfl

/-- A lock publishes the epoch and sets the next lock. -/
def State.published (s : State) : State :=
  (s.wrWide TM_EPOCH_0 2 (s.epoch + 1)).wrWide TM_NEXT_LOCK_0 2 ((s.nextLock + 20000 + s.poundNs) % 2 ^ 64)

theorem published_reads (s : State) : s.published.epoch = (s.epoch + 1) % 2 ^ 64 ∧ s.published.nextLock = (s.nextLock + 20000 + s.poundNs) % 2 ^ 64 :=
  ⟨(epoch_wrNextLock _ _).trans (rdWide_wrWide s TM_EPOCH_0 2 _), (nextLock_wrNextLock _ _).trans (Nat.mod_mod _ _)⟩

/-- A lock that has published its epoch forgets what is no longer retained, and the windows count from its end. -/
def State.forgets (s : State) (at_ : Nat) : State :=
  { s with lock := { s.lock with history := s.lock.history.take s.retainK, past := s.lock.past.filter (fun p => decide (s.epoch < p.epoch + p.keep)), origin := at_ } }

theorem forgets_reads (s : State) (at_ : Nat) : (s.forgets at_).epoch = s.epoch ∧ (s.forgets at_).nextLock = s.nextLock ∧ (s.forgets at_).lock.origin = at_ := ⟨rfl, rfl, rfl⟩

theorem poundNs_wrEpoch (s : State) (e : Nat) : (s.wrWide TM_EPOCH_0 2 e).poundNs = s.poundNs :=
  congrArg (· * 1000) (RegsBut.rf (RegsBut.wrWide (.refl s _) (List.Subset.refl (wordsAt TM_EPOCH_0 2)) e) (by decide) _)

theorem endLock_eq (s : State) (d : Decision) (t0 : Nat) : s.endLock d t0 =
    let r := (s.published.forgets (t0 + 20000)).poundStart.runDeferred
    (r.noteTimeLost.lockReport (if d.outcome = .commit then 0 else 1) (if d.outcome = .commit ∧ r.rf KP_FLEET_ID KP_FLEET_ID_DUTY = 0 then s.fleet.losses else [])).emptyAct
      s.lock.emptied := by
  unfold State.endLock
  dsimp only
  rw [poundNs_wrEpoch, ← State.published, ← State.forgets]
  simp only [Bool.and_eq_true, beq_iff_eq]

theorem lockEnd_completes {d : Decision} {t0 : Nat} (hl : s.lockLive = true) (hd : s.lock.decision = some d) (hs : s.lock.start = some t0) (hst : s.lockSt = 3)
    (hc : s.lock.committed = true) (hn : t0 + 20000 ≤ s.now) : exec .lockEnd s = .next (s.endLock d t0) := by
  show execLockEnd s = _
  unfold execLockEnd
  rw [hd, hs]
  exact if_pos (by simp [hl, hst, hc, hn])

theorem locksEndAfterTheirWindow : LocksEndAfterTheirWindow := by
  intro d t0 s hl hd hs hst hc hn w u r
  have hw : w = s.published := rfl
  have hu : u = w.forgets (t0 + 20000) := rfl
  obtain ⟨he, hnl⟩ := published_reads s
  obtain ⟨hfe, hfn, hfo⟩ := forgets_reads w (t0 + 20000)
  obtain ⟨hr, hv, hk⟩ := poundStart_starts u
  rw [← hw] at he hnl
  rw [← hu] at hfe hfn hfo
  have hx := (lockEnd_completes hl hd hs hst hc hn).trans (congrArg Host.Outcome.next (endLock_eq s d t0))
  rw [← hw, ← hu] at hx
  refine ⟨hx, hfe.trans he, hfn.trans hnl, hr, hv, ?_⟩
  have hlock : r.lock = u.poundBegun := hk
  rw [hlock, State.poundBegun]
  exact ⟨rfl, rfl, hfo, rfl⟩

end

/-- Settles O25: the anchor sets the next lock and seeds the pound, and a pound that starts shows POUND with no vote by `poundStart_starts`. -/
theorem anchorStartsThePound : Obligations.AnchorStartsThePound := by
  intro s hs hst hn ha u w r
  obtain ⟨hr, hv, hk⟩ := poundStart_starts (w.seedPound (s.epoch + 1))
  have hlock : r.lock = (w.seedPound (s.epoch + 1)).poundBegun := hk
  refine ⟨anchorReached_starts hs hst hn ha, (nextLock_wrNextLock s _).trans (Nat.mod_mod _ _), hr, hv, ?_, ?_⟩
  · rw [hlock]
    rfl
  · rw [hlock]
    rfl

/-- Settles O27: the commit step leaves the lock machinery alone but for its own change (`lockSteps_completes`), and the end publishes the epoch and starts a pound. -/
theorem locksCommitAndEnd : Obligations.LocksCommitAndEnd := ⟨commitStepsComplete, locksEndAfterTheirWindow⟩

end Sys2Proof.Machine
end
section
/-! PROOFS. Command rings: the status of the intake ports, doorbell and fetch, and what a ring's descriptors do (R83, R84, R307 to R319, R483). -/

namespace Sys2Proof.Machine

/-! ## Ports and rings -/

section
variable {s t u : State}

theorem port_setPort_same (s : State) (p : Nat) (k : Intake) : (s.setPort p k).port p = k := spGet_put_same ..

theorem port_setPort_other (s : State) {p q : Nat} (k : Intake) (h : q ≠ p) : (s.setPort p k).port q = s.port q := spGet_put_other _ _ _ h

theorem ring_setRing_same (s : State) (r : Nat) (l : List RingExec) : (s.setRing r l).ring r = l := spGet_put_same ..

theorem ring_setRing_other (s : State) {r x : Nat} (l : List RingExec) (h : x ≠ r) : (s.setRing r l).ring x = s.ring x := spGet_put_other _ _ _ h

/-- The status registers of the intake ports. -/
def intakeStatuses : List Nat := (List.range 16).map (fun p => WH_INTAKE_STATUS (p / 2) (p % 2))

/-- Nothing but the busy lines of the intake ports and the registers that show them has changed. -/
structure PortsShown (s t : State) : Prop where
  frame : t = { s with regs := t.regs, intake := t.intake }
  regs : RegsBut s t intakeStatuses
  ports : ∀ p, t.port p = { s.port p with low := (t.port p).low }

theorem PortsShown.refl (s : State) : PortsShown s s := ⟨rfl, .refl _ _, fun _ => rfl⟩

theorem PortsShown.trans (h : PortsShown s t) (h' : PortsShown t u) : PortsShown s u := by
  refine ⟨?_, h.regs.trans h'.regs, fun p => ?_⟩
  · rw [h'.frame, h.frame]
  · rw [h'.ports, h.ports]

theorem PortsShown.wf (h : PortsShown s t) {a : Nat} (ha : a ∈ intakeStatuses) (f : Fld) (v : Nat) : PortsShown s (t.wf a f v) :=
  h.trans ⟨rfl, (RegsBut.refl _ _).wf ha f v, fun _ => rfl⟩

theorem portsShown_low (s : State) (p : Nat) (b : Bool) : PortsShown s (s.setPort p { s.port p with low := b }) := by
  refine ⟨rfl, fun _ _ => rfl, fun q => ?_⟩
  by_cases h : q = p
  · rw [h, port_setPort_same]
  · rw [port_setPort_other _ _ h]

theorem portsShown_syncPort (s : State) {p : Nat} (hp : p < 16) : PortsShown s (s.syncPort p) := by
  have ha : WH_INTAKE_STATUS (p / 2) (p % 2) ∈ intakeStatuses := List.mem_map_of_mem (List.mem_range.2 hp)
  unfold State.syncPort
  dsimp only
  split
  · exact .refl s
  · exact (((portsShown_low s p _).wf ha _ _).wf ha _ _).wf ha _ _

theorem PortsShown.foldl {α : Type} {f : State → α → State} {l : List α} (hf : ∀ u x, x ∈ l → PortsShown u (f u x)) (h : PortsShown s t) :
    PortsShown s (l.foldl f t) := by
  induction l generalizing t with
  | nil => exact h
  | cons x l ih => exact ih (fun u y hy => hf u y (List.mem_cons_of_mem _ hy)) (h.trans (hf t x List.mem_cons_self))

theorem portsShown_syncRing (s : State) (r : Nat) : PortsShown s (s.syncRing r) :=
  (PortsShown.refl s).foldl fun u p hp => by
    split
    · exact portsShown_syncPort u (List.mem_range.1 hp)
    · exact .refl u

theorem kp_not_intake {n : Nat} (h : n < 0x10000) : kpBase + n ∉ intakeStatuses := by
  intro hm
  obtain ⟨p, _, hp⟩ := List.mem_map.1 hm
  unfold WH_INTAKE_STATUS whBase kpBase at hp
  omega

theorem ringReg_not_intake (r : Fin 16) {n : Nat} (h : n < 0x1000) : kpBase + n + 0x20 * r.val ∉ intakeStatuses := by
  rw [Nat.add_assoc]
  exact kp_not_intake (by omega)

/-! ## Doorbell, fetch and resume (R307, R311 to R314) -/

theorem target_doorbell {o : Nat} (h : o < 0x1000) : target (doorbellBase + o) = .reg .doorbell o := by
  rw [target_reg (by unfold doorbellBase; omega)]
  unfold regBlock
  rw [within?_none (by unfold doorbellBase kpBase; omega), within?_none (by unfold doorbellBase tmBase; omega),
    within?_none (by unfold doorbellBase pwBase; omega), within?_none (by unfold doorbellBase evBase; omega),
    within?_some (base := doorbellBase) (size := 0x1000) (by omega)]
  simp

/-- A doorbell of eight bytes past its checks. -/
theorem ringDoorbell_rings {m : Ident} (ring : Fin 16) (value : Dword) (h : PassesN s m (doorbellBase + 8 * ring.val) 8 true) :
    exec (.ringDoorbell m (BitVec.ofNat 12 (8 * ring.val)) 8 value) s
      = .next ((s.doorbell m (8 * ring.val) 8 value.toNat).2.reply (s.doorbell m (8 * ring.val) 8 value.toNat).1 []) := by
  obtain ⟨hf, hc⟩ := h
  have ho : (BitVec.ofNat 12 (8 * ring.val)).toNat = 8 * ring.val := by
    rw [BitVec.toNat_ofNat]
    exact Nat.mod_eq_of_lt (by omega)
  show Host.Outcome.next (s.busWrite m (doorbellBase + (BitVec.ofNat 12 (8 * ring.val)).toNat) (toBytes 8 value.toNat)) = _
  rw [ho, State.busWrite, resolve_local s (by unfold doorbellBase; omega)]
  dsimp only
  rw [if_neg (by simp), State.localWr, flushSends_none hf]
  dsimp only
  rw [target_doorbell (by omega), toBytes_length, ofBytes_toBytes, Nat.mod_eq_of_lt (by exact value.isLt)]
  dsimp only
  rw [if_neg (by omega), checkLocal_ok hc]
  rfl

theorem ringSlots_synced (s : State) (ring : Fin 16) (v : Nat) : ((s.wr (KP_RING_PROD ring) v).syncRing ring).ringSlots ring = s.ringSlots ring := by
  have h : ((s.wr (KP_RING_PROD ring) v).syncRing ring).rf (KP_RING_CFG ring) KP_RING_CFG_SIZE_LOG2 = s.rf (KP_RING_CFG ring) KP_RING_CFG_SIZE_LOG2 :=
    ((portsShown_syncRing _ _).regs.rf (ringReg_not_intake ring (n := 0x808) (by decide)) _).trans
      (State.rf_wr_other _ _ _ (by unfold KP_RING_PROD; omega))
  unfold State.ringSlots
  rw [h]

/-- An accepted doorbell moves PROD, and halts the ring where it announces more than the ring has slots. -/
theorem doorbell_accepted {m : Ident} (ring : Fin 16) (value : Nat) (ho : s.rf (KP_RING_OWNER ring) KP_RING_OWNER_OWNER = identWord m)
    (hen : s.rb (KP_RING_CFG ring) KP_RING_CFG_EN = true) (ha : s.ringAhead ring ≤ (natBits 0 32 value + 2 ^ 32 - s.rd (KP_RING_CONS ring)) % 2 ^ 32) :
    s.doorbell m (8 * ring.val) 8 value = (stOK, let u := (s.wr (KP_RING_PROD ring) (natBits 0 32 value)).syncRing ring
      if s.ringSlots ring < (natBits 0 32 value + 2 ^ 32 - s.rd (KP_RING_CONS ring)) % 2 ^ 32 then u.ringHalt ring stBOUNDS_FAULT else u) := by
  unfold State.doorbell
  dsimp only
  rw [if_neg (by omega), if_neg (by omega), Nat.mul_div_cancel_left _ (by decide), if_neg (by simpa [ho, hen] using ha), ringSlots_synced]

/-- A doorbell from another master, of a disabled ring or behind PROD is counted. -/
theorem doorbell_ignored {m : Ident} (ring : Fin 16) (value : Nat) (h : ¬s.rf (KP_RING_OWNER ring) KP_RING_OWNER_OWNER = identWord m
    ∨ ¬s.rb (KP_RING_CFG ring) KP_RING_CFG_EN = true ∨ (natBits 0 32 value + 2 ^ 32 - s.rd (KP_RING_CONS ring)) % 2 ^ 32 < s.ringAhead ring) :
    s.doorbell m (8 * ring.val) 8 value = (stOK, s.bumpF (KP_RING_STATUS ring) KP_RING_STATUS_IGNORED 1) := by
  unfold State.doorbell
  dsimp only
  rw [if_neg (by omega), if_neg (by omega), Nat.mul_div_cancel_left _ (by decide), if_pos (by simpa using h)]

/-- What the Keeper or an engine reads of memory that can be read. -/
theorem localGet_memory {m : Ident} {a n : Nat} {bs : List Byte} (hc : (s.checkLocal m a n false).1 = stOK) (hr : s.memRd a n = (stOK, bs, u)) :
    s.localGet m a n = (stOK, bs, u) := by
  unfold State.localGet
  have hreg : ∀ b o, target a ≠ .reg b o := fun b o ht => by
    rw [State.memRd, ht] at hr
    simp [stOK, stBOUNDS_FAULT] at hr
  split
  · exact absurd ‹_› (hreg _ _)
  · exact absurd ‹_› (hreg _ _)
  · rw [checkLocal_ok hc]
    dsimp only
    rw [if_neg (by decide), hr]
    rfl

/-- A fetch of a ring in the device's own memory. -/
theorem ringFetch_local {ring : Fin 16} {a : Nat} {bs : List Byte} (hrdy : s.ringReady ring = true)
    (hres : s.resolve (s.ringAddr ring (s.rd (KP_RING_CONS ring))) = some (s.devId, a)) (hc : (s.checkLocal (s.self 0xD00) a 64 false).1 = stOK)
    (hr : s.memRd a 64 = (stOK, bs, u)) : exec (.ringFetch ring none) s = .next (u.ringTake ring (ofBytes bs)) := by
  show execRingFetch ring none s = _
  unfold execRingFetch
  rw [if_neg (by simp [hrdy]), hres]
  dsimp only
  rw [if_pos rfl, localGet_memory hc hr]
  rfl

/-- A fetch of a ring on another device. -/
theorem ringFetch_far {ring : Fin 16} {dev a : Nat} (remote : Option (Byte × BitVec 512)) (hrdy : s.ringReady ring = true)
    (hres : s.resolve (s.ringAddr ring (s.rd (KP_RING_CONS ring))) = some (dev, a)) (hd : dev ≠ s.devId) :
    exec (.ringFetch ring remote) s = .next (s.ringFar ring (s.ringAddr ring (s.rd (KP_RING_CONS ring))) remote) := by
  show execRingFetch ring remote s = _
  unfold execRingFetch
  rw [if_neg (by simp [hrdy]), hres]
  exact if_neg hd

theorem ringFar_operand (r a : Nat) (v : BitVec 512) : s.ringFar r a (some (0#8, v)) = (s.remoteForget (s.self 0xD00) [(a, 64)]).ringTake r v.toNat := rfl

theorem ringFar_answered {a : Nat} {bs : List Byte} (r : Nat) (h : s.remoteGot (s.self 0xD00) a 64 = some (stOK, bs)) :
    s.ringFar r a none = (s.remoteForget (s.self 0xD00) [(a, 64)]).ringTake r (ofBytes bs) := by
  unfold State.ringFar
  dsimp only
  rw [h]
  rfl

theorem ringFar_asks {a : Nat} (r : Nat) (h : s.remoteGot (s.self 0xD00) a 64 = none) : s.ringFar r a none = s.remoteAsk (s.self 0xD00) 3 a 64 none := by
  unfold State.ringFar
  dsimp only
  rw [h]
  rfl

theorem ringResume_resumes {m : Ident} {ring : Fin 16} (h : Passes s m (KP_RING_CTRL ring) true) (hst : s.rf (KP_RING_STATUS ring) KP_RING_STATUS_STATE = 2) :
    exec (.ringResume m ring) s = .next ((s.wf (KP_RING_STATUS ring) KP_RING_STATUS_STATE 1).reply stOK []) := by
  obtain ⟨hf, hc⟩ := h
  have ha : KP_RING_CTRL ring = kpBase + (0x81C + 0x20 * ring.val) := Nat.add_assoc ..
  have ht : target (KP_RING_CTRL ring) = .reg .kp (0x81C + 0x20 * ring.val) := ha ▸ target_kp (by omega)
  have hw : s.regWrite m .kp (0x81C + 0x20 * ring.val) (1 % 2 ^ 32) = s.wf (KP_RING_STATUS ring) KP_RING_STATUS_STATE 1 := by
    have hr : (0x81C + 0x20 * ring.val - 0x800) / 0x20 = ring.val := by omega
    have hm : (0x81C + 0x20 * ring.val) % 0x20 = 0x1C := by omega
    show s.kpWrite m (0x81C + 0x20 * ring.val) 1 = _
    unfold State.kpWrite
    rw [if_neg (by omega), if_neg (by omega), if_neg (by omega), if_neg (by omega), if_neg (by omega), if_pos (by omega)]
    dsimp only
    rw [hr, hm, if_neg (by decide), if_pos rfl, State.ringCtrl, if_pos (by simp [hst, natBit])]
  exact congrArg Host.Outcome.next ((put32_reg (by rw [ha]; unfold kpBase; omega) ht (by simp) (by rw [ha]; unfold kpBase; omega) hc rfl (by simp) hf).trans (by rw [hw]))

theorem ringQueueCommandsComplete : RingQueueCommandsComplete := by
  intro m ring value s new ahead cmd
  refine ⟨fun hp => ⟨fun ho hen ha => ⟨fun hle => ?_, fun hlt => ?_⟩, fun h => ?_⟩, fun hrdy => ⟨fun a bs u hres hc hr => ringFetch_local hrdy hres hc hr, fun dev a hres hd => ?_⟩,
    fun hp hst => ringResume_resumes hp hst⟩
  · show exec (.ringDoorbell m _ 8 value) s = _
    rw [ringDoorbell_rings ring value hp, doorbell_accepted ring value.toNat ho hen ha]
    dsimp only
    rw [if_neg (Nat.not_lt.2 hle)]
  · show exec (.ringDoorbell m _ 8 value) s = _
    rw [ringDoorbell_rings ring value hp, doorbell_accepted ring value.toNat ho hen ha]
    dsimp only
    rw [if_pos hlt]
  · show exec (.ringDoorbell m _ 8 value) s = _
    rw [ringDoorbell_rings ring value hp, doorbell_ignored ring value.toNat h]
  · refine ⟨fun v => ?_, fun bs hg => ?_, fun hg => ?_⟩
    all_goals rw [ringFetch_far _ hrdy hres hd]
    · rw [ringFar_operand]
    · rw [ringFar_answered _ hg]
    · rw [ringFar_asks _ hg]

/-! ## Descriptors (R307 to R311) -/

/-- The descriptor that a fetch of `v` puts under the index `i`. -/
def fetchedDesc (i v : Nat) : RingExec := ⟨i, descWords v, false, none, false, none⟩

theorem fetchedDesc_op (i v : Nat) : (fetchedDesc i v).op = natBits 0 8 v := by
  show natBits 0 8 (natBits 0 64 v) = natBits 0 8 v
  unfold natBits
  omega

theorem fetchedDescriptorsStandInOrder : FetchedDescriptorsStandInOrder := by
  intro r v s hop t
  have ht : t = ((s.wr (KP_RING_CONS r) ((s.rd (KP_RING_CONS r) + 1) % 2 ^ 32)).setRing r
      (s.ring r ++ [fetchedDesc (s.rd (KP_RING_CONS r)) v])).syncRing r := by
    show s.ringTake r v = _
    unfold State.ringTake
    dsimp only
    rw [← fetchedDesc, if_pos (by rw [fetchedDesc_op]; exact hop)]
  generalize hw : s.wr (KP_RING_CONS r) ((s.rd (KP_RING_CONS r) + 1) % 2 ^ 32) = w at ht
  obtain ⟨hf, hregs, hports⟩ := portsShown_syncRing (w.setRing r (s.ring r ++ [fetchedDesc (s.rd (KP_RING_CONS r)) v])) r
  rw [← ht] at hf hregs hports
  have hrings (x : Nat) : t.ring x = (w.setRing r (s.ring r ++ [fetchedDesc (s.rd (KP_RING_CONS r)) v])).ring x := by rw [hf]; rfl
  have hwr : ∀ a, w.rd a = (s.wr (KP_RING_CONS r) ((s.rd (KP_RING_CONS r) + 1) % 2 ^ 32)).rd a := fun a => by rw [hw]
  refine ⟨(hrings r).trans (ring_setRing_same ..), ?_, fun x hx => ?_, ?_, fun p => ?_, ?_⟩
  · exact (hregs _ (ringReg_not_intake r (n := 0x814) (by decide))).trans ((hwr _).trans ((State.rd_wr_same ..).trans (Nat.mod_mod _ _)))
  · rw [hrings, ring_setRing_other _ _ hx, ← hw]
    rfl
  · exact fun a ha => (hregs a fun hm => ha (List.mem_cons_of_mem _ hm)).trans ((hwr a).trans (State.rd_wr_other _ _ fun he => ha (he ▸ List.mem_cons_self)))
  · rw [hports, ← hw]
    rfl
  · rw [hf, ← hw]
    rfl

theorem nop_completes {ring : Fin 16} {index : Word} {d : RingExec} (h : s.ringBegin ring index.toNat 0 = some d) : exec (.nop ring index) s = .next (s.ringComplete ring d stOK) := by
  show execNop ring index s = _
  unfold execNop
  rw [h]

/-- A SCHEDULE whose image can run, on an IDLE device. -/
theorem schedule_adopted {ring : Fin 16} {index : Word} {d : RingExec} {im : ScheduleImage} (h : s.ringBegin ring index.toNat 1 = some d)
    (hr : s.dmaRangeOk (s.self 0xD00) (d.word 2) (max 1 (natBits 0 32 (d.word 3))) false = true) (hst : s.lockSt = 0) (he : d.eb = false) (hb : s.schedBad im true = false) :
    exec (.schedule ring index im) s = .next (((s.measExtend 4 (digestBytes im.digest)).adoptSched im).afterRestore.ringComplete ring d stOK) := by
  show execSchedule ring index im s = _
  unfold execSchedule
  rw [h]
  dsimp only
  unfold State.ringSchedule
  simp only [hst, he]
  rw [if_neg (by simp), if_neg (by simp), if_neg (by simp [hr]), if_neg (by simp [hb]), if_pos (by simp)]

/-- A SCHEDULE whose image can run, on a running device. -/
theorem schedule_bound {ring : Fin 16} {index : Word} {d : RingExec} {im : ScheduleImage} (h : s.ringBegin ring index.toNat 1 = some d)
    (hr : s.dmaRangeOk (s.self 0xD00) (d.word 2) (max 1 (natBits 0 32 (d.word 3))) false = true) (h0 : s.lockSt ≠ 0) (h4 : s.lockSt ≠ 4) (he : d.eb = true)
    (hp : s.epochPast d.target = false) (hb : s.schedBad im false = false) :
    exec (.schedule ring index im) s = .next (((s.measExtend 4 (digestBytes im.digest)).bind d.target (.schedule im) (some (ring, d.index))).ringStart ring d) := by
  show execSchedule ring index im s = _
  unfold execSchedule
  rw [h]
  dsimp only
  unfold State.ringSchedule
  have h0 : (s.lockSt == 0) = false := beq_false_of_ne h0
  dsimp only
  rw [h0, he, if_neg (by simp [h4]), if_neg (by simp [hp]), if_neg (by simp [hr]), if_neg (by simp [hb]), if_neg (by simp)]

/-- A list that has arrived is read; else it is asked for. -/
theorem keeperReads_got {l : List (Nat × Nat)} {f : State → State} (h : s.allGot (s.self 0xD00) l = true) :
    s.keeperReads l f = if l.any (fun x => s.isRemote x.1) then (f s).remoteForget (s.self 0xD00) l else f s := by
  unfold State.keeperReads
  dsimp only
  rw [if_neg (by simp [h])]

theorem keeperReads_asks {l : List (Nat × Nat)} {f : State → State} (h : s.allGot (s.self 0xD00) l = false) :
    s.keeperReads l f = s.askAll (s.self 0xD00) 3 none l := by
  unfold State.keeperReads
  dsimp only
  rw [if_pos (by simp [h])]

/-- What a CONFIG does with its list once it may. -/
def State.configReads (s : State) (r : Nat) (d : RingExec) : State :=
  let (st, l, s) := s.configList (d.word 2) (natBits 0 16 (d.word 3))
  if st ≠ stOK then s.ringComplete r d st
  else if s.portsBad l then s.ringComplete r d stBAD_OPCODE
  else ((configChanges l).foldl (fun s c => s.bind d.target c (some (r, d.index))) s).ringStart r d

theorem config_reads {ring : Fin 16} {index : Word} {d : RingExec} (h : s.ringBegin ring index.toNat 2 = some d) (he : d.eb = true) (h0 : natBits 0 16 (d.word 3) ≠ 0)
    (hn : natBits 0 16 (d.word 3) ≤ 1024) (hp : s.epochPast d.target = false) :
    exec (.config ring index) s = .next (s.keeperReads (listPieces (d.word 2) (natBits 0 16 (d.word 3))) (fun s => s.configReads ring d)) := by
  show execConfig ring index s = _
  unfold execConfig
  rw [h]
  dsimp only
  unfold State.ringConfig
  dsimp only
  rw [if_neg (by simp [he, h0, hn]), if_neg (by simp [hp])]
  rfl

theorem configReads_good {r : Nat} {d : RingExec} {l : List (Nat × Nat)} (hl : s.configList (d.word 2) (natBits 0 16 (d.word 3)) = (stOK, l, u)) (hb : u.portsBad l = false) :
    s.configReads r d = ((configChanges l).foldl (fun s c => s.bind d.target c (some (r, d.index))) u).ringStart r d := by
  unfold State.configReads
  rw [hl]
  dsimp only
  rw [if_neg (by simp), if_neg (by simp [hb])]

theorem ringDescriptorsComplete : RingDescriptorsComplete := by
  intro ring index d s
  refine ⟨nop_completes, fun im h hr => ⟨schedule_adopted h hr, schedule_bound h hr⟩, fun l u => ?_⟩
  intro n places k h he h0 hn hp
  rw [config_reads h he h0 hn hp]
  refine ⟨fun hg hl hb => ?_, fun hg => congrArg Host.Outcome.next (keeperReads_asks hg)⟩
  rw [keeperReads_got hg, configReads_good hl hb]

/-! ## SERVE and COPY (R83, R84, R309 to R311, R319, R483) -/

/-- An answer of SERVE with the status `st`, from the state in which its request has been read. -/
def State.serveAnswers (s : State) (r : Nat) (d : RingExec) (st : Nat) (response : List Byte) : State :=
  (s.respond (s.replyTo d).2.2 (s.serveHeader d 2 st (d.epoch.getD s.epoch)) response).serveDone r d st

theorem serve_completes {ring : Fin 16} {index : Word} {d : RingExec} {response : List Byte} {st : Nat}
    (h : (s.ring ring).find? (fun d => d.index == index.toNat && d.op == 3 && d.served) = some d)
    (hr : s.requestRead ring d ((d.reqTotal + 64 + 63) / 64) = (st, u)) : exec (.serve ring index response) s =
      .next (let st' := if st = stOK ∧ !(d.epoch.all (fun e => u.retained e)) then stBOUNDS_FAULT else st
        u.serveAnswers ring d st' (if st' = stOK then response else [])) := by
  show execServe ring index response s = _
  unfold execServe
  rw [h]
  dsimp only
  rw [hr]
  rfl

/-- A COPY that may begin: its engine, and the state once that has been chosen. -/
theorem copy_begins {ring : Fin 16} {index : Word} {d : RingExec} (h : s.ringBegin ring index.toNat 4 = some d) (hst : s.lockSt ≠ 3) :
    exec (.copy ring index) s = .next ((if d.engine.isSome then s else s.draw.2).copyBy ring d (d.engine.getD (2048 + s.draw.1 % 128))) := by
  show execCopy ring index s = _
  unfold execCopy
  rw [h]
  dsimp only
  rw [if_neg hst, State.copyBegin]
  cases d.engine with
  | some e => rfl
  | none => rfl

theorem copyBy_asks {r e : Nat} {d : RingExec} (h : s.allGot (s.engineId e) (s.copyRemote d) = false) :
    s.copyBy r d e = (s.askAll (s.engineId e) 2 (if d.eb then some d.target else none) (s.copyRemote d)).ringSet r { d with engine := some e } := if_pos (by simp [h])

theorem copyBy_moves {r e st : Nat} {d : RingExec} (h : s.allGot (s.engineId e) (s.copyRemote d) = true) (hm : s.copyMove e d = (st, u)) :
    s.copyBy r d e = if ((s.copyMoved u e (s.copyRemote d)).engine e).remote = 0 ∨ st ≠ stOK
      then ((s.copyMoved u e (s.copyRemote d)).copyCount e st).ringComplete r d st
      else (s.copyMoved u e (s.copyRemote d)).ringSet r { d with begun := true, engine := some e } := by
  unfold State.copyBy
  dsimp only
  rw [if_neg (by simp [h]), hm]

theorem copy_ends {ring : Fin 16} {index : Word} {d : RingExec} {e : Nat} (hn : s.ringBegin ring index.toNat 4 = none)
    (h : (s.ring ring).find? (fun d => d.index == index.toNat && d.op == 4 && d.begun) = some d) (he : d.engine = some e) (h0 : (s.engine e).remote = 0) :
    exec (.copy ring index) s = .next (((s.setEngine e { s.engine e with worst := stOK_EMPTY }).copyCount e (stWorst stOK (s.engine e).worst)).ringComplete ring d
      (stWorst stOK (s.engine e).worst)) := by
  show execCopy ring index s = _
  unfold execCopy
  rw [hn]
  dsimp only
  rw [h]
  dsimp only
  rw [he]
  exact congrArg Host.Outcome.next (if_neg (by simp [h0]))

theorem serveAndCopyComplete : ServeAndCopyComplete := by
  intro ring index d s
  refine ⟨fun response st u h hr => ?_, fun h hst => ?_, fun e hn h he h0 => copy_ends hn h he h0⟩
  · intro e p
    rw [serve_completes h hr]
    refine ⟨fun hok hret => ?_, fun hok hret => ?_, fun hbad => ?_⟩
    · simp only [hok, hret]
      rfl
    · simp only [hok, hret]
      rfl
    · simp only [hbad, false_and, if_false]
      rfl
  · intro e w far
    have hx : exec (.copy ring index) s = .next (w.copyBy ring d e) := copy_begins h hst
    rw [hx]
    refine ⟨fun hg => congrArg Host.Outcome.next (copyBy_asks hg), fun st u hg hm => ?_⟩
    rw [copyBy_moves hg hm]
    refine ⟨fun hend => congrArg Host.Outcome.next (if_pos hend), fun hrem hok => congrArg Host.Outcome.next (if_neg fun hc => hc.elim hrem fun hb => hb hok)⟩

end

/-- Settles O36: the doorbell, fetch and resume of a ring by what each does past its checks, and each descriptor's command by the branch it takes. -/
theorem ringCommandsComplete : Obligations.RingCommandsComplete :=
  ⟨ringQueueCommandsComplete, fetchedDescriptorsStandInOrder, ringDescriptorsComplete, serveAndCopyComplete⟩

end Sys2Proof.Machine
end
section
/-! PROOFS. The serving intake: fragments, its own events, admission at a serving slot, and what an epoch that is not retained leaves a reader (R83, R84, R91, R310, R317 to R321). -/

namespace Sys2Proof.Machine

/-! ## Fragments (R318 to R320) -/

section
variable {s t u : State} {p : Nat} {h : ServeHeader} {data : List Byte}

theorem addFragment_duplicate {x : Reassembly} (hx : x.fidx.contains h.fidx.toNat = true) : s.addFragment p x h data = s := if_pos hx

theorem addFragment_new {x : Reassembly} {bs : List Byte} (hx : x.fidx.contains h.fidx.toNat = false) (hf : s.fresh x h.offset.toNat data = (bs, u)) :
    s.addFragment p x h data = let y := { x with frags := x.frags ++ [(h.offset.toNat, bs)], fidx := x.fidx ++ [h.fidx.toNat] }
      if y.complete then u.reassembled p y else u.setPort p { u.port p with reasm := (u.port p).reasm.map (fun z => if z.of h then y else z) } := by
  unfold State.addFragment
  rw [if_neg (by rw [hx]; simp), hf]

/-- The port, its reassemblies or its pool leave no room for a request of `n` bytes. -/
def State.noRoom (s : State) (p n : Nat) : Prop := s.portRbLow p = true ∨ 1024 ≤ (s.port p).reasm.length ∨ s.poolFree p < n

theorem noRoom_iff {n : Nat} : (s.portRbLow p || decide (1024 ≤ (s.port p).reasm.length) || decide (s.poolFree p < n)) = true ↔ s.noRoom p n := by
  simp [State.noRoom, or_assoc]

theorem firstFragment_busy (hb : s.noRoom p (poolBytes h.total.toNat)) : s.firstFragment p h data = s.busyReply p h := by
  unfold State.firstFragment
  generalize poolBytes h.total.toNat = n at hb ⊢
  exact if_pos (noRoom_iff.2 hb)

theorem firstFragment_unplaced (hb : ¬s.noRoom p (poolBytes h.total.toNat)) (hp : s.poolPlace p (poolBytes h.total.toNat) = (none, u)) :
    s.firstFragment p h data = u.busyReply p h := by
  unfold State.firstFragment
  generalize poolBytes h.total.toNat = n at hb hp ⊢
  refine (if_neg (mt noRoom_iff.1 hb)).trans ?_
  rw [hp]

theorem firstFragment_reserves {b : Nat} (hb : ¬s.noRoom p (poolBytes h.total.toNat)) (hp : s.poolPlace p (poolBytes h.total.toNat) = (some b, u)) :
    s.firstFragment p h data = let x : Reassembly := ⟨h.srcAddr.toNat, h.srcPort.toNat, h.reqId.toNat, u.now, h, [], [], b, poolBytes h.total.toNat⟩
      ((u.setPort p { u.port p with reasm := (u.port p).reasm ++ [x], pool := (u.port p).pool ++ [(b, poolBytes h.total.toNat)] }).syncPort p).addFragment p x h data := by
  unfold State.firstFragment
  generalize poolBytes h.total.toNat = n at hb hp ⊢
  refine (if_neg (mt noRoom_iff.1 hb)).trans ?_
  rw [hp]

/-- Whether the request of a header has been refused at a port. -/
def State.refusedAt (s : State) (p : Nat) (h : ServeHeader) : Bool :=
  (s.port p).refused.any (fun x => (x.1, x.2.1, x.2.2.1) == (h.srcAddr.toNat, h.srcPort.toNat, h.reqId.toNat))

section
variable {port : PortId} (hi : s.intakeOn port.val = true) (hp : s.portOn port.val = true) (hr : ¬s.refusedAt port.val h = true)
include hi hp hr

theorem intakeFragment_bad (hst : s.fragmentStatus port.val h ≠ stOK) :
    exec (.intakeFragment port h data) s = .next (s.refusal port.val h (s.fragmentStatus port.val h)) := by
  show execIntakeFragment port h data s = _
  unfold execIntakeFragment
  dsimp only
  rw [if_neg (by simp [hi, hp]), ← State.refusedAt, if_neg hr, if_pos hst]

theorem intakeFragment_known {x : Reassembly} (hst : s.fragmentStatus port.val h = stOK) (hf : (s.port port.val).reasm.find? (fun x => x.of h) = some x) :
    exec (.intakeFragment port h data) s = .next (s.addFragment port.val x h data) := by
  show execIntakeFragment port h data s = _
  unfold execIntakeFragment
  dsimp only
  rw [if_neg (by simp [hi, hp]), ← State.refusedAt, if_neg hr, if_neg (not_not.2 hst), hf]

theorem intakeFragment_first (hst : s.fragmentStatus port.val h = stOK) (hf : (s.port port.val).reasm.find? (fun x => x.of h) = none) :
    exec (.intakeFragment port h data) s = .next (s.firstFragment port.val h data) := by
  show execIntakeFragment port h data s = _
  unfold execIntakeFragment
  dsimp only
  rw [if_neg (by simp [hi, hp]), ← State.refusedAt, if_neg hr, if_neg (not_not.2 hst), hf]

end

theorem intakeFragment_refused {port : PortId} (hi : s.intakeOn port.val = true) (hp : s.portOn port.val = true) (hr : s.refusedAt port.val h = true) :
    exec (.intakeFragment port h data) s = .next s := by
  show execIntakeFragment port h data s = _
  unfold execIntakeFragment
  dsimp only
  rw [if_neg (by simp [hi, hp])]
  exact if_pos hr

theorem fragmentsComplete : FragmentsComplete := by
  intro port h data s p k cmd refused hi hp
  refine ⟨fun hr => intakeFragment_refused hi hp hr, fun hr => ?_⟩
  intro st
  refine ⟨fun hst => intakeFragment_bad hi hp hr hst, fun x hst hf => ?_, fun hst hf => ?_⟩
  · have hx : exec cmd s = _ := intakeFragment_known hi hp hr hst hf
    rw [hx]
    refine ⟨fun hd => congrArg Host.Outcome.next (addFragment_duplicate hd), fun bs u hd hfr => ?_⟩
    intro y
    dsimp only
    rw [addFragment_new hd hfr]
    exact ⟨fun hc => congrArg Host.Outcome.next (if_pos hc), fun hc => congrArg Host.Outcome.next (if_neg (ne_true_of_eq_false hc))⟩
  · have hx : exec cmd s = _ := intakeFragment_first hi hp hr hst hf
    rw [hx]
    intro n busy
    exact ⟨fun hb => congrArg Host.Outcome.next (firstFragment_busy hb), fun b u hb hpl => congrArg Host.Outcome.next (firstFragment_reserves hb hpl),
      fun u hb hpl => congrArg Host.Outcome.next (firstFragment_unplaced hb hpl)⟩

/-! ## The intake's own events (R91, R318) -/

theorem intakeExpiry_expires {port : PortId} {a : BitVec 128} {c : BitVec 16} {id : Dword} {x : Reassembly}
    (hf : (s.port port.val).reasm.find? (fun x => x.client == a.toNat && x.clientPort == c.toNat && x.reqId == id.toNat) = some x) (hx : x.first + 10000000 ≤ s.now) :
    exec (.intakeExpiry port a c id) s = .next ((s.discard port.val x.header).bump (WH_INTAKE_EXPIRED (port.val / 2) (port.val % 2)) 1) := by
  show execIntakeExpiry port a c id s = _
  unfold execIntakeExpiry
  dsimp only
  rw [hf]
  exact if_pos hx

/-! ## Admission at a serving slot (R91, R310, R319) -/

/-- Rings with nothing in them have nothing to admit. -/
theorem slotRings_empty {q : Nat} {l : List Nat} (hl : ∀ x ∈ l, s.ring x = []) :
    l.foldl (fun (x : Nat × State) r => x.2.slotRing p r x.1 (x.2.ring r)) (q, s) = (q, s) := by
  induction l with
  | nil => rfl
  | cons r l ih =>
    rw [List.foldl_cons]
    dsimp only
    rw [hl r List.mem_cons_self]
    exact ih fun x hx => hl x (List.mem_cons_of_mem _ hx)

/-- A slot at which one ring alone holds a request, and what it does there leaves the other rings empty. -/
theorem slotRings_one {q q' : Nat} (r : Fin 16) (hn : ∀ x, x ≠ r.val → s.ring x = []) (hr : s.slotRing p r q (s.ring r) = (q', u)) (hu : ∀ x, x ≠ r.val → u.ring x = []) :
    (List.range 16).foldl (fun (x : Nat × State) r => x.2.slotRing p r x.1 (x.2.ring r)) (q, s) = (q', u) := by
  obtain ⟨l, l', hl⟩ := List.append_of_mem (List.mem_range.2 r.isLt)
  have hd : (l ++ r.val :: l').Nodup := hl ▸ List.nodup_range
  obtain ⟨hnl, hnl'⟩ : r.val ∉ l ∧ r.val ∉ l' := by
    rw [List.nodup_middle, List.nodup_cons, List.mem_append, not_or] at hd
    exact hd.1
  rw [hl, List.foldl_append, slotRings_empty fun x hx => hn x (ne_of_mem_of_not_mem hx hnl), List.foldl_cons]
  dsimp only
  rw [hr]
  exact slotRings_empty fun x hx => hu x (ne_of_mem_of_not_mem hx hnl')

theorem ringBegin_only {r i op : Nat} {d : RingExec} (hr : s.ring r = [d]) (hi : d.index = i) (ho : d.op = op) (hb : d.begun = false) : s.ringBegin r i op = some d := by
  unfold State.ringBegin
  rw [hr]
  simp [hi, ho, hb]

/-- The one request of a ring at a slot of its port: it waits for want of quota, or is admitted or refused. -/
theorem slotRing_only {r q : Nat} {d : RingExec} (hr : s.ring r = [d]) (ho : d.op = 3) (hs : d.served = false) (hb : d.begun = false) (hp : (s.replyTo d).2.2 = p) :
    s.slotRing p r q [d] = if d.reqClass = 0 ∧ q = 0 then (q, (s.setPort p { s.port p with waited := (s.port p).waited + 1 }).ringSet r { d with begun := true })
      else (if d.reqClass = 0 then q - 1 else q, s.admitServe r d) := by
  have hm : (d.op == 3 && !d.served && (s.replyTo d).2.2 == p && (d.begun || (s.ringBegin r d.index 3).isSome)) = true := by
    rw [ringBegin_only hr rfl ho hb]
    simp [ho, hs, hp]
  rw [State.slotRing]
  dsimp only
  rw [hm, if_neg (by simp)]
  rfl

/-- The slot of a port begins. -/
theorem servingSlotStart_begins {port : PortId} {im : ScheduleImage} (hs : s.sched = some im) (hd : s.slotDue port = true) :
    exec (.servingSlotStart port) s = .next ((List.range 16).foldl (fun (x : Nat × State) r => x.2.slotRing port r x.1 (x.2.ring r))
      (im.quota, s.setPort port { s.port port with slotAt := s.now + 1 })).2 := by
  show execServingSlotStart port s = _
  unfold execServingSlotStart
  rw [hs]
  dsimp only
  rw [if_neg (by simp [hd])]
  rfl

theorem admitServe_admits {r : Nat} {d : RingExec} (hr : (s.requestRead r d 1).1 = stOK) (hp : (s.planOf d.reqPlan).isSome = true) (he : s.retained (s.bindEpoch d) = true) :
    s.admitServe r d = s.ringSet r { d with begun := true, served := true, epoch := some (s.bindEpoch d) } := by
  unfold State.admitServe
  dsimp only
  have hp : (s.planOf d.reqPlan).isNone = false := by simpa using hp
  rw [if_neg (by simp [hr]), hp, he]
  rfl

theorem ring_ringSet_other {r x : Nat} (d : RingExec) (hx : x ≠ r) : (s.ringSet r d).ring x = s.ring x := ring_setRing_other _ _ hx

theorem intakeServicesComplete : IntakeServicesComplete := by
  intro port s p
  refine ⟨fun a c id x => intakeExpiry_expires, fun a c id => ⟨_, rfl, rfl, port_setPort_same .., fun q hq => port_setPort_other _ _ hq⟩, ?_⟩
  intro r d im hs hd hr hn ho hsv hb hp u
  rw [servingSlotStart_begins hs hd]
  have hru : u.ring r = [d] := hr
  have hnu : ∀ x, x ≠ r.val → u.ring x = [] := hn
  have hone (q : Nat) := slotRing_only (q := q) hru ho hsv hb (show (u.replyTo d).2.2 = p from hp)
  refine ⟨fun hc hq => ?_, fun hc hrd hpl hret => ?_⟩
  · have hw := (hone im.quota).trans (if_pos ⟨hc, hq⟩)
    refine congrArg (fun x : Nat × State => Host.Outcome.next x.2) (slotRings_one r hnu (hru.symm ▸ hw) ?_)
    exact fun x hx => (ring_ringSet_other _ hx).trans (hnu x hx)
  · have hw := (hone im.quota).trans (if_neg fun h => absurd (hc h.1) (by omega))
    rw [admitServe_admits hrd hpl hret] at hw
    refine congrArg (fun x : Nat × State => Host.Outcome.next x.2) (slotRings_one r hnu (hru.symm ▸ hw) ?_)
    exact fun x hx => (ring_ringSet_other _ hx).trans (hnu x hx)

end

/-- Settles O37: a fragment by the branch that its request and the port's room select, and a serving slot with one request in the rings by `slotRings_one`. -/
theorem intakeCommandsComplete : Obligations.IntakeCommandsComplete := ⟨fragmentsComplete, intakeServicesComplete⟩

end Sys2Proof.Machine
end
section
/-! PROOFS. Transactions that arrive over a link, and Ethernet frames (R83, R335, R350, R374, R375, R386). -/

namespace Sys2Proof.Machine

/-! ## Arrival (R350) -/

section
variable {s t u : State} {h : Head}

/-- A transaction for this device, on a link that accepts it, is taken. -/
theorem arriveTx_taken {p b op cls : Nat} {cls3 : Bool} {data : List Byte} {f : State → State} (ha : Arrives s p b op cls3 h) :
    s.arriveTx p b op cls cls3 h data f = f s := by
  obtain ⟨hl, hg, ho, hacc, hd⟩ := ha
  unfold State.arriveTx
  rw [if_neg (by simp [hl]), if_neg (by simp [hg]), if_neg (by simp [ho]), if_neg (by simp [hacc]), if_neg (by simpa using hd)]

theorem answerTx_read (ho : h.op.toNat = 1) (s : State) (st : Nat) (data : List Byte) : s.answerTx h st data = s.sendResponse h 2 txResponse st data := by
  unfold State.answerTx
  rw [ho]
  rfl

theorem answerTx_write (ho : h.op.toNat = 2 ∨ h.op.toNat = 3) (s : State) (st : Nat) (data : List Byte) : s.answerTx h st data = s.sendResponse h 2 txAck st data := by
  unfold State.answerTx
  rcases ho with ho | ho
  all_goals
    rw [ho]
    rfl

theorem answerTx_doorbell (ho : h.op.toNat = 4) (s : State) (st : Nat) (data : List Byte) : s.answerTx h st data = s.sendResponse h 3 txAck st data := by
  unfold State.answerTx
  rw [ho]
  rfl

/-! ## Reads, writes and doorbells for another device (R83, R311, R350) -/

theorem read_served {port : PortId} {sub : SubId} {size st a : Nat} {bs : List Byte} (ha : headLocal h = some a) (hv : Arrives s port sub 1 true h)
    (he : ∀ e : Nat, boundTo h = some e → s.retained e = true) (hr : s.readRun h.src (s.boundAddr (boundTo h) a) (pieces size) = (st, bs, u)) :
    exec (.read port sub h size) s = .next (u.sendResponse h 2 txResponse st (if stInformational st then bs else [])) := by
  have hret : (boundTo h).any (fun e => !s.retained e) = false := by
    cases hb : boundTo h with
    | none => rfl
    | some e => simp [he e hb]
  show Host.Outcome.next (s.arriveTx port sub 1 2 true h [] (fun s => s.serveRead h size)) = _
  rw [arriveTx_taken hv, State.serveRead, ha]
  dsimp only
  rw [← boundTo, hret, if_neg (by simp), hr]
  exact congrArg Host.Outcome.next (answerTx_read hv.2.2.1 _ _ _)

theorem serveWrite_answers {p b a st : Nat} {data : List Byte} (ha : headLocal h = some a) (hw : s.writeRun h.src a data (pieces data.length) = (some st, u)) :
    s.serveWrite p b h data = u.answerTx h st [] := by
  rw [State.serveWrite, ha]
  dsimp only
  rw [hw]

theorem write_served {port : PortId} {sub : SubId} {a st : Nat} {data : List Byte} (ha : headLocal h = some a) (hv : Arrives s port sub 2 true h)
    (hw : s.writeRun h.src a data (pieces data.length) = (some st, u)) : exec (.write port sub h data) s = .next (u.sendResponse h 2 txAck st []) := by
  show Host.Outcome.next (s.arriveTx port sub 2 2 true h data (fun s => s.serveWrite port sub h data)) = _
  rw [arriveTx_taken hv, serveWrite_answers ha hw, answerTx_write (.inl hv.2.2.1)]

theorem msop_served {port : PortId} {sub : SubId} {a st : Nat} {x : BitVec 512} (ha : headLocal h = some a) (hv : Arrives s port sub 3 true h)
    (hm : s.msop h.src a (natBits 0 3 h.msop.toNat) (natBits 3 2 h.msop.toNat) x.toNat = (st, u)) :
    exec (.memorySideOperation port sub h x) s = .next (u.sendResponse h 2 txAck st []) := by
  show Host.Outcome.next (s.arriveTx port sub 3 2 true h (toBytes 64 x.toNat) _) = _
  rw [arriveTx_taken hv, ha]
  dsimp only
  rw [hm]
  exact congrArg Host.Outcome.next (answerTx_write (.inr hv.2.2.1) _ _ _)

/-- A check that fails has a status that is an error. -/
theorem checkLocal_status (s : State) (m : Ident) (a n : Nat) (w : Bool) : (s.checkLocal m a n w).1 = stOK ∨ stInformational (s.checkLocal m a n w).1 = false := by
  unfold State.checkLocal
  dsimp only
  repeat' split
  all_goals
    dsimp only
    decide

theorem doorbell_status (s : State) (m : Ident) (off size value : Nat) : (s.doorbell m off size value).1 = stOK ∨ stInformational (s.doorbell m off size value).1 = false := by
  unfold State.doorbell
  dsimp only
  repeat' split
  all_goals
    dsimp only
    decide

/-- The status of a write of the doorbell page: OK, or an error. -/
theorem localWr_doorbell_status {m : Ident} {a o st : Nat} {bs : List Byte} (ht : target a = .reg .doorbell o) (hw : s.localWr m a bs = (some st, u)) :
    st = stOK ∨ stInformational st = false := by
  unfold State.localWr at hw
  rw [ht] at hw
  dsimp only at hw
  split at hw
  · obtain ⟨hst, -⟩ := Prod.mk.inj hw
    obtain rfl := Option.some.inj hst
    exact .inr rfl
  · split at hw
    · obtain ⟨hst, -⟩ := Prod.mk.inj hw
      obtain rfl := Option.some.inj hst
      exact checkLocal_status ..
    · obtain ⟨hst, -⟩ := Prod.mk.inj hw
      obtain rfl := Option.some.inj hst
      exact doorbell_status ..

/-- A doorbell of eight bytes is one write. -/
theorem writeRun_doorbell {m : Ident} {a o st : Nat} {value : Nat} (ht : target a = .reg .doorbell o) (hw : s.localWr m a (toBytes 8 value) = (some st, u)) :
    s.writeRun m a (toBytes 8 value) (pieces (toBytes 8 value).length) = (some st, u) := by
  have hd : ((toBytes 8 value).drop 0).take 8 = toBytes 8 value := List.take_of_length_le (by simp)
  rw [toBytes_length, show pieces 8 = [(0, 8)] from rfl, State.writeRun, hd, Nat.add_zero, hw]
  dsimp only
  rcases localWr_doorbell_status ht hw with rfl | hst
  · rfl
  · rw [hst]
    rfl

theorem doorbell_served {port : PortId} {sub : SubId} {a o st : Nat} {value : Dword} (ha : headLocal h = some a) (hv : Arrives s port sub 4 true h)
    (ht : target a = .reg .doorbell o) (hw : s.localWr h.src a (toBytes 8 value.toNat) = (some st, u)) :
    exec (.doorbell port sub h value) s = .next (u.sendResponse h 3 txAck st []) := by
  show Host.Outcome.next (s.arriveTx port sub 4 3 true h (toBytes 8 value.toNat) _) = _
  rw [arriveTx_taken hv, ha, Option.map_some, ht]
  dsimp only
  rw [serveWrite_answers ha (writeRun_doorbell ht hw), answerTx_doorbell hv.2.2.1]

theorem mailboxSend_queued {port : PortId} {sub : SubId} {a : Nat} {message : BitVec 128} (ha : headLocal h = some a) (hv : Arrives s port sub 5 false h) :
    exec (.mailboxSend port sub h message) s = .next { s with sends := s.sends ++ [⟨h.src, a, message, none, some (8 * port.val + sub.val, h)⟩] } := by
  show Host.Outcome.next (s.arriveTx port sub 5 0 false h (toBytes 16 message.toNat) _) = _
  rw [arriveTx_taken hv, ha]

theorem takeResponse_ends {p b : Nat} {data : List Byte} (ho : s.outstandingOn h.tid.toNat = some (p, b)) : s.takeResponse h data =
    (s.modSub p b (fun k => { k with outstanding := k.outstanding.erase h.tid.toNat })).completeRemote h.tid.toNat h.status.toNat data := by
  unfold State.takeResponse
  dsimp only
  rw [ho]

theorem requestCommandsComplete : RequestCommandsComplete := by
  intro port sub h s
  refine ⟨fun a ha => ⟨fun size st bs u hv he hr => read_served ha hv he hr, fun data st u hv hw => write_served ha hv hw, fun x st u hv hm => msop_served ha hv hm,
    fun o value st u hv ht hw => doorbell_served ha hv ht hw, fun message hv => mailboxSend_queued ha hv⟩, fun p b data ho => ⟨fun hv => ?_, fun hv => ?_⟩⟩
  · show Host.Outcome.next (s.arriveTx port sub 6 2 true h data _) = _
    rw [arriveTx_taken hv, takeResponse_ends ho]
  · show Host.Outcome.next (s.arriveTx port sub 7 2 true h [] _) = _
    rw [arriveTx_taken hv, takeResponse_ends ho]

/-! ## Forwarding (R386) -/

/-- The request that went out at a sub-port has been answered there. -/
def State.answeredAt (s : State) (p b : Nat) (h : Head) : State :=
  s.modSub p b (fun k => { k with fwd := k.fwd.filter (fun x => isRequest h.op.toNat || x.tid != h.tid || x.src.dev.toNat != headDev h) })

theorem forward_forwards {port : PortId} {sub : SubId} {cls : BitVec 2} {data : List Byte} (hl : s.linkTalks port sub = true) (hg : headGood h = true)
    (hacc : s.acceptsTx port sub h (cls == 3#2) = true) (hf : s.inFleet = true) (hd : headDev h ≠ s.devId) :
    exec (.forward port sub cls h data) s = .next (s.forwardTx port sub cls.toNat h data) := by
  show Host.Outcome.next (s.arriveTx port sub h.op.toNat cls.toNat (cls == 3#2) h data id) = _
  unfold State.arriveTx
  rw [if_neg (by simp [hl]), if_neg (by simp [hg]), if_neg (by simp), if_neg (by simp [hacc]), if_pos (by simp [hf, hd])]

/-- A transaction whose route's link carries its class leaves on it. -/
theorem forwardTx_leaves {p b cls q e : Nat} {data : List Byte} (ha : s.fleet.adrift = false) (hr : s.egress (headDev h) = some (q, e))
    (hst : s.linkSt q e = 3 ∨ (s.linkSt q e = 4 ∧ (cls = 0 ∨ cls = 3))) (hne : q ≠ p ∨ e ≠ b) :
    s.forwardTx p b cls h data = { s.answeredAt p b h with tx := s.tx ++ [forwarded cls h data] } := by
  unfold State.forwardTx
  dsimp only
  rw [← State.answeredAt, show (s.answeredAt p b h).egress (headDev h) = some (q, e) from hr]
  dsimp only
  have hl : (s.answeredAt p b h).linkSt q e = s.linkSt q e := rfl
  have had : (s.answeredAt p b h).fleet.adrift = false := ha
  have hback : (q == p && e == b) = false := by
    rcases hne with hq | he
    · simp [hq]
    · simp [he]
  rw [hl, had, hback]
  rcases hst with hst | ⟨hst, hc⟩
  · rw [hst]
    rfl
  · rw [hst]
    rcases hc with rfl | rfl
    · rfl
    · rfl

theorem forwardTx_dropped {p b cls : Nat} {data : List Byte} (hr : s.egress (headDev h) = none) :
    s.forwardTx p b cls h data = ((s.answeredAt p b h).bump KP_FWD_DROP 1).answerTx h stBUS_FAULT [] := by
  unfold State.forwardTx
  dsimp only
  rw [← State.answeredAt, show (s.answeredAt p b h).egress (headDev h) = none from hr]

/-! ## Ethernet frames (R374, R375) -/

section
variable {port : PortId} {iface : Fin 2} {f : EthFrame} {good : Bool}

theorem ethFrame_unguarded (hl : s.linkSt port iface = 6) (he : s.ethPort port = true) (hg : ¬(s.rb (LK_ETH_CFG port iface) LK_ETH_CFG_MSEC = true ∧ f.kind ≠ .ptp)) :
    exec (.ethFrame port iface f good) s = .next (s.takeFrame port iface f) := by
  show execEthFrame port iface f good s = _
  unfold execEthFrame
  rw [if_neg (by simp [hl, he]), if_neg hg]

theorem ethFrame_untagged (hl : s.linkSt port iface = 6) (he : s.ethPort port = true) (hg : s.rb (LK_ETH_CFG port iface) LK_ETH_CFG_MSEC = true ∧ f.kind ≠ .ptp)
    (hn : f.sec.bind (s.macsecTake port iface good) = none) : exec (.ethFrame port iface f good) s = .next (s.bump (LK_ETH_MSEC_FAIL port iface) 1) := by
  show execEthFrame port iface f good s = _
  unfold execEthFrame
  rw [if_neg (by simp [hl, he]), if_pos hg, hn]

theorem ethFrame_tagged (hl : s.linkSt port iface = 6) (he : s.ethPort port = true) (hg : s.rb (LK_ETH_CFG port iface) LK_ETH_CFG_MSEC = true ∧ f.kind ≠ .ptp)
    (hz : f.sec.bind (s.macsecTake port iface good) = some u) : exec (.ethFrame port iface f good) s = .next (u.takeFrame port iface f) := by
  show execEthFrame port iface f good s = _
  unfold execEthFrame
  rw [if_neg (by simp [hl, he]), if_pos hg, hz]

theorem takeFrame_dropped {p i : Nat} (hm : s.frameMine p i f = false) : s.takeFrame p i f = s.bump (LK_ETH_DROP p i) 1 := if_pos (by simp [hm])

theorem takeFrame_taken {p i : Nat} (hm : s.frameMine p i f = true) : s.takeFrame p i f =
    if f.kind = .neighbourOrEcho ∧ !s.boot.keeperDown then (s.bump (LK_ETH_RX p i) 1).sendFrame p i .icmpAnswer else s.bump (LK_ETH_RX p i) 1 := if_neg (by simp [hm])

end

theorem forwardingAndFramesComplete : ForwardingAndFramesComplete := by
  intro port sub s
  refine ⟨fun cls h data hl hg hacc hf hd ha => ?_, fun iface f good hl he => ?_⟩
  · intro w
    rw [forward_forwards hl hg hacc hf hd]
    refine ⟨fun q e hr hst hne => congrArg Host.Outcome.next (forwardTx_leaves ha hr (hst.imp_right fun hc => ⟨hc.1, ?_⟩) hne), fun hr => congrArg Host.Outcome.next (forwardTx_dropped hr)⟩
    exact hc.2.imp (fun h0 => by rw [h0]; rfl) fun h3 => by rw [h3]; rfl
  · intro guarded cmd
    refine ⟨fun hg => ⟨fun hm => ?_, fun hm => ?_⟩, fun hg => ⟨fun hn => ethFrame_untagged hl he hg hn, fun z hz => ethFrame_tagged hl he hg hz⟩⟩
    · exact (ethFrame_unguarded hl he hg).trans (congrArg Host.Outcome.next (takeFrame_dropped hm))
    · have hx : exec cmd s = _ := (ethFrame_unguarded hl he hg).trans (congrArg Host.Outcome.next (takeFrame_taken hm))
      rw [hx]
      exact ⟨fun hk => congrArg Host.Outcome.next (if_neg fun hc => hk hc.1), fun hk hdn => congrArg Host.Outcome.next (if_pos ⟨hk, by simp [hdn]⟩)⟩

end

/-- Settles O45: a transaction for this device is taken by `arriveTx_taken` and answered in its class; one for another leaves on its route; a frame by its guard. -/
theorem transactionCommandsComplete : Obligations.TransactionCommandsComplete := ⟨requestCommandsComplete, forwardingAndFramesComplete⟩

end Sys2Proof.Machine
end
section
/-! PROOFS. Readers bound to an epoch that is not retained: a read of a link, a COPY and a request of the serving path (R82 to R84, R320). -/

namespace Sys2Proof.Machine

section
variable {s t u : State}

/-! ## Epochs that are not retained (R82, R84) -/

theorem retained_future {e : Nat} (h : s.epoch < e) : s.retained e = false := by
  unfold State.retained
  rw [decide_eq_false (Nat.not_le.2 h), Bool.false_and]

theorem retained_left {e : Nat} (h : e + max 1 (s.rf TM_SCHED_0 TM_SCHED_0_RETAIN) ≤ s.epoch) (hp : s.pastEpoch e = none) : s.retained e = false := by
  have hne : (e == s.epoch) = false := beq_false_of_ne (by omega)
  unfold State.retained
  rw [hp, hne, decide_eq_false (Nat.not_lt.2 h)]
  simp

/-! ## A read of a link, and a COPY (R84) -/

theorem read_refused {port : PortId} {sub : SubId} {h : Head} {size : Nat} (hv : Arrives s port sub 1 true h) (hb : natBit 0 h.flags.toNat = true)
    (hr : s.retained h.epoch.toNat = false) : exec (.read port sub h size) s = .next (s.sendResponse h 2 txResponse stBOUNDS_FAULT []) := by
  show Host.Outcome.next (s.arriveTx port sub 1 2 true h [] (fun s => s.serveRead h size)) = _
  rw [arriveTx_taken hv, ← answerTx_read hv.2.2.1, State.serveRead]
  cases headLocal h with
  | none => rfl
  | some a =>
    dsimp only
    rw [hb, if_pos rfl, Option.any_some, hr]
    rfl

theorem copyMove_refused {e : Nat} {d : RingExec} (he : d.eb = true) (hr : s.retained d.target = false) : s.copyMove e d = (stBOUNDS_FAULT, s) := if_pos (by simp [he, hr])

/-- A COPY whose epoch is not retained moves nothing. -/
theorem copy_refused {ring : Fin 16} {index : Word} {d : RingExec} (hb : s.ringBegin ring index.toNat 4 = some d) (he : d.eb = true) (hr : s.retained d.target = false)
    (hst : s.lockSt ≠ 3) : let g := d.engine.getD (2048 + s.draw.1 % 128); let w := if d.engine.isSome then s else s.draw.2
    w.allGot (w.engineId g) (w.copyRemote d) = true →
    exec (.copy ring index) s = .next ((w.copyMoved w g (w.copyRemote d)).ringComplete ring d stBOUNDS_FAULT) := by
  intro g w hg
  have hw : w.retained d.target = false := by
    show (if d.engine.isSome then s else s.draw.2).retained d.target = false
    split
    · exact hr
    · exact hr
  rw [copy_begins hb hst, copyBy_moves hg (copyMove_refused he hw), if_pos (.inr (by decide))]
  rfl

theorem setEngine_frame (s : State) (e : Nat) (g : Engine) : ∃ r m, s.setEngine e g = { s with regs := r, engines := m } := ⟨_, _, rfl⟩

theorem copyMoved_frame (s z : State) (e : Nat) (far : List (Nat × Nat)) : (s.copyMoved z e far).mem = z.mem ∧ (s.copyMoved z e far).cores = z.cores
    ∧ (s.copyMoved z e far).tx = z.tx ∧ (s.copyMoved z e far).ecc = z.ecc ∧ (s.copyMoved z e far).blockKey = z.blockKey := by
  unfold State.copyMoved
  dsimp only
  generalize hu : (if far.isEmpty = true then z else z.remoteForget (s.engineId e) far) = u
  have h : u.mem = z.mem ∧ u.cores = z.cores ∧ u.tx = z.tx ∧ u.ecc = z.ecc ∧ u.blockKey = z.blockKey := by
    rw [← hu]
    split <;> exact ⟨rfl, rfl, rfl, rfl, rfl⟩
  obtain ⟨r, m, hf⟩ := setEngine_frame { u with lock := { u.lock with causes := s.lock.causes, lateError := s.lock.lateError } } e { u.engine e with unacked := (s.engine e).unacked }
  rw [show State.setEngine _ _ _ = _ from hf]
  exact h

theorem drawn_frame (s : State) (b : Bool) : (if b then s else s.draw.2).mem = s.mem ∧ (if b then s else s.draw.2).cores = s.cores
    ∧ (if b then s else s.draw.2).tx = s.tx ∧ (if b then s else s.draw.2).ecc = s.ecc ∧ (if b then s else s.draw.2).blockKey = s.blockKey := by
  cases b <;> exact ⟨rfl, rfl, rfl, rfl, rfl⟩

/-! ## What leaves the rings alone -/

theorem rings_foldl {α : Type} {f : State → α → State} (hf : ∀ u x, (f u x).rings = u.rings) (s : State) (l : List α) : (l.foldl f s).rings = s.rings := by
  induction l generalizing s with
  | nil => rfl
  | cons x l ih => exact (ih (f s x)).trans (hf s x)

@[simp] theorem rings_wr (s : State) (a v : Nat) : (s.wr a v).rings = s.rings := rfl

@[simp] theorem rings_wf (s : State) (a : Nat) (f : Fld) (v : Nat) : (s.wf a f v).rings = s.rings := rfl

@[simp] theorem rings_bump (s : State) (a n : Nat) : (s.bump a n).rings = s.rings := rfl

@[simp] theorem rings_wrWide (s : State) (a n v : Nat) : (s.wrWide a n v).rings = s.rings := by
  obtain ⟨r, hr⟩ := onlyRegs_wrWide (.refl s) a n v
  rw [hr]

@[simp] theorem rings_postSev (s : State) (cls sev st src d : Nat) : (s.postSev cls sev st src d).rings = s.rings := by
  unfold State.postSev
  dsimp only
  generalize hu : (if cls = 0x02 ∨ cls = 0x1B then _ else _ : State) = u
  have h : u.rings = s.rings := by
    rw [← hu]
    split <;> rfl
  split
  · split <;> exact h
  · split <;> exact h
  · exact h

@[simp] theorem rings_post (s : State) (cls st src d : Nat) : (s.post cls st src d).rings = s.rings := rings_postSev ..

@[simp] theorem rings_deny (s : State) (m : Ident) (a : Nat) : (s.deny m a).rings = s.rings := by simp [State.deny]

@[simp] theorem rings_damaged (s : State) (st src a : Nat) : (s.damaged st src a).rings = s.rings := by
  unfold State.damaged
  split <;> simp

@[simp] theorem rings_checkLocal (s : State) (m : Ident) (a n : Nat) (w : Bool) : (s.checkLocal m a n w).2.rings = s.rings := by
  unfold State.checkLocal
  dsimp only
  repeat' split
  all_goals simp [State.aqFailed]

@[simp] theorem rings_setBytes (s : State) (a : Nat) (bs : List Byte) : (s.setBytes a bs).rings = s.rings := by
  induction bs generalizing s a with
  | nil => rfl
  | cons b bs ih => exact ih ..

@[simp] theorem rings_clearMarks (s : State) (g lo n : Nat) : (s.clearMarks g lo n).rings = s.rings := rfl

@[simp] theorem rings_setKeys (s : State) (o n : Nat) : (s.setKeys o n).rings = s.rings := by
  induction n generalizing s o with
  | zero => rfl
  | succ n ih => exact ih ..

@[simp] theorem rings_basinWr (s : State) (a : Nat) (bs : List Byte) : (s.basinWr a bs).2.rings = s.rings := by
  unfold State.basinWr
  dsimp only
  split
  · simp
  · rw [rings_setBytes, rings_clearMarks]
    exact rings_foldl (fun u x => rings_post ..) ..

@[simp] theorem rings_hbmCheck (s : State) (o n : Nat) : (s.hbmCheck o n).2.rings = s.rings := by
  unfold State.hbmCheck
  dsimp only
  generalize hu : List.foldl _ s _ = u
  have h : u.rings = s.rings := hu ▸ rings_foldl (fun u x => by simp) ..
  split
  · rfl
  · split
    · simp
    · split
      · split <;> exact h
      · simp [h]

@[simp] theorem rings_rekeySpan (s : State) (o n : Nat) : (s.rekeySpan o n).rings = s.rings := by
  unfold State.rekeySpan
  split <;> simp

@[simp] theorem rings_hbmPut (s : State) (o : Nat) (sp : Nat × Nat) (bs : List Byte) : (s.hbmPut o sp bs).rings = s.rings := by simp [State.hbmPut]

@[simp] theorem rings_hbmWr (s : State) (o : Nat) (bs : List Byte) (whole : Bool) : (s.hbmWr o bs whole).2.rings = s.rings := by
  unfold State.hbmWr
  dsimp only
  generalize hu : (if (s.integ (hbmHome o) && (!whole && s.hbmMerges o bs.length)) = true then s.bump (HM_RMW_CNT (hbmHome o)) 1 else s) = u
  have h : u.rings = s.rings := by
    rw [← hu]
    split <;> rfl
  generalize hv : (if (!whole && s.hbmMerges o bs.length) = true then u.hbmCheck o bs.length else (stOK, u)) = v
  have hv : v.2.rings = s.rings := by
    rw [← hv]
    split
    · exact (rings_hbmCheck ..).trans h
    · exact h
  split
  · exact hv
  · rw [rings_hbmPut]
    split
    · exact (rings_rekeySpan ..).trans hv
    · exact hv

@[simp] theorem rings_memWr (s : State) (a : Nat) (bs : List Byte) : (s.memWr a bs).2.rings = s.rings := by
  unfold State.memWr State.memWrIn State.countNarrow
  split
  · exact rings_basinWr ..
  · dsimp only
    split <;> simp
  · exact rings_setBytes ..
  · exact rings_setBytes ..
  · rfl

@[simp] theorem rings_syncRing (s : State) (r : Nat) : (s.syncRing r).rings = s.rings := by rw [(portsShown_syncRing s r).frame]

@[simp] theorem rings_syncPort (s : State) (p : Nat) : (s.syncPort p).rings = s.rings := by
  unfold State.syncPort
  dsimp only
  split
  · rfl
  · exact (rings_wf ..).trans ((rings_wf ..).trans ((rings_wf ..).trans rfl))

@[simp] theorem rings_ringHalt (s : State) (r st : Nat) : (s.ringHalt r st).rings = s.rings := rings_post ..

@[simp] theorem rings_doorbell (s : State) (m : Ident) (off size value : Nat) : (s.doorbell m off size value).2.rings = s.rings := by
  have hr (r new : Nat) : ((s.wr (KP_RING_PROD r) new).syncRing r).rings = s.rings := rings_syncRing ..
  unfold State.doorbell
  dsimp only
  split
  · rfl
  · split
    · rfl
    · split
      · rw [State.bumpF, rings_wf]
      · split
        · rw [rings_ringHalt, hr]
        · rw [hr]

@[simp] theorem rings_sendReq (s : State) (dev cls op addr size : Nat) (m : Ident) (tid msop : Nat) (body : List Byte) :
    (s.sendReq dev cls op addr size m tid msop body).2.rings = s.rings := by
  unfold State.sendReq
  dsimp only
  split <;> rfl

theorem rings_keeperWrite (s : State) (addr n v : Nat) : (s.keeperWrite addr n v).rings = s.rings := by
  unfold State.keeperWrite
  split
  · rfl
  · dsimp only
    split
    · simp
    · split
      · simp
      · split <;> simp

/-! ## A descriptor that completes leaves the other rings alone (R308, R311) -/

theorem ring_ringEnd_other {r x : Nat} (d : RingExec) (st : Nat) (hx : x ≠ r) : (s.ringEnd r d st).ring x = s.ring x := by
  have h (u : State) (a v : Nat) : (u.keeperWrite a 8 v).ring x = u.ring x := congrArg (fun m => spGet [] m x) (rings_keeperWrite ..)
  have hr : (((s.setRing r ((s.ring r).filter (fun x => x.index != d.index))).syncRing r).ring x) = s.ring x :=
    (congrArg (fun m => spGet [] m x) (rings_syncRing ..)).trans (ring_setRing_other _ _ hx)
  unfold State.ringEnd
  dsimp only
  split
  · rw [h, h, hr]
  · rw [h, hr]

theorem ring_ringSweep_other {r x : Nat} (n : Nat) (hx : x ≠ r) : (s.ringSweep r n).ring x = s.ring x := by
  induction n generalizing s with
  | zero => rfl
  | succ n ih =>
    rw [State.ringSweep]
    split
    · exact ih.trans (ring_ringEnd_other _ _ hx)
    · rfl

theorem ring_serveDone_other {r x : Nat} (d : RingExec) (st : Nat) (hx : x ≠ r) : (s.serveDone r d st).ring x = s.ring x := by
  have hp (u : State) (p b : Nat) : (u.releasePool p b).ring x = u.ring x := congrArg (fun m => spGet [] m x) (rings_syncPort ..)
  unfold State.serveDone State.ringComplete
  dsimp only
  rw [hp, ring_ringSweep_other _ hx, ring_ringEnd_other _ _ hx]

/-! ## A request of the serving path (R84, R320) -/

/-- The answer that refuses a request at its admission. -/
def State.refusesServe (s : State) (p r : Nat) (d : RingExec) (st : Nat) : State :=
  ((s.bump (WH_INTAKE_REFUSED (p / 2) (p % 2)) 1).answer p (s.serveHeader d 3 st (s.bindEpoch d)) 3 st).serveDone r d st

theorem admitServe_unretained {r : Nat} {d : RingExec} (hr : (s.requestRead r d 1).1 = stOK) (hp : (s.planOf d.reqPlan).isSome = true) (he : s.retained (s.bindEpoch d) = false) :
    s.admitServe r d = s.refusesServe (s.replyTo d).2.2 r d stBOUNDS_FAULT := by
  unfold State.admitServe
  dsimp only
  have hp : (s.planOf d.reqPlan).isNone = false := by simpa using hp
  rw [if_neg (by simp [hr]), hp, he]
  rfl

theorem ring_refusesServe_other {p r x : Nat} (d : RingExec) (st : Nat) (hx : x ≠ r) : (s.refusesServe p r d st).ring x = s.ring x := ring_serveDone_other _ _ hx

end

/-- Settles O46: a read answers with no data before it reads, a COPY's check fails before it moves, and a request is refused at its admission. -/
theorem epochBoundReadsNeedRetention : Obligations.EpochBoundReadsNeedRetention := by
  intro e s
  refine ⟨retained_future, retained_left, fun hr => ⟨fun port sub h size hv hb he => read_refused hv hb (he ▸ hr), ?_, ?_⟩⟩
  · intro ring index d hb he ht hst g w hg
    obtain ⟨hm, hc, htx, hecc, hk⟩ := copyMoved_frame w w g (w.copyRemote d)
    obtain ⟨hwm, hwc, hwt, hwe, hwk⟩ := drawn_frame s d.engine.isSome
    exact ⟨_, copy_refused hb he (ht ▸ hr) hst hg, hm.trans hwm, hc.trans hwc, htx.trans hwt, hecc.trans hwe, hk.trans hwk⟩
  · intro port r d im hs hd hq hrg hn ho hsv hb hp hpl he u hrd
    have hnu : ∀ x, x ≠ r.val → u.ring x = [] := hn
    have hw := (slotRing_only (q := im.quota) (show u.ring r = [d] from hrg) ho hsv hb (show (u.replyTo d).2.2 = port from hp)).trans
      (if_neg fun h => absurd (hq h.1) (by omega))
    have hbe : u.bindEpoch d = e := he
    have hret : u.retained (u.bindEpoch d) = false := hbe.symm ▸ hr
    rw [admitServe_unretained hrd hpl hret] at hw
    rw [servingSlotStart_begins hs hd]
    refine (congrArg (fun x : Nat × State => Host.Outcome.next x.2) (slotRings_one r hnu ((show u.ring r = [d] from hrg).symm ▸ hw) fun x hx =>
      (ring_refusesServe_other _ _ hx).trans (hnu x hx))).trans ?_
    rw [State.refusesServe, hbe, show (u.replyTo d).2.2 = port from hp]

end Sys2Proof.Machine
end
section
/-! PROOFS. The vector unit's shared layer: lanes of a register, what an instruction leaves of a core past its vector registers, and how one
that is issued to an idle core runs (R130, R161, R196, R197). -/

namespace Sys2Proof.Machine

/-! ## Registers and lanes (R161) -/

theorem vr_setVr_same (k : Core) (r v : Nat) : (k.setVr r v).vr r = v % 2 ^ 2048 :=
  (congrArg BitVec.toNat (spGet_put_same ..)).trans (BitVec.toNat_ofNat v 2048)

theorem vr_setVr_other (k : Core) {r d : Nat} (v : Nat) (h : r ≠ d) : (k.setVr d v).vr r = k.vr r :=
  congrArg BitVec.toNat (spGet_put_other _ _ _ h)

@[simp] theorem setVr_acc (k : Core) (r v : Nat) : (k.setVr r v).acc = k.acc := rfl

@[simp] theorem setVr_g (k : Core) (r v : Nat) : (k.setVr r v).g = k.g := rfl

theorem laneOf_lt (w x l : Nat) : laneOf w x l < 2 ^ w := Nat.mod_lt _ (Nat.two_pow_pos w)

theorem packLanes_cons (w x : Nat) (xs : List Nat) : packLanes w (x :: xs) = x % 2 ^ w + 2 ^ w * packLanes w xs := rfl

theorem packLanes_lt (w : Nat) (xs : List Nat) : packLanes w xs < 2 ^ (w * xs.length) := by
  induction xs with
  | nil => exact Nat.two_pow_pos _
  | cons x xs ih =>
    rw [packLanes_cons, List.length_cons, Nat.mul_succ, Nat.add_comm (w * _), Nat.pow_add]
    have hx := Nat.mod_lt x (Nat.two_pow_pos w)
    calc _ < 2 ^ w * (packLanes w xs + 1) := by rw [Nat.mul_add]; omega
      _ ≤ _ := Nat.mul_le_mul_left _ ih

/-- Lane `l` of a packed register is its element `l`. -/
theorem laneOf_packLanes (w : Nat) {xs : List Nat} {l y : Nat} (h : xs[l]? = some y) : laneOf w (packLanes w xs) l = y % 2 ^ w := by
  induction xs generalizing l with
  | nil => simp at h
  | cons x xs ih =>
    have hp := Nat.two_pow_pos w
    rw [packLanes_cons, laneOf, natBits]
    cases l with
    | zero => rw [Nat.mul_zero, Nat.pow_zero, Nat.div_one, Nat.add_mul_mod_self_left, Nat.mod_mod, Option.some.inj h]
    | succ l =>
      rw [Nat.mul_succ, Nat.add_comm (w * l), Nat.pow_add, ← Nat.div_div_eq_div_mul, Nat.add_mul_div_left _ _ hp,
        Nat.div_eq_of_lt (Nat.mod_lt x hp), Nat.zero_add]
      exact ih h

/-- The same of a register that has been written so, where the elements fit it. -/
theorem laneOf_packLanes_mod {w l y : Nat} {xs : List Nat} (h : xs[l]? = some y) (hw : w * xs.length ≤ 2048) :
    laneOf w (packLanes w xs % 2 ^ 2048) l = y % 2 ^ w :=
  have hlt : packLanes w xs < 2 ^ 2048 := Nat.lt_of_lt_of_le (packLanes_lt w xs) (Nat.pow_le_pow_right Nat.two_pos hw)
  (congrArg (laneOf w · l) (Nat.mod_eq_of_lt hlt)).trans (laneOf_packLanes w h)

/-- The elements of a type fill a register. -/
theorem width_mul_laneCount (t : Nat) : 0 < (vtype t).width ∧ (vtype t).width * laneCount (vtype t).width = 2048 := by
  rcases Nat.lt_or_ge t 8 with h | h
  · have all : ∀ t < 8, 0 < (vtype t).width ∧ (vtype t).width * laneCount (vtype t).width = 2048 := by decide
    exact all t h
  · have hd : vtype t = .fp fp32F := List.getD_eq_default _ _ h
    rw [hd]
    decide

/-! ## Lanes in ascending order -/

theorem lanesFrom_succ (op : VAcc → Nat → Nat × VAcc) (v : VAcc) (n : Nat) :
    lanesFrom op v (n + 1) = ((lanesFrom op v n).1 ++ [(op (lanesFrom op v n).2 n).1], (op (lanesFrom op v n).2 n).2) := by
  rw [lanesFrom, List.range_succ, List.foldl_append]
  rfl

theorem lanesFrom_length (op : VAcc → Nat → Nat × VAcc) (v : VAcc) (n : Nat) : (lanesFrom op v n).1.length = n := by
  induction n with
  | zero => rfl
  | succ n ih => rw [lanesFrom_succ, List.length_append, ih]; rfl

/-- An element whose value does not depend on what the lanes before it gather. -/
theorem lanesFrom_get {op : VAcc → Nat → Nat × VAcc} {n l y : Nat} (v : VAcc) (hl : l < n) (h : ∀ v, (op v l).1 = y) :
    (lanesFrom op v n).1[l]? = some y := by
  induction n with
  | zero => exact absurd hl (Nat.not_lt_zero l)
  | succ n ih =>
    have hn := lanesFrom_length op v n
    rw [lanesFrom_succ]
    rcases Nat.lt_succ_iff_lt_or_eq.1 hl with hlt | rfl
    · rw [List.getElem?_append_left (hn.symm ▸ hlt), ih hlt]
    · rw [List.getElem?_append_right (Nat.le_of_eq hn), hn, Nat.sub_self, h]; rfl

/-- A register packed from lanes in order holds in a lane what the operation gives there, whatever the lanes before it gather. -/
theorem laneOf_lanesFrom_mod {op : VAcc → Nat → Nat × VAcc} {w n l y : Nat} {v : VAcc} (hl : l < n) (hw : w * n ≤ 2048) (h : ∀ v, (op v l).1 = y) :
    laneOf w (packLanes w (lanesFrom op v n).1 % 2 ^ 2048) l = y % 2 ^ w :=
  laneOf_packLanes_mod (lanesFrom_get v hl h) ((lanesFrom_length op v n).symm ▸ hw)

/-! ## What the unit and its queue leave of a core, of memory and of the registers -/

section
variable (s : State) (c d : Nat)

/-- What a change of a core leaves alone in it, it leaves alone in every core. -/
theorem modCore_keeps {α : Type} (p : Core → α) {f : Core → Core} (h : ∀ k, p (f k) = p k) : p ((s.modCore c f).core d) = p (s.core d) := by
  by_cases hd : d = c
  · rw [hd, core_modCore_same, h]
  · rw [State.modCore, State.core_setCore_other _ _ hd]

/-- What the queue's entry and the tiller's progress leave alone in a core. -/
theorem queued_keeps {α : Type} (p : Core → α) (w : TileWords) (hq : ∀ (k : Core) q sq i, p { k with queue := q, seq := sq, issued := i } = p k)
    (hp : ∀ (k : Core) pc st, p { k with pc := pc, stall := st } = p k) : p ((s.queued c w).core d) = p (s.core d) := by
  unfold State.queued State.advance
  rw [modCore_keeps _ _ _ p fun k => hp k _ _, modCore_keeps _ _ _ p fun k => hq k _ _ _]

theorem core_wr (a v : Nat) : (s.wr a v).core d = s.core d := rfl

theorem held_keeps {α : Type} (p : Core → α) (seq st : Nat) (h : ∀ (k : Core) q, p { k with queue := q } = p k) :
    p ((s.held c seq st).core d) = p (s.core d) := by
  unfold State.held State.syncQueues
  rw [core_wr, core_wr, modCore_keeps _ _ _ p fun k => h k _]

theorem endVector_keeps {α : Type} (p : Core → α) (v : VAcc) (h : ∀ (k : Core) z, p { k with sr := z } = p k) : p ((s.endVector c v).core d) = p (s.core d) := by
  unfold State.endVector State.setStreams State.bump
  rw [modCore_keeps _ _ _ p fun k => h k _, core_wr, core_wr]

@[simp] theorem queued_vreg (w : TileWords) : ((s.queued c w).core d).vreg = (s.core d).vreg := queued_keeps s c d _ w (fun _ _ _ _ => rfl) fun _ _ _ => rfl

@[simp] theorem queued_acc (w : TileWords) : ((s.queued c w).core d).acc = (s.core d).acc := queued_keeps s c d _ w (fun _ _ _ _ => rfl) fun _ _ _ => rfl

@[simp] theorem queued_g (w : TileWords) : ((s.queued c w).core d).g = (s.core d).g := queued_keeps s c d _ w (fun _ _ _ _ => rfl) fun _ _ _ => rfl

@[simp] theorem queued_mem (w : TileWords) : (s.queued c w).mem = s.mem := rfl

@[simp] theorem queued_ecc (w : TileWords) : (s.queued c w).ecc = s.ecc := rfl

@[simp] theorem queued_vr (w : TileWords) (r : Nat) : ((s.queued c w).core d).vr r = (s.core d).vr r := by rw [Core.vr, queued_vreg, Core.vr]

@[simp] theorem held_vreg (seq st : Nat) : ((s.held c seq st).core d).vreg = (s.core d).vreg := held_keeps s c d _ _ _ fun _ _ => rfl

@[simp] theorem held_acc (seq st : Nat) : ((s.held c seq st).core d).acc = (s.core d).acc := held_keeps s c d _ _ _ fun _ _ => rfl

@[simp] theorem held_g (seq st : Nat) : ((s.held c seq st).core d).g = (s.core d).g := held_keeps s c d _ _ _ fun _ _ => rfl

@[simp] theorem held_mem (seq st : Nat) : (s.held c seq st).mem = s.mem := by
  unfold State.held State.syncQueues State.modCore
  rw [State.wr_mem, State.wr_mem, State.setCore_mem]

@[simp] theorem held_vr (seq st r : Nat) : ((s.held c seq st).core d).vr r = (s.core d).vr r := by rw [Core.vr, held_vreg, Core.vr]

@[simp] theorem endVector_vreg (v : VAcc) : ((s.endVector c v).core d).vreg = (s.core d).vreg := endVector_keeps s c d _ v fun _ _ => rfl

@[simp] theorem endVector_acc (v : VAcc) : ((s.endVector c v).core d).acc = (s.core d).acc := endVector_keeps s c d _ v fun _ _ => rfl

@[simp] theorem endVector_g (v : VAcc) : ((s.endVector c v).core d).g = (s.core d).g := endVector_keeps s c d _ v fun _ _ => rfl

@[simp] theorem endVector_mem (v : VAcc) : (s.endVector c v).mem = s.mem := by
  unfold State.endVector State.setStreams State.modCore
  rw [State.setCore_mem, State.bump_mem, State.wr_mem]

@[simp] theorem endVector_vr (v : VAcc) (r : Nat) : ((s.endVector c v).core d).vr r = (s.core d).vr r := by rw [Core.vr, endVector_vreg, Core.vr]

/-- An entry that holds its status changes two registers, which show its queue. -/
theorem rd_held_other {a : Nat} (hd : a ≠ CO_QDEPTH c) (hb : a ≠ CO_UNIT_BUSY c) (seq st : Nat) : (s.held c seq st).rd a = s.rd a :=
  (State.rd_wr_other _ _ hb).trans (State.rd_wr_other _ _ hd)

end

/-- The state that an instruction leaves whose one destination is register `d`. -/
theorem destination_holds {s u : State} {c : Nat} {k : Core} (d x seq st : Nat) (v : VAcc) (hm : u.mem = s.mem) (hk : ∀ r, k.vr r = (s.core c).vr r) :
    let t := ((u.setCore c (k.setVr d x)).endVector c v).held c seq st
    t.mem = s.mem ∧ (∀ r, r ≠ d → (t.core c).vr r = (s.core c).vr r) ∧ (t.core c).vr d = x % 2 ^ 2048 := by
  refine ⟨?_, fun r hr => ?_, ?_⟩
  · rw [held_mem, endVector_mem, State.setCore_mem, hm]
  · rw [held_vr, endVector_vr, State.core_setCore_same, vr_setVr_other _ _ hr, hk]
  · rw [held_vr, endVector_vr, State.core_setCore_same, vr_setVr_same]

/-! ## An instruction of the vector unit runs (R135, R196, R197) -/

theorem queueOf_asVector (t : TileWords) (vop : Nat) : queueOf (t.asVector vop) = 4 := by
  unfold queueOf
  rw [asVector_cls]
  rfl

section
variable {s : State} {c : Nat} {e : QEntry} {i : VInstr}

/-- The operations that do not work lane by lane: CVT, the reductions, the loads and stores, SRFW. -/
def notLanewise : List Nat := [0x20, 0x21, 0x22, 0x23, 0x28, 0x18, 0x19, 12]

section
variable (hi : s.vinstr c e = some i) (hb : s.vectorBounds c i = stOK)
include hi hb

theorem runVector_vecOp (h : i.vop ∉ notLanewise) : s.runVector c e
    = (stOK, (s.setCore c (Core.vecOp i 0 (s.core c) ⟨0, 0, s.streams c⟩ i.nreg).1).endVector c (Core.vecOp i 0 (s.core c) ⟨0, 0, s.streams c⟩ i.nreg).2) := by
  simp only [notLanewise, List.mem_cons, List.not_mem_nil, or_false, not_or] at h
  obtain ⟨hld, hst, hldb, hstb, hsrfw, hsum, hmax, hcvt⟩ := h
  unfold State.runVector
  simp only [hi, hb, hld, hst, hldb, hstb, hsrfw, hsum, hmax, hcvt, ne_eq, not_true_eq_false, or_self, if_false]

theorem runVector_vecCvt (h : i.vop = 0x0C) : s.runVector c e
    = (stOK, ({ s with free := s.free + i.nreg }.setCore c (Core.vecCvt i s.free 0 (s.core c) ⟨0, 0, s.streams c⟩ i.nreg).1).endVector c
        (Core.vecCvt i s.free 0 (s.core c) ⟨0, 0, s.streams c⟩ i.nreg).2) := by
  unfold State.runVector
  simp only [hi, hb, h]
  rfl

theorem runVector_vecReduce (h : i.vop = 0x18 ∨ i.vop = 0x19) : s.runVector c e = (stOK, s.vecReduce c i ⟨0, 0, s.streams c⟩) := by
  unfold State.runVector
  rcases h with h | h <;> simp only [hi, hb, h] <;> rfl

theorem runVector_vecLd (h : i.vop = 0x20) : s.runVector c e = s.vecLd c i := by
  unfold State.runVector
  simp only [hi, hb, h]
  rfl

theorem runVector_vecSt (h : i.vop = 0x21) : s.runVector c e = s.vecSt c i := by
  unfold State.runVector
  simp only [hi, hb, h]
  rfl

theorem runVector_vecLdb (h : i.vop = 0x22) (hck : s.checkBarges c i.addr isBargeFmt false (List.range i.nreg) = (stOK, s))
    (hst : (s.vecLdb c i 0 0 ⟨0, 0, s.streams c⟩ i.nreg).1 = stOK) : s.runVector c e
    = (stOK, (s.vecLdb c i 0 0 ⟨0, 0, s.streams c⟩ i.nreg).2.1.endVector c (s.vecLdb c i 0 0 ⟨0, 0, s.streams c⟩ i.nreg).2.2) := by
  unfold State.runVector
  simp only [hi, hb, h, hck, hst]
  rfl

theorem runVector_vecStb (h : i.vop = 0x23) : s.runVector c e = s.vecStb c i ⟨0, 0, s.streams c⟩ := by
  unfold State.runVector
  simp only [hi, hb, h]
  rfl

theorem runVector_vecSrfw (h : i.vop = 0x28) : s.runVector c e = (stOK, s.vecSrfw c i) := by
  unfold State.runVector
  simp only [hi, hb, h]
  rfl

end

end

/-- A VECTOR command runs its entry at once on an idle core. -/
theorem unitRuns_vector {mk : CoreId → TileWords → Instr} {vop : Nat} {work : CoreId → QEntry → State → Nat × State} {good : CoreId → QEntry → State → Prop}
    (he : ∀ core t s, exec (mk core t) s = .next (s.issueTile core.val (t.asVector vop)))
    (hw : ∀ (core : CoreId) (t : TileWords) (s : State), good core (entryOf s core (t.asVector vop)) s →
      (s.queued core (t.asVector vop)).runVector core (entryOf s core (t.asVector vop))
        = work core (entryOf s core (t.asVector vop)) (s.queued core (t.asVector vop))) : UnitRuns mk (·.asVector vop) work good :=
  unitRuns_of_runEntry mk _ work good he (fun core t s _ hg => runEntry_vector.trans (hw core t s hg))
    fun _ t _ _ _ => .inl (by rw [queueOf_asVector]; decide)

/-- A lane-by-lane operation runs over its registers. -/
theorem vectorRuns_lanewise {mk : CoreId → TileWords → Instr} {vop : Nat}
    (he : ∀ core t s, exec (mk core t) s = .next (s.issueTile core.val (t.asVector vop))) (hv : vop ∉ notLanewise) : VectorRuns mk vop := by
  intro core t i s w e u hi hvi hb hop
  rw [he, issueTile_idle hi (.inl (by rw [queueOf_asVector]; decide)), runEntry_vector,
    runVector_vecOp ((vinstr_queued ..).trans hvi) ((vectorBounds_queued ..).trans hb) (hop.symm ▸ hv)]

end Sys2Proof.Machine
end
section
/-! PROOFS. Lanes of the vector unit: the integer operations against the arithmetic of R130, the operations on floating-point lanes, and what an
operation on one register leaves (R130 to R133, R197). -/

namespace Sys2Proof.Machine

/-! ## Integers of `w` bits (R130) -/

section
variable {w : Nat} (sg : Bool)

theorem two_pow_eq_double (hw : 0 < w) : 2 ^ w = 2 * 2 ^ (w - 1) := by
  rw [← Nat.pow_succ', Nat.succ_eq_add_one, Nat.sub_add_cancel hw]

theorem intVal_of_lt (hw : 0 < w) {a : Nat} (ha : a < 2 ^ w) :
    intVal w sg a = if sg && 2 ^ (w - 1) ≤ a then (a : Int) - (2 ^ w : Nat) else a := by
  have h2 := two_pow_eq_double hw
  unfold intVal sext
  rw [Nat.mod_eq_of_lt ha]
  cases sg with
  | false => rfl
  | true =>
    by_cases h : 2 ^ (w - 1) ≤ a
    · rw [if_pos rfl, if_neg (by omega), if_pos (by simpa using h)]
    · rw [if_pos rfl, if_pos (by omega), if_neg (by simpa using h)]

theorem intVal_range (hw : 0 < w) {a : Nat} (ha : a < 2 ^ w) : intMin w sg ≤ intVal w sg a ∧ intVal w sg a ≤ intMax w sg := by
  have h2 := two_pow_eq_double hw
  rw [intVal_of_lt sg hw ha]
  unfold intMin intMax
  cases sg <;> simp only [Bool.false_and, Bool.true_and, decide_eq_true_eq, if_true, if_false, Bool.false_eq_true] <;> omega

/-- A pattern and its value agree modulo 2^w. -/
theorem intVal_emod (a : Nat) : intVal w sg a % (2 ^ w : Nat) = (a % 2 ^ w : Nat) := by
  have hm : ((a % 2 ^ w : Nat) : Int) % (2 ^ w : Nat) = (a % 2 ^ w : Nat) := by rw [← Int.natCast_emod, Nat.mod_mod]
  unfold intVal sext
  split
  · split
    · exact hm
    · rw [Int.sub_emod_right, hm]
  · exact hm

theorem intVal_inj {a b : Nat} (ha : a < 2 ^ w) (hb : b < 2 ^ w) : intVal w sg a = intVal w sg b ↔ a = b := by
  refine ⟨fun h => ?_, fun h => h ▸ rfl⟩
  have he := congrArg (· % ((2 ^ w : Nat) : Int)) h
  simp only [intVal_emod, Nat.mod_eq_of_lt ha, Nat.mod_eq_of_lt hb] at he
  exact Int.ofNat_inj.1 he

theorem toNat_emod_lt (x : Int) : (x % (2 ^ w : Nat)).toNat < 2 ^ w := by
  have hp := Nat.two_pow_pos w
  have h := Int.emod_lt_of_pos x (Int.natCast_pos.2 hp)
  omega

theorem intResult_lt (sat : Bool) (x : Int) : (intResult w sg sat x).1 < 2 ^ w := by
  unfold intResult
  split <;> exact toNat_emod_lt _

theorem intMin_le_intMax : intMin w sg ≤ intMax w sg := by
  have := Nat.two_pow_pos w
  have := Nat.two_pow_pos (w - 1)
  unfold intMin intMax
  split <;> omega

/-- An exact result becomes an element as R130 says: wrapped, or clamped to the type's range. -/
theorem intResult_eq_elemOf (sat : Bool) (x : Int) : (intResult w sg sat x).1 = elemOf w sg sat x := by
  have hle := intMin_le_intMax (w := w) sg
  show _ = ((if sat then max (intMin w sg) (min (intMax w sg) x) else x) % (2 ^ w : Nat)).toNat
  unfold intResult
  cases sat with
  | false => rfl
  | true =>
    simp only [Bool.true_and, Bool.or_eq_true, decide_eq_true_eq, if_true]
    by_cases hlo : x < intMin w sg
    · rw [if_pos (.inl hlo), if_pos hlo, min_eq_right (by omega), max_eq_left (by omega)]
    · by_cases hhi : intMax w sg < x
      · rw [if_pos (.inr hhi), if_neg hlo, min_eq_left (by omega), max_eq_right hle]
      · rw [if_neg (by omega), min_eq_right (by omega), max_eq_right (by omega)]

theorem elemOf_below {x : Int} (h : x < intMin w sg) : elemOf w sg true x = (intMin w sg % (2 ^ w : Nat)).toNat := by
  rw [← intResult_eq_elemOf, intResult, if_pos (by simp [h]), if_pos h]

theorem elemOf_above {x : Int} (h : intMax w sg < x) : elemOf w sg true x = (intMax w sg % (2 ^ w : Nat)).toNat := by
  have := intMin_le_intMax (w := w) sg
  rw [← intResult_eq_elemOf, intResult, if_pos (by simp [h]), if_neg (by omega)]

/-- A left shift by the width or more goes by the sign of the value alone. -/
theorem elemOf_shl_far (hw : 0 < w) (sw : Bool) (x : Int) {k : Nat} (hk : w ≤ k) :
    elemOf w sg sw (x * (2 ^ k : Nat)) = if sw then elemOf w sg true (x.sign * (2 ^ w : Nat)) else 0 := by
  have hp : ((2 ^ w : Nat) : Int) ≤ (2 ^ k : Nat) := Int.ofNat_le.2 (Nat.pow_le_pow_right Nat.two_pos hk)
  have h1 : 0 < 2 ^ w := Nat.two_pow_pos w
  have h2 := two_pow_eq_double hw
  have hlo : -((2 ^ w : Nat) : Int) < intMin w sg := by
    unfold intMin
    split <;> omega
  have hhi : intMax w sg < (2 ^ w : Nat) := by
    unfold intMax
    split <;> omega
  cases sw with
  | false =>
    have hd : ((2 ^ w : Nat) : Int) ∣ x * (2 ^ k : Nat) := Dvd.dvd.mul_left (Int.natCast_dvd_natCast.2 (Nat.pow_dvd_pow 2 hk)) x
    exact congrArg Int.toNat (Int.emod_eq_zero_of_dvd hd)
  | true =>
    rw [if_pos rfl]
    rcases Int.lt_trichotomy x 0 with h | rfl | h
    · rw [Int.sign_eq_neg_one_of_neg h, elemOf_below sg (by nlinarith), elemOf_below sg (by omega)]
    · rw [Int.sign_zero, Int.zero_mul, Int.zero_mul]
    · rw [Int.sign_eq_one_of_pos h, elemOf_above sg (by nlinarith), elemOf_above sg (by omega)]

theorem elemOf_shl_min (hw : 0 < w) (sw : Bool) (x : Int) (b : Nat) : elemOf w sg sw (x * (2 ^ min b (2 * w) : Nat)) = elemOf w sg sw (x * (2 ^ b : Nat)) := by
  rcases Nat.le_total b (2 * w) with hb | hb
  · rw [Nat.min_eq_left hb]
  · rw [Nat.min_eq_right hb, elemOf_shl_far sg hw sw x (by omega), elemOf_shl_far sg hw sw x (by omega)]

/-- A right shift by the width or more leaves the sign alone. -/
theorem intVal_shr_far (hw : 0 < w) {a k : Nat} (ha : a < 2 ^ w) (hk : w ≤ k) :
    intVal w sg a / (2 ^ k : Nat) = if intVal w sg a < 0 then -1 else 0 := by
  have hp : 2 ^ w ≤ 2 ^ k := Nat.pow_le_pow_right Nat.two_pos hk
  obtain ⟨hlo, hhi⟩ := intVal_range sg hw ha
  have h2 := two_pow_eq_double hw
  unfold intMin at hlo
  unfold intMax at hhi
  split
  · exact ((Int.ediv_emod_unique (by omega)).2 ⟨(by omega : intVal w sg a + (2 ^ k : Nat) + (2 ^ k : Nat) * -1 = _), by split at hlo <;> omega, by omega⟩).1
  · exact Int.ediv_eq_zero_of_lt (by omega) (by split at hhi <;> omega)

theorem intVal_shr_min (hw : 0 < w) {a : Nat} (ha : a < 2 ^ w) (b : Nat) : intVal w sg a / (2 ^ min b w : Nat) = intVal w sg a / (2 ^ b : Nat) := by
  rcases Nat.le_total b w with hb | hb
  · rw [Nat.min_eq_left hb]
  · rw [Nat.min_eq_right hb, intVal_shr_far sg hw ha le_rfl, intVal_shr_far sg hw ha hb]

/-- An integer operation on elements gives an element. -/
theorem intLane_lt {a b : Nat} (ha : a < 2 ^ w) (hb : b < 2 ^ w) (sw : Bool) (vop : Nat) : (intLane w sg sw vop a b).1 < 2 ^ w := by
  have hm : ∀ x, maskOf w x < 2 ^ w := fun x => by
    have := Nat.two_pow_pos w
    unfold maskOf
    split <;> omega
  have hr : ∀ x, (intResult w sg sw x).1 < 2 ^ w := intResult_lt sg sw
  have hsel : ∀ (p : Prop) [Decidable p] {x y : Nat}, x < 2 ^ w → y < 2 ^ w → (if p then x else y) < 2 ^ w := fun p _ _ _ hx hy => by split <;> assumption
  unfold intLane
  simp only [apply_ite (fun r : Nat × Nat => r.1 < 2 ^ w), hr, hm, hsel _ hb ha, Nat.and_lt_two_pow a hb, Nat.or_lt_two_pow ha hb, Nat.xor_lt_two_pow ha hb,
    toNat_emod_lt, ite_self]

end

/-! ## An operation on one register (R161, R197) -/

/-- What a lane-by-lane operation does on lane `l` of its first registers. -/
def VInstr.onLane (i : VInstr) (k : Core) (v : VAcc) (l : Nat) : Nat × VAcc :=
  let w := (vtype i.type).width
  v.lane (vtype i.type) i.sw i.sel i.slot i.vop (0 * laneCount w + l) (laneOf w (k.vr (i.va + 0)) l) (laneOf w (k.vr (i.vb + 0)) l) (laneOf w (k.vr (i.vc + 0)) l)

theorem vecOp_one (i : VInstr) (k : Core) (v : VAcc) : Core.vecOp i 0 k v 1
    = (k.setVr i.vd (packLanes (vtype i.type).width (lanesFrom (i.onLane k) v (laneCount (vtype i.type).width)).1),
        (lanesFrom (i.onLane k) v (laneCount (vtype i.type).width)).2) := rfl

/-- An operation on one register whose lanes do not depend on what the unit gathers: its destination holds them, and nothing else changes. -/
theorem lanesBecome_of_onLane {s : State} {c : Nat} {i : VInstr} {f g : Nat → Nat} (w : TileWords) (seq st : Nat) (v : VAcc) (hn : i.nreg = 1)
    (h : ∀ v l, (i.onLane (s.core c) v l).1 = g l) (hf : ∀ l, g l % 2 ^ (vtype i.type).width = f l) :
    LanesBecome s (((((s.queued c w).setCore c (Core.vecOp i 0 ((s.queued c w).core c) v i.nreg).1).endVector c
      (Core.vecOp i 0 ((s.queued c w).core c) v i.nreg).2).held c seq st)) c i.vd (vtype i.type).width f := by
  have hq : i.onLane ((s.queued c w).core c) = i.onLane (s.core c) := by
    unfold VInstr.onLane
    simp only [queued_vr]
  rw [hn, vecOp_one, hq]
  obtain ⟨hmem, hother, hd⟩ := destination_holds i.vd (packLanes (vtype i.type).width (lanesFrom (i.onLane (s.core c)) v (laneCount (vtype i.type).width)).1)
    seq st (lanesFrom (i.onLane (s.core c)) v (laneCount (vtype i.type).width)).2 (queued_mem s c w) (queued_vr s c c w)
  refine ⟨fun l hl => ?_, hother, ?_, ?_, hmem⟩
  · rw [hd]
    exact (laneOf_lanesFrom_mod (n := laneCount _) hl (Nat.le_of_eq (width_mul_laneCount i.type).2) fun v => h v l).trans (hf l)
  · rw [held_acc, endVector_acc, State.core_setCore_same, setVr_acc, queued_acc]
  · rw [held_g, endVector_g, State.core_setCore_same, setVr_g, queued_g]

/-- Lane by lane, an operation on integers that runs over its registers is `intLane`. -/
theorem lanesAre_of_runs {mk : CoreId → TileWords → Instr} {vop : Nat} {f : Nat → Bool → Bool → Nat → Nat → Nat} (hr : VectorRuns mk vop)
    (hf : ∀ w sg sw a b, 0 < w → a < 2 ^ w → b < 2 ^ w → (intLane w sg sw vop a b).1 = f w sg sw a b) : LanesAre mk vop f := by
  intro core t i w sg s e hi hv hb hop hn hty
  have hw : (vtype i.type).width = w := congrArg VType.width hty
  have h0 : 0 < w := hw ▸ (width_mul_laneCount i.type).1
  refine ⟨_, hr core t i s hi hv hb hop, ?_⟩
  rw [← hw]
  refine lanesBecome_of_onLane (g := fun l => (intLane w sg i.sw vop (laneOf w ((s.core core).vr i.va) l) (laneOf w ((s.core core).vr i.vb) l)).1) _ _ _ _ hn ?_ ?_
  · intro v l
    unfold VInstr.onLane
    rw [hw, hty, hop]
    rfl
  · intro l
    rw [hw, Nat.mod_eq_of_lt (intLane_lt sg (laneOf_lt ..) (laneOf_lt ..) _ _), hf _ _ _ _ _ h0 (laneOf_lt ..) (laneOf_lt ..)]

/-- Lane by lane, an operation on floating-point elements under a direction of rounding is `fpLane`. -/
theorem fpLanesAre_of_runs {mk : CoreId → TileWords → Instr} {vop : Nat} {f : FFmt → Rnd → FV → FV → FV → Nat} (hr : VectorRuns mk vop)
    (hf : ∀ x rm a b c, (fpLane x vop rm a b c).1 = f x rm (x.decode a) (x.decode b) (x.decode c)) : FpLanesAre mk vop f := by
  intro core t i x rm s e hi hv hb hop hn hty hsel
  have hw : (vtype i.type).width = x.width := congrArg VType.width hty
  refine ⟨_, hr core t i s hi hv hb hop, ?_⟩
  rw [← hw]
  refine lanesBecome_of_onLane (g := fun l => f x rm (x.decode (laneOf x.width ((s.core core).vr i.va) l)) (x.decode (laneOf x.width ((s.core core).vr i.vb) l))
      (x.decode (laneOf x.width ((s.core core).vr i.vc) l))) _ _ _ _ hn ?_ fun l => by rw [hw]
  intro v l
  unfold VInstr.onLane
  rw [hw, hty, hop, hsel, ← hf]
  rfl

/-! ## The lanes of each operation (R130 to R133, R197) -/

theorem vectorOperationsComplete : VectorOperationsComplete := by
  refine ⟨?_, ?_, ?_, ?_, ?_, ?_, ?_, ?_, ?_, ?_, ?_, ?_, ?_, ?_, ?_, ?_, ?_, ?_, ?_⟩ <;> exact vectorRuns_lanewise (fun _ _ _ => rfl) (by decide)

theorem integerLanes : IntegerLanes := by
  obtain ⟨add, sub, mul, fma, div, sqrt, rem, vmin, vmax, eq, lt, le, neg, abs, and, or, xor, shl, shr⟩ := vectorOperationsComplete
  unfold IntegerLanes
  intro val mask
  have hval : ∀ {w a : Nat} (sg : Bool), 0 < w → a < 2 ^ w → intVal w sg a = val w sg a := fun sg hw ha => intVal_of_lt sg hw ha
  refine ⟨lanesAre_of_runs add fun w sg sw a b hw ha hb => ?_, lanesAre_of_runs sub fun w sg sw a b hw ha hb => ?_,
    lanesAre_of_runs mul fun w sg sw a b hw ha hb => ?_, lanesAre_of_runs vmin fun w sg sw a b hw ha hb => ?_,
    lanesAre_of_runs vmax fun w sg sw a b hw ha hb => ?_, lanesAre_of_runs eq fun w sg sw a b hw ha hb => ?_,
    lanesAre_of_runs lt fun w sg sw a b hw ha hb => ?_, lanesAre_of_runs le fun w sg sw a b hw ha hb => ?_,
    lanesAre_of_runs neg fun w sg sw a b hw ha hb => ?_, lanesAre_of_runs abs fun w sg sw a b hw ha hb => ?_,
    lanesAre_of_runs and fun _ _ _ _ _ _ _ _ => rfl, lanesAre_of_runs or fun _ _ _ _ _ _ _ _ => rfl, lanesAre_of_runs xor fun _ _ _ _ _ _ _ _ => rfl,
    lanesAre_of_runs shl fun w sg sw a b hw ha hb => ?_, lanesAre_of_runs shr fun w sg sw a b hw ha hb => ?_⟩
  case refine_6 => exact congrArg (maskOf w) (by rw [Bool.eq_iff_iff, beq_iff_eq, decide_eq_true_eq, intVal_inj sg ha hb])
  all_goals rw [← hval sg hw ha]
  case refine_9 => exact intResult_eq_elemOf ..
  case refine_10 => exact intResult_eq_elemOf ..
  case refine_11 => exact (intResult_eq_elemOf ..).trans (elemOf_shl_min sg hw sw _ b)
  case refine_12 => exact congrArg (fun x : Int => (x % (2 ^ w : Nat)).toNat) (intVal_shr_min sg hw ha b)
  all_goals rw [← hval sg hw hb]
  case refine_1 | refine_2 | refine_3 => exact intResult_eq_elemOf ..
  all_goals rfl

theorem floatLanesFollowIeee : FloatLanesFollowIeee := by
  obtain ⟨add, sub, mul, fma, div, sqrt, rem, vmin, vmax, eq, lt, le, -⟩ := vectorOperationsComplete
  unfold FloatLanesFollowIeee
  intro mask
  refine ⟨fpLanesAre_of_runs add ?_, fpLanesAre_of_runs sub ?_, fpLanesAre_of_runs mul ?_, fpLanesAre_of_runs fma ?_, fpLanesAre_of_runs div ?_,
    fpLanesAre_of_runs sqrt ?_, fpLanesAre_of_runs rem ?_, fpLanesAre_of_runs vmin ?_, fpLanesAre_of_runs vmax ?_, fpLanesAre_of_runs eq ?_,
    fpLanesAre_of_runs lt ?_, fpLanesAre_of_runs le ?_⟩ <;> exact fun _ _ _ _ _ => rfl

/-- Settles O32: each lane is what `intLane` or `fpLane` gives, packed in its place, and the values of patterns are those of R130. -/
theorem integerLanesWrap : Obligations.IntegerLanesWrap := ⟨integerLanes, floatLanesFollowIeee⟩

end Sys2Proof.Machine
end
section
/-! PROOFS. CVT, the reductions, and the loads and stores of the vector unit: how they run, and what they leave (R93, R130, R131, R161, R197, R198). -/

namespace Sys2Proof.Machine

/-! ## Completion (R135, R196, R197) -/

section
variable {s : State} {c : Nat} {i : VInstr}

theorem vecLd_clean (he : s.ecc = []) (hr : s.basinReach i.addr (256 * i.nreg) = stOK) : s.vecLd c i
    = (stOK, s.modCore c (fun k => (List.range i.nreg).foldl (fun k r => k.setVr (i.vd + r) (s.load (i.addr + 256 * r) 256)) k)) := by
  unfold State.vecLd
  rw [unitRd_clean _ _ _ he hr]
  rfl

end

theorem vectorMovesAndReductionsComplete : VectorMovesAndReductionsComplete := by
  refine ⟨fun i => unitRuns_vector (fun _ _ _ => rfl) ?_, fun i => unitRuns_vector (fun _ _ _ => rfl) ?_, fun i => unitRuns_vector (fun _ _ _ => rfl) ?_,
    fun i => unitRuns_vector (fun _ _ _ => rfl) ?_, fun i => unitRuns_vector (fun _ _ _ => rfl) ?_, fun i => unitRuns_vector (fun _ _ _ => rfl) ?_,
    fun i => unitRuns_vector (fun _ _ _ => rfl) ?_, fun i => unitRuns_vector (fun _ _ _ => rfl) ?_⟩
  · rintro core t s ⟨hi, hop, hb⟩
    exact runVector_vecCvt ((vinstr_queued ..).trans hi) ((vectorBounds_queued ..).trans hb) hop
  · rintro core t s ⟨hi, hop, hb⟩
    exact runVector_vecReduce ((vinstr_queued ..).trans hi) ((vectorBounds_queued ..).trans hb) (.inl hop)
  · rintro core t s ⟨hi, hop, hb⟩
    exact runVector_vecReduce ((vinstr_queued ..).trans hi) ((vectorBounds_queued ..).trans hb) (.inr hop)
  · rintro core t s ⟨hi, hop, hb⟩
    exact runVector_vecSrfw ((vinstr_queued ..).trans hi) ((vectorBounds_queued ..).trans hb) hop
  · rintro core t s ⟨hi, hop, hb, hr, he⟩
    exact (runVector_vecLd ((vinstr_queued ..).trans hi) ((vectorBounds_queued ..).trans hb) hop).trans
      (vecLd_clean ((queued_ecc ..).trans he) ((basinReach_queued ..).trans hr))
  · rintro core t s ⟨hi, hop, hb, -, -⟩
    exact runVector_vecSt ((vinstr_queued ..).trans hi) ((vectorBounds_queued ..).trans hb) hop
  · rintro core t s ⟨hi, hop, hb, hck, hst⟩
    exact runVector_vecLdb ((vinstr_queued ..).trans hi) ((vectorBounds_queued ..).trans hb) hop hck hst
  · rintro core t s ⟨hi, hop, hb, -⟩
    exact runVector_vecStb ((vinstr_queued ..).trans hi) ((vectorBounds_queued ..).trans hb) hop

/-! ## CVT between integer types (R130, R131) -/

/-- What CVT does on lane `l` of its first destination. -/
def VInstr.onCvtLane (i : VInstr) (free : Nat) (k : Core) (v : VAcc) (l : Nat) : Nat × VAcc :=
  let src := vtype i.type
  let dst := vtype (i.imm % 8)
  if l < laneCount src.width then v.cvt src dst i.sw i.sel i.slot (0 * laneCount src.width + l) (laneOf src.width (k.vr (i.va + 0)) l)
  else (laneOf dst.width (Config.freeBits (free + 0)) l, v)

/-- The elements that CVT packs into its first destination. -/
def VInstr.converted (i : VInstr) (free : Nat) (k : Core) (v : VAcc) : List Nat :=
  (lanesFrom (i.onCvtLane free k) v (laneCount (vtype (i.imm % 8)).width)).1

theorem vecCvt_one {i : VInstr} (free : Nat) (k : Core) (v : VAcc) (hn : i.nreg = 1) :
    (Core.vecCvt i free 0 k v i.nreg).1 = k.setVr i.vd (packLanes (vtype (i.imm % 8)).width (i.converted free k v)) := by
  rw [hn]
  rfl

/-- A lane of integers that has a source is its value in the new type; SW saturates a narrowing conversion alone. -/
theorem laneOf_converted {i : VInstr} {w w' l : Nat} {sg sg' : Bool} (free : Nat) (k : Core) (v : VAcc) (ht : vtype i.type = .int w sg)
    (ht' : vtype (i.imm % 8) = .int w' sg') (hl : l < laneCount w) (hl' : l < laneCount w') :
    laneOf w' (packLanes (vtype (i.imm % 8)).width (i.converted free k v) % 2 ^ 2048) l
      = elemOf w' sg' (i.sw && decide (w' < w)) (intVal w sg (laneOf w (k.vr i.va) l)) := by
  have hw : (vtype (i.imm % 8)).width = w' := congrArg VType.width ht'
  have hfull := (width_mul_laneCount (i.imm % 8)).2
  have hlane : ∀ v, (i.onCvtLane free k v l).1 = (intResult w' sg' (i.sw && decide (w' < w)) (intVal w sg (laneOf w (k.vr i.va) l))).1 := fun v => by
    unfold VInstr.onCvtLane
    rw [ht, ht']
    exact congrArg Prod.fst (if_pos hl)
  unfold VInstr.converted
  rw [hw] at hfull ⊢
  rw [laneOf_lanesFrom_mod hl' (Nat.le_of_eq hfull) hlane, Nat.mod_eq_of_lt (intResult_lt ..), intResult_eq_elemOf]

/-! ## Reductions (R198) -/

section
variable {op : VAcc → Nat → Nat → Nat → Nat × VAcc}

theorem pairUp_cons_cons (i : Nat) (v : VAcc) (a b : Nat) (t : List Nat) :
    (pairUp op i v (a :: b :: t)).1 = (op v i a b).1 :: (pairUp op (i + 1) (op v i a b).2 t).1 := rfl

theorem pairUp_length (i : Nat) (v : VAcc) : ∀ xs : List Nat, (pairUp op i v xs).1.length = (xs.length + 1) / 2
  | [] => rfl
  | [_] => by simp [pairUp]
  | a :: b :: t => by
    rw [pairUp_cons_cons, List.length_cons, pairUp_length, List.length_cons, List.length_cons]
    omega

/-- What every level of a reduction tree keeps holds of the result alone. -/
theorem treeOf_keeps {R : List Nat → Prop} (hp : ∀ v xs, R xs → R (pairUp op 0 v xs).1) : ∀ (n : Nat) (v : VAcc) (xs : List Nat),
    xs ≠ [] → xs.length ≤ 2 ^ n → R xs → R [(treeOf op v n xs).1]
  | 0, v, [x], _, _, h => h
  | 0, v, a :: b :: t, _, hl, _ => absurd hl (by simp)
  | n + 1, v, xs, hne, hl, h => by
    unfold treeOf
    split
    · rename_i h1
      obtain ⟨x, rfl⟩ := List.length_eq_one_iff.1 (Nat.le_antisymm h1 (List.length_pos_iff.2 hne))
      exact h
    · rename_i h1
      have hlen := pairUp_length (op := op) 0 v xs
      refine treeOf_keeps hp n _ _ (List.length_pos_iff.1 ?_) ?_ (hp v xs h)
      · omega
      · rw [Nat.pow_succ] at hl
        omega

/-- Adding pairs keeps the sum modulo `m`. -/
theorem sum_pairUp {m : Nat} (h : ∀ v i a b, (op v i a b).1 % m = (a + b) % m) (i : Nat) (v : VAcc) :
    ∀ xs : List Nat, (pairUp op i v xs).1.sum % m = xs.sum % m
  | [] => rfl
  | [_] => rfl
  | a :: b :: t => by
    rw [pairUp_cons_cons, List.sum_cons, Nat.add_mod, h, sum_pairUp h, ← Nat.add_mod, List.sum_cons, List.sum_cons, Nat.add_assoc]

/-- Taking the greater of each pair keeps elements of the list, and for each of them one that is no less. -/
theorem max_pairUp {f : Nat → Int} (h : ∀ v i a b, (op v i a b).1 = if f a < f b then b else a) (i : Nat) (v : VAcc) :
    ∀ xs : List Nat, (∀ y ∈ (pairUp op i v xs).1, y ∈ xs) ∧ ∀ x ∈ xs, ∃ y ∈ (pairUp op i v xs).1, f x ≤ f y
  | [] => ⟨fun _ h => h, fun _ h => absurd h List.not_mem_nil⟩
  | [_] => ⟨fun _ h => h, fun x h => ⟨x, h, Int.le_refl _⟩⟩
  | a :: b :: t => by
    obtain ⟨hmem, hle⟩ := max_pairUp h (i + 1) (op v i a b).2 t
    have hop := h v i a b
    rw [pairUp_cons_cons]
    constructor
    · rintro y (_ | ⟨_, hy⟩)
      · rw [hop]
        split <;> simp
      · simp [hmem y hy]
    · have hfirst : f a ≤ f (op v i a b).1 ∧ f b ≤ f (op v i a b).1 := by
        rw [hop]
        split <;> omega
      rintro x (_ | ⟨_, _ | ⟨_, hx⟩⟩)
      · exact ⟨_, List.mem_cons_self, hfirst.1⟩
      · exact ⟨_, List.mem_cons_self, hfirst.2⟩
      · obtain ⟨y, hy, hxy⟩ := hle x hx
        exact ⟨y, List.mem_cons_of_mem _ hy, hxy⟩

end

/-- What a reduction does on a pair: REDSUM adds, REDMAX takes the greater. -/
def VInstr.onPair (i : VInstr) (v : VAcc) (n a b : Nat) : Nat × VAcc := v.lane (vtype i.type) i.sw i.sel i.slot (if i.vop = 0x18 then 0 else 8) n a b 0

/-- The elements of the register that a reduction of one register reads. -/
def VInstr.sources (i : VInstr) (k : Core) : List Nat :=
  (List.range (laneCount (vtype i.type).width)).map (fun l => laneOf (vtype i.type).width (k.vr i.va) l)

theorem vecReduce_one (s : State) (c : Nat) {i : VInstr} (v : VAcc) (hn : i.nreg = 1) : let r := treeOf i.onPair v 8 (i.sources (s.core c))
    s.vecReduce c i v = (s.setCore c ((s.core c).setVr i.vd (r.1 % 2 ^ (vtype i.type).width))).endVector c r.2 := by
  unfold State.vecReduce
  rw [hn]
  rfl

section
variable {i : VInstr} {k : Core} {w : Nat} {sg : Bool}

theorem sources_int (ht : vtype i.type = .int w sg) : i.sources k = (List.range (2048 / w)).map (fun l => laneOf w (k.vr i.va) l) := by
  unfold VInstr.sources
  rw [ht]
  rfl

theorem mem_sources (ht : vtype i.type = .int w sg) {x : Nat} : x ∈ i.sources k ↔ ∃ l < 2048 / w, laneOf w (k.vr i.va) l = x := by
  rw [sources_int ht]
  simp only [List.mem_map, List.mem_range]

theorem sources_ne_nil (i : VInstr) (k : Core) : i.sources k ≠ [] ∧ (i.sources k).length ≤ 2 ^ 8 := by
  have hl : (i.sources k).length = laneCount (vtype i.type).width := by simp [VInstr.sources]
  have all : ∀ t < 8, 0 < laneCount (vtype t).width ∧ laneCount (vtype t).width ≤ 2 ^ 8 := by decide
  have hc : 0 < laneCount (vtype i.type).width ∧ laneCount (vtype i.type).width ≤ 2 ^ 8 := by
    rcases Nat.lt_or_ge i.type 8 with h | h
    · exact all _ h
    · rw [show vtype i.type = vtype 0 from List.getD_eq_default _ _ h]
      exact all 0 (by decide)
  rw [← hl] at hc
  exact ⟨List.length_pos_iff.1 hc.1, hc.2⟩

/-- REDSUM of integers without SW is the sum of the lanes modulo 2^w. -/
theorem treeOf_sources_sum (v : VAcc) (ht : vtype i.type = .int w sg) (hop : i.vop = 0x18) (hsw : i.sw = false) :
    (treeOf i.onPair v 8 (i.sources k)).1 % 2 ^ w = (i.sources k).sum % 2 ^ w := by
  have hadd : ∀ v n a b, (i.onPair v n a b).1 % 2 ^ w = (a + b) % 2 ^ w := fun v n a b => by
    have hres : (i.onPair v n a b).1 = ((intVal w sg a + intVal w sg b) % (2 ^ w : Nat)).toNat := by
      unfold VInstr.onPair
      rw [ht, hop, hsw]
      rfl
    rw [hres, Int.add_emod, intVal_emod, intVal_emod, ← Int.natCast_add, ← Int.natCast_emod, Int.toNat_natCast, Nat.mod_mod, ← Nat.add_mod]
  have h := treeOf_keeps (R := fun ys => ys.sum % 2 ^ w = (i.sources k).sum % 2 ^ w) (fun v xs h => (sum_pairUp hadd 0 v xs).trans h) 8 v _
    (sources_ne_nil i k).1 (sources_ne_nil i k).2 rfl
  simpa using h

/-- REDMAX of integers is a lane, and no lane is greater. -/
theorem treeOf_sources_max (v : VAcc) (ht : vtype i.type = .int w sg) (hop : i.vop = 0x19) :
    (treeOf i.onPair v 8 (i.sources k)).1 ∈ i.sources k ∧ ∀ x ∈ i.sources k, intVal w sg x ≤ intVal w sg (treeOf i.onPair v 8 (i.sources k)).1 := by
  have hmax : ∀ v n a b, (i.onPair v n a b).1 = if intVal w sg a < intVal w sg b then b else a := fun v n a b => by
    unfold VInstr.onPair
    rw [ht, hop]
    rfl
  have h := treeOf_keeps (op := i.onPair) (R := fun ys => (∀ y ∈ ys, y ∈ i.sources k) ∧ ∀ x ∈ i.sources k, ∃ y ∈ ys, intVal w sg x ≤ intVal w sg y) ?_ 8 v _
    (sources_ne_nil i k).1 (sources_ne_nil i k).2 ⟨fun _ h => h, fun x h => ⟨x, h, Int.le_refl _⟩⟩
  · simpa using h
  · rintro v xs ⟨hmem, hle⟩
    obtain ⟨hmem', hle'⟩ := max_pairUp hmax 0 v xs
    refine ⟨fun y hy => hmem y (hmem' y hy), fun x hx => ?_⟩
    obtain ⟨y, hy, hxy⟩ := hle x hx
    obtain ⟨z, hz, hyz⟩ := hle' y hy
    exact ⟨z, hz, Int.le_trans hxy hyz⟩

end

/-! ## SRFW (R161) -/

theorem mem_foldl_wr {α : Type} (a v : α → Nat) (s : State) (l : List α) : (l.foldl (fun s x => s.wr (a x) (v x)) s).mem = s.mem := by
  induction l generalizing s with
  | nil => rfl
  | cons x l ih => exact ih _

/-- Registers at distinct addresses, written one after another, hold what was written to each. -/
theorem rd_foldl_wr {a : Nat → Nat} (ha : ∀ m n, a m = a n → m = n) (v : Nat → Nat) (s : State) {m n : Nat} (h : n < m) :
    ((List.range m).foldl (fun s n => s.wr (a n) (v n)) s).rd (a n) = v n % 2 ^ 32 := by
  induction m with
  | zero => exact absurd h (Nat.not_lt_zero n)
  | succ m ih =>
    rw [List.range_succ, List.foldl_append, List.foldl_cons, List.foldl_nil]
    rcases Nat.lt_succ_iff_lt_or_eq.1 h with hlt | rfl
    · rw [State.rd_wr_other _ _ fun he => absurd (ha _ _ he) (Nat.ne_of_lt hlt), ih hlt]
    · exact State.rd_wr_same ..

theorem rd_vecSrfw (s : State) (c : Nat) {i : VInstr} {n : Nat} (h : n < 64 * i.nreg) :
    (s.vecSrfw c i).rd (CO_SRF c (natBits 0 13 i.imm + n)) = laneOf 32 ((s.core c).vr (i.va + n / 64)) (n % 64) :=
  (rd_foldl_wr (a := fun n => CO_SRF c (natBits 0 13 i.imm + n)) (fun m n he => by unfold CO_SRF at he; omega) _ s h).trans
    (Nat.mod_eq_of_lt (laneOf_lt ..))

/-! ## ST (R197, R260) -/

theorem postSev_changes {cls : Nat} (h : ¬(cls = 0x02 ∨ cls = 0x1B)) (s : State) (sev st src d : Nat) :
    ∃ r e, s.postSev cls sev st src d = { s with regs := r, events := e } := by
  unfold State.postSev
  dsimp only
  rw [if_neg h]
  split
  · split <;> exact ⟨_, _, rfl⟩
  · split <;> exact ⟨_, _, rfl⟩
  · exact ⟨_, _, rfl⟩

/-- Non-finite values are counted, told of, and may veto the pound. -/
theorem nonfinite_changes (s : State) (c k n : Nat) : ∃ r e l, s.nonfinite c k n = { s with regs := r, events := e, lock := l } := by
  unfold State.nonfinite
  split
  · exact ⟨_, _, _, rfl⟩
  · dsimp only
    split
    · exact ⟨_, _, _, rfl⟩
    · obtain ⟨r, e, h⟩ := postSev_changes (cls := 0x18) (by decide) ((s.bump (CO_NF_CNT c k) n).bump (KP_NF_POUND k) n) (classSev 0x18) stOK
        (((s.bump (CO_NF_CNT c k) n).bump (KP_NF_POUND k) n).src c) k
      rw [State.post, h]
      split <;> exact ⟨_, _, _, rfl⟩

/-- The bytes that ST stores. -/
def VInstr.stored (i : VInstr) (k : Core) : List Byte := (List.range i.nreg).flatMap (fun r => toBytes 256 (k.vr (i.va + r)))

theorem stored_length (i : VInstr) (k : Core) : (i.stored k).length = 256 * i.nreg := by
  simp [VInstr.stored, Nat.mul_comm]

theorem vecSt_clean {s : State} {c : Nat} {i : VInstr} (he : s.ecc = []) (hr : s.basinReach i.addr (256 * i.nreg) = stOK) :
    ∃ n, s.vecSt c i = (stOK, (s.setBytes i.addr (i.stored (s.core c))).nonfinite c 0 n) := by
  have hw := unitWr_clean s i.addr (i.stored (s.core c)) he (by rw [stored_length, hr])
  have hb : ((List.range i.nreg).map (fun r => (s.core c).vr (i.va + r))).flatMap (fun x => toBytes 256 x) = i.stored (s.core c) := List.flatMap_map ..
  unfold State.vecSt
  dsimp only
  rw [hb, hw]
  exact ⟨_, rfl⟩

/-! ## LDB of one barge (R93, R161) -/

theorem bytes_of_mem {s t : State} (h : t.mem = s.mem) (a n : Nat) : t.bytes a n = s.bytes a n := by
  induction n generalizing a with
  | zero => rfl
  | succ n ih => rw [State.bytes, State.bytes, ih, State.byte, State.byte, h]

theorem barge_of_mem {s t : State} (h : t.mem = s.mem) (a j : Nat) : t.barge a j = s.barge a j := by
  rw [State.barge, State.barge, State.load, State.load, bytes_of_mem h, bytes_of_mem h]

theorem vr_foldl_setVr (d : Nat) (f : Nat → Nat) (k : Core) {m q : Nat} (h : q < m) :
    ((List.range m).foldl (fun k q => k.setVr (d + q) (f q)) k).vr (d + q) = f q % 2 ^ 2048 := by
  induction m with
  | zero => exact absurd h (Nat.not_lt_zero q)
  | succ m ih =>
    rw [List.range_succ, List.foldl_append, List.foldl_cons, List.foldl_nil]
    rcases Nat.lt_succ_iff_lt_or_eq.1 h with hlt | rfl
    · rw [vr_setVr_other _ _ (by omega), ih hlt]
    · exact vr_setVr_same ..

section
variable {i : VInstr} {b : Barge} {rm : Rnd} {l : Nat} {x : Dy}

theorem loadBarge_get (v : VAcc) (base : Nat) (hl : l < fmtCount b.fmt) (hx : b.value l = .fin x) (hsel : i.sel = some rm) :
    (v.loadBarge i b base).1[l]? = some (fp32F.round rm x false).1 := by
  unfold VAcc.loadBarge
  refine lanesFrom_get v hl fun v => ?_
  rw [hx, hsel]
  rfl

/-- Lane `l` of a barge's elements, spread over registers of 64. -/
theorem laneOf_loadBarge (v : VAcc) (base : Nat) (hl : l < fmtCount b.fmt) (hx : b.value l = .fin x) (hsel : i.sel = some rm) :
    laneOf 32 (packLanes 32 ((((v.loadBarge i b base).1.drop (64 * (l / 64))).take 64)) % 2 ^ 2048) (l % 64) = (fp32F.round rm x false).1 % 2 ^ 32 := by
  refine laneOf_packLanes_mod ?_ ?_
  · rw [List.getElem?_take_of_lt (Nat.mod_lt l (by decide)), List.getElem?_drop, Nat.div_add_mod, loadBarge_get v base hl hx hsel]
  · have := List.length_take_le 64 ((v.loadBarge i b base).1.drop (64 * (l / 64)))
    omega

end

theorem mul_bargeRegs (fmt : Nat) : 64 * bargeRegs fmt = fmtCount fmt := by
  unfold bargeRegs fmtCount
  split_ifs <;> rfl

/-- The registers of a barge, loaded. -/
def Core.withBarge (k : Core) (i : VInstr) (b : Barge) (v : VAcc) : Core :=
  (List.range (bargeRegs b.fmt)).foldl (fun k q => k.setVr (i.vd + 0 + q) (packLanes 32 (((v.loadBarge i b (64 * 0)).1.drop (64 * q)).take 64))) k

theorem vecLdb_one (s : State) (c : Nat) {i : VInstr} (v : VAcc) (hfit : i.vd + bargeRegs (s.barge i.addr 0).fmt ≤ 32) : s.vecLdb c i 0 0 v 1
    = (stOK, s.modCore c (fun k => k.withBarge i (s.barge i.addr 0) v), (v.loadBarge i (s.barge i.addr 0) (64 * 0)).2) := by
  unfold State.vecLdb
  dsimp only
  rw [if_neg (by omega)]
  rfl

theorem laneOf_withBarge {k : Core} {i : VInstr} {b : Barge} {rm : Rnd} {l : Nat} {x : Dy} (v : VAcc) (hl : l < fmtCount b.fmt)
    (hx : b.value l = .fin x) (hsel : i.sel = some rm) : laneOf 32 ((k.withBarge i b v).vr (i.vd + l / 64)) (l % 64) = (fp32F.round rm x false).1 % 2 ^ 32 :=
  (congrArg (laneOf 32 · (l % 64)) (vr_foldl_setVr _ _ k (by have := mul_bargeRegs b.fmt; omega))).trans (laneOf_loadBarge v _ hl hx hsel)

/-! ## What they leave -/

theorem elem_mod_register {t x : Nat} (h : x < 2 ^ (vtype t).width) : x % 2 ^ 2048 = x := by
  have hw : (vtype t).width ≤ 2048 := Nat.le_of_dvd (by decide) ⟨_, (width_mul_laneCount t).2.symm⟩
  exact Nat.mod_eq_of_lt (Nat.lt_of_lt_of_le h (Nat.pow_le_pow_right Nat.two_pos hw))

section
variable {s u : State} {c : Nat} {i : VInstr} (hm : u.mem = s.mem) (hk : ∀ r, (u.core c).vr r = (s.core c).vr r)
include hm hk

/-- A CVT of one register between types of integers leaves the converted lanes in its destination (R130, R131). -/
theorem vecCvt_leaves {w w' : Nat} {sg sg' : Bool} (seq st : Nat) (v : VAcc) (hn : i.nreg = 1) (ht : vtype i.type = .int w sg)
    (ht' : vtype (i.imm % 8) = .int w' sg') : let r := Core.vecCvt i u.free 0 (u.core c) v i.nreg
    let t := ((({ u with free := u.free + i.nreg } : State).setCore c r.1).endVector c r.2).held c seq st
    t.mem = s.mem ∧ (∀ r, r ≠ i.vd → (t.core c).vr r = (s.core c).vr r) ∧ ∀ l : Nat, l < laneCount w → l < laneCount w' →
      laneOf w' ((t.core c).vr i.vd) l = elemOf w' sg' (i.sw && decide (w' < w)) (intVal w sg (laneOf w ((s.core c).vr i.va) l)) := by
  intro r
  rw [show r.1 = _ from vecCvt_one u.free (u.core c) v hn]
  obtain ⟨hmem, hother, hd⟩ := destination_holds (u := { u with free := u.free + i.nreg }) i.vd _ seq st r.2 hm hk
  exact ⟨hmem, hother, fun l hl hl' => by rw [hd, laneOf_converted _ _ _ ht ht' hl hl', hk]⟩

/-- A reduction of one register of integers leaves what the tree gives in lane 0, and zeros above. -/
theorem vecReduce_leaves (seq st : Nat) (v : VAcc) (hn : i.nreg = 1) : let t := (u.vecReduce c i v).held c seq st
    t.mem = s.mem ∧ (∀ r, r ≠ i.vd → (t.core c).vr r = (s.core c).vr r)
      ∧ (t.core c).vr i.vd = (treeOf i.onPair v 8 (i.sources (s.core c))).1 % 2 ^ (vtype i.type).width := by
  have hs : i.sources (u.core c) = i.sources (s.core c) := by
    unfold VInstr.sources
    rw [hk]
  rw [vecReduce_one u c v hn, hs]
  obtain ⟨hmem, hother, hd⟩ := destination_holds i.vd ((treeOf i.onPair v 8 (i.sources (s.core c))).1 % 2 ^ (vtype i.type).width) seq st
    (treeOf i.onPair v 8 (i.sources (s.core c))).2 hm hk
  exact ⟨hmem, hother, hd.trans (elem_mod_register (Nat.mod_lt _ (Nat.two_pow_pos _)))⟩

/-- Lanes stand in scale registers in a row (R161). -/
theorem vecSrfw_leaves (seq st : Nat) : let t := (u.vecSrfw c i).held c seq st
    t.mem = s.mem ∧ ∀ n, n < 64 * i.nreg → t.rd (CO_SRF c (natBits 0 13 i.imm + n)) = laneOf 32 ((s.core c).vr (i.va + n / 64)) (n % 64) := by
  refine ⟨?_, fun n hn => ?_⟩
  · rw [held_mem, State.vecSrfw, mem_foldl_wr, hm]
  · rw [rd_held_other _ _ (by unfold CO_SRF CO_QDEPTH; omega) (by unfold CO_SRF CO_UNIT_BUSY; omega), rd_vecSrfw _ _ hn, hk]

end

/-- The elements of one barge stand in the registers of 64 from the destination on (R93). -/
theorem vecLdb_leaves {s u : State} {c : Nat} {i : VInstr} {rm : Rnd} (hm : u.mem = s.mem) (seq st : Nat) (v : VAcc) (hn : i.nreg = 1)
    (hsel : i.sel = some rm) (hfit : i.vd + bargeRegs (s.barge i.addr 0).fmt ≤ 32) :
    let r := u.vecLdb c i 0 0 v i.nreg
    let t := (r.2.1.endVector c r.2.2).held c seq st
    t.mem = s.mem ∧ ∀ (l : Nat) (x : Dy), l < fmtCount (s.barge i.addr 0).fmt → (s.barge i.addr 0).value l = .fin x →
      laneOf 32 ((t.core c).vr (i.vd + l / 64)) (l % 64) = (fp32F.round rm x false).1 % 2 ^ 32 := by
  rw [← barge_of_mem hm i.addr 0] at hfit ⊢
  rw [hn, vecLdb_one u c v hfit]
  refine ⟨?_, fun l x hl hx => ?_⟩
  · rw [held_mem, endVector_mem, State.modCore, State.setCore_mem, hm]
  · rw [held_vr, endVector_vr, core_modCore_same, laneOf_withBarge v hl hx hsel]

/-- The registers stand in memory, and no other byte of it and no register changes (R197). -/
theorem vecSt_leaves {s u : State} {c : Nat} {i : VInstr} (seq : Nat) (hm : u.mem = s.mem) (hk : (u.core c).vreg = (s.core c).vreg) (he : u.ecc = [])
    (hr : u.basinReach i.addr (256 * i.nreg) = stOK) : let r := u.vecSt c i
    let t := r.2.held c seq r.1
    Stores s t i.addr (i.stored (s.core c)) ∧ (t.core c).vreg = (s.core c).vreg := by
  have hb : i.stored (u.core c) = i.stored (s.core c) := by
    unfold VInstr.stored Core.vr
    rw [hk]
  obtain ⟨n, hst⟩ := vecSt_clean (c := c) he hr
  obtain ⟨g, e, k, hnf⟩ := nonfinite_changes (u.setBytes i.addr (i.stored (u.core c))) c 0 n
  rw [hst, hnf, hb]
  refine ⟨stores_of_mem_eq (stores_setBytes i.addr (i.stored (s.core c)) hm) (held_mem ..), ?_⟩
  rw [held_vreg, ← hk, State.setBytes_eq]
  rfl

theorem vectorMovesLeaveTheirResults : VectorMovesLeaveTheirResults := by
  obtain ⟨cvt, redsum, redmax, srfw, -, vst, ldb, -⟩ := vectorMovesAndReductionsComplete
  unfold VectorMovesLeaveTheirResults
  intro val at_ core t i s k
  have hval : ∀ {w a : Nat} (sg : Bool), 0 < w → a < 2 ^ w → intVal w sg a = val w sg a := fun sg hw ha => intVal_of_lt sg hw ha
  have hpos : ∀ {w : Nat} {sg : Bool}, vtype i.type = .int w sg → 0 < w := fun ht =>
    Nat.lt_of_lt_of_eq (width_mul_laneCount i.type).1 (congrArg VType.width ht)
  refine ⟨?_, ?_, ?_, ?_, ?_, ?_⟩
  · rintro w w' sg sg' ⟨hi, hv, hb, hop⟩ hn ht ht'
    obtain ⟨hm, hr, hd⟩ := vecCvt_leaves (queued_mem s core _) (queued_vr s core core _) (entryOf s core (t.asVector 0x0C)).seq stOK _ hn ht ht'
    exact ⟨_, cvt i core t s hi ⟨hv, hop, hb⟩, hm, hr, fun l hl hl' => hval sg (hpos ht) (laneOf_lt ..) ▸ hd l hl hl'⟩
  · rintro w sg ⟨hi, hv, hb, hop⟩ hn hsw ht
    obtain ⟨hm, hr, hd⟩ := vecReduce_leaves (queued_mem s core _) (queued_vr s core core _) (entryOf s core (t.asVector 0x18)).seq stOK _ hn
    refine ⟨_, redsum i core t s hi ⟨hv, hop, hb⟩, hm, hr, hd.trans ?_⟩
    rw [ht, ← sources_int ht]
    exact treeOf_sources_sum _ ht hop hsw
  · rintro w sg ⟨hi, hv, hb, hop⟩ hn ht
    obtain ⟨hm, hr, hd⟩ := vecReduce_leaves (queued_mem s core _) (queued_vr s core core _) (entryOf s core (t.asVector 0x19)).seq stOK _ hn
    obtain ⟨hmem, hmax⟩ := treeOf_sources_max (k := k) ⟨0, 0, (s.queued core (t.asVector 0x19)).streams core⟩ ht hop
    obtain ⟨l, hl, hlane⟩ := (mem_sources ht).1 hmem
    rw [ht, ← hlane, VType.width, Nat.mod_eq_of_lt (laneOf_lt ..)] at hd
    refine ⟨_, redmax i core t s hi ⟨hv, hop, hb⟩, hm, hr, ⟨l, hl, hd⟩, fun l' hl' => ?_⟩
    have hle := hmax _ ((mem_sources ht).2 ⟨l', hl', rfl⟩)
    rw [← hlane, hval sg (hpos ht) (laneOf_lt ..), hval sg (hpos ht) (laneOf_lt ..)] at hle
    exact Int.le_trans hle (Int.le_of_eq (congrArg (val w sg) hd.symm))
  · rintro ⟨hi, hv, hb, hop⟩
    exact ⟨_, srfw i core t s hi ⟨hv, hop, hb⟩, vecSrfw_leaves (queued_mem ..) (queued_vr s core core _) _ _⟩
  · rintro ⟨hi, hv, hb, hop⟩ hr he
    exact ⟨_, vst i core t s hi ⟨hv, hop, hb, hr, he⟩,
      vecSt_leaves _ (queued_mem ..) (queued_vreg ..) ((queued_ecc ..).trans he) ((basinReach_queued ..).trans hr)⟩
  · rintro rm ⟨hi, hv, hb, hop⟩ hn hsel u hck hvalid hfit
    refine ⟨_, ldb i core t s hi ⟨hv, hop, hb, ?_, ?_⟩, vecLdb_leaves (queued_mem ..) _ _ _ hn hsel hfit⟩
    · rw [hn]
      exact hck
    · have hfit' : i.vd + bargeRegs ((s.queued core (t.asVector 0x22)).barge i.addr 0).fmt ≤ 32 := by
        rw [barge_of_mem (queued_mem ..)]
        exact hfit
      rw [hn]
      exact congrArg Prod.fst (vecLdb_one _ _ _ hfit')

/-- Settles O31: each command runs its entry at once, and what it leaves is read off one register, the reduction tree, the words of SRFW or the bytes stored. -/
theorem vectorInstructionsComplete : Obligations.VectorInstructionsComplete :=
  ⟨vectorOperationsComplete, vectorMovesAndReductionsComplete, vectorMovesLeaveTheirResults⟩

end Sys2Proof.Machine
end
section
/-! PROOFS. The six kinds of MOVE: a MOVE runs at once on an idle core, and past its checks its unit does the copy of its kind (R152, R175, R199). -/

namespace Sys2Proof.Machine

theorem queueOf_asMove (t : TileWords) (kind : Nat) : queueOf (t.asMove kind) = 4 := by
  unfold queueOf
  rw [asMove_cls]
  rfl

/-- A MOVE command runs its entry at once on an idle core. -/
theorem unitRuns_move {mk : CoreId → TileWords → Instr} {kind : Nat} {work : CoreId → QEntry → State → Nat × State}
    {good : CoreId → QEntry → State → Prop} (he : ∀ core t s, exec (mk core t) s = .next (s.issueTile core.val (t.asMove kind)))
    (hw : ∀ (core : CoreId) (t : TileWords) (s : State), good core (entryOf s core (t.asMove kind)) s →
      (s.queued core (t.asMove kind)).runMove core (entryOf s core (t.asMove kind)) = work core (entryOf s core (t.asMove kind)) (s.queued core (t.asMove kind))) :
    UnitRuns mk (·.asMove kind) work good :=
  unitRuns_of_runEntry mk _ work good he (fun core t s _ hg => runEntry_move.trans (hw core t s hg))
    fun _ t _ _ _ => .inl (by rw [queueOf_asMove]; decide)

/-- The words of `n` scale registers in a row are 4 bytes each. -/
theorem length_scaleBytes (f : Nat → Nat) (n : Nat) : ((List.range n).flatMap (fun i => toBytes 4 (f i))).length = 4 * n := by
  simp only [List.length_flatMap, toBytes_length, List.map_const', List.length_range, List.sum_replicate, smul_eq_mul, Nat.mul_comm]

/-- Settles O33: past its checks a MOVE does the work of its kind (`runMove_good`); a range of a basin that is reached and holds no upset word is read and
written as it stands. -/
theorem movesComplete : Obligations.MovesComplete := by
  unfold Obligations.MovesComplete
  refine ⟨unitRuns_move (fun _ _ _ => rfl) fun _ _ _ hg => runMove_good (by decide) hg,
    unitRuns_move (fun _ _ _ => rfl) fun _ _ _ hg => runMove_good (by decide) hg, unitRuns_move (fun _ _ _ => rfl) ?_, unitRuns_move (fun _ _ _ => rfl) ?_, unitRuns_move (fun _ _ _ => rfl) ?_,
    unitRuns_move (fun _ _ _ => rfl) fun _ _ _ hg => runMove_good (by decide) hg⟩
  · rintro core t s ⟨hg, hfrom, hto, hecc⟩
    refine (runMove_good (by decide) hg).trans ?_
    rw [if_neg (by decide), if_neg (by decide), if_pos rfl, unitRd_clean _ _ _ ((queued_ecc ..).trans hecc) ((basinReach_queued ..).trans hfrom)]
    exact unitWr_clean _ _ _ ((queued_ecc ..).trans hecc) (by rw [State.bytes_length]; exact (basinReach_queued ..).trans hto)
  · rintro core t s ⟨hg, hfrom, hecc⟩
    refine (runMove_good (by decide) hg).trans ?_
    rw [if_neg (by decide), if_neg (by decide), if_neg (by decide), if_pos rfl,
      unitRd_clean _ _ _ ((queued_ecc ..).trans hecc) ((basinReach_queued ..).trans hfrom)]
    rfl
  · rintro core t s ⟨hg, hto, hecc⟩
    refine (runMove_good (by decide) hg).trans ?_
    rw [if_neg (by decide), if_neg (by decide), if_neg (by decide), if_neg (by decide), if_pos rfl]
    exact unitWr_clean _ _ _ ((queued_ecc ..).trans hecc) (by rw [length_scaleBytes]; exact (basinReach_queued ..).trans hto)

end Sys2Proof.Machine
end
section
/-! PROOFS. Fences, acknowledged writes, and the queues' own events: how a FENCE or a CLAIM is issued, what a FENCE past its checks does, and how an entry
leaves its queue (R135, R173, R177, R202, R203). -/

namespace Sys2Proof.Machine

/-! ## The tiller of one core goes on or waits (R173) -/

section
variable {s t : State} {c n : Nat}

theorem coreBecomes_advance (s : State) (c n : Nat) : CoreBecomes s (s.advance c n) c { s.core c with pc := (s.core c).pc + n, stall := .none } :=
  coreBecomes_modCore _ (coreBecomes_refl s c)

theorem coreBecomes_result (s : State) (c d v n : Nat) :
    CoreBecomes s (s.result c d v n) c { (s.core c).wg d v with pc := (s.core c).pc + n, stall := .none } := by
  have h := coreBecomes_modCore (fun k => { k with pc := k.pc + n, stall := .none }) (coreBecomes_modCore (fun k => k.wg d v) (coreBecomes_refl s c))
  rw [wg_pc] at h
  exact h

/-- A tiller that waits for nothing has no wait to end. -/
theorem retry_of_free (h : (s.core c).stall = .none) : s.retry c = s := by
  unfold State.retry
  split
  · rfl
  · dsimp only
    rw [h]

theorem retry_of_tile {w : TileWords} (hr : s.tstate c = 1) (h : (s.core c).stall = .tile w) : s.retry c = (s.runOwn c w).getD s := by
  unfold State.retry
  rw [if_neg (by rw [hr]; decide)]
  dsimp only
  rw [h]

end

/-! ## A FENCE or a CLAIM is issued (R175, R202, R205) -/

section
variable {s u : State} {c : Nat} {w : TileWords}

theorem asOwn_cls (t : TileWords) (cls kind : Nat) : (t.asOwn cls kind).cls = cls % 64 := by
  unfold TileWords.asOwn TileWords.cls
  rw [put0_f0_other _ _ _ _ _ _ (by decide) (by decide)]
  exact asClass_cls _ _

theorem asOwn_kind (t : TileWords) (cls kind : Nat) : (t.asOwn cls kind).f0 24 2 = kind % 4 := put0_f0_same _ _ _ _ (by decide)

theorem runOwn_claim (h : w.cls = 0x34) : s.runOwn c w = s.runClaim c w := if_pos h

theorem runOwn_asClaim (t : TileWords) (kind : Nat) : s.runOwn c (t.asOwn 0x34 kind) = s.runClaim c (t.asOwn 0x34 kind) := runOwn_claim (asOwn_cls ..)

theorem runOwn_asFence (t : TileWords) (kind : Nat) : s.runOwn c (t.asOwn 0x36 kind) = s.runFence c (t.asOwn 0x36 kind) :=
  if_neg (by rw [asOwn_cls]; decide)

theorem issueOwn_acts (hr : Ready s c 16) (h : s.runOwn c w = some u) : s.issueOwn c w = u := by
  rw [State.issueOwn, issue_ready hr, h, Option.getD_some]

theorem issueOwn_waits (hr : Ready s c 16) (h : s.runOwn c w = none) : s.issueOwn c w = s.modCore c (fun k => { k with stall := .tile w }) := by
  rw [State.issueOwn, issue_ready hr, h, Option.getD_none]

end

/-! ## Fences (R202, R203) -/

section
variable {s : State} {c : Nat} {w : TileWords}

/-- A FENCE with no reserved field set, whose WAITM is met (R176, R178, R202). -/
def State.FenceClean (s : State) (c : Nat) (w : TileWords) : Prop :=
  w.f0 0 16 = 0 ∧ w.w1 = 0#32 ∧ w.w2 = 0#32 ∧ w.f3 0 24 = 0 ∧ (s.core c).emptyQs w.waitm = true

/-- A clean FENCE goes on where its condition holds, an EOP into the end of the program, and waits where it does not. -/
theorem runFence_clean {kind : Nat} (h : s.FenceClean c w) (hk : w.f0 24 2 = kind) (ht : kind = 3 → s.rf (CO_TSTATUS c) CO_TSTATUS_TOKENS = 0) :
    s.runFence c w = if s.fenceMet c kind (w.f0 16 8) then
      some (if kind = 3 then (s.advance c 16).wf (CO_TSTATUS c) CO_TSTATUS_STATE 2 else s.advance c 16) else none := by
  obtain ⟨hlow, hw1, hw2, hw3, hwait⟩ := h
  unfold State.runFence
  dsimp only
  rw [hk, hwait, if_neg (by decide), if_neg (by simp [hlow, hw1, hw2, hw3]), if_neg fun h => h.2 (ht h.1)]
  cases s.fenceMet c kind (w.f0 16 8) <;> rfl

/-- A FENCE that is no EOP goes on, or stalls the tiller. -/
theorem fence_completes {mk : Instr} {t : TileWords} {kind : Nat} (he : exec mk s = .next (s.issueOwn c (t.asOwn 0x36 kind))) (hk : kind < 3)
    (hr : Ready s c 16) (h : s.FenceClean c (t.asOwn 0x36 kind)) :
    (s.fenceMet c kind ((t.asOwn 0x36 kind).f0 16 8) = true →
      ∃ u : State, exec mk s = .next u ∧ CoreBecomes s u c { s.core c with pc := (s.core c).pc + 16, stall := .none })
    ∧ (s.fenceMet c kind ((t.asOwn 0x36 kind).f0 16 8) = false →
      ∃ u : State, exec mk s = .next u ∧ CoreBecomes s u c { s.core c with stall := .tile (t.asOwn 0x36 kind) }) := by
  have hrun := runFence_clean h ((asOwn_kind ..).trans (Nat.mod_eq_of_lt (Nat.lt_succ_of_lt hk))) fun h3 => absurd h3 (Nat.ne_of_lt hk)
  rw [if_neg (Nat.ne_of_lt hk)] at hrun
  constructor <;> intro hm <;> rw [hm] at hrun
  · exact ⟨_, he.trans (congrArg _ (issueOwn_acts hr ((runOwn_asFence ..).trans hrun))), coreBecomes_advance s c 16⟩
  · exact ⟨_, he.trans (congrArg _ (issueOwn_waits hr ((runOwn_asFence ..).trans hrun))), coreBecomes_modCore _ (coreBecomes_refl s c)⟩

/-- EOP with no token held ends the program. -/
theorem fenceEop_completes {core : CoreId} {t : TileWords} (hr : Ready s core 16) (h : s.FenceClean core (t.asOwn 0x36 3))
    (hm : s.fenceMet core 3 ((t.asOwn 0x36 3).f0 16 8) = true) (ht : s.rf (CO_TSTATUS core) CO_TSTATUS_TOKENS = 0) :
    exec (.fenceEop core t) s = .next ((s.advance core 16).wf (CO_TSTATUS core) CO_TSTATUS_STATE 2) := by
  have hrun := runFence_clean h (asOwn_kind t 0x36 3) fun _ => ht
  rw [hm] at hrun
  exact congrArg Host.Outcome.next (issueOwn_acts hr ((runOwn_asFence ..).trans hrun))

/-! ## Acknowledged writes (R202) -/

/-- An acknowledged write of a tiller counts no more; a tiller that waits for nothing does nothing else. -/
theorem writeAcknowledged_tiller {core : CoreId} {m : Ident} (hl : s.isLocal m = true) (hm : masterOf m.num.toNat = .tiller core)
    (h : (s.core core).stall = .none) (remote : Bool) : exec (.writeAcknowledged m remote) s = .next (s.setCore core
      (if remote then { s.core core with unackedRemote := (s.core core).unackedRemote - 1 } else { s.core core with unacked := (s.core core).unacked - 1 })) := by
  show execWriteAcknowledged m remote s = _
  unfold execWriteAcknowledged
  rw [hl, if_neg (by decide), hm]
  refine congrArg Host.Outcome.next (retry_of_free ?_)
  rw [State.core_setCore_same]
  cases remote <;> exact h

/-- An acknowledged write of a wharf's engine counts no more; no tiller waits for it. -/
theorem writeAcknowledged_wharf {m : Ident} {e : Nat} (hl : s.isLocal m = true) (hm : masterOf m.num.toNat = .engine e) (he : 2048 ≤ e) :
    exec (.writeAcknowledged m false) s = .next (s.setEngine e { s.engine e with unacked := (s.engine e).unacked - 1 }) := by
  have hc : engineCore e = none := if_neg (Nat.not_lt.2 he)
  show execWriteAcknowledged m false s = _
  unfold execWriteAcknowledged
  rw [hl, if_neg (by decide), hm]
  dsimp only
  rw [hc]
  rfl

end

theorem fencesComplete : FencesComplete := by
  intro core t s k clean
  refine ⟨fun hr => ⟨fun x hx => ?_, fun hc hm ht => ?_⟩, fun m hl hm hk => ⟨?_, ?_⟩, fun m e hl hm he => writeAcknowledged_wharf hl hm he⟩
  · simp only [List.mem_cons, List.not_mem_nil, or_false] at hx
    obtain rfl | rfl | rfl := hx
    · exact fun hc => fence_completes (kind := 0) rfl (by decide) hr hc
    · exact fun hc => fence_completes (kind := 1) rfl (by decide) hr hc
    · exact fun hc => fence_completes (kind := 2) rfl (by decide) hr hc
  · obtain ⟨-, hcore, hother⟩ := coreBecomes_advance s core 16
    exact ⟨_, fenceEop_completes hr hc hm ht, hcore, rf_wf_fits (by decide) (by decide), hother,
      ((RegsBut.refl s _).of_regs rfl).wf (List.mem_singleton_self _) _ _, rfl⟩
  · exact ⟨_, writeAcknowledged_tiller hl hm hk false, coreBecomes_setCore ..⟩
  · exact ⟨_, writeAcknowledged_tiller hl hm hk true, coreBecomes_setCore ..⟩

/-! ## The queues' own events (R135, R177) -/

section
variable {s : State} {c : Nat}

theorem lastSt_setLastSt {q : Nat} (hq : q < 8) {st : Nat} (hst : st < 256) : (s.setLastSt c q st).lastSt c q = st := by
  unfold State.setLastSt State.lastSt
  split
  · exact rf_wf_fits (show 8 * q + 8 ≤ 32 by omega) hst
  · exact rf_wf_fits (show 8 * (q - 4) + 8 ≤ 32 by omega) hst

theorem lt_of_informational {st : Nat} (h : stInformational st = true) : st < 256 := by
  simp only [stInformational, List.contains_iff_mem, List.mem_cons, List.not_mem_nil, or_false] at h
  omega

/-- The registers that show a core's queues (R169, R212). -/
def queueShown (c : Nat) : List Nat := [CO_QDEPTH c, CO_UNIT_BUSY c, CO_LASTST_0 c, CO_LASTST_1 c]

theorem regsBut_syncQueues (s : State) (c : Nat) : RegsBut s (s.syncQueues c) [CO_QDEPTH c, CO_UNIT_BUSY c] :=
  ((RegsBut.refl s _).wr (List.mem_cons_self ..) _).wr (by simp) _

theorem lastSt_syncQueues (s : State) (c q : Nat) : (s.syncQueues c).lastSt c q = s.lastSt c q := by
  have h0 : CO_LASTST_0 c ∉ [CO_QDEPTH c, CO_UNIT_BUSY c] := by simp [CO_LASTST_0, CO_QDEPTH, CO_UNIT_BUSY]
  have h1 : CO_LASTST_1 c ∉ [CO_QDEPTH c, CO_UNIT_BUSY c] := by simp [CO_LASTST_1, CO_QDEPTH, CO_UNIT_BUSY]
  unfold State.lastSt
  rw [(regsBut_syncQueues s c).rf h0, (regsBut_syncQueues s c).rf h1]

theorem regsBut_setLastSt (s : State) (c q st : Nat) : RegsBut s (s.setLastSt c q st) (queueShown c) := by
  unfold State.setLastSt
  split <;> exact (RegsBut.refl s _).wf (by simp [queueShown]) _ _

theorem onlyRegs_setLastSt (s : State) (c q st : Nat) : OnlyRegs s (s.setLastSt c q st) := by
  unfold State.setLastSt
  split <;> exact ⟨_, rfl⟩

theorem onlyRegs_wr (s : State) (a v : Nat) : OnlyRegs s (s.wr a v) := ⟨_, rfl⟩

theorem onlyRegs_syncQueues (s : State) (c : Nat) : OnlyRegs s (s.syncQueues c) := (onlyRegs_wr s (CO_QDEPTH c) _).trans (onlyRegs_wr _ (CO_UNIT_BUSY c) _)

theorem OnlyRegs.core {t : State} (h : OnlyRegs s t) (d : Nat) : t.core d = s.core d := by
  obtain ⟨_, rfl⟩ := h
  rfl

/-- No queue of the core holds an entry that could start. -/
theorem kick_of_empty (h : (s.core c).queue = []) : s.kick c = s.syncQueues c := by
  unfold State.kick
  rw [h]
  rfl

/-- An instruction that is alone in its core's queues, and ends with no fault, leaves its status; nothing starts, and no wait ends. -/
theorem completeEntry_alone {e : QEntry} {st : Nat} (hq : (s.core c).queue = [e]) (hi : stInformational st = true) (hk : (s.core c).stall = .none) :
    s.completeEntry c e st = ((s.setCore c { s.core c with queue := [] }).setLastSt c e.q st).syncQueues c := by
  have hmod : s.modCore c (fun k => { k with queue := k.queue.filter (fun x => x.seq != e.seq) }) = s.setCore c { s.core c with queue := [] } := by
    unfold State.modCore
    simp [hq]
  have hcore : ((s.setCore c { s.core c with queue := [] }).setLastSt c e.q st).core c = { s.core c with queue := [] } :=
    (onlyRegs_setLastSt ..).core c |>.trans (State.core_setCore_same ..)
  unfold State.completeEntry
  dsimp only
  rw [hmod, if_pos hi, kick_of_empty (congrArg Core.queue hcore)]
  exact retry_of_free ((congrArg Core.stall (((onlyRegs_syncQueues ..).core c).trans hcore)).trans hk)

/-- The one entry of the core's queues is what INSTRUCTION_COMPLETE ends. -/
theorem instructionComplete_alone {core : CoreId} {q : Fin 8} {e : QEntry} (hq : (s.core core).queue = [e]) (he : e.q = q.val) (hs : e.started = true) :
    exec (.instructionComplete core ⟨q, e.second⟩) s = .next (s.completeEntry core e e.status) := by
  have hf : oldest (((s.core core).inQ q).filter (fun x => x.started && x.second == e.second)) = some e := by
    simp [Core.inQ, hq, he, hs, oldest]
  show execInstructionComplete core ⟨q, e.second⟩ s = _
  unfold execInstructionComplete
  rw [hf]

/-- A stalled instruction of a tile unit enters its queue, which has room again. -/
theorem issueResume_enqueues {core : CoreId} {e : QEntry} (hk : (s.core core).stall = .queueFull e) (hs : s.tstate core = 1)
    (hl : ((s.core core).inQ e.q).length < 8) (hq : e.q < 5) :
    exec (.issueResume core) s = .next (s.enqueue core { e with seq := (s.core core).seq } 16) := by
  show execIssueResume core s = _
  unfold execIssueResume
  dsimp only
  rw [hk]
  dsimp only
  rw [if_pos ⟨hs, hl⟩, if_pos hq]

end

theorem queueEventsComplete : QueueEventsComplete := by
  intro core q e s k
  refine ⟨fun hq he hs hi hk => ?_, issueResume_enqueues⟩
  have hset := onlyRegs_setLastSt (s.setCore core { k with queue := [] }) core e.q e.status
  have hall := hset.trans (onlyRegs_syncQueues _ core)
  refine ⟨_, (instructionComplete_alone hq he hs).trans (congrArg _ (completeEntry_alone hq hi hk)), ?_, fun c hc => ?_, ?_, ?_, ?_⟩
  · exact (hall.core core).trans (State.core_setCore_same ..)
  · exact (hall.core c).trans (State.core_setCore_other _ _ hc)
  · rw [lastSt_syncQueues, he]
    exact lastSt_setLastSt q.isLt (lt_of_informational hi)
  · have hshown : RegsBut s (s.setCore core { k with queue := [] }) (queueShown core) := (RegsBut.refl s _).of_regs rfl
    exact (hshown.trans (regsBut_setLastSt _ core e.q e.status)).trans ((regsBut_syncQueues _ core).mono (by simp [queueShown]))
  · obtain ⟨r, hr⟩ := hall
    rw [hr]
    rfl

end Sys2Proof.Machine
end
section
/-! PROOFS. Claims: which registers an index that is issued or handed in moves, what a CLAIM past its checks does, and the completion of TAKE and DONE (R205
to R208). -/

namespace Sys2Proof.Machine

/-! ## The registers of a claim counter (R205) -/

section
variable {s t : State} {c die ctr : Nat} {dev : Bool}

/-- A counter that exists: a device-wide one, or one of a compute die (R205). -/
def CounterExists (dev : Bool) (die ctr : Nat) : Prop := (dev = true → ctr < 16) ∧ die < 16 ∧ ctr < 64

theorem claimReg_offTm (h : CounterExists dev die ctr) {k : Nat} (hk : k < 4) : OffTm (claimReg dev die ctr k) := by
  obtain ⟨hdev, -, -⟩ := h
  unfold OffTm claimReg KP_CLAIM_ARMING CD_CLAIM_ARMING kpBase cdBase tmBase pwBase
  cases dev
  · right
    simp only [Bool.false_eq_true, if_false]
    omega
  · left
    have := hdev rfl
    simp only [if_true]
    omega

theorem claimReg_lt_coBase (h : CounterExists dev die ctr) {k : Nat} (hk : k < 4) : claimReg dev die ctr k < coBase c := by
  obtain ⟨-, hdie, hctr⟩ := h
  unfold claimReg KP_CLAIM_ARMING CD_CLAIM_ARMING kpBase cdBase coBase
  cases dev <;> simp only [Bool.false_eq_true, if_true, if_false] <;> omega

theorem claimReg_ne {j k : Nat} (h : j ≠ k) : claimReg dev die ctr j ≠ claimReg dev die ctr k := by
  unfold claimReg
  omega

/-- The registers that a CLAIM moves: the counter's PROGRESS and HELD, and the core's tokens (R206 to R208). -/
def claimMoved (dev : Bool) (die ctr c : Nat) : List Nat := [claimReg dev die ctr 1, claimReg dev die ctr 3, CO_TSTATUS c]

theorem claimReg_ne_tstatus (h : CounterExists dev die ctr) {k : Nat} (hk : k < 4) : claimReg dev die ctr k ≠ CO_TSTATUS c :=
  Nat.ne_of_lt (Nat.lt_of_lt_of_le (claimReg_lt_coBase h hk) (Nat.le_add_right _ _))

theorem offTm_of_claimMoved (h : CounterExists dev die ctr) {a : Nat} (ha : a ∈ claimMoved dev die ctr c) : OffTm a := by
  simp only [claimMoved, List.mem_cons, List.not_mem_nil, or_false] at ha
  obtain rfl | rfl | rfl := ha
  · exact claimReg_offTm h (by decide)
  · exact claimReg_offTm h (by decide)
  · exact offTm_co c _

theorem arming_not_claimMoved (h : CounterExists dev die ctr) : claimReg dev die ctr 0 ∉ claimMoved dev die ctr c := by
  simp only [claimMoved, List.mem_cons, List.not_mem_nil, or_false, not_or]
  exact ⟨claimReg_ne (by decide), claimReg_ne (by decide), claimReg_ne_tstatus h (by decide)⟩

/-- The working epoch and a counter's arming stand in registers that no CLAIM moves. -/
theorem epochW_of_claimMoved (h : CounterExists dev die ctr) (hr : RegsBut s t (claimMoved dev die ctr c)) : t.epochW = s.epochW := by
  refine congrArg (· + 1) (hr.rdWide fun i hi hm => ?_)
  have hoff := offTm_of_claimMoved h hm
  unfold OffTm TM_EPOCH_0 tmBase pwBase at hoff
  omega

/-! ## Indices issued and handed in (R206 to R208) -/

/-- `t` is `s` but for the registers that a CLAIM moves and for the indices of the counters. -/
def ClaimMoves (s t : State) (dev : Bool) (die ctr c : Nat) : Prop :=
  RegsBut s t (claimMoved dev die ctr c) ∧ ∃ r x, t = { s with regs := r, claims := x }

theorem ClaimMoves.wf (h : ClaimMoves s t dev die ctr c) {a : Nat} (ha : a ∈ claimMoved dev die ctr c) (f : Fld) (v : Nat) :
    ClaimMoves s (t.wf a f v) dev die ctr c := by
  obtain ⟨hr, r, x, rfl⟩ := h
  exact ⟨hr.wf ha f v, _, _, rfl⟩

theorem ClaimMoves.setClaim (h : ClaimMoves s t dev die ctr c) (key : Nat) (x : Claim) : ClaimMoves s (t.setClaim key x) dev die ctr c := by
  obtain ⟨hr, r, y, rfl⟩ := h
  exact ⟨hr.of_regs rfl, _, _, rfl⟩

theorem ClaimMoves.refl (s : State) (dev : Bool) (die ctr c : Nat) : ClaimMoves s s dev die ctr c := ⟨RegsBut.refl s _, _, _, rfl⟩

theorem rf_bumpF_same {a : Nat} {f : Fld} (hf : f.lo + f.width ≤ 32) (n : Nat) : (s.bumpF a f n).rf a f = satAdd (2 ^ f.width - 1) (s.rf a f) n :=
  rf_wf_fits hf (Nat.lt_of_le_of_lt (Nat.min_le_left ..) (Nat.sub_one_lt (Nat.two_pow_pos _).ne'))

/-- Index `i` of a counter issued once more and held by a core (R208). -/
def Claim.issued (x : Claim) (c i : Nat) : Claim :=
  { x with issue := spPut 0 x.issue i ((spGet 0 x.issue i + 1) % 16), holder := spPut 0 x.holder i (c + 1) }

theorem issue_issued (x : Claim) (c i : Nat) : spGet 0 (x.issued c i).issue i = (spGet 0 x.issue i + 1) % 16 := spGet_put_same 0 x.issue i _

theorem holder_issued (x : Claim) (c i : Nat) : spGet 0 (x.issued c i).holder i = c + 1 := spGet_put_same 0 x.holder i (c + 1)

/-- The state that issues an index (R208). -/
def State.indexIssued (s : State) (c : Nat) (dev : Bool) (die ctr i : Nat) : State :=
  ((s.setClaim (claimKey dev die ctr) ((s.claim (claimKey dev die ctr)).issued c i)).bumpF (claimReg dev die ctr 3) KP_CLAIM_HELD_OUTSTANDING 1).bumpF
    (CO_TSTATUS c) CO_TSTATUS_TOKENS 1

theorem claim_indexIssued (i : Nat) : (s.indexIssued c dev die ctr i).claim (claimKey dev die ctr) = (s.claim (claimKey dev die ctr)).issued c i :=
  spGet_put_same ..

theorem regsBut_setClaim (s : State) (key : Nat) (x : Claim) (l : List Nat) : RegsBut s (s.setClaim key x) l := (RegsBut.refl s l).of_regs rfl

theorem regsBut_indexIssued (i : Nat) : RegsBut s (s.indexIssued c dev die ctr i) [claimReg dev die ctr 3, CO_TSTATUS c] :=
  ((regsBut_setClaim s _ _ _).wf (List.mem_cons_self ..) _ _).wf (by simp) _ _

theorem ClaimMoves.issued (h : ClaimMoves s t dev die ctr c) (i : Nat) : ClaimMoves s (t.indexIssued c dev die ctr i) dev die ctr c :=
  ((h.setClaim _ _).wf (by simp [claimMoved]) _ _).wf (by simp [claimMoved]) _ _

/-- An index that is issued comes with a token of the counter's arming and the working epoch (R206). -/
theorem issueIndex_eq (h : CounterExists dev die ctr) (i : Nat) : s.issueIndex c dev die ctr i
    = (mkToken i ((spGet 0 (s.claim (claimKey dev die ctr)).issue i + 1) % 16) ctr dev (s.claimArm dev die ctr) s.epochW, s.indexIssued c dev die ctr i) := by
  have hr : RegsBut s (s.indexIssued c dev die ctr i) (claimMoved dev die ctr c) := ((ClaimMoves.refl ..).issued i).1
  have harm : (s.indexIssued c dev die ctr i).claimArm dev die ctr = s.claimArm dev die ctr := hr.rf (arming_not_claimMoved h) _
  rw [← harm, ← epochW_of_claimMoved h hr]
  rfl

/-- Below their limit a core's tokens rise by one with an index that is issued. -/
theorem tokens_indexIssued (h : CounterExists dev die ctr) (ht : s.rf (CO_TSTATUS c) CO_TSTATUS_TOKENS < 4) (i : Nat) :
    (s.indexIssued c dev die ctr i).rf (CO_TSTATUS c) CO_TSTATUS_TOKENS = s.rf (CO_TSTATUS c) CO_TSTATUS_TOKENS + 1 := by
  refine (rf_bumpF_same (by decide) 1).trans ?_
  have hheld : ((s.setClaim (claimKey dev die ctr) ((s.claim (claimKey dev die ctr)).issued c i)).bumpF (claimReg dev die ctr 3) KP_CLAIM_HELD_OUTSTANDING 1).rf
      (CO_TSTATUS c) CO_TSTATUS_TOKENS = s.rf (CO_TSTATUS c) CO_TSTATUS_TOKENS := State.rf_wf_other _ _ _ _ (claimReg_ne_tstatus h (by decide)).symm
  rw [hheld]
  exact Nat.min_eq_right (Nat.le_trans (Nat.succ_le_of_lt ht) (by decide))

/-- The state that hands in index `i` (R208): the core holds it no more, and the counter has one more done. -/
def State.indexDone (s : State) (c : Nat) (dev : Bool) (die ctr i : Nat) : State :=
  let x := s.claim (claimKey dev die ctr)
  let t := (s.setClaim (claimKey dev die ctr) { x with holder := spPut 0 x.holder i 0 }).bumpF (claimReg dev die ctr 1) KP_CLAIM_PROGRESS_DONE 1
  let t := t.wf (claimReg dev die ctr 3) KP_CLAIM_HELD_OUTSTANDING (t.claimOut dev die ctr - 1)
  t.wf (CO_TSTATUS c) CO_TSTATUS_TOKENS (t.rf (CO_TSTATUS c) CO_TSTATUS_TOKENS - 1)

/-- A token that a DONE accepts (R206, R208). -/
def State.TokenGood (s : State) (c tok : Nat) (dev : Bool) (die ctr : Nat) : Prop :=
  let x := s.claim (claimKey dev die ctr)
  let i := natBits 0 16 tok
  natBits 56 8 tok = 0 ∧ natBit 26 tok = dev ∧ natBits 20 6 tok = ctr ∧ i < s.claimLimit dev die ctr ∧ natBits 32 24 tok = s.epochW % 2 ^ 24
    ∧ natBits 27 5 tok = s.claimArm dev die ctr ∧ natBits 16 4 tok = spGet 0 x.issue i ∧ spGet 0 x.holder i = c + 1

theorem claimDone_good {tok : Nat} (h : s.TokenGood c tok dev die ctr) : s.claimDone c tok dev die ctr = (stOK, s.indexDone c dev die ctr (natBits 0 16 tok)) := by
  obtain ⟨hres, hdev, hctr, hindex, hepoch, harm, hissue, hholder⟩ := h
  refine if_neg ?_
  simp only [hres, hdev, hctr, Nat.not_le.2 hindex, hepoch, harm, hissue, hholder, ne_eq, not_true_eq_false, or_self, not_false_eq_true]

theorem claimDone_stale {tok : Nat} (h : ¬s.TokenGood c tok dev die ctr) : s.claimDone c tok dev die ctr = (stCLAIM_STALE, s) := by
  refine if_pos ?_
  unfold State.TokenGood at h
  simpa only [not_and_or, Nat.not_lt] using h

theorem claimMoves_indexDone (i : Nat) : ClaimMoves s (s.indexDone c dev die ctr i) dev die ctr c :=
  ((((ClaimMoves.refl ..).setClaim _ _).wf (by simp [claimMoved]) _ _).wf (by simp [claimMoved]) _ _).wf (by simp [claimMoved]) _ _

theorem holder_indexDone (i : Nat) : spGet 0 ((s.indexDone c dev die ctr i).claim (claimKey dev die ctr)).holder i = 0 := by
  have hx : (s.indexDone c dev die ctr i).claim (claimKey dev die ctr)
      = { s.claim (claimKey dev die ctr) with holder := spPut 0 (s.claim (claimKey dev die ctr)).holder i 0 } := spGet_put_same ..
  rw [hx]
  exact spGet_put_same 0 (s.claim (claimKey dev die ctr)).holder i 0

theorem done_indexDone (h : CounterExists dev die ctr) (i : Nat) : (s.indexDone c dev die ctr i).rf (claimReg dev die ctr 1) KP_CLAIM_PROGRESS_DONE
    = satAdd (2 ^ KP_CLAIM_PROGRESS_DONE.width - 1) (s.rf (claimReg dev die ctr 1) KP_CLAIM_PROGRESS_DONE) 1 :=
  (State.rf_wf_other _ _ _ _ (claimReg_ne_tstatus h (by decide))).trans ((State.rf_wf_other _ _ _ _ (claimReg_ne (by decide))).trans (rf_bumpF_same (by decide) 1))

theorem tokens_indexDone (h : CounterExists dev die ctr) (i : Nat) :
    (s.indexDone c dev die ctr i).rf (CO_TSTATUS c) CO_TSTATUS_TOKENS = s.rf (CO_TSTATUS c) CO_TSTATUS_TOKENS - 1 := by
  refine (rf_wf_fits (by decide) (Nat.lt_of_le_of_lt (Nat.sub_le ..) (rf_lt _))).trans ?_
  rw [State.rf_wf_other _ _ _ _ (claimReg_ne_tstatus h (by decide)).symm]
  exact congrArg (· - 1) (State.rf_wf_other _ _ _ _ (claimReg_ne_tstatus h (by decide)).symm)

/-! ## Claims (R205 to R208) -/

/-- A CLAIM with no reserved field set, of a counter that is armed, whose WAITM is met (R176, R178, R205). -/
def State.ClaimClean (s : State) (c : Nat) (w : TileWords) : Prop :=
  w.f0 16 1 = 0 ∧ w.f0 0 6 = 0 ∧ w.w1 = 0#32 ∧ w.w2 = 0#32 ∧ w.f3 0 24 = 0 ∧ (s.core c).emptyQs w.waitm = true
    ∧ (natBit 23 w.w0.toNat = true → w.f0 17 6 < 16) ∧ s.claimLimit (natBit 23 w.w0.toNat) (c / 64) (w.f0 17 6) ≠ 0

theorem counterExists_of_clean {core : CoreId} {w : TileWords} (h : s.ClaimClean core w) : CounterExists (natBit 23 w.w0.toNat) (core.val / 64) (w.f0 17 6) := by
  obtain ⟨-, -, -, -, -, -, hdev, -⟩ := h
  exact ⟨hdev, Nat.div_lt_of_lt_mul core.isLt, Nat.mod_lt _ (Nat.two_pow_pos 6)⟩

theorem limit_of_clean {w : TileWords} (h : s.ClaimClean c w) : s.claimLimit (natBit 23 w.w0.toNat) (c / 64) (w.f0 17 6) ≠ 0 := by
  obtain ⟨-, -, -, -, -, -, -, hlim⟩ := h
  exact hlim

/-- A clean CLAIM is a TAKE or a DONE. -/
theorem runClaim_clean {w : TileWords} (h : s.ClaimClean c w) (hk : w.f0 24 2 ≤ 1) : s.runClaim c w =
    if w.f0 24 2 = 0 then
      if s.takeChoice c (natBit 23 w.w0.toNat) (c / 64) (w.f0 17 6) = .fault then some (s.selfFault c stBAD_OPCODE)
      else (s.takeIndex c (natBit 23 w.w0.toNat) (c / 64) (w.f0 17 6)).map (fun r => r.2.result c (w.f0 11 5) r.1 16)
    else if !s.fenceMet c 1 0 then none
    else
      let r := s.claimDone c ((s.core c).rg (w.f0 6 5)) (natBit 23 w.w0.toNat) (c / 64) (w.f0 17 6)
      some (r.2.result c (w.f0 11 5) r.1 16) := by
  obtain ⟨hres, hlow, hw1, hw2, hw3, hwait, hdev, hlim⟩ := h
  have hok : ¬(natBit 23 w.w0.toNat = true ∧ 16 ≤ w.f0 17 6) := fun h => Nat.not_le.2 (hdev h.1) h.2
  unfold State.runClaim
  dsimp only
  rw [hwait, if_neg (by decide),
    if_neg (by simp only [Nat.not_lt.2 hk, hres, hlow, hw1, hw2, hw3, hok, hlim, ne_eq, not_true_eq_false, or_self, not_false_eq_true])]

theorem takeChoice_fresh (hl : s.claimLimit dev die ctr ≠ 0) (ht : s.rf (CO_TSTATUS c) CO_TSTATUS_TOKENS < 4)
    (hx : (s.claim (claimKey dev die ctr)).reclaim = []) (hn : s.rf (claimReg dev die ctr 1) KP_CLAIM_PROGRESS_NEXT < s.claimLimit dev die ctr) :
    s.takeChoice c dev die ctr = .fresh (s.rf (claimReg dev die ctr 1) KP_CLAIM_PROGRESS_NEXT) := by
  unfold State.takeChoice
  dsimp only
  rw [if_neg (not_or.2 ⟨hl, Nat.ne_of_lt ht⟩), hx]
  exact if_pos hn

/-- A TAKE with indices left, and none on the reclaim list, issues the next one (R208). -/
theorem takeIndex_fresh (hex : CounterExists dev die ctr) (hl : s.claimLimit dev die ctr ≠ 0) (ht : s.rf (CO_TSTATUS c) CO_TSTATUS_TOKENS < 4)
    (hx : (s.claim (claimKey dev die ctr)).reclaim = []) (hn : s.rf (claimReg dev die ctr 1) KP_CLAIM_PROGRESS_NEXT < s.claimLimit dev die ctr) :
    let next := s.rf (claimReg dev die ctr 1) KP_CLAIM_PROGRESS_NEXT
    s.takeIndex c dev die ctr = some (mkToken next ((spGet 0 (s.claim (claimKey dev die ctr)).issue next + 1) % 16) ctr dev (s.claimArm dev die ctr) s.epochW,
      (s.wf (claimReg dev die ctr 1) KP_CLAIM_PROGRESS_NEXT (next + 1)).indexIssued c dev die ctr next) := by
  intro next
  have hr : RegsBut s (s.wf (claimReg dev die ctr 1) KP_CLAIM_PROGRESS_NEXT (next + 1)) (claimMoved dev die ctr c) :=
    (RegsBut.refl s _).wf (List.mem_cons_self ..) _ _
  have harm : (s.wf (claimReg dev die ctr 1) KP_CLAIM_PROGRESS_NEXT (next + 1)).claimArm dev die ctr = s.claimArm dev die ctr :=
    hr.rf (arming_not_claimMoved hex) _
  unfold State.takeIndex
  rw [takeChoice_fresh hl ht hx hn, ← harm, ← epochW_of_claimMoved hex hr]
  exact congrArg some (issueIndex_eq hex next)

/-- What it leaves: NEXT and the core's tokens one higher, the index's issue number one higher, and the core as its holder. -/
theorem take_leaves (hex : CounterExists dev die ctr) (ht : s.rf (CO_TSTATUS c) CO_TSTATUS_TOKENS < 4) {i : Nat} (hi : i < s.claimLimit dev die ctr) :
    let t := (s.wf (claimReg dev die ctr 1) KP_CLAIM_PROGRESS_NEXT (i + 1)).indexIssued c dev die ctr i
    ClaimMoves s t dev die ctr c ∧ t.rf (claimReg dev die ctr 1) KP_CLAIM_PROGRESS_NEXT = i + 1
      ∧ t.rf (CO_TSTATUS c) CO_TSTATUS_TOKENS = s.rf (CO_TSTATUS c) CO_TSTATUS_TOKENS + 1
      ∧ t.claim (claimKey dev die ctr) = (s.claim (claimKey dev die ctr)).issued c i := by
  have htok : (s.wf (claimReg dev die ctr 1) KP_CLAIM_PROGRESS_NEXT (i + 1)).rf (CO_TSTATUS c) CO_TSTATUS_TOKENS = s.rf (CO_TSTATUS c) CO_TSTATUS_TOKENS :=
    State.rf_wf_other _ _ _ _ (claimReg_ne_tstatus hex (by decide)).symm
  have hnot : claimReg dev die ctr 1 ∉ [claimReg dev die ctr 3, CO_TSTATUS c] := by
    simp only [List.mem_cons, List.not_mem_nil, or_false, not_or]
    exact ⟨claimReg_ne (by decide), claimReg_ne_tstatus hex (by decide)⟩
  refine ⟨((ClaimMoves.refl ..).wf (List.mem_cons_self ..) _ _).issued i, ?_, ?_, claim_indexIssued i⟩
  · rw [(regsBut_indexIssued i).rf hnot]
    exact rf_wf_fits (by decide) (Nat.lt_of_le_of_lt (Nat.succ_le_of_lt hi) (rf_lt KP_CLAIM_ARMING_LIMIT))
  · rw [tokens_indexIssued hex (by rw [htok]; exact ht), htok]

/-- A TAKE that waits looks again at its counter when it is resumed. -/
theorem claimTakeResume_retries {core : CoreId} {w : TileWords} (hk : (s.core core).stall = .tile w) (hcls : w.cls = 0x34) (hkind : w.f0 24 2 = 0) :
    exec (.claimTakeResume core) s = .next (s.retry core) := by
  show execClaimTakeResume core s = _
  unfold execClaimTakeResume
  rw [hk]
  exact if_pos ⟨hcls, hkind⟩

theorem result_rf (s : State) (c d v n a : Nat) (f : Fld) : (s.result c d v n).rf a f = s.rf a f := rfl

theorem result_claim (s : State) (c d v n key : Nat) : (s.result c d v n).claim key = s.claim key := rfl

/-- What a CLAIM leaves that goes on with a result: the core has it, and what the claim moves is as the claim left it. -/
theorem result_of_claimMoves (h : ClaimMoves s t dev die ctr c) (d v : Nat) : let u := t.result c d v 16
    u.core c = { (s.core c).wg d v with pc := (s.core c).pc + 16, stall := .none } ∧ (∀ e : Nat, e ≠ c → u.core e = s.core e)
      ∧ RegsBut s u (claimMoved dev die ctr c) ∧ u = { s with cores := u.cores, regs := u.regs, claims := u.claims } := by
  obtain ⟨hr, r, x, rfl⟩ := h
  obtain ⟨-, hcore, hother⟩ := coreBecomes_result { s with regs := r, claims := x } c d v 16
  exact ⟨hcore, hother, hr.of_regs rfl, rfl⟩

end

theorem claimsComplete : ClaimsComplete := by
  intro core t s k die clean goesOn
  refine ⟨fun hr => ⟨?_, ?_⟩, fun w u hs hk hcls hkind hu => ?_⟩
  · intro w dev ctr x next n hc ht hx hn
    have hex : CounterExists dev die ctr := counterExists_of_clean hc
    have hkind : w.f0 24 2 = 0 := asOwn_kind t 0x34 0
    have hlim : s.claimLimit dev die ctr ≠ 0 := limit_of_clean hc
    have hrun := runClaim_clean hc (hkind.trans_le (Nat.zero_le 1))
    rw [if_pos hkind, takeChoice_fresh hlim ht hx hn, if_neg nofun, takeIndex_fresh hex hlim ht hx hn] at hrun
    obtain ⟨hmoves, hnext, htok, hclaim⟩ := take_leaves hex ht hn
    obtain ⟨hcore, hother, hregs, hu⟩ := result_of_claimMoves hmoves (w.f0 11 5) (mkToken next n ctr dev (s.claimArm dev die ctr) s.epochW)
    refine ⟨_, congrArg Host.Outcome.next (issueOwn_acts hr ((runOwn_asClaim ..).trans hrun)), hcore, (result_rf ..).trans hnext,
      (result_rf ..).trans htok, ?_, ?_, hother, hregs, hu⟩
    · exact (congrArg (fun y : Claim => spGet 0 y.issue next) ((result_claim ..).trans hclaim)).trans (issue_issued x core next)
    · exact (congrArg (fun y : Claim => spGet 0 y.holder next) ((result_claim ..).trans hclaim)).trans (holder_issued x core next)
  · intro w dev ctr x tok i good hc hm
    have hex : CounterExists dev die ctr := counterExists_of_clean hc
    have hkind : w.f0 24 2 = 1 := asOwn_kind t 0x34 1
    have hrun := runClaim_clean hc hkind.le
    rw [if_neg (by rw [hkind]; decide), hm, if_neg (by decide)] at hrun
    dsimp only at hrun
    refine ⟨fun hg => ?_, fun hg => ?_⟩
    · rw [claimDone_good hg] at hrun
      obtain ⟨hcore, hother, hregs, hu⟩ := result_of_claimMoves (claimMoves_indexDone (s := s) (c := core) (dev := dev) (die := die) (ctr := ctr) i)
        (w.f0 11 5) stOK
      exact ⟨_, congrArg Host.Outcome.next (issueOwn_acts hr ((runOwn_asClaim ..).trans hrun)), hcore, (result_rf ..).trans (done_indexDone hex i),
        (result_rf ..).trans (tokens_indexDone hex i),
        (congrArg (fun y : Claim => spGet 0 y.holder i) (result_claim ..)).trans (holder_indexDone i), hother, hregs, hu⟩
    · rw [claimDone_stale hg] at hrun
      exact ⟨_, congrArg Host.Outcome.next (issueOwn_acts hr ((runOwn_asClaim ..).trans hrun)), coreBecomes_result ..⟩
  · rw [claimTakeResume_retries hk hcls hkind, retry_of_tile hs hk, runOwn_claim hcls, hu, Option.getD_some]

/-- Settles O35: a FENCE or a CLAIM past its checks by `runFence_clean` and `runClaim_clean`, an index issued or handed in by what it leaves in the counter
and in the core's tokens, and an entry that ends alone in its queues by `completeEntry_alone`. -/
theorem fencesClaimsAndQueuesComplete : Obligations.FencesClaimsAndQueuesComplete := ⟨fencesComplete, claimsComplete, queueEventsComplete⟩

end Sys2Proof.Machine
end
section
/-! PROOFS. Programs: what a step leaves of the queue, and the fetch of a core's next word or tile instruction in its basin (R170, R172, R173, R175, R176). -/

namespace Sys2Proof.Machine

/-- What holds of the next state holds of the state that comes next. -/
theorem of_nextAnd {A : Prop} {o : Host.Outcome State Fault Refusal} {p : State → Prop} {t : State} (h : A → nextAnd o p) (ha : A) (e : o = .next t) : p t := by
  subst e
  exact h ha

theorem tick_of_nextCore {s : State} {c : CoreId} (h : s.nextCore = some c) : tick s = State.fetch { s with turn := c.val + 1 } c := by
  unfold tick
  rw [h]

theorem tick_of_idle {s : State} (h : s.nextCore = none) : tick s = .next s := by
  unfold tick
  rw [h]

/-- A step takes the command in front off the queue, and an idle block stays as it is. -/
theorem queueShrinksByOne : QueueShrinksByOne := by
  intro s t h
  cases hp : s.pending with
  | nil =>
    rw [step_of_empty hp] at h
    have hk : Keeps s t := of_nextAnd (@keeps_tick s s) (keeps_refl s) h
    exact ⟨hk.pending.trans hp, fun _ hn => (Host.Outcome.next.inj ((tick_of_idle hn).symm.trans h)).symm⟩
  | cons c rest =>
    rw [step_of_cons hp] at h
    have hk : Keeps { s with pending := rest } t := of_nextAnd (keeps_exec c) (keeps_refl _) h
    exact ⟨hk.pending, nofun⟩

/-! ## A fetched word runs (R172, R173, R175) -/

theorem scalarOf_tileOp (c : CoreId) {w : Word} (h : isTileOp (natBits 26 6 w.toNat) = true) : scalarOf c w = none := by
  have hop : 0x30 ≤ natBits 26 6 w.toNat ∧ natBits 26 6 w.toNat ≤ 0x36 := of_decide_eq_true h
  unfold scalarOf
  generalize natBits 26 6 w.toNat = op at hop
  obtain rfl | rfl | rfl | rfl | rfl | rfl | rfl : op = 0x30 ∨ op = 0x31 ∨ op = 0x32 ∨ op = 0x33 ∨ op = 0x34 ∨ op = 0x35 ∨ op = 0x36 := by omega
  all_goals rfl

section
variable {s : State} {c : CoreId}

theorem runWord_scalar {i : Instr} (h : scalarOf c (s.progWord c 0) = some i) : s.runWord c = exec i s := by
  have hop : isTileOp (natBits 26 6 (s.progWord c 0).toNat) ≠ true := fun ht => by simp [scalarOf_tileOp c ht] at h
  unfold State.runWord
  dsimp only
  rw [if_neg hop, h]

theorem runWord_tile (h : isTileOp (natBits 26 6 (s.progWord c 0).toNat) = true) : s.runWord c
    = .next (if (s.progTile c).cls = 0x34 ∨ (s.progTile c).cls = 0x36 then s.issueOwn c (s.progTile c) else s.issueTile c (s.progTile c)) := if_pos h

theorem runWord_unlisted (hop : isTileOp (natBits 26 6 (s.progWord c 0).toNat) = false) (h : scalarOf c (s.progWord c 0) = none) :
    s.runWord c = .next (s.selfFault c stBAD_OPCODE) := by
  unfold State.runWord
  dsimp only
  rw [hop, if_neg (by decide), h]

/-! ## The fetch (R170, R176) -/

/-- A range of a core's own basin is reached where the core is. -/
theorem basinReach_own {pc n : Nat} (hin : pc + n ≤ basinSize) (hup : s.coreUp c = true) : s.basinReach (c * basinSize + pc) n = stOK := by
  unfold State.basinReach
  split
  · rfl
  · rename_i hn
    have hlo : (c.val * basinSize + pc) / basinSize = c := by unfold basinSize at hin ⊢; omega
    have hhi : (c.val * basinSize + pc + n - 1) / basinSize = c := by unfold basinSize at hin ⊢; omega
    rw [hlo, hhi, hup]
    rfl

/-- An instruction that lies in the basin, with no upset word, is read and runs. -/
theorem fetch_inBasin (h4 : (s.core c).pc % 4 = 0) (hin : (s.core c).pc + 16 ≤ basinSize) (he : s.ecc = []) (hup : s.coreUp c = true) :
    s.fetch c = s.runWord c := by
  have hn : (if isTileOp (natBits 26 6 (s.progWord c 0).toNat) then 16 else 4) ≤ 16 := by split <;> decide
  unfold State.fetch
  dsimp only
  generalize (if isTileOp (natBits 26 6 (s.progWord c 0).toNat) then 16 else 4) = n at hn ⊢
  have hfits : ¬basinSize < (s.core c).pc + 4 := by omega
  have hfitsAll : ¬basinSize < (s.core c).pc + n := by omega
  rw [if_neg (not_not.2 h4), if_neg hfits, if_neg hfitsAll, unitRd_clean _ _ _ he (basinReach_own (Nat.not_lt.1 hfitsAll) hup)]
  rfl

end

theorem programsRunWordByWord : ProgramsRunWordByWord := by
  intro c s pc u hp hn h4 hin he hup
  have hstep : step s = u.runWord c := by
    rw [step_of_empty hp, tick_of_nextCore hn]
    exact fetch_inBasin h4 hin he hup
  exact ⟨fun i hi => hstep.trans (runWord_scalar hi), fun ht => hstep.trans (runWord_tile ht), fun ht hi => hstep.trans (runWord_unlisted ht hi)⟩

/-- Settles O2: the queue by what every command and every fetch keeps of it, and the word at a program counter by `fetch_inBasin` and the branches of `State.runWord`. -/
theorem stepTakesOneCommand : Obligations.StepTakesOneCommand := ⟨queueShrinksByOne, programsRunWordByWord⟩

end Sys2Proof.Machine
end
section
/-! PROOFS. The tiller's scalar instructions, branches, jumps, RDS and waits (R172 to R174). -/

namespace Sys2Proof.Machine

section
variable {s : State} {c : Nat}

/-! ## Results in a register (R172, R173) -/

theorem scalar_wrote (hr : Ready s c 4) (d : Nat) (f : Core → Nat) : Wrote s (s.scalar c d f) c d (f (s.core c)) := by
  rw [State.scalar, issue_ready hr]
  exact result_w64_wrote ..

theorem aluOp_listed {x y v : Dword} {fn : Nat}
    (h : (fn, v) ∈ [(0, x + y), (1, x - y), (2, x &&& y), (3, x ||| y), (4, x ^^^ y), (5, x <<< (y.toNat % 64)), (6, x >>> (y.toNat % 64)),
      (7, x.sshiftRight (y.toNat % 64)), (8, x * y), (9, if x.toInt < y.toInt then 1#64 else 0#64), (10, if x.toNat < y.toNat then 1#64 else 0#64)]) :
    aluOp fn x y = some v := by
  simp only [List.mem_cons, Prod.mk.injEq, List.not_mem_nil, or_false] at h
  obtain ⟨rfl, rfl⟩ | ⟨rfl, rfl⟩ | ⟨rfl, rfl⟩ | ⟨rfl, rfl⟩ | ⟨rfl, rfl⟩ | ⟨rfl, rfl⟩ | ⟨rfl, rfl⟩ | ⟨rfl, rfl⟩ | ⟨rfl, rfl⟩ | ⟨rfl, rfl⟩ | ⟨rfl, rfl⟩ := h
  case inr.inr.inr.inr.inr.inr.inr.inr.inr.inl => simp [aluOp, BitVec.slt]
  case inr.inr.inr.inr.inr.inr.inr.inr.inr.inr => simp [aluOp, BitVec.ult]
  all_goals rfl

theorem alu_runs {core : CoreId} (hr : Ready s core 4) (d : BitVec 5) {a b : BitVec 5} {fn : BitVec 11} {v : Dword}
    (hv : aluOp fn.toNat ((s.core core).rv a.toNat) ((s.core core).rv b.toNat) = some v) :
    ∃ t : State, exec (.alu core d a b fn) s = .next t ∧ Wrote s t core d.toNat v.toNat := by
  refine ⟨_, congrArg Host.Outcome.next ?_, result_wrote ..⟩
  rw [issue_ready hr]
  dsimp only
  rw [hv]

/-- SHI by its direction; the one without a meaning stops the core (R173). -/
theorem exec_shi {core : CoreId} (hr : Ready s core 4) (d a : BitVec 5) (imm : BitVec 16) : let v := (s.core core).rv a.toNat; let n := imm.toNat % 64
    exec (.shi core d a imm) s = .next (if imm.toNat / 64 % 4 = 0 then s.result core d.toNat (v <<< n).toNat 4
      else if imm.toNat / 64 % 4 = 1 then s.result core d.toNat (v >>> n).toNat 4
      else if imm.toNat / 64 % 4 = 2 then s.result core d.toNat (v.sshiftRight n).toNat 4
      else s.selfFault core stBAD_OPCODE) := congrArg Host.Outcome.next (issue_ready hr _)

theorem shi_runs {core : CoreId} (hr : Ready s core 4) (d : BitVec 5) {a : BitVec 5} {imm : BitVec 16} {v : Dword} (hv : let x := (s.core core).rv a.toNat
      (imm.toNat / 64 % 4, v) ∈ [(0, x <<< (imm.toNat % 64)), (1, x >>> (imm.toNat % 64)), (2, x.sshiftRight (imm.toNat % 64))]) :
    ∃ t : State, exec (.shi core d a imm) s = .next t ∧ Wrote s t core d.toNat v.toNat := by
  refine ⟨_, (exec_shi hr d a imm).trans (congrArg Host.Outcome.next ?_), result_wrote ..⟩
  simp only [List.mem_cons, Prod.mk.injEq, List.not_mem_nil, or_false] at hv
  obtain ⟨hd, rfl⟩ | ⟨hd, rfl⟩ | ⟨hd, rfl⟩ := hv <;> rw [hd] <;> rfl

end

/-- Settles O28: each immediate form writes by `scalar_wrote`; ALU by its table of operations, SHI by its direction. -/
theorem scalarInstructionsComplete : Obligations.ScalarInstructionsComplete := by
  intro core d a b fn imm s hr x y n
  exact ⟨fun v hv => alu_runs hr d (aluOp_listed hv), ⟨_, rfl, scalar_wrote hr ..⟩, ⟨_, rfl, scalar_wrote hr ..⟩, ⟨_, rfl, scalar_wrote hr ..⟩,
    ⟨_, rfl, scalar_wrote hr ..⟩, ⟨_, rfl, scalar_wrote hr ..⟩, fun v hv => shi_runs hr d hv, fun h3 => by rw [exec_shi hr, h3]; rfl⟩

/-! ## Branches and jumps (R173) -/

section
variable {s : State} {c : Nat}

theorem branch_goes (hr : Ready s c 4) (off : BitVec 16) (cond : Core → Bool) : CoreBecomes s (s.branch c off cond) c
    { s.core c with pc := if cond (s.core c) then wordsFrom (s.core c).pc off.toInt else (s.core c).pc + 4, stall := .none } := by
  rw [State.branch, issue_ready hr]
  dsimp only
  split
  · exact coreBecomes_modCore _ (coreBecomes_refl s c)
  · exact coreBecomes_advance s c 4

theorem link_goes (s : State) (c d target : Nat) : CoreBecomes s (s.link c d target) c
    { (s.core c).wg d ((s.core c).pc + 4) with pc := target, stall := .none } := coreBecomes_modCore _ (coreBecomes_refl s c)

end

/-- A branch command is a branch by a test that agrees with its rule. -/
theorem branchRuns_of_test {mk : CoreId → BitVec 5 → BitVec 5 → BitVec 16 → Instr} {test cond : Dword → Dword → Bool}
    (he : ∀ core a b off s, exec (mk core a b off) s = .next (s.branch core off (fun k => test (k.rv a.toNat) (k.rv b.toNat))))
    (ht : ∀ x y, test x y = cond x y) : BranchRuns mk cond := by
  intro core a b off s hr k
  obtain rfl : test = cond := funext fun x => funext (ht x)
  exact ⟨_, he .., branch_goes hr off _⟩

theorem branchesAndJumpsComplete : BranchesAndJumpsComplete := by
  refine ⟨branchRuns_of_test (fun _ _ _ _ _ => rfl) fun _ _ => rfl, branchRuns_of_test (fun _ _ _ _ _ => rfl) fun x y => ?_,
    branchRuns_of_test (fun _ _ _ _ _ => rfl) fun _ _ => rfl, branchRuns_of_test (test := fun x y => !x.slt y) (fun _ _ _ _ _ => rfl) fun x y => ?_,
    branchRuns_of_test (fun _ _ _ _ _ => rfl) fun _ _ => rfl, branchRuns_of_test (test := fun x y => !x.ult y) (fun _ _ _ _ _ => rfl) fun x y => ?_,
    fun core d off s hr => ?_, fun core d a imm s hr => ?_⟩
  · exact (decide_not (p := x = y)).symm
  · simp [BitVec.slt, ← decide_not]
  · simp [BitVec.ult, ← decide_not]
  · exact ⟨_, congrArg Host.Outcome.next (issue_ready hr _), link_goes ..⟩
  · exact ⟨_, congrArg Host.Outcome.next (issue_ready hr _), link_goes ..⟩

/-! ## Waits (R173, R174) -/

section
variable {s : State} {c : Nat}

theorem retry_of_waitq {mask : Nat} (hr : s.tstate c = 1) (h : (s.core c).stall = .waitq mask) :
    s.retry c = if (s.core c).emptyQs mask then s.advance c 4 else s := by
  unfold State.retry
  rw [if_neg (by rw [hr]; decide)]
  dsimp only
  rw [h]

theorem retry_of_statq {d q : Nat} (hr : s.tstate c = 1) (h : (s.core c).stall = .statq d q) :
    s.retry c = if ((s.core c).inQ q).isEmpty then s.result c d (s.lastSt c q) 4 else s := by
  unfold State.retry
  rw [if_neg (by rw [hr]; decide)]
  dsimp only
  rw [h]

theorem retry_of_wfe {limit : Nat} (hr : s.tstate c = 1) (h : (s.core c).stall = .wfe limit) :
    s.retry c = if (s.core c).wake then (s.modCore c (fun k => { k with wake := false })).advance c 4 else s := by
  unfold State.retry
  rw [if_neg (by rw [hr]; decide)]
  dsimp only
  rw [h]

/-- The tiller of a core waits. -/
def State.stalled (s : State) (c : Nat) (w : Stall) : State := s.modCore c (fun k => { k with stall := w })

theorem core_stalled (s : State) (c : Nat) (w : Stall) : (s.stalled c w).core c = { s.core c with stall := w } := core_modCore_same ..

theorem stalled_waits (s : State) (c : Nat) (w : Stall) : CoreBecomes s (s.stalled c w) c { s.core c with stall := w } :=
  coreBecomes_modCore _ (coreBecomes_refl s c)

/-- A tiller that stalls and goes on at once has only moved its program counter. -/
theorem stalled_advance (s : State) (c n : Nat) (w : Stall) :
    CoreBecomes s ((s.stalled c w).advance c n) c { s.core c with pc := (s.core c).pc + n, stall := .none } :=
  (coreBecomes_modCore (fun k => { k with pc := k.pc + n, stall := .none }) (stalled_waits s c w) :)

theorem wg_of_stalled (k : Core) (w : Stall) (d v : Nat) : ({ k with stall := w } : Core).wg d v = { k.wg d v with stall := w } := by
  unfold Core.wg
  split <;> rfl

/-- The same with a result. -/
theorem stalled_result (s : State) (c d v : Nat) (w : Stall) : Wrote s ((s.stalled c w).result c d v 4) c d v := by
  have h := coreBecomes_modCore (fun k => { k with pc := k.pc + 4, stall := .none }) (coreBecomes_modCore (fun k => k.wg d v) (stalled_waits s c w))
  rw [wg_of_stalled, wg_pc] at h
  exact h

theorem await_waitq (hr : s.tstate c = 1) (mask : Nat) : s.await c (.waitq mask)
    = if (s.core c).emptyQs mask then (s.stalled c (.waitq mask)).advance c 4 else s.stalled c (.waitq mask) := by
  have h := retry_of_waitq (s := s.stalled c (.waitq mask)) hr (by rw [core_stalled])
  rw [core_stalled] at h
  exact h

theorem await_statq (hr : s.tstate c = 1) (d q : Nat) : s.await c (.statq d q)
    = if ((s.core c).inQ q).isEmpty then (s.stalled c (.statq d q)).result c d (s.lastSt c q) 4 else s.stalled c (.statq d q) := by
  have h := retry_of_statq (s := s.stalled c (.statq d q)) hr (by rw [core_stalled])
  rw [core_stalled] at h
  exact h

theorem await_wfe (hr : s.tstate c = 1) (limit : Nat) : s.await c (.wfe limit)
    = if (s.core c).wake then ((s.stalled c (.wfe limit)).modCore c (fun k => { k with wake := false })).advance c 4 else s.stalled c (.wfe limit) := by
  have h := retry_of_wfe (s := s.stalled c (.wfe limit)) hr (by rw [core_stalled])
  rw [core_stalled] at h
  exact h

end

section
variable {s : State} {core : CoreId}

/-- The special values that R174 gives a number below 5. -/
theorem rds_runs (hr : Ready s core 4) (d : BitVec 5) {imm : BitVec 16} {v : Nat}
    (hv : (imm.toNat, v) ∈ [(0, core.val), (1, s.devId), (2, s.epochW), (3, s.now), (4, s.rf TM_SCHED_0 TM_SCHED_0_POUND_US)]) :
    ∃ t : State, exec (.rds core d imm) s = .next t ∧ Wrote s t core d.toNat v := by
  refine ⟨_, congrArg Host.Outcome.next ((issue_ready hr _).trans ?_), result_wrote ..⟩
  simp only [List.mem_cons, Prod.mk.injEq, List.not_mem_nil, or_false] at hv
  obtain ⟨hi, rfl⟩ | ⟨hi, rfl⟩ | ⟨hi, rfl⟩ | ⟨hi, rfl⟩ | ⟨hi, rfl⟩ := hv <;> rw [hi] <;> rfl

/-- The cycles since the pound's start are a free value. -/
theorem rds_draws (hr : Ready s core 4) (d : BitVec 5) {imm : BitVec 16} (hi : imm.toNat = 5) :
    exec (.rds core d imm) s = .next (s.draw.2.result core d.toNat (w64 s.draw.1) 4) := by
  refine congrArg Host.Outcome.next ((issue_ready hr _).trans ?_)
  rw [hi]
  rfl

theorem exec_waitq (hr : Ready s core 4) (imm : BitVec 16) : exec (.waitq core imm) s = .next (s.await core (.waitq (imm.toNat % 256))) :=
  congrArg Host.Outcome.next (issue_ready hr _)

theorem exec_statq (hr : Ready s core 4) (d : BitVec 5) (imm : BitVec 16) : exec (.statq core d imm) s = .next
    (if natBit (imm.toNat % 8) (s.core core).issued then s.await core (.statq d.toNat (imm.toNat % 8)) else s.result core d.toNat 0 4) :=
  congrArg Host.Outcome.next (issue_ready hr _)

theorem exec_wfe (hr : Ready s core 4) (a : BitVec 5) : exec (.wfe core a) s = .next
    (if (s.core core).rg a.toNat ≤ s.now then s.advance core 4 else s.await core (.wfe ((s.core core).rg a.toNat))) :=
  congrArg Host.Outcome.next (issue_ready hr _)

theorem exec_wfeTimeout {limit : Nat} (hr : s.tstate core = 1) (hk : (s.core core).stall = .wfe limit) (hl : limit ≤ s.now) :
    exec (.wfeTimeout core) s = .next (s.advance core 4) := by
  show execWfeTimeout core s = _
  unfold execWfeTimeout
  rw [if_neg (by rw [hr]; decide), hk]
  exact if_pos hl

end

theorem tillerWaitsComplete : TillerWaitsComplete := by
  intro core d a imm s k
  refine ⟨fun hr => ?_, fun limit ht hk hl => ⟨_, exec_wfeTimeout ht hk hl, coreBecomes_advance s core 4⟩⟩
  have ht : s.tstate core = 1 := hr.1
  refine ⟨fun v hv => rds_runs hr d hv, fun hi => ?_, fun he => ?_, fun he => ?_, fun hn => ?_, fun hi he => ?_, fun hl => ?_, fun hl hw => ?_,
    fun hl hw => ?_⟩
  · obtain ⟨heq, hcore, hother⟩ := result_w64_wrote s.draw.2 core d.toNat s.draw.1
    exact ⟨_, s.draw.1, rds_draws hr d hi, heq, hother, hcore⟩
  · rw [exec_waitq hr, await_waitq ht, if_pos he]
    exact ⟨_, rfl, stalled_advance ..⟩
  · rw [exec_waitq hr, await_waitq ht, if_neg (by rw [he]; decide)]
    exact ⟨_, rfl, stalled_waits ..⟩
  · rw [exec_statq hr, if_neg (by rw [hn]; decide)]
    exact ⟨_, rfl, result_wrote ..⟩
  · rw [exec_statq hr, if_pos hi, await_statq ht, he, List.isEmpty_nil, if_pos rfl]
    exact ⟨_, rfl, stalled_result ..⟩
  · rw [exec_wfe hr, if_pos hl]
    exact ⟨_, rfl, coreBecomes_advance ..⟩
  · rw [exec_wfe hr, if_neg (Nat.not_le.2 hl), await_wfe ht, if_pos hw]
    exact ⟨_, rfl, coreBecomes_modCore _ (coreBecomes_modCore _ (stalled_waits ..))⟩
  · rw [exec_wfe hr, if_neg (Nat.not_le.2 hl), await_wfe ht, if_neg (by rw [hw]; decide)]
    exact ⟨_, rfl, stalled_waits ..⟩

/-- Settles O30: a branch goes by its test, a jump by `link_goes`, and a wait by `State.retry` of the stall that it enters. -/
theorem branchesJumpsAndWaitsComplete : Obligations.BranchesJumpsAndWaitsComplete := ⟨branchesAndJumpsComplete, tillerWaitsComplete⟩

end Sys2Proof.Machine
end
section
/-! PROOFS. The tiller's loads and stores in basins of its device (R173, R275, R277, R278). -/

namespace Sys2Proof.Machine

/-! ## Numbers and bytes -/

theorem ofBytes_lt (bs : List Byte) : ofBytes bs < 2 ^ (8 * bs.length) := by
  induction bs with
  | nil => exact Nat.one_pos
  | cons b t ih =>
    rw [ofBytes, List.length_cons, Nat.mul_succ, Nat.add_comm (8 * t.length), Nat.pow_add]
    have hb := b.isLt
    omega

theorem toBytes_mod (n x : Nat) : toBytes n (x % 2 ^ (8 * n)) = toBytes n x := by
  induction n generalizing x with
  | zero => rfl
  | succ n ih =>
    have hpow : 2 ^ (8 * (n + 1)) = 256 * 2 ^ (8 * n) := by rw [Nat.mul_succ, Nat.add_comm, Nat.pow_add]
    have hlow : BitVec.ofNat 8 (x % (256 * 2 ^ (8 * n))) = BitVec.ofNat 8 x := BitVec.eq_of_toNat_eq (Nat.mod_mul_right_mod x 256 _)
    rw [toBytes, toBytes, hpow, hlow, Nat.mod_mul_right_div_self, ih]

/-! ## Words with an upset (R277, R278) -/

theorem spGet_filter_kept {α : Type} (d : α) {p : Nat × α → Bool} {i : Nat} (h : ∀ v, p (i, v) = true) : ∀ m : Sparse α, spGet d (m.filter p) i = spGet d m i
  | [] => rfl
  | (k, v) :: t => by
    have ih := spGet_filter_kept d h t
    by_cases hk : i = k
    · subst hk
      rw [List.filter_cons_of_pos (h v), spGet, spGet, if_pos rfl, if_pos rfl]
    · rw [spGet, if_neg hk, List.filter_cons]
      split
      · rw [spGet, if_neg hk, ih]
      · exact ih

/-- A write ends no upset of a word that it does not touch. -/
theorem ecc_clearMarks_outside (s : State) {g a n w : Nat} (h : w + g ≤ a ∨ a + n ≤ w) : spGet 0 (s.clearMarks g a n).ecc w = spGet 0 s.ecc w := by
  refine spGet_filter_kept 0 (fun v => ?_) s.ecc
  simpa using h

section
variable {s : State} {m : Ident} {a n : Nat} {bs : List Byte}

theorem basinRd_unmarked (h1 : s.marked 8 1 a n = []) (h2 : s.marked 8 2 a n = []) : s.basinRd a n = (stOK, s) := by
  unfold State.basinRd
  dsimp only
  rw [h1, List.foldl_nil, h2]

theorem basinWr_unmarked (h1 : s.marked 8 1 a bs.length = []) (h2 : s.marked 8 2 a bs.length = []) :
    s.basinWr a bs = (stOK, (s.clearMarks 8 a bs.length).setBytes a bs) := by
  unfold State.basinWr
  dsimp only
  rw [h1, h2]
  rfl

/-! ## An access to a basin of the device, past its checks (R275) -/

theorem localRd_basin (ha : a < 0x800000000) (hal : aligned a n = true) (hp : PassesN s m a n false) (h1 : s.marked 8 1 a n = [])
    (h2 : s.marked 8 2 a n = []) : s.localRd m a n = (stOK, s.bytes a n, s) := by
  obtain ⟨hs, hc⟩ := hp
  unfold State.localRd State.memRd
  rw [flushSends_none hs, target_of_basin ha]
  dsimp only
  rw [hal, if_neg (by decide), checkLocal_ok hc, if_neg (not_not.2 rfl), basinRd_unmarked h1 h2]
  dsimp only
  rw [if_pos rfl, poundError_ok]

theorem localWr_basin (ha : a < 0x800000000) (hal : aligned a bs.length = true) (hp : PassesN s m a bs.length true)
    (h1 : s.marked 8 1 a bs.length = []) (h2 : s.marked 8 2 a bs.length = []) :
    s.localWr m a bs = (some stOK, (s.clearMarks 8 a bs.length).setBytes a bs) := by
  obtain ⟨hs, hc⟩ := hp
  unfold State.localWr State.memWr State.memWrIn
  rw [flushSends_none hs, target_of_basin ha]
  dsimp only
  rw [hal, if_neg (by decide), checkLocal_ok hc, if_neg (not_not.2 rfl), basinWr_unmarked h1 h2]
  dsimp only
  rw [poundError_ok]

end

/-! ## Loads and stores (R173) -/

section
variable {s : State} {core : CoreId} {x n : Nat}

theorem aligned_of_mod (hn : okSize n = true) (h : x % n = 0) : aligned x n = true := by
  unfold aligned
  rw [hn, h]
  rfl

/-- A load of a basin of the device stalls the tiller with the bytes. -/
theorem tillerLoad_basin (hx : x < 0x800000000) (hn : okSize n = true) (hal : x % n = 0) (hp : PassesN s (s.self core) x n false)
    (h1 : s.marked 8 1 x n = []) (h2 : s.marked 8 2 x n = []) (d : Nat) :
    s.tillerLoad core d n x = s.stalled core (.load d (n == 8) x (some (BitVec.ofNat 64 (ofBytes (s.bytes x n)))) stOK) := by
  unfold State.tillerLoad
  rw [if_neg (not_not.2 hal), resolve_local s (by omega)]
  dsimp only
  rw [if_neg (not_not.2 rfl), localRd_basin hx (aligned_of_mod hn hal) hp h1 h2]
  rfl

/-- The return of a load writes its register, and the tiller goes on. -/
theorem loadReturn_wrote (hr : s.tstate core = 1) (d addr : Nat) (wide : Bool) (v : Dword) :
    ∃ u : State, exec (.tillerLoadReturn core) (s.stalled core (.load d wide addr (some v) stOK)) = .next u
      ∧ Wrote s u core d (if wide then v.toNat else v.toNat % 2 ^ 32) := by
  have ht : (s.stalled core (.load d wide addr (some v) stOK)).tstate core = 1 := hr
  refine ⟨_, ?_, stalled_result s core d _ (.load d wide addr (some v) stOK)⟩
  show execTillerLoadReturn core _ = _
  unfold execTillerLoadReturn
  rw [if_neg (not_not.2 ht), core_stalled]
  rfl

/-- A store to a basin of the device leaves its bytes, and a write that waits for its acknowledgement (R202). -/
theorem tillerStore_basin (hx : x < 0x800000000) (hn : okSize n = true) (hal : x % n = 0) (hp : PassesN s (s.self core) x n true)
    (h1 : s.marked 8 1 x n = []) (h2 : s.marked 8 2 x n = []) (v : Nat) :
    s.tillerStore core n x v = ((((s.clearMarks 8 x n).setBytes x (toBytes n v)).countWrite core).advance core 4) := by
  have hlen : (toBytes n v).length = n := toBytes_length n v
  have hw := localWr_basin (bs := toBytes n v) (m := s.self core) hx (by rw [hlen]; exact aligned_of_mod hn hal) (by rw [hlen]; exact hp)
    (by rw [hlen]; exact h1) (by rw [hlen]; exact h2)
  unfold State.tillerStore
  rw [if_neg (not_not.2 hal), resolve_local s (by omega)]
  dsimp only
  rw [if_neg (not_not.2 rfl), hw, hlen]
  rfl

theorem countWrite_advance (t : State) (c : Nat) :
    CoreBecomes t ((t.countWrite c).advance c 4) c { t.core c with pc := (t.core c).pc + 4, stall := .none, unacked := (t.core c).unacked + 1 } :=
  coreBecomes_modCore (fun k => { k with pc := k.pc + 4, stall := .none })
    (coreBecomes_modCore (fun k => { k with unacked := k.unacked + 1 }) (coreBecomes_refl t c))

end

/-- A load command loads `n` bytes; four bytes or eight come back whole. -/
theorem loadRuns_of_size {mk : CoreId → BitVec 5 → BitVec 5 → BitVec 16 → Instr} {n : Nat} (hn : n = 4 ∨ n = 8)
    (he : ∀ core d a imm s, exec (mk core d a imm) s = .next (s.issue core 4 (fun s => s.tillerLoad core d.toNat n ((s.core core).ea a imm)))) :
    LoadRuns mk n := by
  intro core d a imm s hr x hx hal hp h1 h2
  have hok : okSize n = true := by rcases hn with rfl | rfl <;> decide
  have hlt := ofBytes_lt (s.bytes x n)
  rw [State.bytes_length] at hlt
  have hval : (if n == 8 then (BitVec.ofNat 64 (ofBytes (s.bytes x n))).toNat else (BitVec.ofNat 64 (ofBytes (s.bytes x n))).toNat % 2 ^ 32)
      = ofBytes (s.bytes x n) := by
    rw [BitVec.toNat_ofNat]
    rcases hn with rfl | rfl
    · rw [if_neg (by decide)]
      omega
    · rw [if_pos (by decide)]
      exact Nat.mod_eq_of_lt hlt
  obtain ⟨u, hu, hw⟩ := loadReturn_wrote hr.1 d.toNat x (n == 8) (BitVec.ofNat 64 (ofBytes (s.bytes x n)))
  rw [hval] at hw
  have hload := (he core d a imm s).trans (congrArg Host.Outcome.next ((issue_ready hr _).trans (tillerLoad_basin hx hok hal hp h1 h2 d.toNat)))
  exact ⟨_, u, hload, rfl, hu, hw⟩

/-- A store command stores the low `n` bytes of a register. -/
theorem storeRuns_of_size {mk : CoreId → BitVec 5 → BitVec 5 → BitVec 16 → Instr} {n : Nat} {low : Nat → Nat} (hn : okSize n = true)
    (hlow : ∀ v, toBytes n (low v) = toBytes n v)
    (he : ∀ core d a imm s, exec (mk core d a imm) s
      = .next (s.issue core 4 (fun s => s.tillerStore core n ((s.core core).ea a imm) (low ((s.core core).rg d.toNat))))) : StoreRuns mk n := by
  intro core d a imm s hr k x hx hal hp h1 h2
  have hstore := (he core d a imm s).trans (congrArg Host.Outcome.next
    ((issue_ready hr _).trans (tillerStore_basin hx hn hal hp h1 h2 (low (k.rg d.toNat)))))
  rw [hlow] at hstore
  have hset := State.setBytes_eq (s.clearMarks 8 x n) x (toBytes n (k.rg d.toNat))
  have hcores : ∀ c, ((s.clearMarks 8 x n).setBytes x (toBytes n (k.rg d.toNat))).core c = s.core c := fun c => by rw [hset]; rfl
  obtain ⟨-, hcore, hother⟩ := countWrite_advance ((s.clearMarks 8 x n).setBytes x (toBytes n (k.rg d.toNat))) core
  rw [hcores] at hcore
  refine ⟨_, hstore, stores_of_mem_eq (stores_setBytes (u := s.clearMarks 8 x n) x _ rfl) rfl, hcore, fun c hc => (hother c hc).trans (hcores c), fun w hw => ?_, ?_⟩
  · refine Eq.trans (congrArg (spGet 0 · w) ?_) (ecc_clearMarks_outside s hw)
    exact (congrArg State.ecc hset).trans rfl
  · rw [hset]
    rfl

/-- Settles O29: an access past its checks by `localRd_basin` and `localWr_basin`; the return of a load ends the stall that the load enters. -/
theorem tillerLoadsAndStoresComplete : Obligations.TillerLoadsAndStoresComplete :=
  ⟨loadRuns_of_size (.inr rfl) fun _ _ _ _ _ => rfl, loadRuns_of_size (.inl rfl) fun _ _ _ _ _ => rfl,
    storeRuns_of_size (low := id) (by decide) (fun _ => rfl) fun _ _ _ _ _ => rfl,
    storeRuns_of_size (low := (· % 2 ^ 32)) (by decide) (toBytes_mod 4) fun _ _ _ _ _ => rfl⟩

end Sys2Proof.Machine
end
section
/-! PROOFS. What a tile unit's reads, writes, counters and events leave alone: the cores, and memory but for the bytes written (R128, R129, R157, R184, R217, R277). -/

namespace Sys2Proof.Machine

/-! ## Notes: registers, events, and what an error tells the pound and the fleet -/

/-- `t` is `s` but for registers, events, the pound's causes and the risk inputs. -/
def Noted (s t : State) : Prop := ∃ r e l f, t = { s with regs := r, events := e, lock := l, fleet := f }

section
variable {s t u : State}

theorem Noted.refl (s : State) : Noted s s := ⟨_, _, _, _, rfl⟩

theorem Noted.trans (h : Noted s t) (h' : Noted t u) : Noted s u := by
  obtain ⟨r, e, l, f, rfl⟩ := h
  obtain ⟨r', e', l', f', rfl⟩ := h'
  exact ⟨_, _, _, _, rfl⟩

theorem Noted.mem (h : Noted s t) : t.mem = s.mem := by
  obtain ⟨r, e, l, f, rfl⟩ := h
  rfl

theorem Noted.cores (h : Noted s t) : t.cores = s.cores := by
  obtain ⟨r, e, l, f, rfl⟩ := h
  rfl

theorem OnlyRegs.noted (h : OnlyRegs s t) : Noted s t := by
  obtain ⟨r, rfl⟩ := h
  exact ⟨_, _, _, _, rfl⟩

/-- What every step of a loop keeps, the loop keeps: for a loop over the state, and for one that gathers a value beside it. -/
theorem foldl_rel {α : Type} {R : State → State → Prop} (hr : ∀ s, R s s) (ht : ∀ {s t u}, R s t → R t u → R s u) {f : State → α → State}
    (hf : ∀ s x, R s (f s x)) (s : State) (l : List α) : R s (l.foldl f s) := by
  induction l generalizing s with
  | nil => exact hr s
  | cons x l ih => exact ht (hf s x) (ih _)

theorem foldl_snd_rel {α β : Type} {R : State → State → Prop} (hr : ∀ s, R s s) (ht : ∀ {s t u}, R s t → R t u → R s u) {f : β × State → α → β × State}
    (hf : ∀ r x, R r.2 (f r x).2) (r : β × State) (l : List α) : R r.2 (l.foldl f r).2 := by
  induction l generalizing r with
  | nil => exact hr r.2
  | cons x l ih => exact ht (hf r x) (ih _)

theorem noted_foldl {α : Type} {f : State → α → State} (hf : ∀ s x, Noted s (f s x)) (s : State) (l : List α) : Noted s (l.foldl f s) :=
  foldl_rel Noted.refl Noted.trans hf s l

theorem noted_foldl_snd {α β : Type} {f : β × State → α → β × State} (hf : ∀ r x, Noted r.2 (f r x).2) (r : β × State) (l : List α) :
    Noted r.2 (l.foldl f r).2 := foldl_snd_rel Noted.refl Noted.trans hf r l

end

section
variable (s : State)

theorem noted_wr (a v : Nat) : Noted s (s.wr a v) := (onlyRegs_wr s a v).noted

theorem noted_wf (a : Nat) (f : Fld) (v : Nat) : Noted s (s.wf a f v) := noted_wr s a _

theorem noted_bumpF (a : Nat) (f : Fld) (n : Nat) : Noted s (s.bumpF a f n) := noted_wf ..

theorem noted_postSev (cls sev st src d : Nat) : Noted s (s.postSev cls sev st src d) := by
  by_cases h : cls = 0x02 ∨ cls = 0x1B
  · unfold State.postSev State.riskInput
    dsimp only
    rw [if_pos h]
    split
    · split <;> exact ⟨_, _, _, _, rfl⟩
    · split <;> exact ⟨_, _, _, _, rfl⟩
    · exact ⟨_, _, _, _, rfl⟩
  · obtain ⟨r, e, h⟩ := postSev_changes h s sev st src d
    exact ⟨r, e, _, _, h⟩

theorem noted_post (cls st src d : Nat) : Noted s (s.post cls st src d) := noted_postSev ..

theorem noted_damaged (st src a : Nat) : Noted s (s.damaged st src a) := by
  unfold State.damaged
  split
  · exact noted_post ..
  · exact Noted.refl s

theorem noted_uncorrectable : Noted s s.uncorrectable := by
  unfold State.uncorrectable
  split <;> exact ⟨_, _, _, _, rfl⟩

theorem noted_basinRd (a n : Nat) : Noted s (s.basinRd a n).2 := by
  unfold State.basinRd
  dsimp only
  have hfold := noted_foldl (fun t k => noted_post t 0x02 stOK (s.src (a / basinSize)) k) s (s.marked 8 1 a n)
  split
  · exact hfold
  · exact (hfold.trans (noted_post ..)).trans (noted_damaged ..)

theorem noted_unitRd (a n : Nat) : Noted s (s.unitRd a n).2 := by
  unfold State.unitRd
  split
  · exact Noted.refl s
  · dsimp only
    split
    · exact (noted_basinRd s a n).trans (noted_uncorrectable _)
    · exact noted_basinRd s a n

theorem noted_trapEvent (c : Nat) (first : Option Nat) (st : Nat) : Noted s (s.trapEvent c first st) := by
  unfold State.trapEvent
  split
  · exact noted_post ..
  · exact Noted.refl s

/-! ## Operands as a unit reads them (R129, R184) -/

theorem noted_checkBarge (c a i : Nat) (accepts : Nat → Bool) (echk : Bool) : Noted s (s.checkBarge c a i accepts echk).2 := by
  have hread := (noted_unitRd s (bargePayload a i) 64).trans (noted_unitRd _ (bargeSide a i) 8)
  have hfail : ∀ (t : State) (src d : Nat), Noted t ((if t.running then t.uncorrectable else t).post 0x04 stINTEGRITY_FAIL src d) := fun t src d => by
    refine Noted.trans ?_ (noted_post ..)
    split
    · exact noted_uncorrectable t
    · exact Noted.refl t
  unfold State.checkBarge
  dsimp only
  split
  · exact hread
  split
  · exact hread.trans (hfail ..)
  split
  · exact hread.trans (hfail ..)
  split
  · exact hread
  split
  · exact (hread.trans (noted_wr ..)).trans (noted_post ..)
  · exact hread

theorem noted_checkBarges (c a : Nat) (accepts : Nat → Bool) (echk : Bool) (ix : List Nat) : Noted s (s.checkBarges c a accepts echk ix).2 := by
  refine noted_foldl_snd (fun r i => ?_) (stOK, s) ix
  exact noted_checkBarge ..

theorem noted_checkOpnd (c : Nat) (o : Opnd) (rows k : Nat) (accepts : Nat → Bool) (echk : Bool) : Noted s (s.checkOpnd c o rows k accepts echk).2 := by
  unfold State.checkOpnd
  split
  · exact noted_checkBarges ..
  · refine noted_foldl_snd (fun r i => ?_) (stOK, s) _
    exact noted_unitRd ..

/-! ## Trackers, statistics and traps (R128, R157, R214 to R223, R260) -/

theorem noted_wrWide (a n v : Nat) : Noted s (s.wrWide a n v) := (onlyRegs_wrWide (OnlyRegs.refl s) a n v).noted

theorem noted_raiseObs (c t k : Nat) (a : Dy) : Noted s (s.raiseObs c t k a) := by
  unfold State.raiseObs State.setObs
  split
  · exact noted_wr ..
  · exact Noted.refl s

theorem noted_raiseChannels (c t : Nat) (fs : List (Nat × Dy)) : Noted s (s.raiseChannels c t fs) := by
  refine noted_foldl (fun u f => ?_) s fs
  split
  · exact noted_raiseObs ..
  · exact noted_wr ..

theorem noted_gauge (c t : Nat) (fs : List (Nat × Dy)) : Noted s (s.gauge c t fs) := by
  have hcount := (noted_raiseChannels s c t fs).trans (noted_bumpF _ (CO_TRK_STATUS c t) CO_TRK_STATUS_GAUGED 1)
  unfold State.gauge
  dsimp only
  split
  · exact hcount
  · refine (hcount.trans (noted_foldl (fun u i => ?_) _ _)).trans (noted_wf ..)
    split
    · exact Noted.refl u
    · exact noted_wr ..

theorem noted_observe (c t : Nat) (fs : List (Nat × Dy)) (regauged satFired clampLeft : Bool) : Noted s (s.observe c t fs regauged satFired clampLeft) := by
  unfold State.observe
  extract_lets kind raised a flagged
  have hraised : Noted s raised := by
    unfold raised
    split
    · exact noted_raiseChannels ..
    split
    · refine noted_foldl (fun u f => ?_) s fs
      exact noted_raiseObs ..
    · exact Noted.refl s
  have hflagged : Noted s flagged := by
    unfold flagged
    split
    · exact (hraised.trans (noted_wf ..)).trans (noted_wf ..)
    · exact hraised
  split
  · exact hflagged.trans (noted_wf ..)
  · exact hflagged

theorem noted_addStats (c t : Nat) (p : Pass) (regauged : Bool) : Noted s (s.addStats c t p regauged) :=
  (((((noted_wrWide s _ _ _).trans (noted_wrWide _ _ _ _)).trans (noted_wr ..)).trans (noted_wr ..)).trans (noted_wr ..)).trans (noted_wr ..)

theorem noted_nonfinite (c k n : Nat) : Noted s (s.nonfinite c k n) := by
  obtain ⟨r, e, l, h⟩ := nonfinite_changes s c k n
  exact ⟨r, e, l, _, h⟩

theorem noted_trapStatus (c sat : Nat) (p : Pass) (addr : Nat × Nat → Nat) : Noted s (s.trapStatus c sat p addr).2 := by
  unfold State.trapStatus
  split
  · exact Noted.refl s
  dsimp only
  split
  · exact noted_post ..
  · exact Noted.refl s

/-! ## What a converter writes (R104, R115, R194) -/

theorem cores_unitWr (a : Nat) (bs : List Byte) : (s.unitWr a bs).2.cores = s.cores := by
  have hwr : (s.basinWr a bs).2.cores = s.cores := by
    unfold State.basinWr
    dsimp only
    split
    · exact ((noted_post ..).trans (noted_damaged ..)).cores
    · rw [State.setBytes_eq]
      exact (noted_foldl (fun t k => noted_post t 0x02 stOK _ k) s _).cores
  unfold State.unitWr
  split
  · rfl
  · dsimp only
    split
    · exact (noted_uncorrectable _).cores.trans hwr
    · exact hwr

theorem cores_unitBarge (a i : Nat) (b : Barge) : (s.unitBarge a i b).2.cores = s.cores := (cores_unitWr ..).trans (cores_unitWr ..)

theorem cores_foldl_snd {α β : Type} {f : β × State → α → β × State} (hf : ∀ r x, (f r x).2.cores = r.2.cores) (r : β × State) (l : List α) :
    (l.foldl f r).2.cores = r.2.cores :=
  foldl_snd_rel (R := fun s t => t.cores = s.cores) (fun _ => rfl) (fun h h' => h'.trans h) hf r l

theorem cores_putBarges (t : CvTile) (ys : List PackIn) (p : Pass) (sound : Bool) (dest : Nat) : (s.putBarges t ys p sound dest).2.cores = s.cores := by
  refine cores_foldl_snd (fun r i => ?_) (stOK, s) _
  refine cores_foldl_snd (fun r bi => ?_) r _
  exact cores_unitBarge ..

theorem cores_putTile (t : CvTile) (ys : List PackIn) (p : Pass) (sound : Bool) (dest : Nat) : (s.putTile t ys p sound dest).2.cores = s.cores := by
  unfold State.putTile
  split
  · refine Eq.trans (cores_foldl_snd (fun r i => ?_) _ _) (cores_putBarges s t ys p sound dest)
    exact cores_unitBarge ..
  · refine cores_foldl_snd (fun r i => ?_) (stOK, s) _
    exact cores_unitWr ..

end

end Sys2Proof.Machine
end
section
/-! PROOFS. GEMM, CONVERT and SOUND in their plain forms: an instruction past its checks does its unit's work, and what a GEMM leaves alone
(R128, R178, R180, R183, R185, R193, R200). -/

namespace Sys2Proof.Machine

/-! ## The unit of an instruction of an idle core (R135, R175, R180) -/

section
variable {s : State} {c : Nat} {e : QEntry} {t : TileWords}

theorem runEntry_gemm (h : e.words.cls = 0x30) : s.runEntry c e = s.runGemm c e := if_pos h

theorem runEntry_convert (h : e.words.cls = 0x31) : s.runEntry c e = s.runConvert c e := by
  unfold State.runEntry
  dsimp only
  rw [h, if_neg (by decide), if_pos rfl]

theorem runEntry_sound (h : e.words.cls = 0x35) : s.runEntry c e = s.runSound c e := by
  unfold State.runEntry
  dsimp only
  rw [h, if_neg (by decide), if_neg (by decide), if_neg (by decide), if_neg (by decide), if_pos rfl]

theorem queueOf_gemm (h : t.cls = 0x30) : queueOf t ≠ 3 := by
  unfold queueOf
  rw [if_pos h]
  split
  · decide
  · assumption

theorem queueOf_sound (h : t.cls = 0x35) : queueOf t ≠ 3 := by
  unfold queueOf
  rw [h, if_neg (by decide), if_neg (by decide)]
  decide

/-- An entry that has just joined a queue takes no converter. -/
theorem cv0Busy_of_queue {k : Core} {w : TileWords} (h : k.queue = [entryOf s c w]) : k.cv0Busy = false := by
  unfold Core.cv0Busy Core.inQ
  rw [h, List.filter_cons]
  split <;> rfl

theorem core_queued (s : State) (c : Nat) (w : TileWords) : (s.queued c w).core c
    = { s.core c with queue := [entryOf s c w], seq := (s.core c).seq + 1, issued := (s.core c).issued ||| 2 ^ queueOf w, pc := (s.core c).pc + 16, stall := .none } := by
  unfold State.queued State.advance
  rw [core_modCore_same, core_modCore_same]

end

/-! ## A fixed shape (R190) -/

section
variable {s : State} {c : Nat} {e : QEntry} {t : TileWords}

theorem readBtab_fixed (h : t.dyn = false) (useK : Bool) : s.readBtab c t useK = (stOK, s) := by
  unfold State.readBtab
  rw [h]
  rfl

theorem shapeStatus_fixed (h : t.dyn = false) (useK : Bool) : s.shapeStatus c e t useK = stOK := by
  unfold State.shapeStatus
  rw [h]
  rfl

theorem selected_fixed (h : t.dyn = false) : s.selected c e t = (e.shape t, e.shape t) := by
  unfold State.selected
  rw [h]
  rfl

theorem shape_fixed (h : t.dyn = false) : e.shape t = (t.mMax, t.nMax, t.kMax) := by
  unfold QEntry.shape
  rw [h]
  rfl

end

/-! ## GEMM (R180, R185, R188) -/

/-- The operands of a GEMM or SOUND. -/
def QEntry.opA (e : QEntry) : Opnd := ⟨e.rg (e.words.f0 11 5), e.words.f2 24 4, e.words.kMax⟩

def QEntry.opB (e : QEntry) : Opnd := ⟨e.rg (e.words.f0 6 5), e.words.f2 28 4, e.words.kMax⟩

/-- A plain GEMM or SOUND: a good encoding, a fixed shape, no pointer list, operands and region in bounds. -/
def State.PlainTile (s : State) (c : Nat) (e : QEntry) : Prop :=
  gemmEncOk e.words = true ∧ e.words.dyn = false ∧ natBit 19 e.words.w0.toNat = false ∧ s.tileBounds c e.words e.opA e.opB (e.words.f2 0 15) = stOK

/-- What a GEMM does to its core before the products: it binds the region's key, and clears the region under ZERO. -/
def Core.gemmStart (k : Core) (e : QEntry) : Core :=
  let k := k.bindKey (e.words.f3 8 8) (keyOf e.words (e.words.f2 0 15))
  if natBit 22 e.words.w0.toNat then
    { k with acc := accFill (clearedEntry e.words.backward) (e.words.f2 0 15) (regionLen e.words.backward e.words.mMax) [] k.acc } else k

/-- The work of a plain GEMM past its checks. -/
def State.gemmWork (s : State) (c : Nat) (e : QEntry) : Nat × State :=
  let r := (s.modCore c (fun k => k.gemmStart e)).tileWork c e e.words e.opA e.opB (e.words.f2 0 15)
  (r.1, r.2.2.trapEvent c r.2.1 r.1)

section
variable {s : State} {c : Nat} {e : QEntry}

theorem runGemm_plain (hp : s.PlainTile c e)
    (hk : (s.core c).keyOk (e.words.f3 8 8) (keyOf e.words (e.words.f2 0 15)) (natBit 22 e.words.w0.toNat) = true)
    (hb : s.tileBad c e e.words e.opA e.opB = false) : s.runGemm c e = s.gemmWork c e := by
  obtain ⟨henc, hdyn, hlist, hbounds⟩ := hp
  unfold QEntry.opA QEntry.opB at hbounds hb
  unfold State.runGemm State.gemmOne
  dsimp only
  rw [henc, if_neg (by decide), readBtab_fixed hdyn]
  dsimp only
  rw [if_neg (not_not.2 rfl), hlist, if_neg (by decide), hk, if_neg (by decide), hbounds, if_neg (not_not.2 rfl), shapeStatus_fixed hdyn,
    if_neg (by decide), hb, if_neg (by decide), if_neg (by decide)]
  rfl

theorem runSound_plain (hp : s.PlainTile c e) : s.runSound c e = s.soundTile c e e.opA e.opB (e.words.f2 0 15) (natBits 0 16 (e.rg (e.words.f0 1 5))) := by
  obtain ⟨henc, hdyn, hlist, hbounds⟩ := hp
  unfold QEntry.opA QEntry.opB at hbounds
  unfold State.runSound
  dsimp only
  rw [henc, if_neg (by decide), readBtab_fixed hdyn]
  dsimp only
  rw [if_neg (not_not.2 rfl), hlist, if_neg (by decide), hbounds, if_neg (not_not.2 rfl), shapeStatus_fixed hdyn, if_neg (not_not.2 rfl)]
  rfl

theorem runConvert_plain {recs : List Rec} (henc : convertEncOk e.words = true) (hdyn : e.words.dyn = false)
    (hbounds : s.convertBounds c e.words (e.rg (e.words.f0 11 5)) = stOK)
    (hrecs : s.recordsFrom c (e.words.f3 0 13) (natBit 24 e.words.w0.toNat) (natBit 23 e.words.w0.toNat) 0 e.words.nMax = some recs) :
    s.runConvert c e = s.convertWork c e e.words.mMax e.words.nMax recs := by
  unfold State.runConvert
  dsimp only
  rw [henc, if_neg (by decide), readBtab_fixed hdyn]
  dsimp only
  rw [if_neg (not_not.2 rfl), hbounds, if_neg (not_not.2 rfl), shapeStatus_fixed hdyn, if_neg (not_not.2 rfl), shape_fixed hdyn, hrecs]

/-! ## What the checks of a queued instruction see (R135, R178) -/

theorem plainTile_queued (w : TileWords) (h : s.PlainTile c e) : (s.queued c w).PlainTile c e := h

theorem keyOk_queued (s : State) (c : Nat) (w : TileWords) (key : Nat) (b : KeyBind) (zero : Bool) :
    ((s.queued c w).core c).keyOk key b zero = (s.core c).keyOk key b zero :=
  queued_keeps s c c (fun k => k.keyOk key b zero) w (fun _ _ _ _ => rfl) fun _ _ _ => rfl

theorem barge_queued (s : State) (c : Nat) (w : TileWords) (a i : Nat) : (s.queued c w).barge a i = s.barge a i := by
  unfold State.barge State.load
  rw [bytes_of_mem (queued_mem s c w), bytes_of_mem (queued_mem s c w)]

theorem tileBad_queued (s : State) (c : Nat) (w : TileWords) {e : QEntry} {t : TileWords} (h : t.dyn = false) (a b : Opnd) :
    (s.queued c w).tileBad c e t a b = s.tileBad c e t a b := by
  unfold State.tileBad State.heritageBad
  rw [selected_fixed h, selected_fixed h]
  simp only [barge_queued]

theorem convertBounds_queued (s : State) (c : Nat) (w : TileWords) (t : TileWords) (dest : Nat) :
    (s.queued c w).convertBounds c t dest = s.convertBounds c t dest := by
  unfold State.convertBounds
  rfl

theorem recordsFrom_queued (s : State) (c : Nat) (w : TileWords) (srec : Nat) (percol ir : Bool) (j n : Nat) :
    (s.queued c w).recordsFrom c srec percol ir j n = s.recordsFrom c srec percol ir j n := by
  induction n generalizing j with
  | zero => rfl
  | succ n ih =>
    rw [State.recordsFrom, State.recordsFrom, ih]
    rfl

/-! ## What a tile's work leaves alone (R185, R188, R200) -/

theorem cores_modCore {t : State} (h : t.cores = s.cores) (f : Core → Core) : (t.modCore c f).cores = (s.modCore c f).cores := by
  unfold State.modCore State.setCore State.core
  rw [h]

theorem core_of_cores {t : State} (h : t.cores = s.cores) (d : Nat) : t.core d = s.core d := by
  unfold State.core
  rw [h]

theorem cores_loseRows (s : State) (c base n : Nat) : ∃ x : Core → Sparse (BitVec 128), (s.loseRows c base n).cores = (s.modCore c (fun k => { k with acc := x k })).cores :=
  ⟨fun k => (List.range n).foldl (fun a i => accPut a (base + i) (BitVec.ofNat 128 (Config.freeBits (s.free + i)))) k.acc, rfl⟩

/-- One tile's work changes no byte of memory, and of the cores the accumulators of its own alone. -/
theorem tileWork_leaves (s : State) (c : Nat) (e : QEntry) (t : TileWords) (a b : Opnd) (cbase : Nat) : let r := (s.tileWork c e t a b cbase).2.2
    r.mem = s.mem ∧ ∃ x : Core → Sparse (BitVec 128), r.cores = (s.modCore c (fun k => { k with acc := x k })).cores := by
  unfold State.tileWork
  generalize s.selected c e t = x
  obtain ⟨⟨m, n, k⟩, sm, sn, sk⟩ := x
  dsimp only
  have hchecks := (noted_checkOpnd s c a sm k (fmtOk (t.f0 24 2) a.kind) (natBit 18 t.w0.toNat)).trans
    (noted_checkOpnd _ c b sn k (fmtOk (t.f0 24 2) b.kind) (natBit 18 t.w0.toNat))
  generalize s.checkOpnd c a sm k (fmtOk (t.f0 24 2) a.kind) (natBit 18 t.w0.toNat) = x at hchecks ⊢
  obtain ⟨st1, s1⟩ := x
  dsimp only at hchecks ⊢
  generalize s1.checkOpnd c b sn k (fmtOk (t.f0 24 2) b.kind) (natBit 18 t.w0.toNat) = x at hchecks ⊢
  obtain ⟨st2, s2⟩ := x
  dsimp only at hchecks ⊢
  generalize (if st1 = stOK then st2 else if st2 = stOK then st1 else stWorst st1 st2) = st
  split
  · obtain ⟨x, hx⟩ := cores_loseRows s2 c cbase (regionLen t.backward m)
    exact ⟨hchecks.mem, x, hx.trans (cores_modCore (c := c) hchecks.cores _)⟩
  · generalize (if natBit 23 t.w0.toNat = true then _ else _ : Run) = r
    split <;> exact ⟨hchecks.mem, fun _ => r.acc, cores_modCore (c := c) hchecks.cores (fun k => { k with acc := r.acc })⟩

/-- What a GEMM keeps of a core, it keeps of every core. -/
theorem gemmWork_keeps {α : Type} (p : Core → α) (hs : ∀ k : Core, p (k.gemmStart e) = p k) (ha : ∀ (k : Core) x, p { k with acc := x } = p k) (d : Nat) :
    p ((s.gemmWork c e).2.core d) = p (s.core d) := by
  obtain ⟨-, x, hcores⟩ := tileWork_leaves (s.modCore c (fun k => k.gemmStart e)) c e e.words e.opA e.opB (e.words.f2 0 15)
  have htrap := (noted_trapEvent ((s.modCore c (fun k => k.gemmStart e)).tileWork c e e.words e.opA e.opB (e.words.f2 0 15)).2.2 c
    ((s.modCore c (fun k => k.gemmStart e)).tileWork c e e.words e.opA e.opB (e.words.f2 0 15)).2.1
    ((s.modCore c (fun k => k.gemmStart e)).tileWork c e e.words e.opA e.opB (e.words.f2 0 15)).1).cores
  unfold State.gemmWork
  rw [core_of_cores (htrap.trans hcores), modCore_keeps _ _ _ p fun k => ha k _, modCore_keeps _ _ _ p hs]

theorem mem_gemmWork (s : State) (c : Nat) (e : QEntry) : (s.gemmWork c e).2.mem = s.mem :=
  (noted_trapEvent ..).mem.trans (tileWork_leaves (s.modCore c (fun k => k.gemmStart e)) ..).1

/-- A GEMM changes no other core. -/
theorem core_gemmWork_other {d : Nat} (h : d ≠ c) : (s.gemmWork c e).2.core d = s.core d := by
  obtain ⟨-, x, hcores⟩ := tileWork_leaves (s.modCore c (fun k => k.gemmStart e)) c e e.words e.opA e.opB (e.words.f2 0 15)
  exact (core_of_cores ((noted_trapEvent ..).cores.trans hcores) d).trans ((State.core_setCore_other _ _ h).trans (State.core_setCore_other _ _ h))

/-- A CONVERT joins and leaves no queue. -/
theorem queue_convertWork (s : State) (c : Nat) (e : QEntry) (m n : Nat) (recs : List Rec) (d : Nat) :
    ((s.convertWork c e m n recs).2.core d).queue = (s.core d).queue := by
  have hmarks : ∀ rs, ((s.takeMarks c rs).2.core d).queue = (s.core d).queue := fun rs =>
    modCore_keeps s c d (f := fun k => { k with marks := k.marks.filter (fun x => !meets [x] rs) }) Core.queue fun _ => rfl
  unfold State.convertWork
  extract_lets t ir lay stat dest tile ys slot
  rw [← hmarks (cvReads lay (t.f2 0 15) m n)]
  generalize s.takeMarks c (cvReads lay (t.f2 0 15) m n) = x
  obtain ⟨sound, s1⟩ := x
  dsimp -zeta only
  split
  · exact congrArg Core.queue (core_of_cores (noted_gauge ..).cores d)
  · generalize tile.pack ys slot (s1.streams c) = x
    obtain ⟨tile', p, rg, sat⟩ := x
    have hstreams : ((s1.setStreams p.streams).core d).queue = (s1.core d).queue := modCore_keeps _ _ _ Core.queue fun _ => rfl
    have hput := cores_putTile (s1.setStreams p.streams) tile' ys p sound dest
    have hseen : ∀ u : State, Noted u (if ir then u else u.observe c stat (tile.figures ys) rg sat (decide (p.s1 ≠ 0))) := fun u => by
      split
      · exact Noted.refl u
      · exact noted_observe ..
    exact (congrArg Core.queue (core_of_cores (((((noted_addStats ..).trans (hseen _)).trans (noted_nonfinite ..)).trans (noted_trapStatus ..)).cores.trans hput) d)).trans
      hstreams

end

/-! ## The commands (R135, R175) -/

theorem exec_gemm (core : CoreId) (t : TileWords) (s : State) : exec (.gemm core t) s = .next (s.issueTile core (t.asClass 0x30)) := rfl

theorem exec_convert (core : CoreId) (t : TileWords) (s : State) : exec (.convert core t) s = .next (s.issueTile core (t.asClass 0x31)) := rfl

theorem exec_sound (core : CoreId) (t : TileWords) (s : State) : exec (.sound core t) s = .next (s.issueTile core (t.asClass 0x35)) := rfl

theorem asClass_cls_lt {cls : Nat} (h : cls < 64) (t : TileWords) : (t.asClass cls).cls = cls := (asClass_cls t cls).trans (Nat.mod_eq_of_lt h)

/-- The work of a unit leaves its core's queue alone. -/
def KeepsQueue (work : CoreId → QEntry → State → Nat × State) : Prop := ∀ c e u, ((work c e u).2.core c).queue = (u.core c).queue

/-- A command of one class runs its entry at once on an idle core; a converter's queue holds that entry alone. -/
theorem unitRuns_class {mk : CoreId → TileWords → Instr} {cls : Nat} {work : CoreId → QEntry → State → Nat × State} {good : CoreId → QEntry → State → Prop}
    (hlt : cls < 64) (he : ∀ core t s, exec (mk core t) s = .next (s.issueTile core.val (t.asClass cls)))
    (hq : (∀ w : TileWords, w.cls = cls → queueOf w ≠ 3) ∨ KeepsQueue work)
    (hw : ∀ (core : CoreId) (e : QEntry) (s : State) (w : TileWords), e.words.cls = cls → good core e s →
      (s.queued core w).runEntry core e = work core e (s.queued core w)) : UnitRuns mk (·.asClass cls) work good := by
  refine unitRuns_of_runEntry mk _ work good he (fun core t s _ hg => hw core _ s _ (asClass_cls_lt hlt t) hg) fun core t s _ _ => ?_
  refine hq.imp (fun h => h _ (asClass_cls_lt hlt t)) fun h => cv0Busy_of_queue (s := s) (c := core) (w := t.asClass cls) ?_
  rw [h, core_queued]

theorem gemm_runs : UnitRuns .gemm (·.asClass 0x30) (fun c e s => s.gemmWork c e) (fun c e s => s.PlainTile c e
    ∧ (s.core c).keyOk (e.words.f3 8 8) (keyOf e.words (e.words.f2 0 15)) (natBit 22 e.words.w0.toNat) = true ∧ s.tileBad c e e.words e.opA e.opB = false) := by
  refine unitRuns_class (by decide) exec_gemm (.inl fun _ => queueOf_gemm) fun core e s w hcls hg => ?_
  obtain ⟨hp, hk, hb⟩ := hg
  have hdyn : e.words.dyn = false := hp.2.1
  exact (runEntry_gemm hcls).trans (runGemm_plain (plainTile_queued w hp) ((keyOk_queued ..).trans hk) ((tileBad_queued _ _ _ hdyn ..).trans hb))

theorem convert_runs (recs : List Rec) : UnitRuns .convert (·.asClass 0x31) (fun c e s => s.convertWork c e e.words.mMax e.words.nMax recs)
    (fun c e s => convertEncOk e.words = true ∧ e.words.dyn = false ∧ s.convertBounds c e.words (e.rg (e.words.f0 11 5)) = stOK
      ∧ s.recordsFrom c (e.words.f3 0 13) (natBit 24 e.words.w0.toNat) (natBit 23 e.words.w0.toNat) 0 e.words.nMax = some recs) := by
  refine unitRuns_class (by decide) exec_convert (.inr fun c e u => queue_convertWork u c e _ _ recs c) fun core e s w hcls hg => ?_
  obtain ⟨henc, hdyn, hbounds, hrecs⟩ := hg
  exact (runEntry_convert hcls).trans (runConvert_plain henc hdyn ((convertBounds_queued ..).trans hbounds) ((recordsFrom_queued ..).trans hrecs))

theorem sound_runs : UnitRuns .sound (·.asClass 0x35)
    (fun c e s => s.soundTile c e e.opA e.opB (e.words.f2 0 15) (natBits 0 16 (e.rg (e.words.f0 1 5)))) (fun c e s => s.PlainTile c e) :=
  unitRuns_class (by decide) exec_sound (.inl fun _ => queueOf_sound) fun _ _ _ w hcls hp => (runEntry_sound hcls).trans (runSound_plain (plainTile_queued w hp))

/-! ## What a GEMM leaves alone (R180, R185) -/

theorem held_core_other (s : State) {c d : Nat} (h : d ≠ c) (seq st : Nat) : (s.held c seq st).core d = s.core d := by
  unfold State.held State.syncQueues State.modCore
  rw [core_wr, core_wr, State.core_setCore_other _ _ h]

theorem queued_core_other (s : State) {c d : Nat} (h : d ≠ c) (w : TileWords) : (s.queued c w).core d = s.core d := by
  unfold State.queued State.advance State.modCore
  rw [State.core_setCore_other _ _ h, State.core_setCore_other _ _ h]

/-- What neither the start of a GEMM, nor its accumulators, nor its queue touch of its core stays as it was issued. -/
theorem gemm_keeps {α : Type} (p : Core → α) {e : QEntry} (hk : ∀ (k : Core) x y, p { k with keys := x, acc := y } = p k) (hq : ∀ (k : Core) q, p { k with queue := q } = p k)
    (s : State) (c seq st : Nat) : p (((s.gemmWork c e).2.held c seq st).core c) = p (s.core c) := by
  have hbind : ∀ (k : Core) (key : Nat) (b : KeyBind), p (k.bindKey key b) = p k := fun k key b => by
    unfold Core.bindKey
    split
    · rfl
    · exact hk k _ k.acc
  have hstart : ∀ k : Core, p (k.gemmStart e) = p k := fun k => by
    unfold Core.gemmStart
    dsimp only
    split
    · exact (hk (k.bindKey _ _) (k.bindKey _ _).keys _).trans (hbind ..)
    · exact hbind ..
  rw [held_keeps _ _ _ p seq st hq, gemmWork_keeps p hstart fun k x => hk k k.keys x]

theorem gemm_leaves (s : State) (c : Nat) (w : TileWords) (e : QEntry) (seq st : Nat) : let u := ((s.queued c w).gemmWork c e).2.held c seq st
    u.mem = s.mem ∧ (∀ d, d ≠ c → u.core d = s.core d) ∧ (u.core c).vreg = (s.core c).vreg ∧ (u.core c).g = (s.core c).g ∧ (u.core c).pc = (s.core c).pc + 16 := by
  refine ⟨?_, fun d hd => ?_, ?_, ?_, ?_⟩
  · rw [held_mem, mem_gemmWork, queued_mem]
  · rw [held_core_other _ hd, core_gemmWork_other hd, queued_core_other _ hd]
  · rw [gemm_keeps Core.vreg (fun _ _ _ => rfl) fun _ _ => rfl, queued_vreg]
  · rw [gemm_keeps Core.g (fun _ _ _ => rfl) fun _ _ => rfl, queued_g]
  · rw [gemm_keeps Core.pc (fun _ _ _ => rfl) fun _ _ => rfl, core_queued]

/-- Settles O34: each unit's work past its checks by `runGemm_plain`, `runConvert_plain` and `runSound_plain`; a GEMM's frame by what its start, its operands'
checks, its products and its trap leave alone. -/
theorem matrixInstructionsComplete : Obligations.MatrixInstructionsComplete := by
  unfold Obligations.MatrixInstructionsComplete
  intro opA opB key plain start
  refine ⟨gemm_runs, ?_, convert_runs, sound_runs⟩
  intro core t s e hi hp hk hb
  exact ⟨_, gemm_runs core t s hi ⟨hp, hk, hb⟩, gemm_leaves ..⟩

end Sys2Proof.Machine
end
section
/-! PROOFS. Training: the writes that a core's registers pass on, the sum, the norm and their delivery, and the spike watch's queue (R241, R256, R257, R262, R264). -/

namespace Sys2Proof.Machine

/-! ## Writes of a core's registers (R241, R256, R262) -/

section
variable {s : State} {m : Ident} {c o : Nat}

theorem isObs_co (hc : c < 1024) (ho : o < 0x10000) : isObs (coBase c + o) = decide (0x4000 ≤ o ∧ o < 0x6000) := by
  rw [isObs, target_co hc ho]

/-- A write of a CO_ register by its command, past its checks. -/
theorem put32_co {value : Word} (hc : c < 1024) (ho : o < 0x10000) (h4 : o % 4 = 0) (hp : Passes s m (coBase c + o) true) :
    s.put32 m (coBase c + o) value.toNat = (s.coWrite m c o value.toNat).reply stOK [] := by
  obtain ⟨hsends, hcheck⟩ := hp
  have := put32_reg (v := value.toNat) (by unfold coBase; omega) (target_co hc ho) (by simp) (by unfold coBase; omega) hcheck rfl (by simp) hsends
  rwa [Nat.mod_eq_of_lt value.isLt] at this

/-- An observation of a core that does not run is stored, and nothing follows from it. -/
theorem coWrite_obs (v : Nat) (hobs : 0x4000 ≤ o) (hrun : s.tstate c ≠ 1) : s.coWrite m c o v = s.regStore (.co c) o v := by
  have hopen : ¬(isObs (coBase c + o) && s.tstate c == 1) = true := by simp [hrun]
  dsimp only [State.coWrite]
  rw [if_neg hopen, if_neg (by omega), if_neg (by omega)]

/-- Below the observations a write is stored whether or not the core runs; a partial and a loss have a further effect. -/
theorem coWrite_below_obs (v : Nat) (hc : c < 1024) (ho : o < 0x4000) : s.coWrite m c o v =
    if o = 0x208 then (s.regStore (.co c) o v).gnPartWrite m c else if o = 0x200 then (s.regStore (.co c) o v).lossWritten m c else s.regStore (.co c) o v := by
  have hobs : isObs (coBase c + o) = false := (isObs_co hc (by omega)).trans (decide_eq_false (by omega))
  exact if_neg (by simp [hobs])

end

section
variable {s : State} {m : Ident}

theorem obsWrite_completes (core : CoreId) (i : Fin 2048) (value : Word) (hp : Passes s m (CO_OBS core i) true) (hrun : s.tstate core ≠ 1) :
    exec (.obsWrite m core i value) s = .next ((s.regStore (.co core) (0x4000 + 4 * i.val) value.toNat).reply stOK []) := by
  have haddr : CO_OBS core i = coBase core + (0x4000 + 4 * i.val) := Nat.add_assoc ..
  rw [haddr] at hp
  calc exec (.obsWrite m core i value) s
      = .next (s.put32 m (CO_OBS core i) value.toNat) := rfl
    _ = .next ((s.coWrite m core (0x4000 + 4 * i.val) value.toNat).reply stOK []) := by rw [haddr, put32_co core.isLt (by omega) (by omega) hp]
    _ = _ := by rw [coWrite_obs _ (by omega) hrun]

theorem gnPartialWrite_completes (core : CoreId) (value : Word) (hp : Passes s m (CO_GN_PART_0 core) true) :
    exec (.gnPartialWrite m core value) s = .next (((s.regStore (.co core) 0x208 value.toNat).gnPartWrite m core).reply stOK []) :=
  calc exec (.gnPartialWrite m core value) s
      = .next ((s.coWrite m core 0x208 value.toNat).reply stOK []) := congrArg Host.Outcome.next (put32_co core.isLt (by decide) rfl hp)
    _ = _ := by rw [coWrite_below_obs _ core.isLt (by decide), if_pos rfl]

theorem lossWrite_completes (core : CoreId) (value : Word) (hp : Passes s m (CO_LOSS_0 core) true) :
    exec (.lossWrite m core value) s = .next (((s.regStore (.co core) 0x200 value.toNat).lossWritten m core).reply stOK []) :=
  calc exec (.lossWrite m core value) s
      = .next ((s.coWrite m core 0x200 value.toNat).reply stOK []) := congrArg Host.Outcome.next (put32_co core.isLt (by decide) rfl hp)
    _ = _ := by rw [coWrite_below_obs _ core.isLt (by decide), if_neg (by decide), if_pos rfl]

end

/-! ## The device's sum (R257) -/

section
variable {s : State}

/-- The device's sum formed and shown in KP_GN_SUM. -/
def State.withDevSum (s : State) : State := { s with train := { s.train with sum := some s.devSum } }.wrWide KP_GN_SUM_0 2 s.devSum

theorem regsBut_withDevSum (s : State) : RegsBut s s.withDevSum (wordsAt KP_GN_SUM_0 2) :=
  (RegsBut.of_regs (RegsBut.refl s _) rfl).wrWide (List.Subset.refl _) _

/-- KP_GN_SUM lies apart from KP_FLEET_ID, which holds the role and the device's ID. -/
theorem rf_fleetId_withDevSum (s : State) (f : Fld) : s.withDevSum.rf KP_FLEET_ID f = s.rf KP_FLEET_ID f :=
  (regsBut_withDevSum s).rf (by decide) f

theorem gnDeviceSum_completes (hen : s.gnEn = true) (hin : s.inPound = true) (hsum : s.train.sum = none) (hready : s.gnReady = true) :
    exec .gnDeviceSum s = .next (if s.role = 1 then s.withDevSum.send s.withDevSum.manager 1 txGnSum [s.devId, s.devSum] else s.withDevSum) := by
  have hdue : ¬(!s.gnEn || !s.inPound || s.train.sum.isSome || !s.gnReady) = true := by simp [hen, hin, hsum, hready]
  have hdev : s.withDevSum.devId = s.devId := rf_fleetId_withDevSum s _
  have hrole : s.withDevSum.role = s.role := rf_fleetId_withDevSum s _
  rw [← hdev, ← hrole]
  exact if_neg hdue

end

/-! ## The norm and its delivery (R257) -/

section
variable {s : State}

/-- While the result is missing, a device that forms one or sums for others waits for the sums of all that it governs. -/
theorem gnNorm_of_summed {sums : List (BitVec 14 × Dword)} {d : Nat} (hsum : s.train.sum = some d) (hres : s.train.result = none) (hin : s.inPound = true)
    (hrole : s.role ≠ 1) (hall : s.role = 0 ∨ s.summed.all (fun w => sums.any (fun x => x.1.toNat == w)) = true) :
    let total := if s.role = 0 then d else s.mgrSum d sums
    let z := gnResult total (s.rdWide KP_GN_MAX_0 2)
    let t : State := { s with train := { s.train with result := some z } }
    exec (.gnNorm sums) s
      = if s.role = 2 then .next (s.send s.manager 1 txGnSum [s.devId, total]) else .next (if s.role = 3 then t.gnSendDown z else t) := by
  have hdue : ¬(s.role = 1 ∨ (!s.inPound) = true ∨ (s.role ≠ 0 ∧ (!s.summed.all (fun w => sums.any (fun x => x.1.toNat == w))) = true)) := by
    rcases hall with h | h <;> simp [hrole, hin, h]
  show execGnNorm sums s = _
  unfold execGnNorm
  rw [hsum, hres]
  exact if_neg hdue

theorem gnDone_completes (norm fact : Dword) (nf : Bool) (hen : s.gnEn = true) (hin : s.inPound = true) (hdel : s.train.delivered = false)
    (hsum : s.train.sum.isSome = true) (hres : s.role = 0 ∨ s.role = 3 → s.train.result.isSome = true) :
    let z := s.train.result.getD (norm.toNat, fact.toNat, nf)
    let u := s.train.taking.foldl (fun s c => s.gnDeliver c z) s
    let w : State := { u with train := { u.train with delivered := true } }
    exec (.gnDone norm fact nf) s = .next ((if w.role = 2 then w.gnSendDown z else w).sample 1 z.1) := by
  have hown : ((s.role == 0 || s.role == 3) && s.train.result.isNone) = false := by
    by_cases h : s.role = 0 ∨ s.role = 3
    · rw [← Option.not_isSome, hres h, Bool.not_true, Bool.and_false]
    · have hlow : (s.role == 0 || s.role == 3) = false := by simpa using h
      rw [hlow, Bool.false_and]
  have hdue : ¬(!s.gnEn || !s.inPound || s.train.delivered || s.train.sum.isNone || ((s.role == 0 || s.role == 3) && s.train.result.isNone)) = true := by
    rw [hown, ← Option.not_isSome, hen, hin, hdel, hsum]; decide
  exact if_neg hdue

theorem spikeSample_completes {ch x : Nat} {rest : List (Nat × Nat)} (h : s.train.samples = (ch, x) :: rest) :
    exec .spikeSample s = .next ({ s with train := { s.train with samples := rest } }.evaluate ch x) := by
  show execSpikeSample s = _
  rw [execSpikeSample, h]

end

/-- Settles O41: the three writes by what a write of a core's register does past its checks, the commands of the norm by one lemma each for when they are due, and
the role by the place of KP_GN_SUM apart from KP_FLEET_ID. -/
theorem trainingCommandsComplete : Obligations.TrainingCommandsComplete := by
  refine ⟨fun _ core i value _ hp hrun => obsWrite_completes core i value hp hrun,
    fun _ core value _ => ⟨gnPartialWrite_completes core value, lossWrite_completes core value⟩, fun s hen hin hsum hready => ?_,
    fun sums d s hsum hres hin => ?_, fun norm fact nf _ => gnDone_completes norm fact nf, fun _ _ _ _ => spikeSample_completes⟩
  · have h := gnDeviceSum_completes hen hin hsum hready
    exact ⟨fun hrole => h.trans (congrArg Host.Outcome.next (if_neg hrole)), fun hrole => h.trans (congrArg Host.Outcome.next (if_pos hrole))⟩
  · refine ⟨fun hrole => ?_, fun hall => ⟨fun hrole => ?_, fun hrole => ?_⟩⟩
    · simpa [hrole] using gnNorm_of_summed (sums := sums) hsum hres hin (by omega) (.inl hrole)
    · simpa [hrole] using gnNorm_of_summed hsum hres hin (by omega) (.inr hall)
    · simpa [hrole] using gnNorm_of_summed hsum hres hin (by omega) (.inr hall)

end Sys2Proof.Machine
end
section
/-! PROOFS. Memory and basins: stored bytes, and reads and writes of a basin whose words hold errors (R275, R277, R278, R280). -/

namespace Sys2Proof.Machine

section
variable {s t : State} {m : Ident} {a n : Nat} {bs : List Byte}

/-! ## Stored bytes (R275, R283) -/

theorem memory_wf_setBytes (s : State) (a : Nat) (bs : List Byte) (h : Memory.wf s.mem = true) : Memory.wf (s.setBytes a bs).mem = true := by
  induction bs generalizing s a with
  | nil => exact h
  | cons b bs ih => exact ih (s.setByte a b) (a + 1) (spWf_put a b h)

/-! ## An access by address whose operands are its own -/

/-- A write with as many bytes as its size writes them all. -/
theorem busAccess_write {addr : Nat} (h : bs.length = n) : s.busAccess m addr n true bs = s.busWrite m addr bs := by
  subst h
  simp [State.busAccess]

theorem busWrite_local {st : Nat} (ha : a < 2 ^ 48) (h : s.localWr m a bs = (some st, t)) : s.busWrite m a bs = t.reply st [] := by
  rw [State.busWrite, resolve_local s ha]
  simp only [ne_eq, not_true_eq_false, if_false, h]

theorem busRead_local {st : Nat} {ds : List Byte} (ha : a < 2 ^ 48) (h : s.localRd m a n = (st, ds, t)) : s.busRead m a n = t.reply st ds := by
  rw [State.busRead, resolve_local s ha]
  simp only [ne_eq, not_true_eq_false, if_false, h]

/-! ## Words with an error (R277, R278) -/

theorem Noted.ecc (h : Noted s t) : t.ecc = s.ecc := by
  obtain ⟨r, e, l, f, rfl⟩ := h
  rfl

theorem noted_poundError (s : State) (m : Ident) (st : Nat) : Noted s (s.poundError m st) := by
  unfold State.poundError
  split
  · exact noted_uncorrectable s
  · exact Noted.refl s

/-- A read of a basin ends with ECC_UNCORR where a word holds an uncorrectable error; single-bit errors are told of alone. -/
theorem basinRd_status (s : State) (a n : Nat) : (s.basinRd a n).1 = if s.marked 8 2 a n = [] then stOK else stECC_UNCORR := by
  have hfold := noted_foldl (fun t k => noted_post t 0x02 stOK (s.src (a / basinSize)) k) s (s.marked 8 1 a n)
  have hmarked := congrArg (fun e : Sparse Nat => (e.filter (fun c => c.2 == 2 && decide (a < c.1 + 8) && decide (c.1 < a + n))).map (·.1)) hfold.ecc
  unfold State.basinRd
  dsimp only
  split
  · next h => exact (if_pos (hmarked.symm.trans h)).symm
  · next h => exact (if_neg fun he => List.cons_ne_nil _ _ (h.symm.trans (hmarked.trans he))).symm

/-- The words of level `lvl` that a write of `n` bytes at `a` writes only in part. -/
def State.partMarked (s : State) (lvl a n : Nat) : List Nat := (s.marked 8 lvl a n).filter (fun k => partWord 8 k a n)

theorem basinWr_whole (h1 : s.partMarked 1 a bs.length = []) (h2 : s.partMarked 2 a bs.length = []) :
    s.basinWr a bs = (stOK, (s.clearMarks 8 a bs.length).setBytes a bs) := by
  unfold State.partMarked at h1 h2
  unfold State.basinWr
  dsimp only
  rw [h1, h2, List.foldl_nil]

theorem basinWr_uncorrectable (h : s.partMarked 2 a bs.length ≠ []) : (s.basinWr a bs).1 = stECC_UNCORR ∧ Noted s (s.basinWr a bs).2 := by
  obtain ⟨k, ks, hk⟩ := List.exists_cons_of_ne_nil h
  unfold State.partMarked at hk
  unfold State.basinWr
  dsimp only
  rw [hk]
  exact ⟨rfl, (noted_post ..).trans (noted_damaged ..)⟩

theorem spGet_filter_dropped {α : Type} (d : α) {p : Nat × α → Bool} {i : Nat} (h : ∀ v, p (i, v) = false) :
    ∀ l : Sparse α, spGet d (l.filter p) i = d
  | [] => rfl
  | (k, v) :: l => by
    have ih := spGet_filter_dropped d h l
    rw [List.filter_cons]
    split
    · next hp =>
      have hk : i ≠ k := fun he => by rw [← he, h v] at hp; exact absurd hp (by decide)
      rw [spGet, if_neg hk, ih]
    · exact ih

/-- A write ends every error of the words it touches and no other. -/
theorem ecc_clearMarks (s : State) (g a n k : Nat) : spGet 0 (s.clearMarks g a n).ecc k = if a < k + g ∧ k < a + n then 0 else spGet 0 s.ecc k := by
  split
  · next h => exact spGet_filter_dropped 0 (fun v => by simpa using h) s.ecc
  · next h => exact ecc_clearMarks_outside s (by omega)

/-! ## BASIN_ACCESS past its checks (R275, R277, R278) -/

/-- A read of a basin past its checks is what the basin makes of it, and what that means for the pound. -/
theorem localRd_basin_eq (ha : a < 0x800000000) (hal : aligned a n = true) (hp : PassesN s m a n false) : s.localRd m a n =
    ((s.basinRd a n).1, if (s.basinRd a n).1 = stOK then (s.basinRd a n).2.bytes a n else [], (s.basinRd a n).2.poundError m (s.basinRd a n).1) := by
  obtain ⟨hsends, hcheck⟩ := hp
  unfold State.localRd State.memRd
  rw [flushSends_none hsends, target_of_basin ha]
  dsimp only
  rw [hal, if_neg (by decide), checkLocal_ok hcheck, if_neg (not_not.2 rfl)]

theorem localWr_basin_eq (ha : a < 0x800000000) (hal : aligned a bs.length = true) (hp : PassesN s m a bs.length true) :
    s.localWr m a bs = (some (s.basinWr a bs).1, (s.basinWr a bs).2.poundError m (s.basinWr a bs).1) := by
  obtain ⟨hsends, hcheck⟩ := hp
  unfold State.localWr State.memWr State.memWrIn
  rw [flushSends_none hsends, target_of_basin ha]
  dsimp only
  rw [hal, if_neg (by decide), checkLocal_ok hcheck, if_neg (not_not.2 rfl)]

end

section
variable {s : State} {m : Ident} {addr : Dword} {size : Nat} {data : List Byte}

theorem basinAccess_clean (s : State) (m : Ident) (addr : Dword) (size : Nat) (write : Bool) (data : List Byte) :
    exec (.basinAccess m addr size write data .none) s = .next (s.busAccess m addr.toNat size write data) := by
  have hstate : (match s.resolve addr.toNat with
      | some (dev, a) => if dev = s.devId ∧ a < 0x800000000 then s.addUpset 8 a .none else s
      | none => s) = s := by
    split
    · exact ite_self _
    · rfl
  show execBasinAccess m addr size write data .none s = _
  unfold execBasinAccess
  exact congrArg (fun t : State => Host.Outcome.next (t.busAccess m addr.toNat size write data)) hstate

variable (ha : addr.toNat < 0x800000000)
include ha

theorem basinAccess_read (hal : aligned addr.toNat size = true) (hp : PassesN s m addr.toNat size false) :
    ∃ t : State, exec (.basinAccess m addr size false [] .none) s = .next t ∧ t.mem = s.mem ∧ t.ecc = s.ecc
      ∧ t.resp = (if s.marked 8 2 addr.toNat size = [] then ⟨stOK, s.bytes addr.toNat size⟩ else ⟨stECC_UNCORR, []⟩) := by
  have hnoted := noted_basinRd s addr.toNat size
  have hend := hnoted.trans (noted_poundError _ m (s.basinRd addr.toNat size).1)
  refine ⟨_, (basinAccess_clean ..).trans (congrArg _ (busRead_local (by omega) (localRd_basin_eq ha hal hp))), hend.mem, hend.ecc, ?_⟩
  rw [basinRd_status, bytes_of_mem hnoted.mem]
  split <;> rfl

theorem basinAccess_write (hlen : data.length = size) {st : Nat} {t : State} (h : s.localWr m addr.toNat data = (some st, t)) :
    exec (.basinAccess m addr size true data .none) s = .next (t.reply st []) := by
  rw [basinAccess_clean, busAccess_write hlen, busWrite_local (by omega) h]

theorem basinAccess_write_whole (hal : aligned addr.toNat data.length = true) (hp : PassesN s m addr.toNat data.length true)
    (h1 : s.partMarked 1 addr.toNat data.length = []) (h2 : s.partMarked 2 addr.toNat data.length = []) :
    exec (.basinAccess m addr data.length true data .none) s
      = .next (((s.clearMarks 8 addr.toNat data.length).setBytes addr.toNat data).reply stOK []) := by
  have hwrite := localWr_basin_eq ha hal hp
  rw [basinWr_whole h1 h2, poundError_ok] at hwrite
  exact basinAccess_write ha rfl hwrite

theorem basinAccess_write_uncorrectable (hal : aligned addr.toNat data.length = true) (hp : PassesN s m addr.toNat data.length true)
    (h : s.partMarked 2 addr.toNat data.length ≠ []) : ∃ t : State, exec (.basinAccess m addr data.length true data .none) s = .next t
      ∧ t.resp = ⟨stECC_UNCORR, []⟩ ∧ t.mem = s.mem ∧ t.ecc = s.ecc := by
  obtain ⟨hstatus, hnoted⟩ := basinWr_uncorrectable h
  have hwrite := localWr_basin_eq ha hal hp
  rw [hstatus] at hwrite
  have hend := hnoted.trans (noted_poundError _ m stECC_UNCORR)
  exact ⟨_, basinAccess_write ha rfl hwrite, rfl, hend.mem, hend.ecc⟩

end

/-- Settles O13: what stands at and beside the stored bytes by the laws of `setBytes`, and the canonical form byte by byte. -/
theorem storedBytesReadBack : Obligations.StoredBytesReadBack := fun s a bs =>
  ⟨stores_setBytes a bs rfl, State.bytes_setBytes_same s a bs, State.setBytes_eq s a bs, memory_wf_setBytes s a bs⟩

/-- Settles O14: a write by whether a word that it writes in part holds an error, a read by whether a word of it does. -/
theorem basinAccessesComplete : Obligations.BasinAccessesComplete := by
  unfold Obligations.BasinAccessesComplete
  intro m addr size data s a part ha hal
  refine ⟨?_, fun hp => ?_⟩
  · rintro rfl hp
    refine ⟨fun h1 h2 => ⟨_, basinAccess_write_whole ha hal hp h1 h2, stores_of_mem_eq (stores_setBytes (u := s.clearMarks 8 a data.length) a data rfl) rfl, fun k => ?_, ?_⟩,
      basinAccess_write_uncorrectable ha hal hp⟩
    · rw [← ecc_clearMarks s 8 a data.length k, State.setBytes_eq]
      rfl
    · rw [State.setBytes_eq]
      rfl
  · obtain ⟨t, hexec, hmem, hecc, hresp⟩ := basinAccess_read ha hal hp
    refine ⟨fun h1 h2 => ?_, fun h2 => ⟨t, hexec, hresp.trans (if_pos h2), hmem, hecc⟩, fun h2 => ⟨t, hexec, hresp.trans (if_neg h2), hmem, hecc⟩⟩
    rw [basinAccess_clean]
    exact congrArg _ (busRead_local (by omega) (localRd_basin ha hal hp h1 h2))

end Sys2Proof.Machine
end
section
/-! PROOFS. HBM: keys and spans, the checks of a read, what a write leaves, accesses and memory-side operations past their checks (R283 to R289, R298 to R304). -/

namespace Sys2Proof.Machine

/-! ## The home of an offset, and its key (R283, R299) -/

theorem hbmHome_lt (o : Nat) : hbmHome o < 8 := by
  unfold hbmHome hbmHash
  exact Nat.mod_lt _ (by decide)

/-- The home is that of the 256-byte granule. -/
theorem hbmHome_congr {o x : Nat} (h : o / 256 = x / 256) : hbmHome o = hbmHome x := by
  unfold hbmHome hbmHash
  rw [h]

section
variable {s t : State} {o x n a h : Nat}

theorem keyTag_congr (hg : o / 256 = x / 256) : s.keyTag o = s.keyTag x := by
  have hgib : o / 2 ^ 30 = x / 2 ^ 30 := by omega
  have hmeta : (0x2F40000000 ≤ o) = (0x2F40000000 ≤ x) := propext (by omega)
  unfold State.keyTag State.slotOf State.kreg
  rw [hbmHome_congr hg, hgib]
  simp only [hmeta]

theorem keyed_of_allKeyed (hk : s.allKeyed a n = true) (h1 : a ≤ x) (h2 : x < a + n) : s.keyed x = true := by
  have hi : x / 16 - a / 16 < (a + n + 15) / 16 - a / 16 := by omega
  have hblock := List.all_eq_true.1 hk _ (List.mem_range.2 hi)
  have hat : (a / 16 + (x / 16 - a / 16)) * 16 = x / 16 * 16 := by omega
  rw [hat] at hblock
  unfold State.keyed at hblock ⊢
  rwa [show x / 16 * 16 / 16 = x / 16 by omega, keyTag_congr (show x / 16 * 16 / 256 = x / 256 by omega)] at hblock

/-- Bytes of blocks that are all under the key in force read as they were stored. -/
theorem plainBytes_of_allKeyed {len : Nat} (hk : s.allKeyed a len = true) (h1 : a ≤ o) (h2 : o + n ≤ a + len) :
    s.plainBytes o n = s.bytes (hbmBase + o) n := by
  refine List.ext_getElem (by simp [State.plainBytes, State.bytes_length]) fun i hi hi' => ?_
  have hin : i < n := by simpa [State.plainBytes] using hi
  have hkey := keyed_of_allKeyed hk (show a ≤ o + i by omega) (by omega)
  rw [State.bytes_getElem]
  simp only [State.plainBytes, List.getElem_map, List.getElem_range, State.plainByte, hkey, if_true, Nat.add_assoc]

theorem rekeySpan_of_allKeyed (hk : s.allKeyed o n = true) : s.rekeySpan o n = s := if_pos hk

theorem kregFrom_of_regs (hkreg : ∀ i < 16, t.rd (HM_KREG 0 i) = s.rd (HM_KREG 0 i)) (gib : Nat) :
    ∀ l : List Nat, (∀ i ∈ l, i < 16) → t.kregFrom gib l = s.kregFrom gib l
  | [], _ => rfl
  | i :: l, hl => by
    have ih := kregFrom_of_regs hkreg gib l fun j hj => hl j (List.mem_cons_of_mem _ hj)
    unfold State.kregFrom State.rb State.rf
    dsimp only
    rw [hkreg i (hl i (List.mem_cons_self ..)), ih]

/-- The keys of HBM are read from INTEG of the controllers and the key-region entries alone. -/
theorem allKeyed_of_regs (ht : OnlyRegs s t) (hcfg : ∀ h < 8, t.rd (HM_CFG h) = s.rd (HM_CFG h)) (hkreg : ∀ i < 16, t.rd (HM_KREG 0 i) = s.rd (HM_KREG 0 i)) :
    t.allKeyed a n = s.allKeyed a n := by
  have hfields : t.blockKey = s.blockKey ∧ t.keyGen = s.keyGen := by
    obtain ⟨r, rfl⟩ := ht
    exact ⟨rfl, rfl⟩
  have htag : ∀ x, t.keyTag x = s.keyTag x := by
    intro x
    unfold State.keyTag State.slotOf State.kreg State.integ State.rb State.rf
    rw [hcfg _ (hbmHome_lt x), kregFrom_of_regs hkreg _ _ fun i hi => List.mem_range.1 hi, hfields.2]
  unfold State.allKeyed State.keyed
  simp only [htag, hfields.1]

/-! ## Spans and units (R286, R301) -/

theorem hbmSpan_covers (integ : Bool) (o n : Nat) : (hbmSpan integ o n).1 ≤ o ∧ o + n ≤ (hbmSpan integ o n).1 + (hbmSpan integ o n).2 := by
  cases integ <;> simp only [hbmSpan, Bool.false_eq_true, if_true, if_false] <;> omega

/-- An aligned access lies within one data unit. -/
theorem unitsOf_aligned (hal : aligned o n = true) : unitsOf (hbmSpan true o n) = [o / 512] := by
  have hn : n = 1 ∨ n = 2 ∨ n = 4 ∨ n = 8 ∨ n = 16 ∨ n = 32 ∨ n = 64 := by simpa [aligned, okSize] using (Bool.and_eq_true_iff.1 hal).1
  have hmod : o % n = 0 := by simpa using (Bool.and_eq_true_iff.1 hal).2
  have hone : (hbmSpan true o n).2 / 512 = 1 := by
    simp only [hbmSpan, if_true]
    rcases hn with rfl | rfl | rfl | rfl | rfl | rfl | rfl <;> omega
  have hfirst : (hbmSpan true o n).1 / 512 = o / 512 := by simp [hbmSpan]
  rw [unitsOf, hone, hfirst]
  rfl

/-- With integrity on every access of up to 64 bytes is merged into its unit. -/
theorem hbmMerges_of_integ (hi : s.integ (hbmHome o) = true) (h0 : n ≠ 0) (h64 : n ≤ 64) : s.hbmMerges o n = true := by
  have hspan : (hbmSpan true o n).2 ≠ n := by
    simp only [hbmSpan, if_true]
    omega
  unfold State.hbmMerges
  dsimp only
  rw [hi, beq_eq_false_iff_ne.2 hspan, Bool.and_false, Bool.not_false]

/-! ## The checks of a span without upsets, under the key in force (R295, R301) -/

/-- What the dies hold of verified units after a read at `o`: with integrity off as before; with it on, the unit of an aligned read is held. -/
def HoldsUnit (s : State) (o n : Nat) (c : List HbmCache) : Prop :=
  (s.integ (hbmHome o) = false → c = s.hbmCache)
    ∧ (s.integ (hbmHome o) = true → s.hbmCache.length = 8 → aligned o n = true → o / 512 ∈ (c.getD (hbmHome o) HbmCache.empty).units)

theorem upsets_of_no_ecc (he : s.ecc = []) (integ : Bool) (lvl : Nat) (sp : Nat × Nat) : s.upsets integ h lvl sp = [] := by
  unfold State.upsets
  simp only [marked_of_no_ecc he, ite_self, List.nil_append]
  split
  · exact List.flatMap_eq_nil_iff.2 fun _ _ => rfl
  · rfl

theorem cacheUnits_holds {u : Nat} (hh : h < s.hbmCache.length) : u ∈ ((s.cacheUnits h [u]).cacheOf h).units := by
  unfold State.cacheUnits
  simp [State.cacheOf, recent, hh]

theorem hbmCheck_keyed (he : s.ecc = []) (hk : s.allKeyed (hbmSpan (s.integ (hbmHome o)) o n).1 (hbmSpan (s.integ (hbmHome o)) o n).2 = true) :
    ∃ c, s.hbmCheck o n = (stOK, { s with hbmCache := c }) ∧ HoldsUnit s o n c := by
  unfold State.hbmCheck
  dsimp only
  rw [hk, Bool.not_true, Bool.and_false, if_neg Bool.false_ne_true, upsets_of_no_ecc he, upsets_of_no_ecc he]
  split
  · next hheld =>
    obtain ⟨hi, hheld⟩ := Bool.and_eq_true_iff.1 hheld
    refine ⟨s.hbmCache, rfl, fun _ => rfl, fun _ _ hal => ?_⟩
    rw [hi, unitsOf_aligned hal] at hheld
    simpa [State.cacheOf] using hheld
  · dsimp only [List.foldl_nil]
    cases hi : s.integ (hbmHome o) with
    | false => exact ⟨s.hbmCache, rfl, fun _ => rfl, fun h => absurd (hi.symm.trans h) (by decide)⟩
    | true =>
      refine ⟨(s.cacheUnits (hbmHome o) (unitsOf (hbmSpan true o n))).hbmCache, rfl, fun h => absurd (hi.symm.trans h) (by decide), fun _ hlen hal => ?_⟩
      rw [unitsOf_aligned hal]
      exact cacheUnits_holds (hlen ▸ hbmHome_lt o)

/-! ## Counters of a controller (R304) -/

theorem satAdd_mod {limit : Nat} (a b : Nat) (h : limit < n) : satAdd limit a b % n = satAdd limit a b :=
  Nat.mod_eq_of_lt (Nat.lt_of_le_of_lt (Nat.min_le_left ..) h)

theorem rd_bump_same (s : State) (a k : Nat) : (s.bump a k).rd a = satAdd 0xFFFFFFFF (s.rd a) k :=
  (State.rd_wr_same ..).trans (satAdd_mod _ _ (by decide))

theorem rd_bump_other {b : Nat} (k : Nat) (h : b ≠ a) : (s.bump a k).rd b = s.rd b := State.rd_wr_other _ _ h

theorem regsBut_bump (s : State) (a k : Nat) : RegsBut s (s.bump a k) [a] := (RegsBut.refl s _).bump (List.mem_cons_self ..) k

theorem rdWide_count (s : State) (a k : Nat) :
    (s.wrWide a 2 (satAdd (2 ^ 64 - 1) (s.rdWide a 2) k)).rdWide a 2 = satAdd (2 ^ 64 - 1) (s.rdWide a 2) k :=
  (rdWide_wrWide ..).trans (satAdd_mod _ _ (by decide))

theorem rdWide_bump {b : Nat} (k : Nat) (h : a < b ∨ b + 8 ≤ a) : (s.bump a k).rdWide b 2 = s.rdWide b 2 :=
  (regsBut_bump s a k).rdWide fun i hi => by simp only [List.mem_singleton]; omega

/-- An access of up to 32 bytes counts on the narrow path, and no other does. -/
theorem regsBut_countNarrow (s : State) (o n st : Nat) : RegsBut s (s.countNarrow o n st) [HM_NARROW_CNT (hbmHome o)] := by
  unfold State.countNarrow
  split
  · exact regsBut_bump _ _ _
  · exact RegsBut.refl _ _

theorem onlyRegs_countNarrow (s : State) (o n st : Nat) : OnlyRegs s (s.countNarrow o n st) := by
  unfold State.countNarrow
  split
  · exact onlyRegs_wr ..
  · exact OnlyRegs.refl s

theorem rd_countNarrow (s : State) (o n : Nat) : (s.countNarrow o n stOK).rd (HM_NARROW_CNT (hbmHome o))
    = if n ≤ 32 then satAdd 0xFFFFFFFF (s.rd (HM_NARROW_CNT (hbmHome o))) 1 else s.rd (HM_NARROW_CNT (hbmHome o)) := by
  unfold State.countNarrow
  by_cases h : n ≤ 32
  · rw [if_pos ⟨h, rfl⟩, if_pos h, rd_bump_same]
  · rw [if_neg fun hc => h hc.1, if_neg h]

/-! ## A read past its checks (R286, R304) -/

/-- The state in which a read has been counted and the dies hold `c`. -/
def State.hbmCounted (s : State) (o n : Nat) (c : List HbmCache) : State :=
  ({ s with hbmCache := c } : State).wrWide (HM_RD_BYTES_0 (hbmHome o)) 2 (satAdd (2 ^ 64 - 1) (s.rdWide (HM_RD_BYTES_0 (hbmHome o)) 2) n)

theorem hbmRd_keyed (he : s.ecc = []) (hk : s.allKeyed (hbmSpan (s.integ (hbmHome o)) o n).1 (hbmSpan (s.integ (hbmHome o)) o n).2 = true) :
    ∃ c, s.hbmRd o n = (stOK, s.bytes (hbmBase + o) n, s.hbmCounted o n c) ∧ HoldsUnit s o n c := by
  obtain ⟨c, hcheck, hholds⟩ := hbmCheck_keyed he hk
  obtain ⟨h1, h2⟩ := hbmSpan_covers (s.integ (hbmHome o)) o n
  have hbytes : ({ s with hbmCache := c } : State).bytes (hbmBase + o) n = s.bytes (hbmBase + o) n :=
    bytes_of_mem (s := s) (t := { s with hbmCache := c }) rfl _ _
  refine ⟨c, ?_, hholds⟩
  unfold State.hbmRd
  rw [hcheck]
  dsimp only
  rw [if_neg (not_not.2 rfl), plainBytes_of_allKeyed (s := { s with hbmCache := c }) hk h1 h2, hbytes]
  rfl

/-- What a read of `n` bytes at `o` leaves beside its answer. -/
structure HbmRead (s t : State) (o n : Nat) (c : List HbmCache) : Prop where
  frame : ∃ r, t = { s with regs := r, hbmCache := c }
  counts : t.rdWide (HM_RD_BYTES_0 (hbmHome o)) 2 = satAdd (2 ^ 64 - 1) (s.rdWide (HM_RD_BYTES_0 (hbmHome o)) 2) n
  regs : RegsBut s t (wordsAt (HM_RD_BYTES_0 (hbmHome o)) 2)

theorem hbmRead_counted (s : State) (o n : Nat) (c : List HbmCache) : HbmRead s (s.hbmCounted o n c) o n c :=
  ⟨⟨_, wrWide_eq ..⟩, (rdWide_wrWide ..).trans (satAdd_mod _ _ (by decide)), ((RegsBut.refl s _).of_regs rfl).wrWide (List.Subset.refl _) _⟩

/-! ## A write past its checks (R286, R301) -/

/-- With integrity on, a write counts as merged. -/
def State.rmwCounted (s : State) (o : Nat) : State := if s.integ (hbmHome o) then s.bump (HM_RMW_CNT (hbmHome o)) 1 else s

theorem onlyRegs_rmwCounted (s : State) (o : Nat) : OnlyRegs s (s.rmwCounted o) := by
  unfold State.rmwCounted
  split
  · exact onlyRegs_wr ..
  · exact OnlyRegs.refl s

theorem regsBut_rmwCounted (s : State) (o : Nat) : RegsBut s (s.rmwCounted o) [HM_RMW_CNT (hbmHome o)] := by
  unfold State.rmwCounted
  split
  · exact regsBut_bump _ _ _
  · exact RegsBut.refl _ _

theorem rd_rmwCounted (s : State) (o : Nat) : (s.rmwCounted o).rd (HM_RMW_CNT (hbmHome o))
    = if s.integ (hbmHome o) then satAdd 0xFFFFFFFF (s.rd (HM_RMW_CNT (hbmHome o))) 1 else s.rd (HM_RMW_CNT (hbmHome o)) := by
  unfold State.rmwCounted
  split
  · exact rd_bump_same ..
  · rfl

/-- The state in which a write has been counted as merged where integrity is on, and the dies hold `c`. -/
def State.merged (s : State) (o : Nat) (c : List HbmCache) : State := { s.rmwCounted o with hbmCache := c }

theorem setKeys_eq (s : State) (o n : Nat) : ∃ k, s.setKeys o n = { s with blockKey := k } := by
  induction n generalizing s o with
  | zero => exact ⟨_, rfl⟩
  | succ n ih =>
    obtain ⟨k, hk⟩ := ih { s with blockKey := spPut 0 s.blockKey (o / 16) (s.keyTag o) } (o + 16)
    exact ⟨k, hk⟩

/-- The end of a write stores the bytes, gives their blocks their keys and counts them. -/
theorem hbmPut_eq (he : s.ecc = []) (o : Nat) (sp : Nat × Nat) (bs : List Byte) : ∃ k, s.hbmPut o sp bs =
    ({ s.setBytes (hbmBase + o) bs with blockKey := k } : State).wrWide (HM_WR_BYTES_0 (hbmHome o)) 2
      (satAdd (2 ^ 64 - 1) (s.rdWide (HM_WR_BYTES_0 (hbmHome o)) 2) bs.length) := by
  have hmarks : s.clearMarks 32 (hbmBase + sp.1) sp.2 = s := by
    unfold State.clearMarks
    rw [he]
    exact congrArg (fun e => { s with ecc := e }) he.symm
  unfold State.hbmPut
  dsimp only
  rw [hmarks]
  obtain ⟨k, hk⟩ := setKeys_eq (s.setBytes (hbmBase + o) bs) (o / 16 * 16) ((o + bs.length + 15) / 16 - o / 16)
  refine ⟨k, ?_⟩
  rw [hk, State.setBytes_eq]
  rfl

/-- What a write of `bs` at `o`, merged where integrity is on, leaves. -/
structure HbmWritten (s t : State) (o : Nat) (bs : List Byte) (c : List HbmCache) : Prop where
  stores : Stores s t (hbmBase + o) bs
  frame : ∃ b k r, t = { s with mem := b, blockKey := k, regs := r, hbmCache := c }
  merges : t.rd (HM_RMW_CNT (hbmHome o)) = if s.integ (hbmHome o) then satAdd 0xFFFFFFFF (s.rd (HM_RMW_CNT (hbmHome o))) 1 else s.rd (HM_RMW_CNT (hbmHome o))
  counts : t.rdWide (HM_WR_BYTES_0 (hbmHome o)) 2 = satAdd (2 ^ 64 - 1) (s.rdWide (HM_WR_BYTES_0 (hbmHome o)) 2) bs.length
  regs : RegsBut s t (HM_RMW_CNT (hbmHome o) :: wordsAt (HM_WR_BYTES_0 (hbmHome o)) 2)

theorem rmw_below_wrBytes (h : Nat) : HM_RMW_CNT h < HM_WR_BYTES_0 h := by
  unfold HM_RMW_CNT HM_WR_BYTES_0
  omega

theorem regsBut_merged (s : State) (o : Nat) (c : List HbmCache) : RegsBut s (s.merged o c) [HM_RMW_CNT (hbmHome o)] :=
  (regsBut_rmwCounted s o).of_regs rfl

theorem merged_eq (s : State) (o : Nat) (c : List HbmCache) : ∃ r, s.merged o c = { s with regs := r, hbmCache := c } := by
  obtain ⟨r, hr⟩ := onlyRegs_rmwCounted s o
  exact ⟨r, congrArg (fun t : State => { t with hbmCache := c }) hr⟩

theorem rd_merged (s : State) (o : Nat) (c : List HbmCache) (a : Nat) : (s.merged o c).rd a = (s.rmwCounted o).rd a :=
  rd_of_regs (s := s.rmwCounted o) a rfl

theorem rdWide_merged (s : State) (o : Nat) (c : List HbmCache) :
    (s.merged o c).rdWide (HM_WR_BYTES_0 (hbmHome o)) 2 = s.rdWide (HM_WR_BYTES_0 (hbmHome o)) 2 :=
  (regsBut_merged s o c).rdWide fun i _ => by
    have := rmw_below_wrBytes (hbmHome o)
    simp only [List.mem_singleton]
    omega

theorem hbmWritten_merged (he : s.ecc = []) (o : Nat) (c : List HbmCache) (sp : Nat × Nat) (bs : List Byte) :
    HbmWritten s ((s.merged o c).hbmPut o sp bs) o bs c := by
  obtain ⟨r, hr⟩ := merged_eq s o c
  have hmem : (s.merged o c).mem = s.mem := by rw [hr]
  obtain ⟨k, hput⟩ := hbmPut_eq (s := s.merged o c) (by rw [hr]; exact he) o sp bs
  rw [rdWide_merged] at hput
  rw [hput]
  refine ⟨?_, ?_, ?_, ?_, ?_⟩
  · exact stores_of_mem_eq (stores_setBytes (hbmBase + o) bs hmem) (by rw [wrWide_eq])
  · rw [wrWide_eq, State.setBytes_eq, hr]
    exact ⟨_, _, _, rfl⟩
  · rw [rd_wrWide_other _ _ _ _ (.inl (rmw_below_wrBytes _)), ← rd_rmwCounted s o, ← rd_merged s o c]
    exact rd_of_regs (s := s.merged o c) _ (by rw [State.setBytes_eq])
  · exact (rdWide_wrWide ..).trans (satAdd_mod _ _ (by decide))
  · refine RegsBut.wrWide ?_ (List.subset_cons_self ..) _
    exact ((regsBut_merged s o c).mono (by simp)).of_regs (by rw [State.setBytes_eq])

/-- INTEG and the key-region entries lie apart from the count of merged writes. -/
theorem integ_rmwCounted (s : State) (o h : Nat) : (s.rmwCounted o).integ h = s.integ h :=
  congrArg (· == 1) ((regsBut_rmwCounted s o).rf (by
    have := hbmHome_lt o
    simp only [List.mem_singleton, HM_CFG, HM_RMW_CNT, hmBase]
    omega) HM_CFG_INTEG)

theorem allKeyed_rmwCounted (s : State) (o a n : Nat) : (s.rmwCounted o).allKeyed a n = s.allKeyed a n := by
  have hhome := hbmHome_lt o
  refine allKeyed_of_regs (onlyRegs_rmwCounted s o) (fun h hh => regsBut_rmwCounted s o _ ?_) (fun i hi => regsBut_rmwCounted s o _ ?_)
  · simp only [List.mem_singleton, HM_CFG, HM_RMW_CNT, hmBase]
    omega
  · simp only [List.mem_singleton, HM_KREG, HM_RMW_CNT, hmBase]
    omega

theorem rmwCounted_fields (s : State) (o : Nat) : (s.rmwCounted o).ecc = s.ecc ∧ (s.rmwCounted o).hbmCache = s.hbmCache := by
  obtain ⟨r, hr⟩ := onlyRegs_rmwCounted s o
  rw [hr]
  exact ⟨rfl, rfl⟩

/-- The read of a merged write. -/
theorem hbmCheck_rmwCounted (he : s.ecc = []) (hk : s.allKeyed (hbmSpan (s.integ (hbmHome o)) o n).1 (hbmSpan (s.integ (hbmHome o)) o n).2 = true) :
    ∃ c, (s.rmwCounted o).hbmCheck o n = (stOK, s.merged o c) ∧ HoldsUnit s o n c
      ∧ (s.merged o c).rekeySpan (hbmSpan (s.integ (hbmHome o)) o n).1 (hbmSpan (s.integ (hbmHome o)) o n).2 = s.merged o c := by
  obtain ⟨hecc, hcache⟩ := rmwCounted_fields s o
  have hinteg := integ_rmwCounted s o (hbmHome o)
  rw [← allKeyed_rmwCounted s o] at hk
  obtain ⟨c, hcheck, hholds⟩ := hbmCheck_keyed (s := s.rmwCounted o) (hecc.trans he) (hinteg.symm ▸ hk)
  unfold HoldsUnit at hholds ⊢
  rw [hinteg, hcache] at hholds
  exact ⟨c, hcheck, hholds, rekeySpan_of_allKeyed (s := s.merged o c) hk⟩

theorem hbmWr_keyed (he : s.ecc = []) (bs : List Byte) (h0 : bs.length ≠ 0) (h64 : bs.length ≤ 64)
    (hk : s.allKeyed (hbmSpan (s.integ (hbmHome o)) o bs.length).1 (hbmSpan (s.integ (hbmHome o)) o bs.length).2 = true) :
    ∃ c, s.hbmWr o bs false = (stOK, (s.merged o c).hbmPut o (hbmSpan (s.integ (hbmHome o)) o bs.length) bs) ∧ HoldsUnit s o bs.length c := by
  cases hm : s.hbmMerges o bs.length with
  | true =>
    obtain ⟨c, hcheck, hholds, hrekey⟩ := hbmCheck_rmwCounted he hk
    refine ⟨c, ?_, hholds⟩
    unfold State.rmwCounted at hcheck
    unfold State.hbmWr
    dsimp only
    rw [hm, Bool.not_false, Bool.true_and, Bool.and_true, if_pos rfl, hcheck]
    dsimp only
    rw [if_neg (not_not.2 rfl), if_pos rfl, if_neg Bool.false_ne_true, hrekey]
  | false =>
    have hi : s.integ (hbmHome o) = false := by
      by_contra hi
      exact absurd (hm.symm.trans (hbmMerges_of_integ (by simpa using hi) h0 h64)) (by decide)
    have hmerged : s.merged o s.hbmCache = s := by
      unfold State.merged State.rmwCounted
      rw [hi]
      rfl
    refine ⟨s.hbmCache, ?_, fun _ => rfl, fun hi' => absurd (hi.symm.trans hi') (by decide)⟩
    rw [hmerged]
    unfold State.hbmWr
    dsimp only
    rw [hm, Bool.and_false, Bool.and_false, if_neg Bool.false_ne_true, if_neg Bool.false_ne_true]
    dsimp only
    rw [if_neg (not_not.2 rfl), if_neg Bool.false_ne_true, if_neg Bool.false_ne_true]

/-! ## HBM_ACCESS past its checks -/

variable {m : Ident}

theorem localRd_hbm {u : State} {bs : List Byte} (ht : target a = .hbm o) (hal : aligned a n = true) (hp : PassesN s m a n false)
    (hr : s.hbmRd o n = (stOK, bs, u)) : s.localRd m a n = (stOK, bs, u.countNarrow o n stOK) := by
  obtain ⟨hsends, hcheck⟩ := hp
  unfold State.localRd State.memRd
  rw [flushSends_none hsends, ht]
  dsimp only
  rw [hal, Bool.not_true, if_neg Bool.false_ne_true, checkLocal_ok hcheck, if_neg (not_not.2 rfl), hr]
  dsimp only
  rw [poundError_ok]

theorem localWr_hbm {u : State} {bs : List Byte} (ht : target a = .hbm o) (hal : aligned a bs.length = true) (hp : PassesN s m a bs.length true)
    (hw : s.hbmWr o bs false = (stOK, u)) : s.localWr m a bs = (some stOK, u.countNarrow o bs.length stOK) := by
  obtain ⟨hsends, hcheck⟩ := hp
  unfold State.localWr State.memWr State.memWrIn
  rw [flushSends_none hsends, ht]
  dsimp only
  rw [hal, Bool.not_true, if_neg Bool.false_ne_true, checkLocal_ok hcheck, if_neg (not_not.2 rfl), hw]
  dsimp only
  rw [poundError_ok]

theorem hbmAccess_clean {addr : Dword} {narrow : Bool} (hl : addr.toNat < 2 ^ 48) (ht : target addr.toNat = .hbm o) (hal : aligned addr.toNat n = true)
    (hn : narrow = true → n ≤ 32) (write : Bool) (data : List Byte) :
    exec (.hbmAccess m addr n narrow write data .none) s = .next (s.busAccess m addr.toNat n write data) := by
  have hpath : ((narrow || decide (n ≤ 32)) && decide (32 < n)) = false := by
    by_cases h : n ≤ 32
    · rw [decide_eq_false (Nat.not_lt.2 h), Bool.and_false]
    · have hwide : narrow = false := by
        by_contra hc
        exact h (hn (by simpa using hc))
      rw [hwide, decide_eq_false h]
      rfl
  show execHbmAccess m addr n narrow write data .none s = _
  unfold execHbmAccess State.addUpset
  rw [resolve_local s hl]
  dsimp only
  rw [beq_self_eq_true, ht]
  dsimp only
  rw [hpath, if_neg Bool.false_ne_true, hal, Bool.not_true, if_neg Bool.false_ne_true]

theorem hbmAccess_read_completes {addr : Dword} {narrow : Bool} (hl : addr.toNat < 2 ^ 48) (ht : target addr.toNat = .hbm o)
    (hal : aligned addr.toNat n = true) (hn : narrow = true → n ≤ 32) (hp : PassesN s m addr.toNat n false) (he : s.ecc = [])
    (hk : s.allKeyed (hbmSpan (s.integ (hbmHome o)) o n).1 (hbmSpan (s.integ (hbmHome o)) o n).2 = true) :
    ∃ (c : List HbmCache) (u : State), HoldsUnit s o n c ∧ HbmRead s u o n c
      ∧ exec (.hbmAccess m addr n narrow false [] .none) s = .next ((u.countNarrow o n stOK).reply stOK (s.bytes addr.toNat n)) := by
  obtain ⟨c, hread, hholds⟩ := hbmRd_keyed he hk
  refine ⟨c, s.hbmCounted o n c, hholds, hbmRead_counted s o n c, ?_⟩
  rw [← target_hbm_split ht] at hread
  rw [hbmAccess_clean hl ht hal hn]
  exact congrArg _ (busRead_local hl (localRd_hbm ht hal hp hread))

theorem hbmAccess_write_completes {addr : Dword} {narrow : Bool} {data : List Byte} (hl : addr.toNat < 2 ^ 48) (ht : target addr.toNat = .hbm o)
    (hal : aligned addr.toNat data.length = true) (hn : narrow = true → data.length ≤ 32) (hp : PassesN s m addr.toNat data.length true) (he : s.ecc = [])
    (hk : s.allKeyed (hbmSpan (s.integ (hbmHome o)) o data.length).1 (hbmSpan (s.integ (hbmHome o)) o data.length).2 = true) :
    ∃ (c : List HbmCache) (u : State), HoldsUnit s o data.length c ∧ HbmWritten s u o data c
      ∧ exec (.hbmAccess m addr data.length narrow true data .none) s = .next ((u.countNarrow o data.length stOK).reply stOK []) := by
  obtain ⟨h64, h0, -⟩ := okSize_le (Bool.and_eq_true_iff.1 hal).1
  obtain ⟨c, hwrite, hholds⟩ := hbmWr_keyed he data h0 h64 hk
  refine ⟨c, _, hholds, hbmWritten_merged he o c (hbmSpan (s.integ (hbmHome o)) o data.length) data, ?_⟩
  rw [hbmAccess_clean hl ht hal hn, busAccess_write rfl]
  exact congrArg _ (busWrite_local hl (localWr_hbm ht hal hp hwrite))

/-- HBM lies on a multiple of every size of an access. -/
theorem aligned_offset (ht : target a = .hbm o) (hal : aligned a n = true) : aligned o n = true := by
  obtain ⟨hsize, hmod⟩ := Bool.and_eq_true_iff.1 hal
  have hdvd : n ∣ hbmBase := by
    have hn : n = 1 ∨ n = 2 ∨ n = 4 ∨ n = 8 ∨ n = 16 ∨ n = 32 ∨ n = 64 := by simpa [okSize] using hsize
    rcases hn with rfl | rfl | rfl | rfl | rfl | rfl | rfl <;> decide
  have ho : o % n = 0 := by
    rw [target_hbm_split ht] at hmod
    exact Nat.mod_eq_zero_of_dvd ((Nat.dvd_add_right hdvd).1 (Nat.dvd_of_mod_eq_zero (by simpa using hmod)))
  exact aligned_of_mod hsize ho

/-! ## The count of the narrow path beside the other counts -/

/-- The counts of a controller, in the order of their addresses. -/
theorem hmCounts_order (h : Nat) : HM_RMW_CNT h < HM_MSOP_NF h ∧ HM_MSOP_NF h < HM_NARROW_CNT h ∧ HM_NARROW_CNT h < HM_RD_BYTES_0 h
    ∧ HM_RD_BYTES_0 h < HM_WR_BYTES_0 h := by
  unfold HM_RMW_CNT HM_MSOP_NF HM_NARROW_CNT HM_RD_BYTES_0 HM_WR_BYTES_0
  omega

theorem not_mem_wordsAt {b : Nat} (h : b < a) : b ∉ wordsAt a n := by
  unfold wordsAt
  simp only [List.mem_map, List.mem_range, not_exists, not_and]
  omega

theorem rdWide_countNarrow (s : State) (o n : Nat) {b : Nat} (h : HM_NARROW_CNT (hbmHome o) < b) : (s.countNarrow o n stOK).rdWide b 2 = s.rdWide b 2 :=
  (regsBut_countNarrow s o n stOK).rdWide fun i _ => by
    simp only [List.mem_singleton]
    omega

theorem rdWide_reply (s : State) (st : Nat) (d : List Byte) (a n : Nat) : (s.reply st d).rdWide a n = s.rdWide a n := rdWide_congr fun _ _ => rfl

/-- A unit that the dies hold with integrity on, in a state with their lists. -/
theorem HoldsUnit.cacheOf {c : List HbmCache} (h : HoldsUnit s o n c) (hlen : s.hbmCache.length = 8) (hal : aligned o n = true) (hc : t.hbmCache = c) :
    (s.integ (hbmHome o) = false → t.hbmCache = s.hbmCache) ∧ (s.integ (hbmHome o) = true → o / 512 ∈ (t.cacheOf (hbmHome o)).units) := by
  subst hc
  exact ⟨h.1, fun hi => h.2 hi hlen hal⟩

end

/-- Settles O15: a read by what `hbmRd` and a write by what `hbmWr` make of a span under the key in force, with the count of the narrow path apart. -/
theorem hbmAccessesComplete : Obligations.HbmAccessesComplete := by
  unfold Obligations.HbmAccessesComplete
  intro m addr size o narrow data s h sp narrowCount hl ht hlen hal hn he hk
  obtain ⟨hrmw, hnf, hrd, hwr⟩ := hmCounts_order (hbmHome o)
  refine ⟨fun hp => ?_, ?_⟩
  · obtain ⟨c, u, hholds, hread, hexec⟩ := hbmAccess_read_completes hl ht hal hn hp he hk
    obtain ⟨r, hu⟩ := hread.frame
    obtain ⟨r', ht'⟩ := onlyRegs_countNarrow u o size stOK
    have hcache : (u.countNarrow o size stOK).hbmCache = c := by rw [ht', hu]
    have hunit := hholds.cacheOf hlen (aligned_offset ht hal) hcache
    refine ⟨_, hexec, rfl, ?_, ?_, ?_, hunit.1, hunit.2, ?_⟩
    · rw [ht', hu]
      rfl
    · rw [rd_reply, rd_countNarrow, hread.regs _ (not_mem_wordsAt hrd)]
    · exact (rdWide_reply ..).trans ((rdWide_countNarrow u o size hrd).trans hread.counts)
    · exact (hread.regs.mono (List.subset_cons_self ..)).trans ((regsBut_countNarrow u o size stOK).mono (List.cons_subset_cons _ (List.nil_subset _)))
  · rintro rfl hp
    have hapart : HM_RMW_CNT (hbmHome o) ∉ [HM_NARROW_CNT (hbmHome o)] := mt List.mem_singleton.1 (hrmw.trans hnf).ne
    obtain ⟨c, u, hholds, hwritten, hexec⟩ := hbmAccess_write_completes hl ht hal hn hp he hk
    obtain ⟨b, k, r, hu⟩ := hwritten.frame
    obtain ⟨r', ht'⟩ := onlyRegs_countNarrow u o data.length stOK
    have hcache : (u.countNarrow o data.length stOK).hbmCache = c := by rw [ht', hu]
    have hunit := hholds.cacheOf hlen (aligned_offset ht hal) hcache
    refine ⟨_, hexec, rfl, ?_, ?_, ?_, ?_, ?_, hunit.1, hunit.2, ?_⟩
    · rw [target_hbm_split ht]
      exact stores_of_mem_eq hwritten.stores (by rw [State.reply_mem, ht'])
    · rw [ht', hu]
      rfl
    · rw [rd_reply, rd_countNarrow, hwritten.regs]
      exact List.not_mem_cons_of_ne_of_not_mem (hrmw.trans hnf).ne' (not_mem_wordsAt (hrd.trans hwr))
    · rw [rd_reply, regsBut_countNarrow u o data.length stOK _ hapart]
      exact hwritten.merges
    · exact (rdWide_reply ..).trans ((rdWide_countNarrow u o data.length (hrd.trans hwr)).trans hwritten.counts)
    · exact (hwritten.regs.mono (List.subset_cons_self ..)).trans ((regsBut_countNarrow u o data.length stOK).mono (List.cons_subset_cons _ (List.nil_subset _)))

end Sys2Proof.Machine
end
section
/-! PROOFS. Memory-side operations: what they compute, lane by lane, and what one that passes its checks leaves (R287 to R289, R301). -/

namespace Sys2Proof.Machine

/-! ## Lanes of a 64-byte number (R289) -/

/-- A lane added above all the others is that lane written. -/
theorem add_lane_eq_natPut {w n r v : Nat} (hr : r < 2 ^ n) (hv : v < 2 ^ w) : r + v * 2 ^ n = natPut n w r v := by
  rw [natPut_parts, Nat.pow_add, ← Nat.div_div_eq_div_mul, Nat.div_eq_of_lt hr, Nat.zero_div, Nat.zero_mul, Nat.zero_add, Nat.mod_eq_of_lt hv,
    Nat.mod_eq_of_lt hr, Nat.add_comm]

/-- Lanes of `w` bits set beside one another, each read back. -/
theorem natBits_lanes {w : Nat} {f : Nat → Nat} (hf : ∀ i, f i < 2 ^ w) (n : Nat) :
    (List.range n).foldl (fun r i => r + f i * 2 ^ (w * i)) 0 < 2 ^ (w * n)
      ∧ ∀ i < n, natBits (w * i) w ((List.range n).foldl (fun r i => r + f i * 2 ^ (w * i)) 0) = f i := by
  induction n with
  | zero => exact ⟨Nat.two_pow_pos _, fun i hi => absurd hi (Nat.not_lt_zero i)⟩
  | succ n ih =>
    obtain ⟨hlt, hlanes⟩ := ih
    rw [List.range_succ, List.foldl_append, List.foldl_cons, List.foldl_nil, add_lane_eq_natPut hlt (hf n)]
    refine ⟨natPut_lt _ (Nat.mul_succ w n).ge (Nat.lt_of_lt_of_le hlt (Nat.pow_le_pow_right Nat.two_pos (Nat.mul_le_mul_left w n.le_succ))), fun i hi => ?_⟩
    rcases Nat.lt_succ_iff_lt_or_eq.1 hi with hi | rfl
    · rw [natBits_natPut_other _ _ (.inl (by rw [← Nat.mul_succ]; exact Nat.mul_le_mul_left w hi)), hlanes i hi]
    · rw [natBits_natPut_same, Nat.mod_eq_of_lt (hf i)]

theorem msopAddsInt64Lanes : MsopAddsInt64Lanes := fun x y i hi =>
  (natBits_lanes (f := fun i => (natBits (64 * i) 64 x + natBits (64 * i) 64 y) % 2 ^ 64) (fun _ => Nat.mod_lt _ (by decide)) 8).2 i hi

/-! ## A memory-side operation past its checks (R287, R288, R301) -/

section
variable {s u : State} {m : Ident} {a o ty mop x : Nat}

/-- The 64 bytes at `o` after an operation. -/
def State.msopResult (s : State) (o ty mop x : Nat) : Nat := msopAll ty mop (ofBytes (s.bytes (hbmBase + o) 64)) x

theorem msopAt_keyed (he : s.ecc = []) (hk : s.allKeyed (hbmSpan (s.integ (hbmHome o)) o 64).1 (hbmSpan (s.integ (hbmHome o)) o 64).2 = true) :
    ∃ (c : List HbmCache) (u : State), HbmWritten s u o (toBytes 64 (s.msopResult o ty mop x)) c
      ∧ s.msopAt o ty mop x = (stOK, u.bump (HM_MSOP_NF (hbmHome o)) (msopNf ty mop (s.msopResult o ty mop x))) := by
  obtain ⟨c, hcheck, -, hrekey⟩ := hbmCheck_rmwCounted he hk
  obtain ⟨r, hr⟩ := merged_eq s o c
  have hbytes : (s.merged o c).bytes (hbmBase + o) 64 = s.bytes (hbmBase + o) 64 := bytes_of_mem (by rw [hr]) ..
  refine ⟨c, _, hbmWritten_merged he o c (hbmSpan (s.integ (hbmHome o)) o 64) _, ?_⟩
  unfold State.rmwCounted at hcheck
  unfold State.msopAt
  dsimp only
  rw [hcheck]
  dsimp only
  rw [if_neg (not_not.2 rfl), hrekey, hbytes]
  rfl

theorem msopCmd_hbm (hl : a < 2 ^ 48) (ht : target a = .hbm o) (h64 : a % 64 = 0) (hok : msopOk ty mop = true) (hw : PassesN s m a 64 true)
    (hr : PassesN s m a 64 false) (hat : s.msopAt o ty mop x = (stOK, u)) : s.msopCmd m a ty mop x = u.reply stOK [] := by
  have hmsop : s.msop m a ty mop x = (stOK, u) := by
    unfold State.msop
    rw [resolve_local s hl]
    dsimp only
    rw [hok, Bool.not_true, if_neg Bool.false_ne_true, if_neg (not_not.2 h64), ht, checkLocal_ok hw.2]
    dsimp only
    rw [if_neg (not_not.2 rfl), checkLocal_ok hr.2]
    dsimp only
    rw [if_neg (not_not.2 rfl), hat]
    dsimp only
    rw [poundError_ok]
  unfold State.msopCmd
  rw [resolve_local s hl]
  dsimp only
  rw [if_neg (not_not.2 rfl), hmsop]

/-- The four commands run the same operation, by its number. -/
theorem msopRuns_of_msopCmd {mk : Ident → Dword → BitVec 3 → BitVec 512 → Instr} {mop : Nat}
    (hexec : ∀ m addr ty x s, exec (mk m addr ty x) s = .next (s.msopCmd m addr.toNat ty.toNat mop x.toNat)) : MsopRuns mk mop := by
  intro m addr ty x o s h sp r hl ht h64 hok he hk hw hr
  obtain ⟨c, u, hwritten, hat⟩ := msopAt_keyed (ty := ty.toNat) (mop := mop) (x := x.toNat) he hk
  obtain ⟨b, k, g, hu⟩ := hwritten.frame
  obtain ⟨hrmw, hnf, hrd, hwr⟩ := hmCounts_order (hbmHome o)
  have hresult : s.msopResult o ty.toNat mop x.toNat = r := by
    unfold State.msopResult
    rw [← target_hbm_split ht]
  rw [hresult] at hwritten hat
  refine ⟨_, (hexec ..).trans (congrArg _ (msopCmd_hbm hl ht h64 hok hw hr hat)), rfl, ?_, ?_, ?_, ?_, ?_, ?_⟩
  · rw [target_hbm_split ht]
    exact stores_of_mem_eq hwritten.stores rfl
  · rw [hu]
    rfl
  · rw [rd_reply, rd_bump_same, hwritten.regs]
    exact List.not_mem_cons_of_ne_of_not_mem hrmw.ne' (not_mem_wordsAt (hnf.trans (hrd.trans hwr)))
  · rw [rd_reply, rd_bump_other _ hrmw.ne]
    exact hwritten.merges
  · rw [rdWide_reply, rdWide_bump _ (.inl (hnf.trans (hrd.trans hwr))), hwritten.counts, toBytes_length]
  · have hbump := (hwritten.regs.mono (List.subset_cons_self (HM_MSOP_NF (hbmHome o)) _)).bump (List.mem_cons_self ..) (msopNf ty.toNat mop r)
    exact hbump.of_regs (State.reply_regs ..)

end

theorem msopsRun : MsopsRun :=
  ⟨msopRuns_of_msopCmd fun _ _ _ _ _ => rfl, msopRuns_of_msopCmd fun _ _ _ _ _ => rfl, msopRuns_of_msopCmd fun _ _ _ _ _ => rfl,
    msopRuns_of_msopCmd fun _ _ _ _ _ => rfl⟩

/-- Settles O16: the four operations by the one that they share, and the lanes of a sum by those of numbers set beside one another. -/
theorem memorySideOperationsComplete : Obligations.MemorySideOperationsComplete := ⟨msopsRun, msopAddsInt64Lanes⟩

end Sys2Proof.Machine
end
section
/-! PROOFS. What memory does by itself: patrols, the refresh rate, the slowing of a hot stack, the end of the HBM phase; and transfers over aqueducts
(R41, R44, R280, R292, R296, R303, R414, R498). -/

namespace Sys2Proof.Machine

section
variable {s : State}

/-! ## Patrols (R280, R296) -/

theorem basinPatrolCorrects : BasinPatrolCorrects := by
  intro core word s a hpresent hup hone
  show execBasinPatrolScrub core word .none s = _
  unfold execBasinPatrolScrub
  rw [hpresent, hup, Bool.and_self, if_pos rfl]
  exact congrArg Host.Outcome.next (if_pos hone)

theorem hbmPatrol_corrects {stack : WharfId} {addr : Dword} {o : Nat} (ht : target addr.toNat = .hbm o) (hh : hbmHome o = stack.val)
    (hp : s.rf (HM_SCRUB stack) HM_SCRUB_PERIOD ≠ 0) (hone : spGet 0 s.ecc (addr.toNat / 32 * 32) = 1) : exec (.hbmPatrol stack addr .none) s
      = .next (({ s.wf (HM_SCRUB stack) HM_SCRUB_DONE_PCT (o * 100 / 0x3000000000) with ecc := spPut 0 s.ecc (addr.toNat / 32 * 32) 0 }.bump (HM_CE_CNT stack) 1).post
          0x1B stOK (s.src (0xF00 + stack.val)) (addr.toNat / 32 * 32)) := by
  have hserved : ¬(s.rf (HM_SCRUB stack) HM_SCRUB_PERIOD = 0 ∨ hbmHome o ≠ stack.val) := not_or.2 ⟨hp, not_not.2 hh⟩
  show execHbmPatrol stack addr .none s = _
  unfold execHbmPatrol State.addUpset
  rw [ht]
  dsimp only
  rw [if_neg hserved, State.wf_ecc, if_pos hone]

/-! ## The sensor of a stack (R292, R498) -/

theorem onlyRegs_stackTemp (s : State) (n temp : Nat) : OnlyRegs s (s.stackTemp n temp) := (((OnlyRegs.refl s).wf _ _ _).wf _ _ _).wf _ _ _

theorem regsBut_stackTemp (s : State) (n temp : Nat) : RegsBut s (s.stackTemp n temp) [HM_STATUS n, PW_TEMP] :=
  (((RegsBut.refl s _).wf (by simp) _ _).wf (by simp) _ _).wf (by simp) _ _

theorem status_above_pw (n : Nat) : PW_TEMP < HM_STATUS n ∧ PW_SUPPLY < HM_STATUS n := by
  unfold PW_TEMP PW_SUPPLY HM_STATUS pwBase hmBase
  omega

/-- The sensor reads what it was given. -/
theorem stackTemp_temp (s : State) (n : Nat) (temp : Byte) : (s.stackTemp n temp.toNat).rf (HM_STATUS n) HM_STATUS_TEMP = temp.toNat := by
  have hne := (status_above_pw n).1.ne'
  unfold State.stackTemp
  dsimp only
  rw [State.rf_wf_other _ _ _ _ hne, State.rf_wf_other _ _ _ _ hne]
  exact rf_wf_fits (by decide) temp.isLt

theorem syncRefresh_double {n : Nat} (h : 85 < s.rf (HM_STATUS n) HM_STATUS_TEMP) : s.syncRefresh n = s.wb (HM_STATUS n) HM_STATUS_REFRESH_2X true :=
  if_pos (by rw [decide_eq_true h, Bool.or_true])

theorem syncRefresh_single {n : Nat} (h : s.rf (HM_STATUS n) HM_STATUS_TEMP ≤ 83) (hc : s.rb (HM_CFG n) HM_CFG_REF2X = false) :
    s.syncRefresh n = s.wb (HM_STATUS n) HM_STATUS_REFRESH_2X false :=
  (if_neg (by rw [hc, decide_eq_false (by omega)]; decide)).trans (if_pos h)

theorem onlyRegs_syncRefresh (s : State) (n : Nat) : OnlyRegs s (s.syncRefresh n) := by
  unfold State.syncRefresh
  dsimp only
  split
  · exact (OnlyRegs.refl s).wf _ _ _
  · split
    · exact (OnlyRegs.refl s).wf _ _ _
    · exact OnlyRegs.refl s

theorem regsBut_syncRefresh (s : State) (n : Nat) : RegsBut s (s.syncRefresh n) [HM_STATUS n] :=
  fun _ hx => syncRefresh_rd fun he => hx (List.mem_singleton.2 he)

theorem refreshRate_follows (stack : WharfId) (temp : Byte) (s : State) :
    (85 < temp.toNat → exec (.refreshRateChange stack temp) s = .next ((s.stackTemp stack temp.toNat).wb (HM_STATUS stack) HM_STATUS_REFRESH_2X true))
    ∧ (temp.toNat ≤ 83 → (s.stackTemp stack temp.toNat).rb (HM_CFG stack) HM_CFG_REF2X = false →
      exec (.refreshRateChange stack temp) s = .next ((s.stackTemp stack temp.toNat).wb (HM_STATUS stack) HM_STATUS_REFRESH_2X false)) := by
  have htemp := stackTemp_temp s stack temp
  exact ⟨fun h => congrArg _ (syncRefresh_double (htemp.symm ▸ h)), fun h hc => congrArg _ (syncRefresh_single (htemp.symm ▸ h) hc)⟩

/-- The stacks that are slowed once stack `n` reads `temp`: above 95 °C, until 92 °C. -/
def slowedAt (l : List Bool) (n temp : Nat) : List Bool := l.set n (if 95 < temp then true else if temp ≤ 92 then false else l.getD n false)

theorem slowedAt_getElem? {l : List Bool} {n : Nat} (h : n < l.length) (temp : Nat) :
    (slowedAt l n temp)[n]? = some (if 95 < temp then true else if temp ≤ 92 then false else l.getD n false) := by
  rw [slowedAt, List.getElem?_set_self h]

theorem slowedAt_between {l : List Bool} {n temp : Nat} (h : n < l.length) (h1 : 92 < temp) (h2 : temp ≤ 95) : slowedAt l n temp = l := by
  rw [slowedAt, if_neg (by omega), if_neg (by omega), List.getD_eq_getElem _ _ h]
  exact List.set_getElem_self h

/-- The state in which the stack's sensor has been read and the refresh rate follows it. -/
def State.stackRead (s : State) (n temp : Nat) : State := (s.stackTemp n temp).syncRefresh n

theorem stackRead_eq (s : State) (n temp : Nat) : ∃ r, s.stackRead n temp = { s with regs := r } := (onlyRegs_stackTemp ..).trans (onlyRegs_syncRefresh ..)

theorem regsBut_stackRead (s : State) (n temp : Nat) : RegsBut s (s.stackRead n temp) [HM_STATUS n, PW_TEMP] :=
  (regsBut_stackTemp s n temp).trans ((regsBut_syncRefresh _ n).mono (by simp))

/-- The state in which the stacks are slowed as stack `n` reads, and PW_SUPPLY shows whether any is. -/
def State.slowed (s : State) (n temp : Nat) : State :=
  ({ s with power := { s.power with hbmHot := slowedAt s.power.hbmHot n temp } } : State).wb PW_SUPPLY PW_SUPPLY_HBM_HOT ((slowedAt s.power.hbmHot n temp).any id)

theorem slowed_frame (s : State) (n temp : Nat) : ∃ r, s.slowed n temp = { s with regs := r, power := { s.power with hbmHot := slowedAt s.power.hbmHot n temp } } :=
  ⟨_, rfl⟩

theorem slowed_shows (s : State) (n temp : Nat) : (s.slowed n temp).rf PW_SUPPLY PW_SUPPLY_HBM_HOT = ((slowedAt s.power.hbmHot n temp).any id).toNat :=
  rf_wf_fits (by decide) (Bool.toNat_lt _)

theorem regsBut_slowed (s : State) (n temp : Nat) : RegsBut s (s.slowed n temp) [PW_SUPPLY] := ((RegsBut.refl s _).of_regs rfl).wf (List.mem_cons_self ..) _ _

theorem hbmHotThrottle_completes (stack : WharfId) (temp : Byte) (s : State) : ∃ t : State, exec (.hbmHotThrottle stack temp) s = .next t
    ∧ t.power.hbmHot = slowedAt s.power.hbmHot stack temp.toNat ∧ t.rf PW_SUPPLY PW_SUPPLY_HBM_HOT = (t.power.hbmHot.any id).toNat
    ∧ t = { s with regs := t.regs, power := { s.power with hbmHot := t.power.hbmHot } } ∧ RegsBut s t [HM_STATUS stack, PW_TEMP, PW_SUPPLY] := by
  have hexec : exec (.hbmHotThrottle stack temp) s = .next ((s.stackRead stack temp.toNat).slowed stack temp.toNat) := rfl
  have hregs := ((regsBut_stackRead s stack temp.toNat).mono (l' := [HM_STATUS stack, PW_TEMP, PW_SUPPLY]) (by simp)).trans
    ((regsBut_slowed (s.stackRead stack temp.toNat) stack temp.toNat).mono (by simp))
  have hshown := slowed_shows (s.stackRead stack temp.toNat) stack temp.toNat
  obtain ⟨r', hslowed⟩ := slowed_frame (s.stackRead stack temp.toNat) stack temp.toNat
  obtain ⟨r, hread⟩ := stackRead_eq s stack temp.toNat
  rw [hread] at hslowed
  have hhot : ((s.stackRead stack temp.toNat).slowed stack temp.toNat).power.hbmHot = slowedAt s.power.hbmHot stack temp.toNat := by rw [hread, hslowed]
  have hpower : (s.stackRead stack temp.toNat).power = s.power := by rw [hread]
  rw [hpower] at hshown
  refine ⟨_, hexec, hhot, hshown.trans (by rw [hhot]), ?_, hregs⟩
  rw [hread, hslowed]

/-! ## The end of the HBM phase (R303, R414) -/

theorem onlyRegs_writeMap (s : State) (die : Nat) : OnlyRegs s (s.writeMap die) := by
  unfold State.writeMap
  exact ((foldl_rel OnlyRegs.refl OnlyRegs.trans (fun t i => onlyRegs_wr t _ _) s _).wf _ _ _).wf _ _ _

theorem onlyRegs_countCores (s : State) : OnlyRegs s s.countCores := ((OnlyRegs.refl s).wf _ _ _).wf _ _ _

theorem byte_of_onlyRegs {t : State} (h : OnlyRegs s t) (x : Nat) : t.byte x = s.byte x := by
  obtain ⟨r, rfl⟩ := h
  rfl

theorem byte_zeroHbm {x : Nat} (h1 : hbmBase ≤ x) (h2 : x < hbmBase + 0x3000000000) : s.zeroHbm.byte x = 0#8 :=
  spGet_filter_dropped 0#8 (fun _ => by
    rw [decide_eq_false (Nat.not_lt.2 h1), decide_eq_false (Nat.not_le.2 h2)]
    rfl) s.mem

theorem hbmInitDone_completes (hphase : s.atPhase 7 = true) : let u := (((List.range 16).foldl (fun s n => s.writeMap n)
      (((List.range 8).foldl (fun s n => s.wb (HM_STATUS n) HM_STATUS_INIT_DONE true) s).zeroHbm))).countCores
    exec .hbmInitDone s = .next (if u.rf KP_CORE_COUNT KP_CORE_COUNT_PRESENT = 0 then u.startFail 8 else (u.firstTraining.setStage 6).setPhase 8) := by
  intro u
  show execHbmInitDone s = _
  unfold execHbmInitDone
  rw [hphase, Bool.not_true, if_neg Bool.false_ne_true]
  exact (apply_ite Host.Outcome.next _ _ _).symm

/-! ## Transfers over aqueducts (R41, R44) -/

theorem aqueductTransfer_fails {m : Ident} {src dst : Fin 5 × Fin 5} {k : Fin 40}
    (hk : crosses k.val (src.1.val, src.2.val) (dieRoute (src.1.val, src.2.val) (dst.1.val, dst.2.val)) = true) :
    exec (.aqueductTransfer m src dst (some k)) s
      = .next (({ s with route := dieRoute (src.1.val, src.2.val) (dst.1.val, dst.2.val),
                         aqFail := s.aqFail ++ [(m, farEnd m (src.1.val, src.2.val) (dst.1.val, dst.2.val))] }.post 0x23 stBUS_FAULT (identWord m) k.val).reply
                 stBUS_FAULT []) := if_pos hk

end

theorem stackServicesComplete : StackServicesComplete := by
  refine ⟨fun stack addr o s ht hh hp hone => hbmPatrol_corrects ht hh hp hone, refreshRate_follows, fun stack temp s hlen => ?_,
    fun s hphase => ⟨fun x h1 h2 => ?_, hbmInitDone_completes hphase⟩, fun m src dst s => ⟨rfl, fun k hk => aqueductTransfer_fails hk⟩⟩
  · have hin : stack.val < s.power.hbmHot.length := stack.isLt.trans_eq hlen.symm
    obtain ⟨t, hexec, hhot, hshown, hframe, hregs⟩ := hbmHotThrottle_completes stack temp s
    have hown := (congrArg (·[stack.val]?) hhot).trans (slowedAt_getElem? hin temp.toNat)
    refine ⟨t, hexec, fun h => ?_, fun h => ?_, fun h1 h2 => hhot.trans (slowedAt_between hin h1 h2), hframe, hregs⟩
    · rw [if_pos h] at hown
      have hany : t.power.hbmHot.any id = true := List.any_eq_true.2 ⟨true, List.mem_of_getElem? hown, rfl⟩
      exact ⟨hown, by rw [hshown, hany]; rfl⟩
    · rwa [if_neg (by omega), if_pos h] at hown
  · have hmaps := foldl_rel OnlyRegs.refl OnlyRegs.trans onlyRegs_writeMap
      ((List.range 8).foldl (fun s n => s.wb (HM_STATUS n) HM_STATUS_INIT_DONE true) s).zeroHbm (List.range 16)
    exact (byte_of_onlyRegs (hmaps.trans (onlyRegs_countCores _)) x).trans (byte_zeroHbm h1 h2)

/-- Settles O17: a patrol by the error that stands in its word, a stack's services by what its sensor reads, the end of the HBM phase by what is zeroed
and by the maps that are registers alone, a transfer by its route. -/
theorem memoryServicesComplete : Obligations.MemoryServicesComplete := ⟨basinPatrolCorrects, stackServicesComplete⟩

end Sys2Proof.Machine
end
section
/-! PROOFS. A start that fails while a WAKE is latched: R416 has every partition OFF, and the last link of the last partition, whose retrain ends in towpath as
the partition is turned off, carries out the WAKE that it had latched (R371, R373), which asks for the partition again. -/

namespace Sys2Proof.Machine

/-- An event of class 0x30 or above is counted for no core: registers stay. -/
theorem post_fatal_regs (s : State) {cls : Nat} (h : 0x30 ≤ cls) (st src d : Nat) : (s.post cls st src d).regs = s.regs := by
  unfold State.post State.postSev
  dsimp only
  rw [if_neg (by omega)]
  split
  · rw [if_neg (by omega)]
  · rw [if_neg (by omega)]
  · rfl

theorem allOff_eq (s : State) : s.allOff = (((s.forceOff 0).forceOff 1).forceOff 2).forceOff 3 := by
  have hparts : List.range 4 = [0, 1, 2, 3] := rfl
  rw [State.allOff, hparts, List.foldl_cons, List.foldl_cons, List.foldl_cons, List.foldl_cons, List.foldl_nil]

/-- After the partitions have been turned off, a failed start writes KP_BOOT_STATUS alone. -/
theorem regsBut_startFail (s : State) (cause : Nat) : RegsBut s.allOff (s.startFail cause) [KP_BOOT_STATUS] :=
  RegsBut.of_regs (((RegsBut.refl s.allOff [KP_BOOT_STATUS]).wf (List.mem_cons_self ..) KP_BOOT_STATUS_STAGE 15).wf (List.mem_cons_self ..)
    KP_BOOT_STATUS_CAUSE cause) (post_fatal_regs _ (Nat.le_refl 0x30) ..)

/-- Nothing holds anything but one link: sub-port 7 of port 15 retrains, and has latched a WAKE that names partition 3. -/
def wakeLatched : State :=
  { State.reset with regs := [(LK_STATE 15 7, 5#32)], subs := [(8 * 15 + 7, { Sub.initial with latched := [(4, 2 ^ 3)] })] }

theorem forceOff_wakeLatched : ∀ k ∈ [0, 1, 2], wakeLatched.forceOff k = wakeLatched := by decide +kernel

theorem forceOff_wakeLatched_last : (wakeLatched.forceOff 3).rb (PW_DOM 3) PW_DOM_EN = true := by decide +kernel

theorem allOff_wakeLatched : wakeLatched.allOff = wakeLatched.forceOff 3 := by
  rw [allOff_eq, forceOff_wakeLatched 0 (by simp), forceOff_wakeLatched 1 (by simp), forceOff_wakeLatched 2 (by simp)]

/-- Refutes O51: R416's clause of it fails where a link of partition 3 that retrains has latched a WAKE for its own partition, which is carried out after
the partition has been turned off: the failed start leaves partition 3 enabled. -/
theorem not_startUpCommandsComplete : ¬Obligations.StartUpCommandsComplete := by
  rintro ⟨-, -, hfailed⟩
  obtain ⟨-, -, hoff⟩ := (hfailed wakeLatched).2 1 (by decide)
  have hdisabled : (wakeLatched.startFail 1).rb (PW_DOM 3) PW_DOM_EN = false := (hoff 3).2
  have henabled : (wakeLatched.startFail 1).rb (PW_DOM 3) PW_DOM_EN = true := by
    unfold State.rb
    rw [(regsBut_startFail wakeLatched 1).rf (by decide), allOff_wakeLatched]
    exact forceOff_wakeLatched_last
  exact absurd (henabled.symm.trans hdisabled) (by decide)

end Sys2Proof.Machine
end
section
/-! PROOFS. The Keeper's security commands: attestation, authorisations and what they let be done, sessions, the image slot, the generator, key-region entries
(R305, R451, R455, R456, R459, R460, R466, R467, R508). -/

namespace Sys2Proof.Machine

/-! ## Attestation (R459, R460) -/

theorem reportBody_length (s : State) (nonce : BitVec 256) (key : Nat) : (s.reportBody nonce key).length = 400 := by
  have hmeas : ((List.range 8).flatMap fun i => s.meas i).length = 256 := by simp [State.meas]
  simp only [State.reportBody, List.length_append, toBytes_length, hmeas]

/-- The state in which a report is made: a key has been drawn where one is wanted, and the signature has been. -/
def State.attestedState (s : State) (recent : List Nat) (wantKey : Bool) : State :=
  let u := (if wantKey then s.random else (0, s)).2.draw.2
  { u with sec := { u.sec with attested := recent ++ [s.now], ephemeral := if wantKey then some s.now else s.sec.ephemeral } }

theorem attestedState_eq (s : State) (recent : List Nat) (wantKey : Bool) : ∃ (f : Nat) (n : Nat), s.attestedState recent wantKey
    = { s with free := f, sec := { s.sec with attested := recent ++ [s.now], drbgRequests := n, ephemeral := if wantKey then some s.now else s.sec.ephemeral } } := by
  cases wantKey <;> exact ⟨_, _, rfl⟩

section
variable {s : State}

theorem attestationRequest_reports (nonce : BitVec 256) (wantKey : Bool) (hup : s.keeperUp = true) {recent : List Nat}
    (hrecent : s.sec.attested.filter (fun t => decide (s.now < t + 1000000000)) = recent) (hfew : recent.length < 16) :
    ∃ key sig : Nat, (wantKey = false → key = 0) ∧ exec (.attestationRequest nonce wantKey) s
      = .next ((s.attestedState recent wantKey).reply stOK ((s.attestedState recent wantKey).reportBody nonce key
          ++ digestBytes (Config.sm3 ((s.attestedState recent wantKey).reportBody nonce key)) ++ toBytes 64 sig)) := by
  have hrun : exec (.attestationRequest nonce wantKey) s = execAttestationRequest nonce wantKey s := rfl
  rw [hrun]
  unfold execAttestationRequest
  rw [hup, hrecent]
  dsimp only
  rw [if_neg (by decide), if_neg (Nat.not_le.2 hfew)]
  cases wantKey with
  | false => exact ⟨0, _, fun _ => rfl, rfl⟩
  | true => exact ⟨_, _, fun h => absurd h (by decide), rfl⟩

theorem attestationRequest_completes (nonce : BitVec 256) (wantKey : Bool) (hup : s.keeperUp = true) {recent : List Nat}
    (hrecent : s.sec.attested.filter (fun t => decide (s.now < t + 1000000000)) = recent) (hfew : recent.length < 16) :
    ∃ (t : State) (key sig : Nat), exec (.attestationRequest nonce wantKey) s = .next t ∧ t.resp.status = stOK ∧ t.resp.data.length = 496
      ∧ t.resp.data = t.reportBody nonce key ++ digestBytes (Config.sm3 (t.reportBody nonce key)) ++ toBytes 64 sig ∧ (wantKey = false → key = 0)
      ∧ (wantKey = true → t.sec.ephemeral = some s.now) ∧ (wantKey = false → t.sec.ephemeral = s.sec.ephemeral)
      ∧ t = { s with free := t.free, resp := t.resp,
                     sec := { s.sec with attested := recent ++ [s.now], drbgRequests := t.sec.drbgRequests, ephemeral := t.sec.ephemeral } } := by
  obtain ⟨key, sig, hkey, hrun⟩ := attestationRequest_reports nonce wantKey hup hrecent hfew
  obtain ⟨f, n, heq⟩ := attestedState_eq s recent wantKey
  generalize s.attestedState recent wantKey = u at hrun heq
  refine ⟨_, key, sig, hrun, rfl, ?_, rfl, hkey, ?_, ?_, ?_⟩
  · simp only [State.reply, digestBytes, List.length_append, toBytes_length, reportBody_length]
  · rintro rfl
    rw [heq]; rfl
  · rintro rfl
    rw [heq]; rfl
  · rw [heq]; rfl

theorem attestationRequest_refused (nonce : BitVec 256) (wantKey : Bool) (hup : s.keeperUp = true) {recent : List Nat}
    (hrecent : s.sec.attested.filter (fun t => decide (s.now < t + 1000000000)) = recent) (hmany : 16 ≤ recent.length) :
    exec (.attestationRequest nonce wantKey) s = .next { s with sec := { s.sec with attested := recent }, resp := ⟨stBAD_OPCODE, []⟩ } := by
  have hrun : exec (.attestationRequest nonce wantKey) s = execAttestationRequest nonce wantKey s := rfl
  rw [hrun]
  unfold execAttestationRequest
  rw [hup, hrecent]
  dsimp only
  rw [if_neg (by decide), if_pos hmany]
  rfl

theorem ephemeralKeyExpiry_completes {t0 : Nat} (hkey : s.sec.ephemeral = some t0) (hlate : t0 + 1000000000 ≤ s.now) :
    exec .ephemeralKeyExpiry s = .next { s with sec := { s.sec with ephemeral := none } } := by
  have hrun : exec .ephemeralKeyExpiry s = execEphemeralKeyExpiry s := rfl
  rw [hrun]
  unfold execEphemeralKeyExpiry
  rw [hkey]
  exact if_pos hlate

/-! ## Authorisations (R455, R466) -/

theorem authorisationOffer_completes (t : Token) (hsession : s.sec.session.isSome = true) (hup : s.keeperUp = true) : exec (.authorisationOffer t) s
    = .next (if s.tokenOk t = true then (s.setAuth (some ⟨t.op.toNat, t.arg.toNat, s.now⟩)).newNonce else s.newNonce) := by
  have hrun : exec (.authorisationOffer t) s = .next (if s.sec.session.isSome && s.keeperUp then s.offer t else s) := rfl
  rw [hrun, hsession, hup, Bool.and_self, if_pos rfl]
  unfold State.offer
  dsimp only
  split <;> rfl

/-- No token is held any more in `t`, which is `s` but for that and KP_SEC_STATUS. -/
def AuthSpent (s t : State) : Prop :=
  t.rb KP_SEC_STATUS KP_SEC_STATUS_AUTH_VALID = false ∧ RegsBut s t [KP_SEC_STATUS] ∧ OnlyRegs { s with sec := { s.sec with auth := none } } t

/-- A field of KP_SEC_STATUS above AUTH_VALID is written. -/
theorem AuthSpent.wf {t : State} (h : AuthSpent s t) {f : Fld} (hlo : 8 ≤ f.lo) (hhi : f.lo + f.width ≤ 32) (v : Nat) :
    AuthSpent s (t.wf KP_SEC_STATUS f v) := by
  obtain ⟨hvalid, hregs, honly⟩ := h
  exact ⟨(congrArg (· == 1) (State.rf_wf_disjoint t KP_SEC_STATUS f KP_SEC_STATUS_AUTH_VALID v hhi (.inl hlo))).trans hvalid,
    hregs.wf (List.mem_singleton_self _) f v, honly.wf _ _ _⟩

/-- The lowest field of KP_SEC_STATUS, below AUTH_VALID, is written. -/
theorem AuthSpent.wf_rollback {t : State} (h : AuthSpent s t) (v : Nat) : AuthSpent s (t.wf KP_SEC_STATUS KP_SEC_STATUS_ROLLBACK v) := by
  obtain ⟨hvalid, hregs, honly⟩ := h
  exact ⟨(congrArg (· == 1) (State.rf_wf_disjoint t KP_SEC_STATUS KP_SEC_STATUS_ROLLBACK KP_SEC_STATUS_AUTH_VALID v (by decide) (.inr (by decide)))).trans hvalid,
    hregs.wf (List.mem_singleton_self _) _ v, honly.wf _ _ _⟩

theorem AuthSpent.syncSvn {t : State} (h : AuthSpent s t) : AuthSpent s t.syncSvn := h.wf (by decide) (by decide) _

theorem authSpent_setAuth (s : State) : AuthSpent s (s.setAuth none) := by
  have hcleared : AuthSpent s (State.wb { s with sec := { s.sec with auth := none } } KP_SEC_STATUS KP_SEC_STATUS_AUTH_VALID false) :=
    ⟨congrArg (· == 1) (State.rf_wf_same { s with sec := { s.sec with auth := none } } KP_SEC_STATUS KP_SEC_STATUS_AUTH_VALID 0 (by decide)),
      (RegsBut.of_regs (RegsBut.refl s _) rfl).wf (List.mem_singleton_self _) _ _, (OnlyRegs.refl _).wf _ _ _⟩
  exact hcleared.wf (f := KP_SEC_STATUS_AUTH_OP) (by decide) (by decide) 0

theorem holds_self {a : Auth} {op : Nat} (hauth : s.sec.auth = some a) (hop : a.op = op) : s.holds op = some a := by
  unfold State.holds
  rw [hauth]
  exact if_pos hop

theorem authorisationExpiry_completes {a : Auth} (hauth : s.sec.auth = some a) (hlate : a.since + 600000000000 ≤ s.now) :
    ∃ t : State, exec .authorisationExpiry s = .next t ∧ t.rb KP_SEC_STATUS KP_SEC_STATUS_AUTH_VALID = false ∧ RegsBut s t [KP_SEC_STATUS]
      ∧ t = { s with regs := t.regs, sec := { s.sec with auth := none } } := by
  have hrun : exec .authorisationExpiry s = execAuthorisationExpiry s := rfl
  rw [hrun]
  unfold execAuthorisationExpiry
  rw [hauth]
  obtain ⟨hvalid, hregs, honly⟩ := authSpent_setAuth s
  refine ⟨_, if_pos hlate, hvalid, hregs, ?_⟩
  obtain ⟨_, heq⟩ := honly
  rw [heq]

theorem revokeSigningKey_completes {a : Auth} {index : Fin 4} (hauth : s.sec.auth = some a) (hop : a.op = 2) (harg : a.arg = index.val)
    (hsigned : s.hdr s.slot 13 1 ≠ index.val) : ∃ t : State, exec (.revokeSigningKey index) s = .next t
      ∧ t.rb KP_SEC_STATUS KP_SEC_STATUS_AUTH_VALID = false ∧ RegsBut s t [KP_SEC_STATUS]
      ∧ t = { s with regs := t.regs, sec := { s.sec with auth := none }, fuses := { s.fuses with revoked := s.fuses.revoked ||| 2 ^ index.val } } := by
  have hrun : exec (.revokeSigningKey index) s = execRevokeSigningKey index s := rfl
  rw [hrun]
  unfold execRevokeSigningKey
  rw [holds_self hauth hop]
  dsimp only
  rw [if_pos ⟨harg, hsigned⟩]
  obtain ⟨hvalid, hregs, honly⟩ := ((authSpent_setAuth { s with fuses := { s.fuses with revoked := s.fuses.revoked ||| 2 ^ index.val } }).wf
    (f := KP_SEC_STATUS_REVOKED) (by decide) (by decide) (s.fuses.revoked ||| 2 ^ index.val)).syncSvn
  refine ⟨_, rfl, hvalid, hregs, ?_⟩
  obtain ⟨_, heq⟩ := honly
  rw [heq]

theorem raiseRollback_completes {a : Auth} {value : Byte} (hauth : s.sec.auth = some a) (hop : a.op = 3) (harg : a.arg = value.toNat)
    (hsvn : value.toNat ≤ s.rf KP_SEC_STATUS KP_SEC_STATUS_SVN_ACTIVE) (hready : s.rf KP_BOOT_STATUS KP_BOOT_STATUS_STAGE = 7) :
    ∃ t : State, exec (.raiseRollback value) s = .next t ∧ t.rb KP_SEC_STATUS KP_SEC_STATUS_AUTH_VALID = false ∧ RegsBut s t [KP_SEC_STATUS]
      ∧ t = { s with regs := t.regs, sec := { s.sec with auth := none }, fuses := { s.fuses with rollback := max s.fuses.rollback value.toNat } } := by
  have hrun : exec (.raiseRollback value) s = execRaiseRollback value s := rfl
  rw [hrun]
  unfold execRaiseRollback
  rw [holds_self hauth hop]
  dsimp only
  rw [if_pos ⟨harg, hsvn, hready⟩]
  obtain ⟨hvalid, hregs, honly⟩ := ((authSpent_setAuth { s with fuses := { s.fuses with rollback := max s.fuses.rollback value.toNat } }).wf_rollback
    (max s.fuses.rollback value.toNat)).syncSvn
  refine ⟨_, rfl, hvalid, hregs, ?_⟩
  obtain ⟨_, heq⟩ := honly
  rw [heq]

/-! ## Operator keys and sessions (R466, R467) -/

/-- The list of operators' keys is replaced, before register 6 is extended by it: a token that allowed it is spent. -/
def State.withOperators (s : State) (hashes : List (BitVec 256)) : State :=
  let u := { s with fuses := { s.fuses with operatorKeys := hashes } }
  if (s.holds 4).isSome then u.setAuth none else u

theorem withOperators_changes (s : State) (hashes : List (BitVec 256)) : RegsBut s (s.withOperators hashes) [KP_SEC_STATUS]
    ∧ OnlyRegs { s with fuses := { s.fuses with operatorKeys := hashes }, sec := { s.sec with auth := if (s.holds 4).isSome = true then none else s.sec.auth } }
        (s.withOperators hashes) := by
  unfold State.withOperators
  dsimp only
  split
  · obtain ⟨-, hregs, honly⟩ := authSpent_setAuth { s with fuses := { s.fuses with operatorKeys := hashes } }
    exact ⟨hregs, honly⟩
  · exact ⟨RegsBut.of_regs (RegsBut.refl s _) rfl, OnlyRegs.refl _⟩

theorem replaceOperatorKeys_completes {hashes : List (BitVec 256)} (digest : BitVec 256) (hfew : hashes.length ≤ 4) (hup : s.keeperUp = true)
    (hallowed : (s.holds 4).isSome = true ∨ s.fuses.operatorKeys = []) : ∃ t : State, exec (.replaceOperatorKeys hashes digest) s = .next t
      ∧ RegsBut s t (KP_SEC_STATUS :: wordsAt (KP_MEAS 6 0) 8)
      ∧ t = { s with regs := t.regs, fuses := { s.fuses with operatorKeys := hashes }, sec := { s.sec with auth := if (s.holds 4).isSome = true then none else s.sec.auth } } := by
  have hrun : exec (.replaceOperatorKeys hashes digest) s = .next ((s.withOperators hashes).measExtend 6 (digestBytes digest)) :=
    if_pos ⟨hfew, hup, hallowed.imp_right List.isEmpty_iff.2⟩
  obtain ⟨hregs, honly⟩ := withOperators_changes s hashes
  refine ⟨_, hrun, (hregs.mono (by simp)).wrWide (List.subset_cons_self _ _) _, ?_⟩
  obtain ⟨_, heq⟩ := onlyRegs_wrWide honly (KP_MEAS 6 0) 8 (Config.sm3 ((s.withOperators hashes).meas 6 ++ digestBytes digest)).toNat
  rw [State.measExtend, heq]

theorem sessionOpen_completes {keyHash : BitVec 256} (hup : s.keeperUp = true) (hknown : s.fuses.operatorKeys.contains keyHash = true) :
    exec (.sessionOpen keyHash true) s = .next { s with sec := { s.sec with session := some keyHash, ephemeral := none } }
      ∧ exec (.sessionOpen keyHash false) s = .next s :=
  ⟨if_pos (by rw [hup, hknown]; rfl), rfl⟩

theorem cakDelivery_completes (port : PortId) (iface : Fin 2) (cak : BitVec 256) (hsession : s.sec.session.isSome = true) (hup : s.keeperUp = true) :
    ∃ t : State, exec (.cakDelivery port iface cak) s = .next t ∧ spGet 0#256 t.caks (2 * port.val + iface.val) = cak ∧ t = { s with caks := t.caks } :=
  ⟨{ s with caks := spPut 0#256 s.caks (2 * port.val + iface.val) cak }, if_pos (by rw [hsession, hup]; rfl), spGet_put_same .., rfl⟩

/-! ## The image slot and the generator (R451, R456) -/

theorem imageSlotWrite_completes {image : List Byte} (hfits : image.length ≤ slotSize) :
    exec (.imageSlotWrite image) s = .next ((s.setBytes (slotBase (1 - s.slot)) image).syncSvn) := by
  have hrun : exec (.imageSlotWrite image) s = .next (s.writeImage (1 - s.slot) image) := rfl
  rw [hrun, State.writeImage, if_neg (Nat.not_lt.2 hfits)]

theorem drbgReseed_completes (hmany : 2 ^ 20 ≤ s.sec.drbgRequests) : exec .drbgReseed s = .next { s with sec := { s.sec with drbgRequests := 0 } } := by
  have hrun : exec .drbgReseed s
      = .next (if 2 ^ 20 ≤ s.sec.drbgRequests then { s with sec := { s.sec with drbgRequests := 0 } } else s) := rfl
  rw [hrun, if_pos hmany]

/-! ## Key-region entries (R305) -/

/-- An event recorded for an access to a register leaves the epochs as they are. -/
theorem regEvent_epochPast (m : Ident) (a e : Nat) : (s.regEvent m a).epochPast e = s.epochPast e := by
  have hlock : (s.regEvent m a).lock = s.lock := by
    obtain ⟨_, _, heq⟩ := postSev_changes (cls := 0x00) (by decide) s (classSev 0x00) stOK (identWord m) a
    rw [State.regEvent, State.post, heq]
  have hepoch : (s.regEvent m a).epoch = s.epoch :=
    rdWide_congr fun i hi => regEvent_rd_below (by unfold TM_EPOCH_0 tmBase ccBase; omega)
  rw [State.epochPast, State.epochPast, State.epochW, State.epochW, hlock, hepoch]

theorem hmKregWrite_eq {m : Ident} {index : Fin 16} (value : Word) (epoch : BitVec 48) (hc : Passes s m (HM_KREG 0 index) true) :
    exec (.hmKregWrite m index value epoch) s = .next (s.kregWrite m 0 index value.toNat epoch.toNat) := by
  have hrun : exec (.hmKregWrite m index value epoch) s = execHmKregWrite m index value epoch s := rfl
  rw [hrun, execHmKregWrite, checkLocal_ok hc.2]
  exact if_neg (by decide)

/-- The state in which an entry waits for its epoch: one that is not valid has been recorded. -/
theorem kregWrite_eq (m : Ident) (n i v e : Nat) {u : State} (hu : (if kregBad v then s.regEvent m (HM_KREG n i) else s) = u) :
    s.kregWrite m n i v e = if s.epochPast e then u.reply stBOUNDS_FAULT [] else (u.bind e (.kreg 8 i v) none).reply stOK [] := by
  have hpast : u.epochPast e = s.epochPast e := by
    subst hu
    split
    · exact regEvent_epochPast ..
    · rfl
  rw [State.kregWrite, hu, hpast]

theorem hmKregWrite_completes {m : Ident} {index : Fin 16} (value : Word) (epoch : BitVec 48) (hc : Passes s m (HM_KREG 0 index) true) {u : State}
    (hu : (if kregBad value.toNat then s.regEvent m (HM_KREG 0 index) else s) = u) :
    (s.epochPast epoch.toNat = false → ∃ t : State, Binds u t epoch.toNat (.kreg 8 index value.toNat) none
      ∧ exec (.hmKregWrite m index value epoch) s = .next (t.reply stOK []))
    ∧ (s.epochPast epoch.toNat = true → exec (.hmKregWrite m index value epoch) s = .next (u.reply stBOUNDS_FAULT [])) := by
  rw [hmKregWrite_eq value epoch hc, kregWrite_eq m 0 index value.toNat epoch.toNat hu]
  exact ⟨fun hfuture => ⟨_, rfl, congrArg Host.Outcome.next (if_neg (by rw [hfuture]; decide))⟩, fun hpast => congrArg Host.Outcome.next (if_pos hpast)⟩

end

/-- Settles O57: one completion lemma for each command. -/
theorem securityCommandsComplete : Obligations.SecurityCommandsComplete := fun _ =>
  ⟨fun nonce wantKey hup => ⟨attestationRequest_completes nonce wantKey hup rfl,
      fun hmany => ⟨_, attestationRequest_refused nonce wantKey hup rfl hmany, rfl⟩⟩,
    fun _ hkey hlate => ephemeralKeyExpiry_completes hkey hlate,
    fun t hsession hup => authorisationOffer_completes t hsession hup,
    fun _ hauth => ⟨authorisationExpiry_completes hauth, fun _ hop harg hsigned => revokeSigningKey_completes hauth hop harg hsigned,
      fun _ hop harg hsvn hready => raiseRollback_completes hauth hop harg hsvn hready⟩,
    fun _ digest hfew hup hallowed => replaceOperatorKeys_completes digest hfew hup hallowed,
    fun _ hup hknown => sessionOpen_completes hup hknown,
    fun port iface cak hsession hup => cakDelivery_completes port iface cak hsession hup,
    fun _ hfits => imageSlotWrite_completes hfits, drbgReseed_completes,
    fun _ _ value epoch hc => hmKregWrite_completes value epoch hc rfl,
    fun _ => ⟨rfl, rfl⟩⟩

end Sys2Proof.Machine
end
section
/-! PROOFS. DMA control: what a write of DM_GO or DM_CTRL does past the checks of its access, a fetch, and the end of a descriptor (R324, R328 to R330, R515). -/

namespace Sys2Proof.Machine

/-! ## Chains (R324, R330) -/

section
variable {s : State} {m : Ident} {e v : Nat}

/-- A write of a DM_ register by its command, past its checks. -/
theorem put32_dm {o : Nat} (he : e < 2176) (ho : o < 0x800) (h4 : o % 4 = 0) (hv : v < 2 ^ 32) (hp : Passes s m (dmBase e + o) true) :
    s.put32 m (dmBase e + o) v = (s.dmWrite m e o v).reply stOK [] := by
  obtain ⟨hsends, hcheck⟩ := hp
  have hbase : dmBase e % 4 = 0 := blk_base_aligned (.dm e)
  have hput := put32_reg (v := v) (by unfold dmBase; split <;> omega) (target_dm he ho) (by simp) (by omega) hcheck rfl (by simp) hsends
  rwa [Nat.mod_eq_of_lt hv] at hput

theorem engineCore_wharf (he : 2048 ≤ e) : engineCore e = none := if_neg (Nat.not_lt.2 he)

theorem engineCore_lt {c : Nat} (h : engineCore e = some c) : c < 1024 := by
  unfold engineCore at h
  split at h
  · cases h
    omega
  · cases h

theorem masterOf_tiller {c : Nat} (hc : c < 1024) : masterOf c = .tiller c := if_pos hc

theorem dmGo_wharf (hl : (s.engine e).chains.length < 8) (he : 2048 ≤ e) :
    s.dmGo m e v = s.addChain e ⟨s.rdWide (DM_CHAIN_0 e) 2, natBits 0 16 v + 1, none⟩ := by
  unfold State.dmGo
  rw [if_neg (Nat.not_le.2 hl), engineCore_wharf he]

/-- A tiller's chain on an engine of its own enters its queue too. -/
theorem dmGo_own {c : Nat} (hl : (s.engine e).chains.length < 8) (hc : engineCore e = some c) (hloc : s.isLocal m = true) (hm : m.num.toNat = c) :
    s.dmGo m e v = (((s.setCore c { s.core c with
        queue := (s.core c).queue ++ [⟨(s.core c).seq, 5 + e % 2, (s.core c).pc, ⟨0#32, 0#32, 0#32, 0#32⟩, [], false, 0, false⟩]
        seq := (s.core c).seq + 1, issued := (s.core c).issued ||| 2 ^ (5 + e % 2) }).syncQueues c).addChain e
      ⟨c * basinSize + natBits 0 25 v, natBits 25 7 v + 1, some (s.core c).seq⟩) := by
  unfold State.dmGo
  rw [if_neg (Nat.not_le.2 hl), hc]
  exact if_pos (by simp [hloc, hm])

/-- The Keeper and a control processor queue a chain on an engine of a core that does not run. -/
theorem dmGo_control {c : Nat} (hl : (s.engine e).chains.length < 8) (hc : engineCore e = some c) (hloc : s.isLocal m = true)
    (hm : masterOf m.num.toNat = .keeper ∨ ∃ i : Nat, masterOf m.num.toNat = .control i) (hrun : s.tstate c ≠ 1) :
    s.dmGo m e v = s.addChain e ⟨c * basinSize + natBits 0 25 v, natBits 25 7 v + 1, none⟩ := by
  have hown : (m.num.toNat == c) = false := beq_false_of_ne fun he => by
    rw [he, masterOf_tiller (engineCore_lt hc)] at hm
    simp at hm
  unfold State.dmGo
  rw [if_neg (Nat.not_le.2 hl), hc]
  dsimp only
  rw [hloc, hown, if_neg (by decide)]
  refine if_pos ?_
  rcases hm with hk | ⟨i, hi⟩
  · simp [hk, hrun]
  · simp [hi, hrun]

theorem dmCtrl_resume (h : s.rf (DM_STATUS e) DM_STATUS_STATE = 2) : s.dmCtrl m e 1 = s.wf (DM_STATUS e) DM_STATUS_STATE 1 := by
  unfold State.dmCtrl
  rw [if_neg (by decide), if_neg (not_not.2 h), if_neg (by decide)]

theorem dmCtrl_abort (h : s.rf (DM_STATUS e) DM_STATUS_STATE = 2) : s.dmCtrl m e 2 = s.dmaAbortAll e := by
  unfold State.dmCtrl
  rw [if_neg (by decide), if_neg (not_not.2 h), if_pos (by decide)]

end

section
variable {s u : State} {m : Ident} {e : EngineId}

theorem dmGo_writes {value : Word} (hp : Passes s m (DM_GO e) true) : exec (.dmGo m e value) s = .next ((s.dmGo m e value.toNat).reply stOK []) :=
  congrArg Host.Outcome.next (put32_dm e.isLt (by decide) rfl value.isLt hp)

theorem dmaResume_writes (hp : Passes s m (DM_CTRL e) true) : exec (.dmaResume m e) s = .next ((s.dmCtrl m e 1).reply stOK []) :=
  congrArg Host.Outcome.next (put32_dm e.isLt (by decide) rfl (by decide) hp)

theorem dmaAbort_writes (hp : Passes s m (DM_CTRL e) true) : exec (.dmaAbort m e) s = .next ((s.dmCtrl m e 2).reply stOK []) :=
  congrArg Host.Outcome.next (put32_dm e.isLt (by decide) rfl (by decide) hp)

/-! ## Descriptors (R76, R326, R328, R515) -/

/-- An engine that runs has a descriptor to fetch; at a lock it begins no chain. -/
def State.FetchDue (s : State) (e : Nat) : Prop :=
  s.rf (DM_STATUS e) DM_STATUS_STATE = 1 ∧ (s.engine e).chains ≠ [] ∧ (s.engine e).desc = none ∧ ((s.engine e).index ≠ 0 ∨ s.lockSt ≠ 3)

theorem State.FetchDue.not_barred {e : Nat} (h : s.FetchDue e) : ¬(s.rf (DM_STATUS e) DM_STATUS_STATE ≠ 1 ∨ (s.engine e).chains.isEmpty ∨ (s.engine e).desc.isSome
    ∨ ((s.engine e).index = 0 ∧ s.lockSt = 3)) := by
  obtain ⟨hrun, hchains, hdesc, hlock⟩ := h
  simp only [hrun, hdesc, List.isEmpty_iff, hchains, Option.isSome_none, ne_eq, not_true_eq_false, Bool.false_eq_true, false_or]
  exact fun hc => hlock.elim (· hc.1) (· hc.2)

/-- A fetch whose bytes are here holds the descriptor that they spell, where it passes the checks of R326. -/
theorem dmaDescriptorFetch_holds {v : Nat} (h : s.FetchDue e) (hg : s.allGot (s.engineId e) [((s.engine e).descAddr, 32)] = true)
    (hf : s.dmaFetch e (s.engine e).descAddr = (stOK, v, u)) (hc : (u.dmaCheck e (natBits 0 64 v, natBits 64 64 v, natBits 128 64 v, natBits 192 64 v)).1 = stOK) :
    exec (.dmaDescriptorFetch e) s
      = .next (u.setEngine e { u.engine e with desc := some (natBits 0 64 v, natBits 64 64 v, natBits 128 64 v, natBits 192 64 v) }) := by
  show execDmaDescriptorFetch e s = _
  unfold execDmaDescriptorFetch
  dsimp only
  rw [if_neg h.not_barred, if_neg (by simp [hg]), hf]
  dsimp only
  rw [if_neg (not_not.2 rfl), if_neg (not_not.2 hc)]

/-- A wharf's engine asks for a descriptor of another device (log 40). -/
theorem dmaDescriptorFetch_asks (h : s.FetchDue e) (he : 2048 ≤ e.val) (ha : (s.engine e).descAddr % 32 = 0)
    (hg : s.allGot (s.engineId e) [((s.engine e).descAddr, 32)] = false) :
    exec (.dmaDescriptorFetch e) s = .next (s.askAll (s.engineId e) 2 none [((s.engine e).descAddr, 32)]) := by
  show execDmaDescriptorFetch e s = _
  unfold execDmaDescriptorFetch
  dsimp only
  rw [if_neg h.not_barred]
  exact if_pos (by simp [engineCore_wharf he, ha, hg])

/-- A descriptor that has been carried out is counted, and the next is in turn or the chain ends. -/
theorem dmaDescriptorComplete_counts {st : Nat} {k : Chain} {rest : List Chain} (hm : (s.engine e).moved = some st) (hk : (s.engine e).chains = k :: rest) :
    exec (.dmaDescriptorComplete e) s = .next (let g := s.engine e; let u := s.bump (DM_DONE_CNT e) 1
      if g.index + 1 < k.count then u.setEngine e { g with index := g.index + 1, desc := none, moved := none, worst := stWorst g.worst st }
      else
        let w := u.setEngine e { g with chains := rest, index := 0, desc := none, moved := none, worst := stOK_EMPTY }
        (if rest.isEmpty then w.wf (DM_STATUS e) DM_STATUS_STATE 0 else w).endChainEntry e (stWorst g.worst st) k) := by
  show execDmaDescriptorComplete e s = _
  unfold execDmaDescriptorComplete
  dsimp only
  rw [hm, hk]
  exact (apply_ite Host.Outcome.next _ _ _).symm

end

/-- Settles O38: a write of DM_GO by its master and its engine, one of DM_CTRL by its bit, and the fetch and the end of a descriptor by the branch each takes. -/
theorem dmaControlCompletes : Obligations.DmaControlCompletes := by
  unfold Obligations.DmaControlCompletes
  intro m e value s g
  refine ⟨fun hp hl => ⟨fun he => ?_, fun c hc hloc => ⟨fun hm => ?_, fun hm hrun => ?_⟩⟩, fun hrun hchains hdesc hlock => ?_,
    fun st k rest hm hk => ⟨fun hlt => ?_, fun hle => ?_⟩, fun hp hst => ⟨?_, ?_⟩⟩
  · rw [dmGo_writes hp, dmGo_wharf hl he]
  · rw [dmGo_writes hp, dmGo_own hl hc hloc hm]
  · rw [dmGo_writes hp, dmGo_control hl hc hloc hm hrun]
  · have hdue : s.FetchDue e := ⟨hrun, hchains, hdesc, hlock⟩
    exact ⟨fun v u hg hf hc => dmaDescriptorFetch_holds hdue hg hf hc, fun he ha hg => dmaDescriptorFetch_asks hdue he ha hg⟩
  · exact (dmaDescriptorComplete_counts hm hk).trans (congrArg Host.Outcome.next (if_pos hlt))
  · exact (dmaDescriptorComplete_counts hm hk).trans (congrArg Host.Outcome.next (if_neg (Nat.not_lt.2 hle)))
  · rw [dmaResume_writes hp, dmCtrl_resume hst]
  · rw [dmaAbort_writes hp, dmCtrl_abort hst]

end Sys2Proof.Machine
end
section
/-! PROOFS. A SIGNAL over part of a word that holds an upset (R278, R327, R329). `State.addUpset` records an upset at the first byte of its word, where a write of
whole words covers it; O39 speaks of every state, one with an upset recorded between two word boundaries among them. -/

namespace Sys2Proof.Machine

/-- A SIGNAL of zero to the 8 bytes at 128 of core 0's basin. -/
def signalAt128 : DmaDesc := (0, 128, 4 * 2 ^ 40, 0)

/-- Engine 0 of a present and powered core 0 has fetched `signalAt128`, and an uncorrectable upset is recorded at 124, between two word boundaries. -/
def upsetOffWord : State :=
  { ((State.reset.wf (CD_CORE_MAP 0 0) CD_CORE_MAP_PRESENT 1).wf (PW_DOM 0) PW_DOM_STATE 2).wf (DM_STATUS 0) DM_STATUS_STATE 1 with
    engines := [(0, { Engine.initial with chains := [⟨0, 1, none⟩], desc := some signalAt128 })], ecc := [(124, 2)] }

theorem checkLocal_upsetOffWord : (upsetOffWord.checkLocal (upsetOffWord.engineId 0) (dDst signalAt128) 8 true).1 = stOK := by decide +kernel

theorem dmaMay_upsetOffWord : upsetOffWord.dmaMay 0 4 = some signalAt128 := by decide +kernel

/-- The write is part of the word at 124, which cannot be read: the engine halts. -/
theorem dmaRun_upsetOffWord_halts :
    ((upsetOffWord.dmaRun 0 4).engine 0).moved = none ∧ (upsetOffWord.dmaRun 0 4).rf (DM_STATUS 0) DM_STATUS_CODE = stECC_UNCORR := by decide +kernel

/-- Refutes O39: its clause on SIGNAL asks nothing of the recorded upsets, and in a state with one across the boundary of the words at 120 and 128 the SIGNAL's
write to 128 is read, merged and written, ends in ECC_UNCORR, and halts its engine. -/
theorem not_dmaOperationsComplete : ¬Obligations.DmaOperationsComplete := by
  unfold Obligations.DmaOperationsComplete
  intro h
  obtain ⟨-, hsignal, -⟩ := h 0 signalAt128 upsetOffWord
  obtain ⟨t, hexec, -, hengine, -⟩ := hsignal (by decide) (by decide) checkLocal_upsetOffWord dmaMay_upsetOffWord
  obtain rfl : upsetOffWord.dmaRun 0 4 = t := Host.Outcome.next.inj hexec
  have hmoved : ((upsetOffWord.dmaRun 0 4).engine 0).moved = some stOK := congrArg Engine.moved hengine
  exact absurd (dmaRun_upsetOffWord_halts.1.symm.trans hmoved) (by decide)

end Sys2Proof.Machine
end
section
/-! PROOFS. Mailboxes: sends and their arrival, receipts, empty notes and lock registers (R334 to R340). -/

namespace Sys2Proof.Machine

/-! ## What the registers of other units leave alone -/

section
variable {s t : State} {l : List Nat}

theorem RegsBut.devId (h : RegsBut s t l) (hl : KP_FLEET_ID ∉ l) : t.devId = s.devId := h.rf hl _

theorem resolve_of_devId (h : t.devId = s.devId) (a : Nat) : t.resolve a = s.resolve a := by
  unfold State.resolve
  rw [h]

theorem self_of_devId (h : t.devId = s.devId) (num : Nat) : t.self num = s.self num := by
  unfold State.self
  rw [h]

/-- A route names one of 16 ports and one of 8 sub-ports (R385). -/
theorem egress_bounds {dev p b : Nat} (h : s.egress dev = some (p, b)) : p < 16 ∧ b < 8 := by
  unfold State.egress at h
  generalize spGet 0 _ dev = route at h
  dsimp only at h
  split at h
  · obtain ⟨rfl, rfl⟩ := Prod.mk.inj (Option.some.inj h)
    exact ⟨Nat.mod_lt _ (by decide), Nat.mod_lt _ (by decide)⟩
  · exact absurd h.symm (Option.some_ne_none _)

/-- The way out to a device follows from the routes and the links' states. -/
theorem egressStatus_of_links (hf : t.fleet = s.fleet) (hr : t.rd KP_ROUTE = s.rd KP_ROUTE)
    (hl : ∀ p < 16, ∀ b < 8, t.rd (LK_STATE p b) = s.rd (LK_STATE p b)) (dev cls : Nat) : t.egressStatus dev cls = s.egressStatus dev cls := by
  have hegress : t.egress dev = s.egress dev := by
    unfold State.egress State.rb State.rf
    rw [hf, hr]
  unfold State.egressStatus
  rw [hegress]
  cases h : s.egress dev with
  | none => rfl
  | some x =>
    obtain ⟨p, b⟩ := x
    obtain ⟨hp, hb⟩ := egress_bounds h
    have hst : t.linkSt p b = s.linkSt p b := congrArg (natBits _ _) (hl p hp b hb)
    dsimp only
    rw [hst]

/-- A request whose way out carries its class leaves. -/
theorem sendReq_leaves {dev cls : Nat} (h : s.egressStatus dev cls = stOK) (op addr size : Nat) (m : Ident) (tid msop : Nat) (body : List Byte) :
    s.sendReq dev cls op addr size m tid msop body = (stOK, { s with tx := s.tx ++ [⟨dev, cls, op, ⟨BitVec.ofNat 64 addr, m, BitVec.ofNat 8 op, 0#8,
      flitsFor body.length, BitVec.ofNat 32 tid, 0#48, 0#8, BitVec.ofNat 8 msop, true⟩, size, body⟩] }) := by
  unfold State.sendReq
  dsimp only
  rw [h, if_pos rfl]

end

/-! ## Sends (R335) -/

/-- Core `c` with a send in its queue, its tiller waiting for the reply in register `d`. -/
def Core.sending (k : Core) (d : Nat) : Core :=
  { k with
    queue := k.queue ++ [⟨k.seq, 7, k.pc, ⟨0#32, 0#32, 0#32, 0#32⟩, [], false, 0, false⟩]
    seq := k.seq + 1, issued := k.issued ||| 128, stall := .msend d }

/-- The state in which core `c` has issued a send that has not left yet. -/
def State.sending (s : State) (c d : Nat) : State := (s.setCore c ((s.core c).sending d)).syncQueues c

section
variable {s : State} {core : CoreId}

theorem sending_frame (s : State) (c d : Nat) : OnlyRegs (s.setCore c ((s.core c).sending d)) (s.sending c d) := onlyRegs_syncQueues ..

theorem core_sending (s : State) (c d : Nat) : (s.sending c d).core c = (s.core c).sending d :=
  ((sending_frame s c d).core c).trans (State.core_setCore_same ..)

theorem core_sending_other (s : State) {c x : Nat} (d : Nat) (h : x ≠ c) : (s.sending c d).core x = s.core x :=
  ((sending_frame s c d).core x).trans (State.core_setCore_other _ _ h)

theorem regsBut_sending (s : State) (c d : Nat) : RegsBut s (s.sending c d) [CO_QDEPTH c, CO_UNIT_BUSY c] :=
  ((RegsBut.refl s _).of_regs rfl).trans (regsBut_syncQueues (s.setCore c ((s.core c).sending d)) c)

/-- The registers that show a core's queues lie in its own block. -/
theorem not_queue_register {a : Nat} (h : a < coBase 0 ∨ coBase 1024 ≤ a) : a ∉ [CO_QDEPTH core, CO_UNIT_BUSY core] := by
  simp only [List.mem_cons, List.not_mem_nil, or_false, CO_QDEPTH, CO_UNIT_BUSY, coBase] at h ⊢
  omega

theorem devId_sending (s : State) (core : CoreId) (d : Nat) : (s.sending core d).devId = s.devId :=
  (regsBut_sending s core d).devId (not_queue_register (.inl (by decide)))

theorem egressStatus_sending (s : State) (core : CoreId) (d dev cls : Nat) : (s.sending core d).egressStatus dev cls = s.egressStatus dev cls := by
  have hfleet : (s.sending core d).fleet = s.fleet := by
    obtain ⟨r, hr⟩ := sending_frame s core d
    rw [hr]
    rfl
  refine egressStatus_of_links hfleet (regsBut_sending s core d _ (not_queue_register (.inl (by decide)))) (fun p hp b hb => ?_) dev cls
  refine regsBut_sending s core d _ (not_queue_register (.inr ?_))
  unfold LK_STATE lkBase coBase
  omega

end

section
variable {s : State} {core : CoreId} {d a b : BitVec 5} {dev l : Nat}

/-- The two words of a message that a tiller sends. -/
def Core.message (k : Core) (a b : BitVec 5) : Nat := k.rg a.toNat + k.rg b.toNat * 2 ^ 64

/-- A send of a tiller that may issue, to an address that names a device: it waits here, or leaves in class 0. -/
theorem exec_msend (hr : Ready s core 4) (h : s.resolve ((s.core core).rg d.toNat) = some (dev, l)) : exec (.msend core d a b 0#11) s = .next
    (let u := s.sending core d.toNat
      let x : Send := ⟨s.self core, l, BitVec.ofNat 128 ((s.core core).message a b), some core.val, none⟩
      if dev ≠ s.devId then
        let (st, w) := u.sendReq dev 0 txMailbox ((s.core core).rg d.toNat) 16 (s.self core) (0x1000 + core.val) 0 (toBytes 16 ((s.core core).message a b))
        if st ≠ stOK then w.sendReply x st else w
      else { u with sends := u.sends ++ [x] }) := by
  have hdev := devId_sending s core d.toNat
  have hres := (resolve_of_devId hdev _).trans h
  have hself := self_of_devId hdev core
  unfold State.sending Core.sending at hdev hres hself
  refine congrArg Host.Outcome.next ((issue_ready hr _).trans ?_)
  dsimp only
  rw [if_neg (by decide), hres]
  dsimp only
  rw [hdev, hself]
  rfl

/-- A send to a channel here waits for its arrival. -/
theorem msend_here (hr : Ready s core 4) (h : s.resolve ((s.core core).rg d.toNat) = some (s.devId, l)) :
    exec (.msend core d a b 0#11) s = .next { s.sending core d.toNat with
      sends := (s.sending core d.toNat).sends ++ [⟨s.self core, l, BitVec.ofNat 128 ((s.core core).message a b), some core.val, none⟩] } :=
  (exec_msend hr h).trans (congrArg Host.Outcome.next (if_neg (not_not.2 rfl)))

/-- A send to a channel of another device leaves where a way out carries class 0. -/
theorem msend_far (hr : Ready s core 4) (h : s.resolve ((s.core core).rg d.toNat) = some (dev, l)) (hd : dev ≠ s.devId) (he : s.egressStatus dev 0 = stOK) :
    exec (.msend core d a b 0#11) s = .next { s.sending core d.toNat with
      tx := (s.sending core d.toNat).tx ++ [⟨dev, 0, txMailbox, ⟨BitVec.ofNat 64 ((s.core core).rg d.toNat), s.self core, BitVec.ofNat 8 txMailbox, 0#8, 1,
        BitVec.ofNat 32 (0x1000 + core.val), 0#48, 0#8, 0#8, true⟩, 16, toBytes 16 ((s.core core).message a b)⟩] } := by
  rw [exec_msend hr h]
  dsimp only
  rw [if_pos hd, sendReq_leaves ((egressStatus_sending ..).trans he), toBytes_length]
  rfl

end

section
variable {s : State} {m : Ident} {x : Nat}

theorem mb_local_aligned (hx : x < 4096) {o : Nat} (ho : o < 0x400) (h4 : o % 4 = 0) : mbBase x + o < 2 ^ 48 ∧ (mbBase x + o) % 4 = 0 := by
  unfold mbBase
  omega

/-- A write of MB_MSG_0 past its checks stores the message, which leaves; its reply comes later (R335). -/
theorem mbMsgSend_leaves {core : CoreId} {chan : Fin 4} {value : Word} (hp : Passes s m (MB_MSG_0 (4 * core.val + chan.val)) true) :
    exec (.mbMsgSend m core chan value) s
      = .next ((s.regStore (.mb (4 * core.val + chan.val)) 0x10 value.toNat).mbSend m (4 * core.val + chan.val)) := by
  generalize hx : 4 * core.val + chan.val = x at hp ⊢
  have hlt : x < 4096 := by omega
  obtain ⟨hsends, hcheck⟩ := hp
  obtain ⟨hl, h4⟩ := mb_local_aligned hlt (o := 0x10) (by decide) rfl
  have hwr : s.localWr m (MB_MSG_0 x) (toBytes 4 value.toNat) = (none, (s.regStore (.mb x) 0x10 value.toNat).mbSend m x) := by
    unfold State.localWr State.regWr
    rw [flushSends_none hsends]
    dsimp only
    rw [show target (MB_MSG_0 x) = .reg (.mb x) 0x10 from target_mb hlt (by decide), toBytes_length, ofBytes_toBytes, Nat.mod_eq_of_lt value.isLt]
    dsimp only
    rw [if_neg (by simpa [MB_MSG_0] using h4), checkLocal_ok hcheck]
    rfl
  show Host.Outcome.next (s.put32 m (MB_MSG_0 (4 * core.val + chan.val)) value.toNat) = _
  rw [hx, State.put32, State.busWrite, resolve_local s (show MB_MSG_0 x < 2 ^ 48 from hl)]
  dsimp only
  rw [if_neg (not_not.2 rfl), hwr]

/-! ## Arrival (R336, R340) -/

/-- What becomes of a send that reaches channel `x`, in the order of its checks (log 43). -/
theorem arriveSend_channel {d : Send} (h : target d.addr = .reg (.mb x) 0) : s.arriveSend d =
    if !s.present (x / 4) ∨ !s.permits d.src (.reg (.mb x) 0x10) true then s.sendRefused d x stBOUNDS_FAULT (x / 256)
    else if s.inReset (x / 4) then s.sendRefused d x stTARGET_RESET (x / 256)
    else if !s.bound x d.src then (s.bump (MB_REFUSED x) 1).sendRefused d x stBOUNDS_FAULT (x / 256)
    else if s.full x then (s.bump (MB_OVERRUN x) 1).sendRefused d x stBOUNDS_FAULT (x / 256)
    else s.deliver x d := by
  have hdie : x / 4 / 64 = x / 256 := Nat.div_div_eq_div_mul ..
  unfold State.arriveSend
  rw [h, ← hdie]
  rfl

/-- There is a core behind channel `x`, and the sender may write there. -/
abbrev State.maySend (s : State) (d : Send) (x : Nat) : Prop := s.present (x / 4) = true ∧ s.permits d.src (.reg (.mb x) 0x10) true = true

section
variable {d : Send} (ht : target d.addr = .reg (.mb x) 0)
include ht

theorem arriveSend_barred (hm : ¬s.maySend d x) : s.arriveSend d = s.sendRefused d x stBOUNDS_FAULT (x / 256) := by
  rw [arriveSend_channel ht]
  refine if_pos ?_
  by_cases hpres : s.present (x / 4) = true
  · exact .inr (by simpa using fun hperm => hm ⟨hpres, hperm⟩)
  · exact .inl (by simpa using hpres)

/-- With the check of presence and right behind it, a send meets the reset, the binding and the slot. -/
theorem arriveSend_permitted (hm : s.maySend d x) : s.arriveSend d =
    if s.inReset (x / 4) then s.sendRefused d x stTARGET_RESET (x / 256)
    else if !s.bound x d.src then (s.bump (MB_REFUSED x) 1).sendRefused d x stBOUNDS_FAULT (x / 256)
    else if s.full x then (s.bump (MB_OVERRUN x) 1).sendRefused d x stBOUNDS_FAULT (x / 256)
    else s.deliver x d := by
  rw [arriveSend_channel ht, if_neg (by simp [hm.1, hm.2])]

theorem arriveSend_reset (hm : s.maySend d x) (hr : s.inReset (x / 4) = true) : s.arriveSend d = s.sendRefused d x stTARGET_RESET (x / 256) := by
  rw [arriveSend_permitted ht hm, if_pos hr]

theorem arriveSend_unbound (hm : s.maySend d x) (hr : s.inReset (x / 4) = false) (hb : s.bound x d.src = false) :
    s.arriveSend d = (s.bump (MB_REFUSED x) 1).sendRefused d x stBOUNDS_FAULT (x / 256) := by
  rw [arriveSend_permitted ht hm, if_neg (by simp [hr]), if_pos (by simp [hb])]

theorem arriveSend_overrun (hm : s.maySend d x) (hr : s.inReset (x / 4) = false) (hb : s.bound x d.src = true) (hf : s.full x = true) :
    s.arriveSend d = (s.bump (MB_OVERRUN x) 1).sendRefused d x stBOUNDS_FAULT (x / 256) := by
  rw [arriveSend_permitted ht hm, if_neg (by simp [hr]), if_neg (by simp [hb]), if_pos hf]

theorem arriveSend_delivers (hm : s.maySend d x) (hr : s.inReset (x / 4) = false) (hb : s.bound x d.src = true) (hf : s.full x = false) :
    s.arriveSend d = s.deliver x d := by
  rw [arriveSend_permitted ht hm, if_neg (by simp [hr]), if_neg (by simp [hb]), if_neg (by simp [hf])]

end

theorem mailboxArrival_takes {d : Send} {rest : List Send} (h : s.sends = d :: rest) :
    exec .mailboxArrival s = .next ({ s with sends := rest }.arriveSend d) := by
  show execMailboxArrival s = _
  unfold execMailboxArrival
  rw [h]

end

theorem mailboxSendsComplete : MailboxSendsComplete := by
  refine ⟨?_, ?_, ?_⟩
  · intro core d a b dev l s k msg x hr hres hout
    have hcore := core_sending s core d.toNat
    have hother := fun c (hc : c ≠ core.val) => core_sending_other s d.toNat hc
    have hregs := regsBut_sending s core d.toNat
    have hhere := msend_here (d := d) (a := a) (b := b) (l := l) hr
    have hfar := msend_far (d := d) (a := a) (b := b) hr hres
    obtain ⟨r, hframe⟩ := sending_frame s core d.toNat
    rw [hframe] at hcore hother hregs hhere hfar
    by_cases hd : dev = s.devId
    · subst hd
      exact ⟨_, hhere hres, hcore, hother, hregs.of_regs rfl, fun _ => ⟨rfl, rfl⟩, fun hne => absurd rfl hne⟩
    · exact ⟨_, hfar hd (hout hd), hcore, hother, hregs.of_regs rfl, fun he => absurd he hd, fun _ => ⟨rfl, rfl⟩⟩
  · intro m core chan value s x hp
    exact mbMsgSend_leaves hp
  · intro d rest x s hs hx ht u may
    have harrived {t : State} (h : u.arriveSend d = t) : exec .mailboxArrival s = .next t := (mailboxArrival_takes hs).trans (congrArg _ h)
    exact ⟨fun hm => harrived (arriveSend_barred ht hm), fun hm hr => harrived (arriveSend_reset ht hm hr),
      fun hm hr hb => harrived (arriveSend_unbound ht hm hr hb), fun hm hr hb hf => harrived (arriveSend_overrun ht hm hr hb hf),
      fun hm hr hb hf => harrived (arriveSend_delivers ht hm hr hb hf)⟩

/-! ## Receipts (R337, R338) -/

section
variable {s u : State} {core : CoreId} {c d a b fn : Nat}

theorem natBit_three (h : fn < 16) : natBit 3 fn = decide (8 ≤ fn) := by
  unfold natBit
  rw [Bool.eq_iff_iff, beq_iff_eq, decide_eq_true_iff]
  omega

theorem tryRecv_message (h8 : fn < 8) (hf : s.full (4 * c + fn % 4) = true) (hw : s.rb (MB_STATUS (4 * c + fn % 4)) MB_STATUS_WAITING = false) :
    s.tryRecv c d a b fn = some ((s.emptySlot (4 * c + fn % 4)).received c d a b ((s.chan (4 * c + fn % 4)).toNat % 2 ^ 64)
      ((s.chan (4 * c + fn % 4)).toNat / 2 ^ 64) stOK) := by
  unfold State.tryRecv
  rw [natBit_three (by omega), if_neg (by simpa using h8)]
  dsimp only
  rw [if_pos (by simp [hf, hw])]

theorem tryRecv_note {n : Dword} {rest : List Dword} (hlt : fn < 16) (h8 : 8 ≤ fn) (hn : s.notesOf c = n :: rest) :
    s.tryRecv c d a b fn = some ((s.setNotes c rest).received c d a b n.toNat 0 stOK) := by
  unfold State.tryRecv
  rw [natBit_three hlt, if_pos (by simpa using h8), hn]

/-- There is nothing to receive: no message that has been delivered, or no note. -/
def State.NothingFor (s : State) (c fn : Nat) : Prop :=
  if fn < 8 then s.full (4 * c + fn % 4) = false ∨ s.rb (MB_STATUS (4 * c + fn % 4)) MB_STATUS_WAITING = true else s.notesOf c = []

theorem tryRecv_nothing (hlt : fn < 16) (h : s.NothingFor c fn) : s.tryRecv c d a b fn = none := by
  unfold State.NothingFor at h
  unfold State.tryRecv
  rw [natBit_three hlt]
  split at h
  · next h8 =>
    rw [if_neg (by simpa using h8)]
    refine if_neg ?_
    rcases h with hf | hw
    · simp [hf]
    · simp [hw]
  · next h8 => rw [if_pos (by simpa using h8), h]

end

section
variable {s u : State} {core : CoreId} {d a b : BitVec 5} {fn : BitVec 11} (hr : Ready s core 4) (hlt : fn.toNat < 16)
include hr hlt

theorem mrecv_takes (h : s.tryRecv core d.toNat a.toNat b.toNat fn.toNat = some u) : exec (.mrecv core d a b fn) s = .next u := by
  refine congrArg Host.Outcome.next ((issue_ready hr _).trans ?_)
  rw [if_neg (Nat.not_le.2 hlt), h]

/-- With nothing to receive, bit 2 of the instruction says whether the tiller waits. -/
theorem mrecv_finds_nothing (h : s.NothingFor core fn.toNat) : exec (.mrecv core d a b fn) s = .next
    (if natBit 2 fn.toNat then s.modCore core (fun k => { k with stall := .mrecv d.toNat a.toNat b.toNat fn.toNat })
     else s.received core d.toNat a.toNat b.toNat 0 0 stOK_EMPTY) := by
  refine congrArg Host.Outcome.next ((issue_ready hr _).trans ?_)
  rw [if_neg (Nat.not_le.2 hlt), tryRecv_nothing hlt h]

end

/-! ## Empty notes (R338) -/

section
variable {s : State} {m : Ident} {v : Dword}

theorem takeNote_away (h : s.isLocal m = false) : s.takeNote m v = s.sendNote m v := by
  unfold State.takeNote
  rw [h]
  rfl

/-- A core takes a note while it holds fewer than eight. -/
theorem takeNote_core {c : Nat} (hl : s.isLocal m = true) (hm : masterOf m.num.toNat = .tiller c) (h : (s.notesOf c).length < 8) :
    s.takeNote m v = (s.setNotes c (s.notesOf c ++ [v])).arrive c := by
  unfold State.takeNote
  rw [hl, if_neg (by decide), hm]
  exact if_neg (Nat.not_le.2 h)

/-- A further one is lost, and counted. -/
theorem takeNote_lost {c : Nat} (hl : s.isLocal m = true) (hm : masterOf m.num.toNat = .tiller c) (h : 8 ≤ (s.notesOf c).length) :
    s.takeNote m v = s.bump (MB_NOTE_LOST (4 * c)) 1 := by
  unfold State.takeNote
  rw [hl, if_neg (by decide), hm]
  exact if_pos h

theorem takeNote_interrupts (hl : s.isLocal m = true) (hm : masterOf m.num.toNat = .keeper ∨ ∃ i : Nat, masterOf m.num.toNat = .control i) :
    s.takeNote m v = { s with interrupts := s.interrupts ++ [(m, v)] } := by
  unfold State.takeNote
  rw [hl, if_neg (by decide)]
  rcases hm with hk | ⟨i, hi⟩
  · rw [hk]
  · rw [hi]

theorem emptyNote_own {rest : List (Ident × Dword)} (h : s.notesOut = (m, v) :: rest) : exec .emptyNote s = .next ({ s with notesOut := rest }.takeNote m v) := by
  show execEmptyNote s = _
  unfold execEmptyNote
  rw [h]

theorem emptyNote_delivered {i : Nat} {f : Flit} (h : s.notesOut = []) (hn : s.noteIn = some (i, f, m, v)) :
    exec .emptyNote s = .next ((s.modSub (i / 8) (i % 8) (fun k => { k with rx := k.rx.erase f })).takeNote m v) := by
  show execEmptyNote s = _
  unfold execEmptyNote
  rw [h]
  dsimp only
  rw [hn]

end

/-! ## Lock registers (R339) -/

section
variable {s : State} {m : Ident} {x : Nat}

/-- A read of MB_LOCK past its checks returns what `State.lockRead` does. -/
theorem mbLockRead_reads {core : CoreId} {chan : Fin 4} {v : Nat} {t : State} (hp : Passes s m (MB_LOCK (4 * core.val + chan.val)) false)
    (h : s.lockRead m (4 * core.val + chan.val) = (v, t)) : exec (.mbLockRead m core chan) s = .next (t.reply stOK (toBytes 4 v)) := by
  have hx : 4 * core.val + chan.val < 4096 := by omega
  obtain ⟨hl, h4⟩ := mb_local_aligned hx (o := 0xC) (by decide) rfl
  have hread : s.busRead m (MB_LOCK (4 * core.val + chan.val)) 4 = _ := busRead_reg hl (target_mb hx (by decide)) (by simp) h4 hp
  rw [State.regRead, if_pos rfl, h] at hread
  exact congrArg Host.Outcome.next hread

theorem mbLockWrite_writes {core : CoreId} {chan : Fin 4} {value : Word} (hp : Passes s m (MB_LOCK (4 * core.val + chan.val)) true) :
    exec (.mbLockWrite m core chan value) s = .next ((s.lockWrite m (4 * core.val + chan.val) value.toNat).reply stOK []) := by
  have hx : 4 * core.val + chan.val < 4096 := by omega
  obtain ⟨hl, h4⟩ := mb_local_aligned hx (o := 0xC) (by decide) rfl
  have hput := put32_reg (v := value.toNat) hl (target_mb hx (by decide)) (by simp) h4 hp.2 rfl (by simp) hp.1
  rw [Nat.mod_eq_of_lt value.isLt] at hput
  exact congrArg Host.Outcome.next hput

theorem lockRead_free (h : s.rd (MB_LOCK x) = 0) :
    s.lockRead m x = (0, (s.wr (MB_LOCK x) (0x80000000 + identWord m)).wb (MB_STATUS x) MB_STATUS_HELD true) := if_pos h

theorem lockRead_own (h : s.rd (MB_LOCK x) = 0x80000000 + identWord m) : s.lockRead m x = (0, s) := by
  unfold State.lockRead
  dsimp only
  rw [if_neg (by omega), if_pos h]

theorem lockRead_held (h0 : s.rd (MB_LOCK x) ≠ 0) (h : s.rd (MB_LOCK x) ≠ 0x80000000 + identWord m) : s.lockRead m x = (s.rd (MB_LOCK x), s) := by
  unfold State.lockRead
  dsimp only
  rw [if_neg h0, if_neg h]

theorem lockWrite_frees (h : s.rd (MB_LOCK x) = 0x80000000 + identWord m) : s.lockWrite m x 0 = (s.wr (MB_LOCK x) 0).wb (MB_STATUS x) MB_STATUS_HELD false :=
  if_pos ⟨rfl, h⟩

theorem lockWrite_ignored {value : Word} (h : value ≠ 0#32 ∨ s.rd (MB_LOCK x) ≠ 0x80000000 + identWord m) : s.lockWrite m x value.toNat = s :=
  if_neg fun hc => h.elim (fun hv => hv (BitVec.eq_of_toNat_eq hc.1)) fun hn => hn hc.2

end

theorem mailboxServicesComplete : MailboxServicesComplete := by
  refine ⟨?_, ?_, ?_⟩
  · intro core d a b fn s x cmd hr hlt nothing
    refine ⟨fun h8 hf hw => mrecv_takes hr hlt (tryRecv_message h8 hf hw), fun n rest h8 hn => mrecv_takes hr hlt (tryRecv_note hlt h8 hn),
      fun hno h2 => ?_, fun hno h2 => ?_⟩
    all_goals refine (mrecv_finds_nothing hr hlt hno).trans (congrArg Host.Outcome.next ?_)
    · exact if_neg (by simp [natBit, h2])
    · exact if_pos (by simp [natBit, h2])
  · intro m v rest s u
    refine ⟨fun hs => ?_, fun i f hs hn hl => ?_⟩
    · have htaken {t : State} (h : u.takeNote m v = t) : exec .emptyNote s = .next t := (emptyNote_own hs).trans (congrArg _ h)
      exact ⟨fun hl => htaken (takeNote_away hl), fun c hl hm => ⟨fun hlen => htaken (takeNote_core hl hm hlen), fun hlen => htaken (takeNote_lost hl hm hlen)⟩,
        fun hl hm => htaken (takeNote_interrupts hl hm)⟩
    · intro w
      have htaken {t : State} (h : w.takeNote m v = t) : exec .emptyNote s = .next t := (emptyNote_delivered hs hn).trans (congrArg _ h)
      exact ⟨fun c hm => ⟨fun hlen => htaken (takeNote_core hl hm hlen), fun hlen => htaken (takeNote_lost hl hm hlen)⟩,
        fun hm => htaken (takeNote_interrupts hl hm)⟩
  · intro m core chan value s x own
    refine ⟨fun hp => ?_, fun hp => ?_⟩
    · have hzero : toBytes 4 0 = [0#8, 0#8, 0#8, 0#8] := by decide
      exact ⟨fun h => hzero ▸ mbLockRead_reads hp (lockRead_free h), fun h => hzero ▸ mbLockRead_reads hp (lockRead_own h),
        fun h0 h => mbLockRead_reads hp (lockRead_held h0 h)⟩
    · rw [mbLockWrite_writes hp]
      refine ⟨fun hv h => ?_, fun h => ?_⟩
      · subst hv
        exact congrArg (fun t : State => Host.Outcome.next (t.reply stOK [])) (lockWrite_frees h)
      · rw [lockWrite_ignored h]

/-- Settles O40: a send by the first check of its arrival that it fails, a receipt by what there is to receive, a note by its addressee and a lock by its holder. -/
theorem mailboxCommandsComplete : Obligations.MailboxCommandsComplete := ⟨mailboxSendsComplete, mailboxServicesComplete⟩

end Sys2Proof.Machine
end
section
/-! PROOFS. Sub-ports of a link port: what a write of a sub-port's own state or of its registers leaves alone, and the training of links, first and again
(R343, R346, R359 to R366, R372, R374). -/

namespace Sys2Proof.Machine

/-! ## Sub-ports -/

section
variable {s t u : State} {p b : Nat} {l : List Nat}

theorem sub_setSub_same (s : State) (p b : Nat) (k : Sub) : (s.setSub p b k).sub p b = k := spGet_put_same ..

theorem sub_setSub_other (s : State) {q e : Nat} (k : Sub) (h : 8 * q + e ≠ 8 * p + b) : (s.setSub p b k).sub q e = s.sub q e := spGet_put_other _ _ _ h

theorem sub_modSub_same (s : State) (p b : Nat) (f : Sub → Sub) : (s.modSub p b f).sub p b = f (s.sub p b) := sub_setSub_same ..

theorem sub_of_subs (h : t.subs = s.subs) (p b : Nat) : t.sub p b = s.sub p b := by
  unfold State.sub
  rw [h]

theorem OnlyRegs.sub (h : OnlyRegs s t) (p b : Nat) : t.sub p b = s.sub p b := by
  obtain ⟨_, rfl⟩ := h
  rfl

theorem OnlyRegs.tx (h : OnlyRegs s t) : t.tx = s.tx := by
  obtain ⟨_, rfl⟩ := h
  rfl

theorem OnlyRegs.time (h : OnlyRegs s t) : t.time = s.time := by
  obtain ⟨_, rfl⟩ := h
  rfl

theorem SubChanges.refl (s : State) (p b : Nat) (l : List Nat) : SubChanges s s p b l := ⟨fun _ _ _ => rfl, .refl s l, rfl⟩

theorem SubChanges.trans (h : SubChanges s t p b l) (h' : SubChanges t u p b l) : SubChanges s u p b l := by
  obtain ⟨hsub, hregs, ht⟩ := h
  obtain ⟨hsub', hregs', hu⟩ := h'
  refine ⟨fun q e hne => (hsub' q e hne).trans (hsub q e hne), hregs.trans hregs', ?_⟩
  rw [hu, ht]

theorem SubChanges.mono {l' : List Nat} (h : SubChanges s t p b l) (hl : l ⊆ l') : SubChanges s t p b l' := ⟨h.1, h.2.1.mono hl, h.2.2⟩

theorem SubChanges.regs (h : SubChanges s t p b l) : RegsBut s t l := h.2.1

theorem subChanges_setSub (s : State) (p b : Nat) (k : Sub) (l : List Nat) : SubChanges s (s.setSub p b k) p b l :=
  ⟨fun _ _ h => sub_setSub_other s k h, (RegsBut.refl s l).of_regs rfl, rfl⟩

theorem subChanges_modSub (s : State) (p b : Nat) (f : Sub → Sub) (l : List Nat) : SubChanges s (s.modSub p b f) p b l := subChanges_setSub ..

theorem subChanges_of_regs (h : OnlyRegs s t) (hr : RegsBut s t l) : SubChanges s t p b l := by
  refine ⟨fun q e _ => h.sub q e, hr, ?_⟩
  obtain ⟨_, rfl⟩ := h
  rfl

/-- Two names of one sub-port name one state. -/
theorem sub_of_index {q e : Nat} (h : 8 * q + e = 8 * p + b) (s : State) : s.sub q e = s.sub p b := by
  unfold State.sub
  rw [h]

/-! ## Registers of a sub-port (R380) -/

theorem linkSt_setLink {st : Nat} (h : st < 8) (s : State) (p b : Nat) : (s.setLink p b st).linkSt p b = st := rf_wf_fits (by decide) h

theorem linkSt_of_regs (h : RegsBut s t l) (hl : LK_STATE p b ∉ l) : t.linkSt p b = s.linkSt p b := h.rf hl _

theorem rb_of_regs (h : RegsBut s t l) {a : Nat} (hl : a ∉ l) (f : Fld) : t.rb a f = s.rb a f := congrArg (· == 1) (h.rf hl f)

theorem rb_wb_same (s : State) (a : Nat) {f : Fld} (hf : f.lo + f.width ≤ 32) (hw : f.width = 1) (v : Bool) : (s.wb a f v).rb a f = v := by
  unfold State.rb State.wb
  rw [rf_wf_fits hf (by rw [hw]; exact Bool.toNat_lt v)]
  cases v <;> rfl

theorem lkState_not_late (p b : Nat) : LK_STATE p b ∉ [LK_C0_LATE p b] := by
  unfold LK_STATE LK_C0_LATE
  simp

theorem lkState_not_keyCount (p b : Nat) : LK_STATE p b ∉ wordsAt (LK_KEYCNT_0 p b) 2 := by
  unfold LK_STATE LK_KEYCNT_0 wordsAt
  simp [List.range_succ]
  omega

theorem regsBut_keyCount (s : State) (p b v : Nat) : RegsBut s (s.wrWide (LK_KEYCNT_0 p b) 2 v) (wordsAt (LK_KEYCNT_0 p b) 2) :=
  (RegsBut.refl s _).wrWide (List.Subset.refl _) v

end

end Sys2Proof.Machine
end
section
/-! PROOFS. The codewords that leave: how the slots of a codeword are filled, what one new codeword and a block of them leave of the sub-port, and what a codeword that
leaves again does (R349, R352, R353, R357, R365). -/

namespace Sys2Proof.Machine

/-! ## Slots (R352, R353) -/

/-- `r` is `k` but for what the filling of slots touches: the queue, the credits and the counts of the class windows. -/
def SlotsOnly (k r : Sub) : Prop := ∃ l c m w n, r = { k with queue := l, credits := c, sinceMgmt := m, c0Win := w, c0Left := n }

section
variable {k r q : Sub}

theorem SlotsOnly.refl (k : Sub) : SlotsOnly k k := ⟨_, _, _, _, _, rfl⟩

theorem SlotsOnly.trans (h : SlotsOnly k r) (h' : SlotsOnly r q) : SlotsOnly k q := by
  obtain ⟨_, _, _, _, _, rfl⟩ := h
  obtain ⟨_, _, _, _, _, rfl⟩ := h'
  exact ⟨_, _, _, _, _, rfl⟩

theorem SlotsOnly.queued (h : SlotsOnly k r) (l : List Flit) : SlotsOnly k { r with queue := l } := by
  obtain ⟨_, _, _, _, _, rfl⟩ := h
  exact ⟨_, _, _, _, _, rfl⟩

section
variable (h : SlotsOnly k r)
include h

theorem SlotsOnly.txNum : r.txNum = k.txNum := by
  obtain ⟨_, _, _, _, _, rfl⟩ := h
  rfl

theorem SlotsOnly.rxNum : r.rxNum = k.rxNum := by
  obtain ⟨_, _, _, _, _, rfl⟩ := h
  rfl

theorem SlotsOnly.replay : r.replay = k.replay := by
  obtain ⟨_, _, _, _, _, rfl⟩ := h
  rfl

theorem SlotsOnly.resend : r.resend = k.resend := by
  obtain ⟨_, _, _, _, _, rfl⟩ := h
  rfl

theorem SlotsOnly.line : r.line = k.line := by
  obtain ⟨_, _, _, _, _, rfl⟩ := h
  rfl

theorem SlotsOnly.keys : r.keys = k.keys := by
  obtain ⟨_, _, _, _, _, rfl⟩ := h
  rfl

theorem SlotsOnly.readySent : r.readySent = k.readySent := by
  obtain ⟨_, _, _, _, _, rfl⟩ := h
  rfl

theorem SlotsOnly.readyPeer : r.readyPeer = k.readyPeer := by
  obtain ⟨_, _, _, _, _, rfl⟩ := h
  rfl

end

/-- The filling of `n` slots gives `n` flits. -/
theorem fill_spec (slot : Nat → Bool × Bool) (n : Nat) : ∀ (i : Nat) (k : Sub), (k.fill slot i n).1.length = n ∧ SlotsOnly k (k.fill slot i n).2 := by
  induction n with
  | zero => exact fun _ k => ⟨rfl, .refl k⟩
  | succ n ih =>
    intro i k
    unfold Sub.fill
    split
    · obtain ⟨hlen, hk⟩ := ih (i + 1) { k with sinceMgmt := k.sinceMgmt + 1 }
      exact ⟨congrArg Nat.succ hlen, hk⟩
    · rename_i c _
      obtain ⟨hlen, hk⟩ := ih (i + 1) { k with queue := dropFlit c k.queue, credits := k.credits.set c (k.credits.getD c 0 - 1), sinceMgmt := if c = 3 then 0 else k.sinceMgmt + 1 }
      exact ⟨congrArg Nat.succ hlen, hk⟩

theorem choose_empty (h : k.queue = []) (w0 w1 : Bool) : k.choose w0 w1 = none := by
  have hr : ∀ c, k.ready c = false := fun c => by simp [Sub.ready, h]
  simp [Sub.choose, hr]

/-- With nothing queued every slot is idle, and nothing is queued behind it. -/
theorem fill_empty (slot : Nat → Bool × Bool) (n : Nat) : ∀ (i : Nat) (k : Sub), k.queue = [] → (k.fill slot i n).1 = List.replicate n idleFlit ∧ (k.fill slot i n).2.queue = [] := by
  induction n with
  | zero => exact fun _ _ h => ⟨rfl, h⟩
  | succ n ih =>
    intro i k h
    obtain ⟨hl, hq⟩ := ih (i + 1) { k with sinceMgmt := k.sinceMgmt + 1 } h
    unfold Sub.fill
    rw [choose_empty h]
    exact ⟨congrArg (idleFlit :: ·) hl, hq⟩

theorem fillSlots_spec (s : State) (k : Sub) (st at_ : Nat) : (s.fillSlots k st at_).1.length = 10 ∧ SlotsOnly k (s.fillSlots k st at_).2 := by
  unfold State.fillSlots
  dsimp only
  generalize hq : List.map Prod.fst (List.filter _ (openMarks true k.queue).1) = l
  obtain ⟨hlen, hk⟩ := fill_spec (s.slotsAt (st == 4) at_) 10 0 { k with queue := l }
  exact ⟨hlen, SlotsOnly.queued hk _⟩

theorem fillSlots_empty (s : State) (st at_ : Nat) (h : k.queue = []) :
    (s.fillSlots k st at_).1 = List.replicate 10 idleFlit ∧ (s.fillSlots k st at_).2.queue = [] := by
  unfold State.fillSlots
  dsimp only
  rw [h, openMarks]
  obtain ⟨hl, hq⟩ := fill_empty (s.slotsAt (st == 4) at_) 10 0 { k with queue := [] } rfl
  exact ⟨hl, (List.append_nil _).trans hq⟩

theorem leaves_spec (k : Sub) (win : Option Nat) : SlotsOnly k (k.leaves win) ∧ (k.leaves win).queue = k.queue := by
  cases win with
  | none => exact ⟨.refl k, rfl⟩
  | some n => exact ⟨⟨_, _, _, _, _, rfl⟩, rfl⟩

end

/-! ## One new codeword (R349, R352, R365) -/

/-- A sub-port that holds a new codeword for replay, with its symbols on the line. -/
def Sub.sends (r : Sub) (c : Codeword) (symbols freed : List Nat) (turn : Nat) : Sub :=
  { r with txNum := r.txNum + 1, replay := r.replay ++ [⟨r.txNum, 0, c⟩], nakDue := false, freed := freed, turn := turn, peerAcked := r.readyPeer,
           line := r.line ++ [symbols] }

section
variable {s t u : State} {p b : Nat}

/-- A link counts the codewords under its key unless it is OPEN. -/
def State.countUnderKey (s : State) (p b st : Nat) : State :=
  if st = 2 then s else s.wrWide (LK_KEYCNT_0 p b) 2 (s.rdWide (LK_KEYCNT_0 p b) 2 + 1)

theorem countLate_frame (s : State) (p b : Nat) (win : Option Nat) (k : Sub) : OnlyRegs s (s.countLate p b win k) ∧ RegsBut s (s.countLate p b win k) [LK_C0_LATE p b] := by
  unfold State.countLate
  split
  · exact ⟨.refl s, .refl s _⟩
  · split
    · exact ⟨.refl s, .refl s _⟩
    · exact ⟨onlyRegs_wr .., regsBut_bump _ _ _⟩

/-- The check value covers the header and the flits, not itself. -/
theorem cwIcv_icv (c : Codeword) (key : Option (BitVec 320)) (dir n : Nat) (x : BitVec 64) : cwIcv { c with icv := x } key dir n = cwIcv c key dir n := by
  cases key with
  | none => rfl
  | some m => rfl

/-- A new codeword carries ten flits, the next number, the phase in use and its check value, joins the replay buffer, and is counted under its key. -/
theorem newCodeword_spec (s : State) (p b at_ : Nat) : ∃ (r : Sub) (c : Codeword) (symbols freed : List Nat) (turn : Nat) (v : State),
    SlotsOnly (s.sub p b) r ∧ r.queue = (s.fillSlots (s.sub p b) (s.linkSt p b) at_).2.queue ∧ OnlyRegs s v ∧ RegsBut s v [LK_C0_LATE p b]
      ∧ c.seq = BitVec.ofNat 20 r.txNum ∧ c.flits = (s.fillSlots (s.sub p b) (s.linkSt p b) at_).1 ∧ c.kph = s.rb (LK_STATE p b) LK_STATE_KPH
      ∧ c.icv = cwIcv c (if s.linkSt p b = 2 then none else r.keys.getD (s.rb (LK_STATE p b) LK_STATE_KPH).toNat none) 0 r.txNum
      ∧ s.newCodeword p b at_ = (v.setSub p b (r.sends c symbols freed turn)).countUnderKey p b (s.linkSt p b) := by
  obtain ⟨-, hfill⟩ := fillSlots_spec s (s.sub p b) (s.linkSt p b) at_
  unfold State.newCodeword
  dsimp only
  generalize (if s.linkSt p b = 4 then none else _) = win
  generalize s.fillSlots (s.sub p b) (s.linkSt p b) at_ = f at *
  obtain ⟨hl, hlq⟩ := leaves_spec f.2 win
  obtain ⟨hv, hr⟩ := countLate_frame s p b win f.2
  have hph : (s.countLate p b win f.2).rb (LK_STATE p b) LK_STATE_KPH = s.rb (LK_STATE p b) LK_STATE_KPH := rb_of_regs hr (lkState_not_late p b) _
  generalize s.countLate p b win f.2 = v at *
  rw [hph]
  refine ⟨_, _, _, _, _, v, hfill.trans hl, hlq, hv, hr, rfl, rfl, rfl, (cwIcv_icv ..).symm, rfl⟩

theorem countUnderKey_open {st : Nat} (h : st = 2) (s : State) (p b : Nat) : s.countUnderKey p b st = s := if_pos h

theorem countUnderKey_keyed {st : Nat} (h : st ≠ 2) (s : State) (p b : Nat) :
    s.countUnderKey p b st = s.wrWide (LK_KEYCNT_0 p b) 2 (s.rdWide (LK_KEYCNT_0 p b) 2 + 1) := if_neg h

/-! ## A block of new codewords (R349, R352, R357, R365) -/

/-- The registers that sending moves. -/
def sentRegs (p b : Nat) : List Nat := LK_C0_LATE p b :: wordsAt (LK_KEYCNT_0 p b) 2

theorem lkState_not_sent (p b : Nat) : LK_STATE p b ∉ sentRegs p b := by
  simpa [sentRegs] using ⟨by simpa using lkState_not_late p b, lkState_not_keyCount p b⟩

/-- The codewords of `l` are numbered from `n` on, and carry ten flits, the key phase and their check values under its key. -/
def Numbered (n : Nat) (ph : Bool) (key : Option (BitVec 320)) (l : List Sent) : Prop :=
  ∀ (i : Nat) (h : i < l.length), l[i].num = n + i ∧ l[i].cw.seq.toNat = (n + i) % 2 ^ 20 ∧ l[i].cw.flits.length = 10 ∧ l[i].cw.kph = ph
    ∧ l[i].cw.icv = cwIcv l[i].cw key 0 (n + i)

theorem Numbered.append {n : Nat} {ph : Bool} {key : Option (BitVec 320)} {l l' : List Sent} (h : Numbered n ph key l) (h' : Numbered (n + l.length) ph key l') :
    Numbered n ph key (l ++ l') := by
  intro i hi
  by_cases hl : i < l.length
  · rw [List.getElem_append_left hl]
    exact h i hl
  · rw [List.getElem_append_right (by omega)]
    have hi' := h' (i - l.length) (by rw [List.length_append] at hi; omega)
    rwa [show n + l.length + (i - l.length) = n + i by omega] at hi'

theorem Numbered.one {n : Nat} {ph : Bool} {key : Option (BitVec 320)} {x : Sent} (hnum : n = x.num) (hseq : x.cw.seq.toNat = x.num % 2 ^ 20)
    (hlen : x.cw.flits.length = 10) (hph : x.cw.kph = ph) (hicv : x.cw.icv = cwIcv x.cw key 0 x.num) : Numbered n ph key [x] := by
  subst hnum
  rintro (_ | i) hi
  · exact ⟨rfl, hseq, hlen, hph, hicv⟩
  · exact absurd hi (by simp)

/-- The link has sent the codewords of `l`, and nothing else has changed on it but its queue, its credits and its counts. -/
structure Sends (s t : State) (p b : Nat) (l : List Sent) : Prop where
  frame : SubChanges s t p b (sentRegs p b)
  time : t.time = s.time
  resend : (t.sub p b).resend = (s.sub p b).resend
  keys : (t.sub p b).keys = (s.sub p b).keys
  rxNum : (t.sub p b).rxNum = (s.sub p b).rxNum
  txNum : (t.sub p b).txNum = (s.sub p b).txNum + l.length
  replay : (t.sub p b).replay = (s.sub p b).replay ++ l
  line : (t.sub p b).line.length = (s.sub p b).line.length + l.length
  count : t.rdWide (LK_KEYCNT_0 p b) 2 = (s.rdWide (LK_KEYCNT_0 p b) 2 + l.length) % 2 ^ 64
  numbered : Numbered (s.sub p b).txNum (s.rb (LK_STATE p b) LK_STATE_KPH) ((s.sub p b).keys.getD (s.rb (LK_STATE p b) LK_STATE_KPH).toNat none) l

theorem Sends.linkSt {l : List Sent} (h : Sends s t p b l) : t.linkSt p b = s.linkSt p b := linkSt_of_regs h.frame.regs (lkState_not_sent p b)

theorem Sends.kph {l : List Sent} (h : Sends s t p b l) : t.rb (LK_STATE p b) LK_STATE_KPH = s.rb (LK_STATE p b) LK_STATE_KPH :=
  rb_of_regs h.frame.regs (lkState_not_sent p b) _

/-- A wide quantity fits its words. -/
theorem rdWide_lt (s : State) (a n : Nat) : s.rdWide a n < 2 ^ (32 * n) := by
  induction n with
  | zero => exact Nat.one_pos
  | succ n ih =>
    rw [State.rdWide, Nat.mul_succ, Nat.pow_add]
    calc s.rdWide a n + s.rd (a + 4 * n) * 2 ^ (32 * n) < 2 ^ (32 * n) + s.rd (a + 4 * n) * 2 ^ (32 * n) := Nat.add_lt_add_right ih _
      _ = (s.rd (a + 4 * n) + 1) * 2 ^ (32 * n) := by ring
      _ ≤ 2 ^ 32 * 2 ^ (32 * n) := Nat.mul_le_mul_right _ (s.rd_lt _)
      _ = 2 ^ (32 * n) * 2 ^ 32 := Nat.mul_comm ..

theorem Sends.refl (s : State) (p b : Nat) : Sends s s p b [] where
  frame := .refl ..
  time := rfl
  resend := rfl
  keys := rfl
  rxNum := rfl
  txNum := rfl
  replay := (List.append_nil _).symm
  line := rfl
  count := by rw [List.length_nil, Nat.add_zero, Nat.mod_eq_of_lt (rdWide_lt s _ 2)]
  numbered := fun i h => absurd h (Nat.not_lt_zero i)

theorem Sends.trans {l l' : List Sent} (h : Sends s t p b l) (h' : Sends t u p b l') : Sends s u p b (l ++ l') where
  frame := h.frame.trans h'.frame
  time := h'.time.trans h.time
  resend := h'.resend.trans h.resend
  keys := h'.keys.trans h.keys
  rxNum := h'.rxNum.trans h.rxNum
  txNum := by rw [h'.txNum, h.txNum, List.length_append, Nat.add_assoc]
  replay := by rw [h'.replay, h.replay, List.append_assoc]
  line := by rw [h'.line, h.line, List.length_append, Nat.add_assoc]
  count := by
    rw [h'.count, h.count, List.length_append]
    omega
  numbered := by
    refine h.numbered.append ?_
    have hn := h'.numbered
    rwa [h.txNum, h.keys, h.kph] at hn

/-- A new codeword on a link with keys. -/
theorem newCodeword_sends (at_ : Nat) (h : s.linkSt p b ≠ 2) : ∃ x : Sent, Sends s (s.newCodeword p b at_) p b [x] := by
  obtain ⟨r, c, symbols, freed, turn, v, hr, -, hv, hregs, hseq, hflits, hkph, hicv, ht⟩ := newCodeword_spec s p b at_
  rw [countUnderKey_keyed h] at ht
  rw [if_neg h] at hicv
  obtain ⟨hlen, -⟩ := fillSlots_spec s (s.sub p b) (s.linkSt p b) at_
  generalize hw : v.setSub p b (r.sends c symbols freed turn) = w at ht
  have hwv : SubChanges v w p b (sentRegs p b) := hw ▸ subChanges_setSub ..
  have hcount : w.rdWide (LK_KEYCNT_0 p b) 2 = s.rdWide (LK_KEYCNT_0 p b) 2 := by
    have hws : RegsBut s w [LK_C0_LATE p b] := hw ▸ hregs.of_regs rfl
    exact hws.rdWide fun i hi => by
      unfold LK_KEYCNT_0 LK_C0_LATE
      simp only [List.mem_singleton]
      omega
  have hsub : (s.newCodeword p b at_).sub p b = r.sends c symbols freed turn := by
    rw [ht, (onlyRegs_wrWide (.refl w) _ _ _).sub, ← hw, sub_setSub_same]
  have hframe : SubChanges s (s.newCodeword p b at_) p b (sentRegs p b) := by
    rw [ht]
    exact ((subChanges_of_regs hv (hregs.mono (by simp [sentRegs]))).trans hwv).trans
      (subChanges_of_regs (onlyRegs_wrWide (.refl w) _ _ _) ((regsBut_keyCount w p b _).mono (List.subset_cons_self _ _)))
  refine ⟨⟨r.txNum, 0, c⟩, { frame := hframe, time := ?_, resend := ?_, keys := ?_, rxNum := ?_, txNum := ?_, replay := ?_, line := ?_, count := ?_, numbered := ?_ }⟩
  · rw [ht, (onlyRegs_wrWide (.refl w) _ _ _).time, ← hw]
    exact hv.time
  · exact hsub ▸ hr.resend
  · exact hsub ▸ hr.keys
  · exact hsub ▸ hr.rxNum
  · exact hsub ▸ congrArg (· + 1) hr.txNum
  · rw [hsub, ← hr.replay]
    rfl
  · rw [hsub]
    exact (List.length_append ..).trans (congrArg (·.length + 1) hr.line)
  · rw [ht, rdWide_wrWide, hcount]
    rfl
  · exact .one hr.txNum.symm (by rw [hseq, BitVec.toNat_ofNat]) (hflits ▸ hlen) hkph (hr.keys ▸ hicv)

/-- A lane of a block with no codeword to send again. -/
theorem laneOut_new (at_ : Nat) (hr : (s.sub p b).resend = none) : s.laneOut p b at_ = if s.replayRoom p b then s.newCodeword p b at_ else s := by
  unfold State.laneOut
  dsimp only
  rw [hr]
  rfl

theorem laneOut_sends (at_ : Nat) (h : s.linkSt p b ≠ 2) (hr : (s.sub p b).resend = none) : ∃ l : List Sent, l.length ≤ 1 ∧ Sends s (s.laneOut p b at_) p b l := by
  rw [laneOut_new at_ hr]
  split
  · obtain ⟨x, hx⟩ := newCodeword_sends at_ h
    exact ⟨[x], Nat.le_refl 1, hx⟩
  · exact ⟨[], Nat.zero_le 1, .refl ..⟩

theorem lanesOut_sends (at_ n : Nat) (h : s.linkSt p b ≠ 2) (hr : (s.sub p b).resend = none) :
    ∃ l : List Sent, l.length ≤ n ∧ Sends s (s.lanesOut p b at_ n) p b l := by
  induction n generalizing s with
  | zero => exact ⟨[], Nat.zero_le 0, .refl ..⟩
  | succ n ih =>
    obtain ⟨l, hlen, hl⟩ := laneOut_sends at_ h hr
    obtain ⟨l', hlen', hl'⟩ := ih (hl.linkSt ▸ h) (hl.resend.trans hr)
    exact ⟨l ++ l', by rw [List.length_append]; omega, hl.trans hl'⟩

/-- Where the replay buffer has room, a block is at least one new codeword, and at most one on each lane. -/
theorem block_sends (at_ : Nat) {n : Nat} (hn : 0 < n) (h : s.linkSt p b ≠ 2) (hr : (s.sub p b).resend = none) (hroom : s.replayRoom p b = true) :
    ∃ l : List Sent, 1 ≤ l.length ∧ l.length ≤ n ∧ Sends s (s.lanesOut p b at_ n) p b l := by
  obtain ⟨m, rfl⟩ := Nat.exists_eq_add_one.2 hn
  obtain ⟨x, hx⟩ := newCodeword_sends (s := s) at_ h
  have hlane : s.laneOut p b at_ = s.newCodeword p b at_ := (laneOut_new at_ hr).trans (if_pos hroom)
  obtain ⟨l, hlen, hl⟩ := lanesOut_sends (s := s.newCodeword p b at_) at_ m (hx.linkSt ▸ h) (hx.resend.trans hr)
  refine ⟨x :: l, Nat.succ_pos _, Nat.succ_le_succ hlen, ?_⟩
  rw [State.lanesOut, hlane]
  exact hx.trans hl

/-! ## CODEWORD_TRANSMIT (R352, R357) -/

/-- A block begins: what waits for the link joins its queue, and nothing is on the line. -/
def State.blockStart (s : State) (p b : Nat) : State := (s.pull p b).modSub p b (fun k => { k with line := [] })

theorem blockStart_frame (s : State) (p b : Nat) (l : List Nat) : SubChanges s (s.blockStart p b) p b l :=
  SubChanges.trans (t := s.pull p b) ⟨fun _ _ h => sub_setSub_other _ _ h, (RegsBut.refl s l).of_regs rfl, rfl⟩ (subChanges_modSub ..)

theorem blockStart_time (s : State) (p b : Nat) : (s.blockStart p b).time = s.time := rfl

theorem blockStart_sub (s : State) (p b : Nat) :
    ∃ q o f, (s.blockStart p b).sub p b = { s.sub p b with queue := q, outstanding := o, fwd := f, line := [] } := by
  unfold State.blockStart
  rw [sub_modSub_same, State.pull, sub_modSub_same]
  exact ⟨_, _, _, rfl⟩

theorem blockStart_idle (h : s.tx = []) : (s.blockStart p b).tx = [] ∧ ((s.blockStart p b).sub p b).queue = (s.sub p b).queue := by
  refine ⟨?_, ?_⟩
  · show s.tx.filter _ = []
    rw [h, List.filter_nil]
  · unfold State.blockStart
    rw [sub_modSub_same, State.pull, sub_modSub_same]
    show (s.sub p b).queue ++ (s.tx.filter _).flatMap txFlits = _
    rw [h, List.filter_nil, List.flatMap_nil, List.append_nil]

/-- The room in the replay buffer is what the sub-ports' buffers and their long-reach stores leave. -/
theorem replayRoom_congr (hl : ∀ e, t.longReach p e = s.longReach p e) (hr : ∀ e, (t.sub p e).replay = (s.sub p e).replay) (b : Nat) :
    t.replayRoom p b = s.replayRoom p b := by
  unfold State.replayRoom
  simp only [hl, hr]

theorem blockStart_room (s : State) (p b : Nat) : (s.blockStart p b).replayRoom p b = s.replayRoom p b := by
  have hframe := blockStart_frame s p b []
  refine replayRoom_congr (fun e => rb_of_regs hframe.regs List.not_mem_nil _) (fun e => ?_) b
  by_cases h : 8 * p + e = 8 * p + b
  · obtain ⟨q, o, f, hs⟩ := blockStart_sub s p b
    rw [sub_of_index h, sub_of_index h, hs]
  · rw [hframe.1 p e h]

section
variable {port : PortId} {sub : SubId}

theorem codewordTransmit_block (at_ : Nat) (h : s.linkSt port sub = 3 ∨ s.linkSt port sub = 4) : exec (.codewordTransmit port sub at_) s
    = .next ((s.blockStart port sub).lanesOut port sub at_ (2 ^ s.rf (LK_STATE port sub) LK_STATE_WIDTH)) := by
  show execCodewordTransmit port sub at_ s = _
  unfold execCodewordTransmit
  dsimp only
  rw [if_neg (by omega), if_neg (by omega)]
  rfl

theorem codewordTransmit_open (at_ : Nat) (h : s.linkSt port sub = 2) : exec (.codewordTransmit port sub at_) s
    = .next (((s.blockStart port sub).lanesOut port sub at_ (2 ^ s.rf (LK_STATE port sub) LK_STATE_WIDTH)).comeUp port sub) := by
  show execCodewordTransmit port sub at_ s = _
  unfold execCodewordTransmit
  dsimp only
  rw [if_neg (by omega), if_pos h]
  rfl

/-- New codewords of a block (R349, R365). -/
theorem codewordTransmit_sends (at_ : Nat) (h : s.linkSt port sub = 3 ∨ s.linkSt port sub = 4) (hr : (s.sub port sub).resend = none)
    (hroom : s.replayRoom port sub = true) : ∃ l : List Sent, 1 ≤ l.length ∧ l.length ≤ 2 ^ s.rf (LK_STATE port sub) LK_STATE_WIDTH
      ∧ Sends (s.blockStart port sub) ((s.blockStart port sub).lanesOut port sub at_ (2 ^ s.rf (LK_STATE port sub) LK_STATE_WIDTH)) port sub l := by
  obtain ⟨q, o, f, hsub⟩ := blockStart_sub s port sub
  have hst : (s.blockStart port sub).linkSt port sub = s.linkSt port sub := linkSt_of_regs (blockStart_frame s port sub []).regs List.not_mem_nil
  exact block_sends at_ (Nat.two_pow_pos _) (by omega) (by rw [hsub]; exact hr) (by rw [blockStart_room]; exact hroom)

/-- A lane whose codeword is to be sent again (R357). -/
theorem laneOut_again {n at_ : Nat} {x : Sent} (hr : (s.sub p b).resend = some n) (hx : (s.sub p b).replay.find? (fun x => x.num == n) = some x) :
    s.laneOut p b at_ = s.oldCodeword p b x := by
  unfold State.laneOut
  dsimp only
  rw [hr, Option.bind_some, hx]

theorem oldCodeword_sub (x : Sent) (h : s.linkSt p b ≠ 2) : (s.oldCodeword p b x).sub p b = { s.sub p b with
    resend := if x.num + 1 < (s.sub p b).txNum then some (x.num + 1) else none,
    line := (s.sub p b).line ++ [cwSymbols x.cw (cwText x.cw ((s.sub p b).keys.getD x.cw.kph.toNat none) x.num)] } := by
  unfold State.oldCodeword
  rw [sub_modSub_same, if_neg h]

theorem codewordsLeaveInOrder : CodewordsLeaveInOrder := by
  intro port sub at_ s k ph lanes h
  obtain ⟨q, o, f, hsub⟩ := blockStart_sub s port sub
  have hstart := blockStart_frame s port sub []
  have hexec := codewordTransmit_block at_ h
  have hst : (s.blockStart port sub).linkSt port sub = s.linkSt port sub := linkSt_of_regs hstart.regs List.not_mem_nil
  refine ⟨fun hr hroom => ?_, fun n x hlanes hr hx => ?_⟩
  · obtain ⟨l, hpos, hle, hl⟩ := codewordTransmit_sends at_ h hr hroom
    have hnum := hl.numbered
    have hph : (s.blockStart port sub).rb (LK_STATE port sub) LK_STATE_KPH = ph := rb_of_regs hstart.regs List.not_mem_nil _
    rw [hph, hsub] at hnum
    refine ⟨_, l, hexec, hpos, hle, ?_, ?_, ?_, hnum, ?_, ?_, ?_, (blockStart_frame ..).trans hl.frame, hl.time⟩
    · exact hl.txNum.trans (by rw [hsub])
    · exact hl.replay.trans (by rw [hsub])
    · exact hl.line.trans (by rw [hsub]; exact Nat.zero_add _)
    · exact hl.count.trans (by rw [hstart.regs.rdWide fun _ _ => List.not_mem_nil])
    · exact hl.keys.trans (by rw [hsub])
    · exact hl.rxNum.trans (by rw [hsub])
  · have hlane : (s.blockStart port sub).laneOut port sub at_ = _ := laneOut_again (x := x) (n := n) (by rw [hsub]; exact hr) (by rw [hsub]; exact hx)
    have hone : 2 ^ s.rf (LK_STATE port sub) LK_STATE_WIDTH = 1 := by
      rw [show s.rf (LK_STATE port sub) LK_STATE_WIDTH = 0 from hlanes]
      rfl
    have hold := oldCodeword_sub (s := s.blockStart port sub) (p := port) (b := sub) x (by omega)
    rw [hsub] at hold
    rw [hone, State.lanesOut, State.lanesOut, hlane] at hexec
    exact ⟨_, hexec, by rw [hold]; rfl, by rw [hold], by rw [hold], by rw [hold], hstart.trans (subChanges_modSub ..), blockStart_time s port sub⟩

end

end

end Sys2Proof.Machine
end
section
/-! PROOFS. The codewords that arrive, acknowledgements and NAKs (R355, R357, R358, R365). -/

namespace Sys2Proof.Machine

section
variable {s t u : State} {p b : Nat}

/-! ## Acknowledgements (R357) -/

/-- An acknowledgement moves what a sub-port keeps for replay, what it sends again, and the age of its old key phase. -/
theorem acked_sub (s : State) (p b ack : Nat) : ∃ l n o, (s.acked p b ack).sub p b = { s.sub p b with replay := l, resend := n, oldAckAt := o } := by
  unfold State.acked
  dsimp only
  split
  · exact ⟨_, _, _, rfl⟩
  · cases backTo _ ack with
    | none => exact ⟨_, _, _, rfl⟩
    | some n => exact ⟨_, _, _, sub_setSub_same ..⟩

/-- Nothing but the sub-port's own state moves. -/
theorem acked_eq (s : State) (p b ack : Nat) : ∃ k, s.acked p b ack = s.setSub p b k ∨ s.acked p b ack = s := by
  unfold State.acked
  dsimp only
  split
  · exact ⟨Sub.initial, .inr rfl⟩
  · cases backTo _ ack with
    | none => exact ⟨Sub.initial, .inr rfl⟩
    | some n => exact ⟨_, .inl rfl⟩

theorem acked_frame (s : State) (p b ack : Nat) (l : List Nat) :
    SubChanges s (s.acked p b ack) p b l ∧ (s.acked p b ack).tx = s.tx ∧ (s.acked p b ack).time = s.time := by
  obtain ⟨k, h | h⟩ := acked_eq s p b ack
  · exact h ▸ ⟨subChanges_setSub .., rfl, rfl⟩
  · exact h.symm ▸ ⟨.refl .., rfl, rfl⟩

/-! ## CODEWORD_RECEIVE on a link with keys (R357, R365) -/

/-- Corrected symbols are counted. -/
def State.corrected (s : State) (p b : Nat) (cw : Codeword) : State := if cw.symbolErrors = 0 then s else s.bump (LK_CORR p b) 1

theorem corrected_spec (s : State) (p b : Nat) (cw : Codeword) : OnlyRegs s (s.corrected p b cw) ∧ RegsBut s (s.corrected p b cw) [LK_CORR p b] := by
  unfold State.corrected
  split
  · exact ⟨.refl s, .refl s _⟩
  · exact ⟨onlyRegs_wr .., regsBut_bump _ _ _⟩

theorem lkState_not_corr (p b : Nat) : LK_STATE p b ∉ [LK_CORR p b] := by
  unfold LK_STATE LK_CORR
  simp

theorem icvPasses_corrected (s : State) (p b : Nat) (cw : Codeword) : (s.corrected p b cw).icvPasses p b cw = s.icvPasses p b cw := by
  obtain ⟨ho, hr⟩ := corrected_spec s p b cw
  unfold State.icvPasses
  rw [ho.sub, linkSt_of_regs hr (lkState_not_corr p b)]

/-- How far ahead of the next number a sequence number lies: not at all, where it is that number's. -/
theorem seq_ahead (seq n : Nat) (hs : seq < 2 ^ 20) : (seq + 2 ^ 20 - n % 2 ^ 20) % 2 ^ 20 = 0 ↔ seq = n % 2 ^ 20 := by omega

/-- The sub-port after a good codeword in sequence, before its acknowledgement is taken. -/
def Sub.receives (k : Sub) (cw : Codeword) : Sub :=
  let fs := cw.flits.filter (fun f => f.kind != .idle)
  { k with rxNum := k.rxNum + 1, rx := fs, keeperIn := (openMarks k.keeperIn fs).2,
           freed := (List.range 4).map (fun c => k.freed.getD c 0 + (fs.filter (fun f => f.cls.toNat == c)).length),
           credits := k.credits.set cw.cclass.toNat (k.credits.getD cw.cclass.toNat 0 + cw.credit.toNat) }

section
variable {port : PortId} {sub : SubId} {cw : Codeword} (h : s.linkSt port sub = 3 ∨ s.linkSt port sub = 4)
include h

theorem receive_uncorrectable (he : 16 < cw.symbolErrors) : exec (.codewordReceive port sub cw) s
    = .next ((s.bump (LK_UNCORR port sub) 1).setSub port sub { s.sub port sub with nakDue := true }) := by
  show execCodewordReceive port sub cw s = _
  unfold execCodewordReceive
  dsimp only
  rw [if_neg (by omega), if_pos he]

/-- A codeword that can be corrected is judged by its check value, then by its number. -/
theorem receive_correctable (he : cw.symbolErrors ≤ 16) : exec (.codewordReceive port sub cw) s = .next (
    if s.icvPasses port sub cw = false then ((s.corrected port sub cw).bump (LK_ICV_FAIL port sub) 1).setSub port sub { s.sub port sub with nakDue := true }
    else if cw.seq.toNat = (s.sub port sub).rxNum % 2 ^ 20 then ((s.corrected port sub cw).setSub port sub ((s.sub port sub).receives cw)).acked port sub cw.ack.toNat
    else (s.corrected port sub cw).setSub port sub { s.sub port sub with
      nakDue := (s.sub port sub).nakDue || decide ((cw.seq.toNat + 2 ^ 20 - (s.sub port sub).rxNum % 2 ^ 20) % 2 ^ 20 < 2 ^ 19) }) := by
  have h2 : ¬s.linkSt port sub = 2 := by omega
  show execCodewordReceive port sub cw s = _
  unfold execCodewordReceive
  dsimp only
  rw [if_neg (by omega), if_neg (by omega), ← State.corrected, icvPasses_corrected, if_neg h2]
  cases hi : s.icvPasses port sub cw with
  | false => rfl
  | true =>
    rw [if_neg (show ¬(!true) = true by decide), if_neg (show ¬true = false by decide)]
    by_cases hs : cw.seq.toNat = (s.sub port sub).rxNum % 2 ^ 20
    · rw [if_neg (not_not.2 ((seq_ahead _ _ cw.seq.isLt).2 hs)), if_pos hs]
      simp only [if_neg h2]
      rfl
    · rw [if_pos (mt (seq_ahead _ _ cw.seq.isLt).1 hs), if_neg hs]

/-- A good codeword in sequence. -/
theorem receive_delivers (he : cw.symbolErrors ≤ 16) (hi : s.icvPasses port sub cw = true) (hs : cw.seq.toNat = (s.sub port sub).rxNum % 2 ^ 20) :
    exec (.codewordReceive port sub cw) s = .next (((s.corrected port sub cw).setSub port sub ((s.sub port sub).receives cw)).acked port sub cw.ack.toNat) := by
  rw [receive_correctable h he, if_neg (by simp [hi]), if_pos hs]

/-- A good codeword out of sequence. -/
theorem receive_drops (he : cw.symbolErrors ≤ 16) (hi : s.icvPasses port sub cw = true) (hs : cw.seq.toNat ≠ (s.sub port sub).rxNum % 2 ^ 20) :
    ∃ nak, exec (.codewordReceive port sub cw) s = .next ((s.corrected port sub cw).setSub port sub { s.sub port sub with nakDue := nak }) := by
  rw [receive_correctable h he, if_neg (by simp [hi]), if_neg hs]
  exact ⟨_, rfl⟩

/-- A codeword without bad symbols that its key does not pass. -/
theorem receive_refused (he : cw.symbolErrors = 0) (hi : s.icvPasses port sub cw = false) : exec (.codewordReceive port sub cw) s
    = .next ((s.bump (LK_ICV_FAIL port sub) 1).setSub port sub { s.sub port sub with nakDue := true }) := by
  rw [receive_correctable h (by omega), if_pos hi, State.corrected, if_pos he]

/-! ## NAK_RECEIVED (R357, R358) -/

/-- Everything that waits for an acknowledgement is to be sent again. -/
def State.naked (s : State) (p b ack : Nat) : State := ((s.bump (LK_RETRY p b) 1).acked p b ack).modSub p b
  (fun k => { k with replay := k.replay.map (fun x => { x with resent := x.resent + 1 }), resend := (k.replay.head?).map Sent.num })

theorem nakReceived_eq (ack : BitVec 20) : exec (.nakReceived port sub ack) s = .next (
    if ((s.naked port sub ack.toNat).sub port sub).replay.any (fun x => decide (8 ≤ x.resent)) = true
    then ((s.naked port sub ack.toNat).modSub port sub (fun k => { k with replay := k.replay.map (fun x => { x with resent := 0 }) })).startRetrain port sub
    else s.naked port sub ack.toNat) := by
  show execNakReceived port sub ack s = _
  unfold execNakReceived
  dsimp only
  rw [if_neg (by omega), if_neg (show ¬s.linkSt port sub = 2 by omega), ← State.naked]
  split <;> rfl

end

theorem codewordsArriveInOrder : CodewordsArriveInOrder := by
  intro port sub s k h
  refine ⟨fun cw he hi => ?_, fun cw => ⟨receive_uncorrectable h, receive_refused h⟩, fun ack => ?_⟩
  · intro fs
    obtain ⟨ho, hr⟩ := corrected_spec s port sub cw
    refine ⟨fun hs => ?_, fun hs => ?_⟩
    · obtain ⟨l, n, o, hsub⟩ := acked_sub ((s.corrected port sub cw).setSub port sub (k.receives cw)) port sub cw.ack.toNat
      obtain ⟨hf, htx, htime⟩ := acked_frame ((s.corrected port sub cw).setSub port sub (k.receives cw)) port sub cw.ack.toNat [LK_CORR port sub]
      rw [sub_setSub_same] at hsub
      exact ⟨_, receive_delivers h he hi hs, by rw [hsub]; rfl, by rw [hsub]; rfl, by rw [hsub]; rfl, by rw [hsub]; rfl, by rw [hsub]; rfl, by rw [hsub]; rfl,
        ((subChanges_of_regs ho hr).trans (subChanges_setSub ..)).trans hf, htx.trans ho.tx, htime.trans ho.time⟩
    · obtain ⟨nak, hexec⟩ := receive_drops h he hi hs
      exact ⟨_, hexec, by rw [sub_setSub_same], (subChanges_of_regs ho hr).trans (subChanges_setSub ..), ho.tx, ho.time⟩
  · intro u eighth
    exact ⟨fun hn => (nakReceived_eq h ack).trans (congrArg _ (if_neg hn)), fun hn => (nakReceived_eq h ack).trans (congrArg _ (if_pos hn))⟩

/-- Settles O44: a block of new codewords by induction over its lanes (`lanesOut_sends`), a codeword that leaves again, those that arrive by the order of their checks
(`receive_correctable`), and a NAK. -/
theorem codewordCommandsComplete : Obligations.CodewordCommandsComplete := ⟨codewordsLeaveInOrder, codewordsArriveInOrder⟩

end

end Sys2Proof.Machine
end
section
/-! PROOFS. The training of links, first and again: how a trained link opens, gets its keys and comes UP, how it fails and retrains, and how a port is made anew
(R343, R346, R359 to R366, R372, R374, R462). -/

namespace Sys2Proof.Machine

section
variable {s t u : State} {p b : Nat}

/-! ## The lanes that a link uses (R359, R360) -/

theorem settleWidth_usable {k first : Nat} (h : s.laneGroup p b 3 = some (k, first)) :
    s.settleWidth p b = (true, (s.wf (LK_STATE p b) LK_STATE_WIDTH k).setActive p b (laneMask first (2 ^ k))) := by
  unfold State.settleWidth
  rw [h]

theorem settleWidth_none (h : s.laneGroup p b 3 = none) : s.settleWidth p b = (false, s) := by
  unfold State.settleWidth
  rw [h]

/-- Lanes of a sub-port that have failed its training. -/
def State.lanesFailed (s : State) (p b : Nat) (failed : BitVec 8) : State :=
  s.wf (LK_LANES p) LK_LANES_FAILED (s.rf (LK_LANES p) LK_LANES_FAILED ||| (failed.toNat &&& laneMask (b * s.nominal p) (s.nominal p)))

section
variable {port : PortId} {sub : SubId}

section
variable {failed : BitVec 8} (peer : BitVec 14) (h : s.linkSt port sub = 1) (he : s.subExists port sub = true)
include h he

theorem linkTrained_settles : exec (.linkTrained port sub failed peer) s = .next (
    let r := (s.lanesFailed port sub failed).settleWidth port sub
    if r.1 then (r.2.openLink port sub).wf (LK_STATE port sub) LK_STATE_PEER peer.toNat else r.2.linkDown port sub (fun _ => stBUS_FAULT)) := by
  show execLinkTrained port sub failed peer s = _
  unfold execLinkTrained
  dsimp only
  rw [if_neg (by simp [h, he]), ← State.lanesFailed]
  cases hr : ((s.lanesFailed port sub failed).settleWidth port sub).1 with
  | false => rw [if_pos (by simp), if_neg (by simp)]
  | true => rw [if_neg (by simp), if_pos rfl]

theorem linkTrained_opens {k first : Nat} (hg : (s.lanesFailed port sub failed).laneGroup port sub 3 = some (k, first)) : exec (.linkTrained port sub failed peer) s
    = .next (((((s.lanesFailed port sub failed).wf (LK_STATE port sub) LK_STATE_WIDTH k).setActive port sub (laneMask first (2 ^ k))).openLink port sub).wf
      (LK_STATE port sub) LK_STATE_PEER peer.toNat) := by
  rw [linkTrained_settles peer h he, settleWidth_usable hg]
  rfl

theorem linkTrained_fails (hg : (s.lanesFailed port sub failed).laneGroup port sub 3 = none) :
    exec (.linkTrained port sub failed peer) s = .next ((s.lanesFailed port sub failed).linkDown port sub (fun _ => stBUS_FAULT)) := by
  rw [linkTrained_settles peer h he, settleWidth_none hg]
  rfl

end

/-! ## Keys (R364, R366, R372, R462) -/

/-- The ephemeral key pair of an exchange is gone. -/
def State.exchanged (s : State) : State := { s with sec := { s.sec with ephemeral := none } }

section
variable {material : BitVec 320}

theorem linkKeyExchange_fails {good : Bool} (h : good = false ∨ s.fleet.adrift = true) : exec (.linkKeyExchange port sub good material) s = .next s.exchanged := by
  show execLinkKeyExchange port sub good material s = _
  unfold execLinkKeyExchange
  dsimp only
  rw [if_pos (by simpa using h)]
  rfl

theorem linkKeyExchange_open (h : s.linkSt port sub = 2) (ha : s.fleet.adrift = false) : exec (.linkKeyExchange port sub true material) s
    = .next ((s.exchanged.modSub port sub (fun k => { k with keys := k.keys.set (s.rb (LK_STATE port sub) LK_STATE_KPH).toNat (some material), readySent := true })).control port sub 7 0) := by
  show execLinkKeyExchange port sub true material s = _
  unfold execLinkKeyExchange
  dsimp only
  rw [if_neg (by simp [ha]), if_pos h]
  rfl

theorem linkKeyExchange_inactive (h : s.linkSt port sub = 3 ∨ s.linkSt port sub = 4) (ha : s.fleet.adrift = false) : exec (.linkKeyExchange port sub true material) s
    = .next ((s.exchanged.modSub port sub (fun k => { k with keys := k.keys.set (1 - (s.rb (LK_STATE port sub) LK_STATE_KPH).toNat) (some material) })).bind
      s.nextChange (.rekey (8 * port.val + sub.val)) none) := by
  show execLinkKeyExchange port sub true material s = _
  unfold execLinkKeyExchange
  dsimp only
  rw [if_neg (by simp [ha]), if_neg (by omega), if_pos h]
  rfl

end

/-! ## An OPEN link comes UP (R357, R364) -/

/-- An OPEN link's sub-port has sent its KEY_READY, which has been acknowledged, has received the peer's, and has nothing else to send. -/
structure Sub.Awaits (k : Sub) : Prop where
  sent : k.readySent = true
  peer : k.readyPeer = true
  none : k.keyReadyWaits = false
  queue : k.queue = []
  resend : k.resend = Option.none

/-- Idle codewords have left an OPEN link. -/
structure Idles (s t : State) (p b : Nat) : Prop where
  frame : SubChanges s t p b [LK_C0_LATE p b]
  tx : t.tx = s.tx
  time : t.time = s.time
  keys : (t.sub p b).keys = (s.sub p b).keys
  acked : (s.sub p b).peerAcked = true → (t.sub p b).peerAcked = true
  awaits : (t.sub p b).Awaits

theorem Idles.trans (h : Idles s t p b) (h' : Idles t u p b) : Idles s u p b where
  frame := h.frame.trans h'.frame
  tx := h'.tx.trans h.tx
  time := h'.time.trans h.time
  keys := h'.keys.trans h.keys
  acked := fun hs => h'.acked (h.acked hs)
  awaits := h'.awaits

theorem Idles.refl (h : (s.sub p b).Awaits) : Idles s s p b := ⟨.refl .., rfl, rfl, rfl, id, h⟩

theorem Idles.linkSt (h : Idles s t p b) : t.linkSt p b = s.linkSt p b := linkSt_of_regs h.frame.regs (lkState_not_late p b)

theorem keyReadyWaits_idle {r : Sub} {c : Codeword} {symbols freed : List Nat} {turn : Nat} (hc : c.flits = List.replicate 10 idleFlit)
    (h : r.keyReadyWaits = false) : (r.sends c symbols freed turn).keyReadyWaits = false := by
  have hi : (List.replicate 10 idleFlit).any Flit.keyReady = false := rfl
  unfold Sub.keyReadyWaits Sub.sends at *
  rw [List.any_append, List.any_cons, hc, hi]
  simpa using h

/-- An idle codeword on an OPEN link acknowledges the peer's KEY_READY. -/
theorem newCodeword_idles (at_ : Nat) (h : s.linkSt p b = 2) (hk : (s.sub p b).Awaits) :
    Idles s (s.newCodeword p b at_) p b ∧ ((s.newCodeword p b at_).sub p b).peerAcked = true := by
  obtain ⟨r, c, symbols, freed, turn, v, hr, hrq, hv, hregs, -, hflits, -, -, ht⟩ := newCodeword_spec s p b at_
  obtain ⟨hidle, hempty⟩ := fillSlots_empty s (s.linkSt p b) at_ hk.queue
  rw [countUnderKey_open h] at ht
  have hsub : (s.newCodeword p b at_).sub p b = r.sends c symbols freed turn := by rw [ht, sub_setSub_same]
  have hpeer : r.readyPeer = true := hr.readyPeer.trans hk.peer
  have hwaits : r.keyReadyWaits = false := by
    have hn := hk.none
    unfold Sub.keyReadyWaits at *
    rw [hrq, hempty, hr.replay]
    rwa [hk.queue] at hn
  refine ⟨⟨?_, ?_, ?_, ?_, fun _ => by rw [hsub]; exact hpeer, ?_⟩, by rw [hsub]; exact hpeer⟩
  · exact ht ▸ (subChanges_of_regs hv hregs).trans (subChanges_setSub ..)
  · exact ht ▸ hv.tx
  · exact ht ▸ hv.time
  · exact hsub ▸ hr.keys
  · rw [hsub]
    exact ⟨hr.readySent.trans hk.sent, hpeer, keyReadyWaits_idle (hflits.trans hidle) hwaits, hrq.trans hempty, hr.resend.trans hk.resend⟩

theorem laneOut_idles (at_ : Nat) (h : s.linkSt p b = 2) (hk : (s.sub p b).Awaits) : Idles s (s.laneOut p b at_) p b := by
  rw [laneOut_new at_ hk.resend]
  split
  · exact (newCodeword_idles at_ h hk).1
  · exact .refl hk

theorem lanesOut_idles (at_ n : Nat) (h : s.linkSt p b = 2) (hk : (s.sub p b).Awaits) : Idles s (s.lanesOut p b at_ n) p b := by
  induction n generalizing s with
  | zero => exact .refl hk
  | succ n ih =>
    have hl := laneOut_idles at_ h hk
    exact hl.trans (ih (hl.linkSt.trans h) hl.awaits)

/-- Where the replay buffer has room, a block of an OPEN link holds a codeword. -/
theorem block_acknowledges (at_ : Nat) {n : Nat} (hn : 0 < n) (h : s.linkSt p b = 2) (hk : (s.sub p b).Awaits) (hroom : s.replayRoom p b = true) :
    Idles s (s.lanesOut p b at_ n) p b ∧ ((s.lanesOut p b at_ n).sub p b).peerAcked = true := by
  obtain ⟨m, rfl⟩ := Nat.exists_eq_add_one.2 hn
  obtain ⟨hi, ha⟩ := newCodeword_idles (s := s) at_ h hk
  have hlane : s.laneOut p b at_ = s.newCodeword p b at_ := (laneOut_new at_ hk.resend).trans (if_pos hroom)
  have hrest := lanesOut_idles at_ m (hi.linkSt.trans h) hi.awaits
  rw [State.lanesOut, hlane]
  exact ⟨hi.trans hrest, hrest.acked ha⟩

/-- The sub-port of a link that has come UP. -/
def Sub.risen (k : Sub) : Sub :=
  { k with txNum := 0, rxNum := 0, replay := [], resend := none, rx := [], freed := [0, 0, 0, 0], nakDue := false, switchDue := false, oldNum := none,
           oldAckAt := none, readySent := false, readyPeer := false, peerAcked := false }

theorem comeUp_rises (h : s.linkSt p b = 2) (hk : (s.sub p b).Awaits) (ha : (s.sub p b).peerAcked = true) :
    s.comeUp p b = (((s.setSub p b (s.sub p b).risen).giveCredits p b).wrWide (LK_KEYCNT_0 p b) 2 0).setLink p b 3 := by
  unfold State.comeUp
  dsimp only
  rw [if_neg (by simp [h, hk.sent, hk.peer, hk.none, ha])]
  rfl

theorem comeUp_spec (h : s.linkSt p b = 2) (hk : (s.sub p b).Awaits) (ha : (s.sub p b).peerAcked = true) :
    (s.comeUp p b).linkSt p b = 3 ∧ (∃ c f, (s.comeUp p b).sub p b = { (s.sub p b).risen with credits := c, floor := f })
      ∧ SubChanges s (s.comeUp p b) p b (LK_STATE p b :: wordsAt (LK_KEYCNT_0 p b) 2) ∧ (s.comeUp p b).tx = s.tx ∧ (s.comeUp p b).time = s.time := by
  rw [comeUp_rises h hk ha]
  generalize hw : (s.setSub p b (s.sub p b).risen).giveCredits p b = w
  have hframe : SubChanges s w p b (LK_STATE p b :: wordsAt (LK_KEYCNT_0 p b) 2) := hw ▸ (subChanges_setSub ..).trans (subChanges_modSub ..)
  have ho : OnlyRegs w ((w.wrWide (LK_KEYCNT_0 p b) 2 0).setLink p b 3) := (onlyRegs_wrWide (.refl w) _ _ _).wf _ _ _
  refine ⟨linkSt_setLink (by decide) _ _ _, ?_, hframe.trans (subChanges_of_regs ho ?_), ?_, ?_⟩
  · rw [ho.sub, ← hw, State.giveCredits, sub_modSub_same, sub_setSub_same]
    exact ⟨_, _, rfl⟩
  · exact ((RegsBut.refl w _).wrWide (List.subset_cons_self ..) _).wf (List.mem_cons_self ..) _ _
  · exact ho.tx.trans (hw ▸ rfl)
  · exact ho.time.trans (hw ▸ rfl)

theorem codewordTransmit_rises {at_ : Nat} (h : s.linkSt port sub = 2) (hk : (s.sub port sub).Awaits) (htx : s.tx = []) (hroom : s.replayRoom port sub = true) :
    ∃ t : State, exec (.codewordTransmit port sub at_) s = .next t ∧ t.linkSt port sub = 3
      ∧ (t.sub port sub).txNum = 0 ∧ (t.sub port sub).rxNum = 0 ∧ (t.sub port sub).replay = [] ∧ (t.sub port sub).keys = (s.sub port sub).keys
      ∧ SubChanges s t port sub (LK_STATE port sub :: LK_C0_LATE port sub :: wordsAt (LK_KEYCNT_0 port sub) 2) ∧ t.tx = s.tx ∧ t.time = s.time := by
  have hstart := blockStart_frame s port sub []
  obtain ⟨q, o, f, hsub⟩ := blockStart_sub s port sub
  obtain ⟨hidle, hq⟩ := blockStart_idle (p := port) (b := sub) htx
  have hst : (s.blockStart port sub).linkSt port sub = 2 := (linkSt_of_regs hstart.regs List.not_mem_nil).trans h
  have hwaits : ((s.blockStart port sub).sub port sub).Awaits := by
    have hn := hk.none
    rw [hsub] at hq ⊢
    refine ⟨hk.sent, hk.peer, ?_, hq.trans hk.queue, hk.resend⟩
    unfold Sub.keyReadyWaits at *
    rwa [hq]
  obtain ⟨hi, ha⟩ := block_acknowledges at_ (Nat.two_pow_pos (s.rf (LK_STATE port sub) LK_STATE_WIDTH)) hst hwaits (by rw [blockStart_room]; exact hroom)
  obtain ⟨hup, ⟨c, fl, hs⟩, hf, ht, htime⟩ := comeUp_spec (hi.linkSt.trans hst) hi.awaits ha
  refine ⟨_, codewordTransmit_open at_ h, hup, by rw [hs]; rfl, by rw [hs]; rfl, by rw [hs]; rfl, ?_, ?_, ?_, ?_⟩
  · rw [hs]
    exact hi.keys.trans (by rw [hsub])
  · exact ((blockStart_frame ..).trans (hi.frame.mono (by simp))).trans (hf.mono (by simp))
  · exact (ht.trans hi.tx).trans (hidle.trans htx.symm)
  · exact (htime.trans hi.time).trans (blockStart_time ..)

theorem linkFirstTrainingCompletes : LinkFirstTrainingCompletes := by
  intro port sub s
  refine ⟨fun failed peer h he => ?_, fun good material => ?_, fun h => if_pos h, fun at_ => ?_⟩
  · intro u
    exact ⟨fun k first hg => linkTrained_opens peer h he hg, linkTrained_fails peer h he⟩
  · intro u ph
    refine ⟨linkKeyExchange_fails, fun h hg ha => ?_, fun h hg ha => ?_⟩
    · subst hg
      exact linkKeyExchange_open h ha
    · subst hg
      exact linkKeyExchange_inactive h ha
  · intro k h hs hp hn hq htx hr hroom
    exact codewordTransmit_rises h ⟨hs, hp, hn, hq, hr⟩ htx hroom

end

end

end Sys2Proof.Machine
end
section
/-! PROOFS. Lane failures, retrains and losses of a link, a port made anew, and its Ethernet interfaces (R343, R346, R359 to R363, R374). -/

namespace Sys2Proof.Machine

section
variable {s t u : State} {port : PortId} {sub : SubId}

/-! ## Lanes that fail, and retrains (R359, R360) -/

theorem laneFail_marks {lane : Fin 8} {un ppm : Nat} (he : s.subExists port sub = true) (hl : lane.val / s.nominal port = sub.val) (hf : 4 ≤ un ∨ 100 < ppm)
    (hu : u = s.wf (LK_LANES port) LK_LANES_FAILED (s.rf (LK_LANES port) LK_LANES_FAILED ||| 2 ^ lane.val)) : exec (.laneFail port sub lane un ppm) s
      = .next (if u.linkSt port sub = 3 then u.startRetrain port sub else if u.linkSt port sub = 4 then u.towLane port sub else u) := by
  subst hu
  show execLaneFail port sub lane un ppm s = _
  unfold execLaneFail
  dsimp only
  rw [if_neg (by simp only [he, hl]; simp; omega)]

theorem retrainDone_towpath (h : s.linkSt port sub = 5) (hb : (s.sub port sub).back = 4) :
    exec (.retrainDone port sub) s = .next ((s.toTowpath port sub).actLatched port sub) := by
  show execRetrainDone port sub s = _
  unfold execRetrainDone
  rw [if_neg (not_not.2 h), if_pos hb]

/-- A retrained link is as it was, on the lanes it now has; fewer than its nominal ones are an event. -/
def State.retrained (s : State) (p b : Nat) : State :=
  (if 2 ^ s.rf (LK_STATE p b) LK_STATE_WIDTH < s.nominal p then s.post 0x20 stOK (s.lkSrc p) (s.lkDetail p b) else s).actLatched p b

theorem retrainDone_usable {k first : Nat} (h : s.linkSt port sub = 5) (hb : (s.sub port sub).back ≠ 4) (hg : s.laneGroup port sub 3 = some (k, first)) :
    exec (.retrainDone port sub) s = .next ((((s.wf (LK_STATE port sub) LK_STATE_WIDTH k).setActive port sub (laneMask first (2 ^ k))).setLink port sub
      (if (s.sub port sub).back = 2 then 2 else 3)).retrained port sub) := by
  show execRetrainDone port sub s = _
  unfold execRetrainDone
  rw [if_neg (not_not.2 h), if_neg hb, settleWidth_usable hg]
  rfl

theorem retrainDone_lost (h : s.linkSt port sub = 5) (hb : (s.sub port sub).back ≠ 4) (hg : s.laneGroup port sub 3 = none) :
    exec (.retrainDone port sub) s = .next (s.linkDown port sub (fun _ => stBUS_FAULT)) := by
  show execRetrainDone port sub s = _
  unfold execRetrainDone
  rw [if_neg (not_not.2 h), if_neg hb, settleWidth_none hg]
  rfl

/-! ## Loss, and training again (R361) -/

theorem linkDown_lost (h : s.linkSt port sub = 5 ∧ (s.sub port sub).trainAt + 100000000 ≤ s.now
      ∨ (1 ≤ s.linkSt port sub ∧ s.linkSt port sub ≤ 5 ∧ s.laneGroup port sub 0 = none)) :
    exec (.linkDown port sub) s = .next (s.linkDown port sub (fun _ => stBUS_FAULT)) :=
  if_pos (h.imp_right fun ⟨h1, h5, hg⟩ => ⟨h1, h5, Option.isNone_iff_eq_none.2 hg⟩)

/-! ## A port made anew (R345, R346, R363) -/

theorem portReconfigure_begins {mode split : BitVec 2} (hr : s.net.reconf.any (fun x => x.1 == port.val) = false) (hc : s.portCfgOk port mode.toNat split.toNat = true) :
    exec (.portReconfigure port mode split) s = .next (
      if (s.beginReconfigure port mode.toNat split.toNat).portDrained port s.now = true
      then (s.beginReconfigure port mode.toNat split.toNat).reconfigurePort port mode.toNat split.toNat else s.beginReconfigure port mode.toNat split.toNat) := by
  have hnone : (s.endReconfigure port).net.reconf.find? (fun x => x.1 == port.val) = none := by simp [State.endReconfigure]
  have hfind : (s.beginReconfigure port mode.toNat split.toNat).net.reconf.find? (fun x => x.1 == port.val) = some (port.val, mode.toNat, split.toNat, s.now) := by
    show ((s.endReconfigure port).net.reconf ++ [(port.val, mode.toNat, split.toNat, s.now)]).find? _ = _
    rw [List.find?_append, hnone]
    simp
  show execPortReconfigure port mode split s = _
  unfold execPortReconfigure
  dsimp only
  rw [if_neg (by simp [hr, hc]), hfind]

theorem portReconfigure_ends {mode split : BitVec 2} {m v t0 : Nat} (hr : s.net.reconf = [(port.val, m, v, t0)]) (hd : s.portDrained port t0 = true) :
    exec (.portReconfigure port mode split) s = .next (s.reconfigurePort port m v) := by
  show execPortReconfigure port mode split s = _
  unfold execPortReconfigure
  dsimp only
  rw [if_pos (by simp [hr]), hr, List.find?_cons_of_pos (by simp)]
  exact congrArg _ (if_pos hd)

/-- A port whose change has only just begun has drained once nothing of it waits for an acknowledgement. -/
theorem portDrained_begun (p mode split : Nat) : (s.beginReconfigure p mode split).portDrained p s.now = true ↔ ∀ b : Nat, b < 8 → (s.sub p b).replay = [] := by
  have hnow : (s.beginReconfigure p mode split).now = s.now := rfl
  have hsub (b : Nat) : (s.beginReconfigure p mode split).sub p b = s.sub p b := rfl
  unfold State.portDrained
  rw [hnow]
  simp [hsub]

theorem linkRecoveryCommandsComplete : LinkRecoveryCommandsComplete := by
  intro port sub s
  refine ⟨fun lane un ppm he hl hf => ?_, fun h => ?_, linkDown_lost, fun h he hp hd => if_pos ⟨h, he, hp, hd⟩, fun mode split hr hc => ?_,
    fun mode split m v t0 => portReconfigure_ends, fun iface he => ?_⟩
  · intro u
    have hx := laneFail_marks (u := u) he hl hf rfl
    refine ⟨fun h3 => ?_, fun h4 => ?_, fun h3 h4 => ?_⟩
    · rw [hx, if_pos h3]
    · rw [hx, if_neg (by omega), if_pos h4]
    · rw [hx, if_neg h3, if_neg h4]
  · exact ⟨retrainDone_towpath h, fun k first hb hg => retrainDone_usable h hb hg, retrainDone_lost h⟩
  · intro w empty
    have hx := portReconfigure_begins hr hc
    exact ⟨fun hd => hx.trans (congrArg _ (if_pos ((portDrained_begun ..).2 hd))), fun hd => hx.trans (congrArg _ (if_neg (mt (portDrained_begun ..).1 hd)))⟩
  · exact ⟨fun hp => if_pos ⟨he, hp⟩, fun h => if_pos ⟨he, h⟩⟩

/-- Settles O42: a link that has trained opens or fails by its usable lanes (`settleWidth_usable`), an OPEN link rises with the block that acknowledges the peer's KEY_READY
(`codewordTransmit_rises`), and each loss, retrain and change of a port is its command's branch. -/
theorem linkTrainingCommandsComplete : Obligations.LinkTrainingCommandsComplete := ⟨linkFirstTrainingCompletes, linkRecoveryCommandsComplete⟩

end

end Sys2Proof.Machine
end
section
/-! PROOFS. Link control, the changes between full rate and towpath, and the keys of a link (R362, R366 to R373). -/

namespace Sys2Proof.Machine

section
variable {s t u : State} {port : PortId} {sub : SubId} {p b : Nat}

/-! ## Control flits (R368 to R371, R373) -/

/-- A control flit waits for the end of the change that its link is in. -/
def State.latch (s : State) (p b typ mask : Nat) : State := s.modSub p b (fun k => { k with latched := k.latched ++ [(typ, mask)] })

/-- A flit acts at once on a link in which nothing changes. -/
theorem takeControl_acts {typ mask : Nat} (h : s.linkSt p b = 3 ∨ s.linkSt p b = 4) (hm : s.linkMoves p b = false) :
    s.takeControl p b typ mask = s.actControl p b typ mask := by
  unfold State.takeControl
  dsimp only
  rw [if_neg (by simp [hm]), if_pos h]

theorem takeControl_latches {typ mask : Nat} (hm : s.linkMoves p b = true) (ht : typ ≠ 5 ∨ (s.sub p b).towSince = none) :
    s.takeControl p b typ mask = s.latch p b typ mask := by
  unfold State.takeControl
  dsimp only
  exact if_pos (by rcases ht with ht | ht <;> simp [hm, ht])

/-- The peer's TOWPATH_ENTER acts on an end that is on its way to towpath too. -/
theorem takeControl_meets {mask : Nat} (h : s.linkSt p b = 3) (ht : (s.sub p b).towSince ≠ none) : s.takeControl p b 5 mask = s.actControl p b 5 mask := by
  unfold State.takeControl
  dsimp only
  rw [if_neg (by simp [ht]), if_pos (.inl h)]

/-- A request for full rate touches the sub-port's own state alone. -/
theorem takeControl_fullRate (s : State) (p b : Nat) : ∃ k, s.takeControl p b 6 0 = s.setSub p b k ∨ s.takeControl p b 6 0 = s := by
  have hwant : ∃ k, s.wantFull p b = s.setSub p b k ∨ s.wantFull p b = s := by
    unfold State.wantFull
    split
    · exact ⟨_, .inl rfl⟩
    · exact ⟨Sub.initial, .inr rfl⟩
  unfold State.takeControl
  dsimp only
  split
  · exact ⟨_, .inl rfl⟩
  · split
    · exact hwant
    · exact ⟨Sub.initial, .inr rfl⟩

theorem takeControl_portOn (s : State) (p b : Nat) : (s.takeControl p b 6 0).portOn p = s.portOn p := by
  obtain ⟨k, h | h⟩ := takeControl_fullRate s p b
  · rw [h]
    rfl
  · rw [h]

/-! ## Writes of LK_CTRL (R362, R369 to R371) -/

/-- A write of LK_CTRL past its checks, on a sub-port that the port has. -/
theorem put32_lkCtrl {m : Ident} {v : Nat} (hv : v < 2 ^ 32) (he : s.subExists port sub = true) (hp : Passes s m (LK_CTRL port sub) true) :
    s.put32 m (LK_CTRL port sub) v = (s.lkCtrl m port sub v).reply stOK [] := by
  obtain ⟨hf, hc⟩ := hp
  have ha : LK_CTRL port sub = lkBase port + (0x110 + 0x40 * sub) := Nat.add_assoc ..
  have ht : target (LK_CTRL port sub) = .reg (.lk port) (0x110 + 0x40 * sub) := ha ▸ target_lk port.isLt (by omega)
  rw [put32_reg (by rw [ha]; unfold lkBase; omega) ht (by simp) (by rw [ha]; unfold lkBase; omega) hc rfl (by simp) hf, Nat.mod_eq_of_lt hv]
  show (s.lkWrite m port (0x110 + 0x40 * sub) v).reply stOK [] = _
  have hb : (0x110 + 0x40 * sub.val - 0x100) / 0x40 = sub.val := by omega
  unfold State.lkWrite
  dsimp only
  rw [hb, if_neg (by omega), if_pos (by omega), if_pos he]

section
variable {m : Ident}

theorem lkCtrl_retrain (h : s.linkSt p b = 3) : s.lkCtrl m p b 1 = s.startRetrain p b := by
  unfold State.lkCtrl
  dsimp only
  rw [h]
  rfl

theorem lkCtrl_restore (h : s.linkSt p b = 3) : s.lkCtrl m p b 2 = (s.wf (LK_LANES p) LK_LANES_FAILED (s.rf (LK_LANES p) LK_LANES_FAILED
    - (s.rf (LK_LANES p) LK_LANES_FAILED &&& laneMask (b * s.nominal p) (s.nominal p)))).startRetrain p b := by
  unfold State.lkCtrl
  dsimp only
  rw [h]
  rfl

theorem lkCtrl_towpath (h : s.linkSt p b = 3) : s.lkCtrl m p b 4 = s.takeControl p b 5 1 := by
  unfold State.lkCtrl
  dsimp only
  rw [h]
  rfl

theorem lkCtrl_fullRate (h : s.linkSt p b = 4) :
    s.lkCtrl m p b 8 = if s.portOn p = true then (s.takeControl p b 6 0).control p b 6 0 else s.takeControl p b 6 0 := by
  have hbits : natBit 0 8 = false ∧ natBit 1 8 = false ∧ natBit 2 8 = false ∧ natBit 3 8 = true ∧ natBit 4 8 = false := by decide
  unfold State.lkCtrl
  simp [hbits, h, takeControl_portOn]

theorem lkCtrl_wake (h : s.linkSt p b = 3 ∨ s.linkSt p b = 4 ∨ s.linkSt p b = 5) (mask : BitVec 4) :
    s.lkCtrl m p b (16 + mask.toNat * 32) = s.control p b 4 mask.toNat := by
  have hbits : ∀ x : Fin 16, natBit 0 (16 + x * 32) = false ∧ natBit 1 (16 + x * 32) = false ∧ natBit 2 (16 + x * 32) = false
      ∧ natBit 3 (16 + x * 32) = false ∧ natBit 4 (16 + x * 32) = true ∧ natBits 5 4 (16 + x * 32) = x := by decide
  obtain ⟨h0, h1, h2, h3, h4, hm⟩ := hbits mask.toFin
  unfold State.lkCtrl
  simp only [BitVec.val_toFin] at *
  simp [h0, h1, h2, h3, h4, hm, h]

end

theorem linkControlCommandsComplete : LinkControlCommandsComplete := by
  intro port sub s
  refine ⟨fun m mask he hp => ?_, fun hm h => ⟨fun mask => ?_, ?_, ?_⟩, fun hm => ?_⟩
  · intro own f
    have hput {v : Nat} {w : State} (hv : v < 2 ^ 32) (hw : s.lkCtrl m port sub v = w) : s.put32 m (LK_CTRL port sub) v = w.reply stOK [] := by
      rw [put32_lkCtrl hv he hp, hw]
    exact ⟨fun h => ⟨congrArg _ (hput (by decide) (lkCtrl_retrain h)), congrArg _ (hput (by decide) (lkCtrl_restore h)), congrArg _ (hput (by decide) (lkCtrl_towpath h))⟩,
      fun h => congrArg _ (hput (by omega) (lkCtrl_wake h mask)), fun h hon => congrArg _ (hput (by decide) ((lkCtrl_fullRate h).trans (if_pos hon))),
      fun h hoff => congrArg _ (hput (by decide) ((lkCtrl_fullRate h).trans (if_neg (by simp [hoff]))))⟩
  · exact congrArg Host.Outcome.next (takeControl_acts h hm)
  · exact congrArg Host.Outcome.next (takeControl_acts h hm)
  · exact congrArg Host.Outcome.next (takeControl_acts h hm)
  · intro latched
    refine ⟨fun mask => congrArg Host.Outcome.next (takeControl_latches hm (.inl (by decide))), congrArg Host.Outcome.next (takeControl_latches hm (.inl (by decide))),
      fun ht => congrArg Host.Outcome.next (takeControl_latches hm (.inr ht)), fun ht h => congrArg Host.Outcome.next (takeControl_meets h ht)⟩

/-! ## Between full rate and towpath (R368 to R370, R372, R373) -/

section
variable {t0 : Nat} (ht : (s.sub port sub).towSince = some t0) (h : s.linkSt port sub = 3) (hr : (s.sub port sub).resend = none)
include ht h hr

theorem towpathChangeover_changes (hc : (s.sub port sub).towPeer = true
      ∨ ((s.sub port sub).enterSent = true ∧ (s.sub port sub).queue.any Flit.towpathEnter = false)) :
    exec (.towpathChangeover port sub) s = .next ((s.toTowpath port sub).actLatched port sub) := by
  show execTowpathChangeover port sub s = _
  unfold execTowpathChangeover
  dsimp only
  rw [ht]
  dsimp only
  rw [if_neg (by simp [h, hr]), if_pos (by simpa using hc)]

theorem towpathChangeover_enters (hp : (s.sub port sub).towPeer = false) (he : (s.sub port sub).enterSent = false)
    (hd : (s.sub port sub).replay = [] ∨ t0 + 100000 ≤ s.now) :
    exec (.towpathChangeover port sub) s = .next ((s.control port sub 5 0).modSub port sub (fun k => { k with enterSent := true })) := by
  show execTowpathChangeover port sub s = _
  unfold execTowpathChangeover
  dsimp only
  rw [ht]
  dsimp only
  rw [if_neg (by simp [h, hr]), if_neg (by simp [hp, he]), if_pos (by simpa [he] using hd)]

end

section
variable (h : s.linkSt port sub = 4) (hf : (s.sub port sub).fullSince.isSome = true) (hp : s.portOn port = true) (ha : s.fleet.adrift = false)
include h hf hp ha

theorem fullRateTrained_usable {w first : Nat} (hg : s.laneGroup port sub 3 = some (w, first)) : exec (.fullRateTrained port sub) s
    = .next (((((s.wf (LK_STATE port sub) LK_STATE_WIDTH w).setActive port sub (laneMask first (2 ^ w))).setLink port sub 3).modSub port sub
      (fun k => { k with fullSince := none })).actLatched port sub) := by
  show execFullRateTrained port sub s = _
  unfold execFullRateTrained
  rw [if_pos (by simp [h, hf, hp, ha]), settleWidth_usable hg]
  rfl

theorem fullRateTrained_lost (hg : s.laneGroup port sub 3 = none) :
    exec (.fullRateTrained port sub) s = .next (s.linkDown port sub (fun _ => stBUS_FAULT)) := by
  show execFullRateTrained port sub s = _
  unfold execFullRateTrained
  rw [if_pos (by simp [h, hf, hp, ha]), settleWidth_none hg]
  rfl

end

theorem towpathChangesComplete : TowpathChangesComplete := by
  intro port sub s k
  refine ⟨fun t0 ht h hr => ?_, fun h hf hp ha => ⟨fun w first hg => fullRateTrained_usable h hf hp ha hg, fullRateTrained_lost h hf hp ha⟩⟩
  intro left
  exact ⟨towpathChangeover_changes ht h hr, towpathChangeover_enters ht h hr⟩

/-! ## Keys (R366, R367) -/

/-- The sub-port after its transmitter has changed phase. -/
def Sub.rekeyed (k : Sub) : Sub := { k with switchDue := false, oldNum := some k.txNum, oldAckAt := none }

theorem rekeySwitch_switches (hd : (s.sub port sub).switchDue = true) (h : s.linkSt port sub = 3 ∨ s.linkSt port sub = 4)
    (hk : ((s.sub port sub).keys.getD (!s.rb (LK_STATE port sub) LK_STATE_KPH).toNat none).isSome = true) : exec (.rekeySwitch port sub) s
      = .next (((s.setSub port sub (s.sub port sub).rekeyed).wb (LK_STATE port sub) LK_STATE_KPH (!s.rb (LK_STATE port sub) LK_STATE_KPH)).wrWide (LK_KEYCNT_0 port sub) 2 0) := by
  have hst : (s.linkSt port sub == 3 || s.linkSt port sub == 4) = true := by simpa using h
  show execRekeySwitch port sub s = _
  unfold execRekeySwitch
  dsimp only
  rw [hd, hst, hk]
  rfl

theorem rekeySwitch_spec (s : State) (p b : Nat) (k : Sub) (ph : Bool) :
    ∃ t, ((s.setSub p b k).wb (LK_STATE p b) LK_STATE_KPH ph).wrWide (LK_KEYCNT_0 p b) 2 0 = t ∧ t.rb (LK_STATE p b) LK_STATE_KPH = ph
      ∧ t.rdWide (LK_KEYCNT_0 p b) 2 = 0 ∧ t.sub p b = k ∧ SubChanges s t p b (LK_STATE p b :: wordsAt (LK_KEYCNT_0 p b) 2) ∧ t.tx = s.tx ∧ t.time = s.time := by
  have ho : OnlyRegs (s.setSub p b k) (((s.setSub p b k).wb (LK_STATE p b) LK_STATE_KPH ph).wrWide (LK_KEYCNT_0 p b) 2 0) :=
    onlyRegs_wrWide ((OnlyRegs.refl _).wf ..) _ _ _
  refine ⟨_, rfl, ?_, ?_, (ho.sub p b).trans (sub_setSub_same ..), (subChanges_setSub ..).trans (subChanges_of_regs ho ?_), ho.tx, ho.time⟩
  · rw [rb_of_regs (regsBut_keyCount _ p b 0) (lkState_not_keyCount p b)]
    exact rb_wb_same _ _ (by decide) rfl ph
  · exact rdWide_wrWide ..
  · exact ((RegsBut.refl _ _).wf (List.mem_cons_self ..) _ _).wrWide (List.subset_cons_self ..) _

theorem keyPhaseErase_erases {phase : Bool} {t0 : Nat} (ht : (s.sub port sub).oldAckAt = some t0) (hp : phase ≠ s.rb (LK_STATE port sub) LK_STATE_KPH)
    (hn : t0 + 1000000 ≤ s.now) : exec (.keyPhaseErase port sub phase) s
      = .next (s.setSub port sub { s.sub port sub with keys := (s.sub port sub).keys.set phase.toNat none, oldNum := none, oldAckAt := none }) := by
  show execKeyPhaseErase port sub phase s = _
  unfold execKeyPhaseErase
  dsimp only
  rw [ht]
  exact if_pos ⟨hp, hn⟩

theorem lkSrc_setLink (s : State) (q p b st : Nat) : (s.setLink p b st).lkSrc q = s.lkSrc q := by
  have hid : (s.setLink p b st).devId = s.devId := ((RegsBut.refl s [LK_STATE p b]).wf (List.mem_cons_self ..) _ _).devId (by
    unfold LK_STATE lkBase KP_FLEET_ID kpBase
    rw [List.mem_singleton]
    omega)
  unfold State.lkSrc State.src
  rw [hid]

theorem lkDetail_setLink (s : State) (p b st : Nat) : (s.setLink p b st).lkDetail p b = s.lkDetail p b := by
  unfold State.lkDetail State.setLink
  rw [State.rf_wf_disjoint _ _ _ _ _ (by decide) (by decide)]

theorem keyAging_falls (h : s.linkSt port sub = 3 ∨ s.linkSt port sub = 4) (hc : 2 ^ 42 ≤ s.rdWide (LK_KEYCNT_0 port sub) 2) :
    exec (.keyAging port sub) s
      = .next ((s.setLink port sub 2).post 0x22 stOK ((s.setLink port sub 2).lkSrc port) ((s.setLink port sub 2).lkDetail port sub)) := by
  show execKeyAging port sub s = _
  unfold execKeyAging
  dsimp only
  rw [if_pos ⟨h, hc⟩, lkSrc_setLink, lkDetail_setLink]

theorem linkKeyCommandsComplete : LinkKeyCommandsComplete := by
  intro port sub s k ph
  refine ⟨fun hd h hk => ?_, fun phase t0 ht hp hn => ?_, keyAging_falls⟩
  · obtain ⟨t, ht, hspec⟩ := rekeySwitch_spec s port sub k.rekeyed (!ph)
    exact ⟨t, (rekeySwitch_switches hd h hk).trans (congrArg _ ht), hspec⟩
  · exact ⟨_, keyPhaseErase_erases ht hp hn, sub_setSub_same .., subChanges_setSub .., rfl, rfl⟩

end

end Sys2Proof.Machine
end
section
/-! PROOFS. Delay measurement and time transfer over a link (R356, R377, R378). -/

namespace Sys2Proof.Machine

section
variable {s t u : State} {port : PortId} {sub : SubId} {p b : Nat}

/-! ## Delay (R356, R377) -/

section
variable {t1 t2 t3 t4 : BitVec 80}

theorem delayTimer_asks (h : s.linkTalks port sub = true) : exec (.delayTimer port sub t1) s
    = .next ((s.control port sub 1 (t1.toNat * 2 ^ 8)).modSub port sub (fun k => { k with reqT1 := some t1.toNat })) := by
  show execDelayTimer port sub t1 s = _
  unfold execDelayTimer
  rw [if_pos h]

theorem delayReq_answers (h : s.linkTalks port sub = true) :
    exec (.delayReq port sub t1 t2 t3) s = .next (s.control port sub 2 (t2.toNat * 2 ^ 8 + t3.toNat * 2 ^ 88)) := by
  show execDelayReq port sub t1 t2 t3 s = _
  unfold execDelayReq
  dsimp only
  rw [if_pos h]

/-- The median of one result is that result. -/
theorem median_one (x : Int) : median [x] = x := by
  unfold median
  simp only [List.mergeSort_singleton, List.length_singleton, Nat.sub_self, Nat.zero_div, Nat.reduceDiv, List.getD_cons_zero]
  omega

/-- A long-reach store that comes into use, or goes out of it, moves LONG and the sub-port's own state, but not the request for a delay. -/
theorem setLong_spec (s : State) (p b : Nat) (v : Bool) : RegsBut s (s.setLong p b v) [LK_STATE p b] ∧ SubChanges s (s.setLong p b v) p b [LK_STATE p b]
    ∧ ((s.setLong p b v).sub p b).reqT1 = (s.sub p b).reqT1 ∧ (s.setLong p b v).tx = s.tx ∧ (s.setLong p b v).time = s.time := by
  have hr : RegsBut s (s.wb (LK_STATE p b) LK_STATE_LONG v) [LK_STATE p b] := (RegsBut.refl s _).wf (List.mem_cons_self ..) _ _
  have ho : OnlyRegs s (s.wb (LK_STATE p b) LK_STATE_LONG v) := (OnlyRegs.refl s).wf _ _ _
  unfold State.setLong
  dsimp only
  split
  · exact ⟨hr, subChanges_of_regs ho hr, by rw [ho.sub], rfl, rfl⟩
  · exact ⟨hr.of_regs rfl, (subChanges_of_regs ho hr).trans (subChanges_modSub ..), by rw [sub_modSub_same, ho.sub], rfl, rfl⟩

/-- The first result of a link is what its registers show. -/
theorem delayResp_first (h : s.linkTalks port sub = true) (hr : (s.sub port sub).reqT1 = some t1.toNat) (hd : (s.sub port sub).delays = []) :
    ∃ (delays : List (Int × Int)) (delay : Nat) (long : Bool), exec (.delayResp port sub t2 t3 t4) s
      = .next ((((s.setSub port sub { s.sub port sub with delays := delays, reqT1 := none }).wr (LK_DELAY port sub) delay).wr (LK_RTT port sub)
        ((toPs (((t4.toNat : Int) - t1.toNat) - ((t3.toNat : Int) - t2.toNat)) / 1000).toNat % 2 ^ 32)).setLong port sub long) := by
  show ∃ delays delay long, execDelayResp port sub t2 t3 t4 s = _
  unfold execDelayResp
  dsimp only
  rw [hr, hd]
  dsimp only
  rw [if_neg (by simp [h]), List.nil_append, List.reverse_singleton, List.take_of_length_le (by simp), List.reverse_singleton, List.map_singleton, List.map_singleton,
    median_one, median_one]
  exact ⟨_, _, _, rfl⟩

theorem delayResp_measures (h : s.linkTalks port sub = true) (hr : (s.sub port sub).reqT1 = some t1.toNat) (hd : (s.sub port sub).delays = []) :
    ∃ t : State, exec (.delayResp port sub t2 t3 t4) s = .next t
      ∧ t.rd (LK_RTT port sub) = (toPs (((t4.toNat : Int) - t1.toNat) - ((t3.toNat : Int) - t2.toNat)) / 1000).toNat % 2 ^ 32
      ∧ (t.sub port sub).reqT1 = none ∧ SubChanges s t port sub [LK_DELAY port sub, LK_RTT port sub, LK_STATE port sub] ∧ t.tx = s.tx ∧ t.time = s.time := by
  obtain ⟨delays, delay, long, hx⟩ := delayResp_first (t2 := t2) (t3 := t3) (t4 := t4) h hr hd
  generalize hw : (s.setSub port sub { s.sub port sub with delays := delays, reqT1 := none }) = w at hx
  obtain ⟨hregs, hsub, hreq, htx, htime⟩ := setLong_spec ((w.wr (LK_DELAY port sub) delay).wr (LK_RTT port sub)
    ((toPs (((t4.toNat : Int) - t1.toNat) - ((t3.toNat : Int) - t2.toNat)) / 1000).toNat % 2 ^ 32)) port sub long
  have ho {x y : Nat} : OnlyRegs w ((w.wr (LK_DELAY port sub) x).wr (LK_RTT port sub) y) := (onlyRegs_wr w _ x).trans (onlyRegs_wr _ _ y)
  refine ⟨_, hx, ?_, ?_, ?_, ?_, ?_⟩
  · have hne : LK_RTT port sub ∉ [LK_STATE port sub] := by
      unfold LK_RTT LK_STATE
      simp
    rw [hregs _ hne, State.rd_wr_same, Nat.mod_mod]
  · rw [hreq, ho.sub, ← hw, sub_setSub_same]
  · refine SubChanges.trans (t := w) (hw ▸ subChanges_setSub ..) ((subChanges_of_regs ho ?_).trans (hsub.mono (by simp)))
    exact ((RegsBut.refl w _).wr (by simp) _).wr (by simp) _
  · exact htx.trans (hw ▸ rfl)
  · exact htime.trans (hw ▸ rfl)

end

/-! ## Time (R378) -/

section
variable {t1 t2 : BitVec 80}

theorem timeSendTimer_sends (hr : 2 ≤ s.role) (h : s.linkSt port sub = 3 ∨ s.linkSt port sub = 4) : exec (.timeSendTimer port sub t1) s
    = .next (s.control port sub 3 (t1.toNat * 2 ^ 8 + s.rf TM_SRC_STATUS TM_SRC_STATUS_ERR_BOUND * 2 ^ 88)) := by
  show execTimeSendTimer port sub t1 s = _
  unfold execTimeSendTimer
  dsimp only
  rw [if_pos ⟨hr, h⟩]

/-- A TIME flit has come. -/
def State.timeHeard (s : State) (p b : Nat) : State := (s.wb (LK_STATE p b) LK_STATE_TT_OK true).modSub p b (fun k => { k with ttAt := s.now })

theorem timeHeard_spec (s : State) (p b : Nat) : (s.timeHeard p b).rb (LK_STATE p b) LK_STATE_TT_OK = true ∧ ((s.timeHeard p b).sub p b).ttAt = s.now
    ∧ SubChanges s (s.timeHeard p b) p b [LK_STATE p b] ∧ (s.timeHeard p b).tx = s.tx := by
  have ho : OnlyRegs s (s.wb (LK_STATE p b) LK_STATE_TT_OK true) := (OnlyRegs.refl s).wf _ _ _
  have hr : RegsBut s (s.wb (LK_STATE p b) LK_STATE_TT_OK true) [LK_STATE p b] := (RegsBut.refl s _).wf (List.mem_cons_self ..) _ _
  exact ⟨rb_wb_same s _ (by decide) rfl true, congrArg Sub.ttAt (sub_modSub_same ..), (subChanges_of_regs ho hr).trans (subChanges_modSub ..), rfl⟩

/-- What a time source's flit does beside: the time unit takes the time, where this is the sub-port in use. -/
theorem time_takes {bound : BitVec 16} (hs : s.rb (LK_STATE port sub) LK_STATE_TT_SRC = true) (h : s.linkSt port sub = 3 ∨ s.linkSt port sub = 4) :
    ∃ t : State, exec (.time port sub t1 t2 bound) s = .next t ∧ TimeOnly (s.timeHeard port sub) t := by
  show ∃ t, execTime port sub t1 t2 bound s = .next t ∧ _
  unfold execTime
  dsimp only
  rw [if_neg (by simp [hs]; omega), ← State.timeHeard]
  split
  · exact ⟨_, rfl, timeOnly_setSrc ..⟩
  · exact ⟨_, rfl, (timeOnly_supplyTod ..).trans ((timeOnly_time ..).trans (timeOnly_setSrc ..))⟩

theorem TimeOnly.subChanges (h : TimeOnly s t) : SubChanges s t p b (LK_STATE p b :: TM_SRC_STATUS :: wordsAt TM_NOW_0 3) := by
  obtain ⟨ht, hr⟩ := h
  refine ⟨fun q e _ => sub_of_subs (by rw [ht]) q e, hr.mono (List.subset_cons_self ..), ?_⟩
  rw [ht]

theorem lkState_not_time (p b : Nat) : LK_STATE p b ∉ TM_SRC_STATUS :: wordsAt TM_NOW_0 3 := by
  have hlow : ∀ a ∈ TM_SRC_STATUS :: wordsAt TM_NOW_0 3, a < 0x008032000000 := by decide
  intro hm
  have := hlow _ hm
  unfold LK_STATE lkBase at this
  omega

theorem time_heard {bound : BitVec 16} (hs : s.rb (LK_STATE port sub) LK_STATE_TT_SRC = true) (h : s.linkSt port sub = 3 ∨ s.linkSt port sub = 4) :
    ∃ t : State, exec (.time port sub t1 t2 bound) s = .next t ∧ t.rb (LK_STATE port sub) LK_STATE_TT_OK = true ∧ (t.sub port sub).ttAt = s.now
      ∧ SubChanges s t port sub (LK_STATE port sub :: TM_SRC_STATUS :: wordsAt TM_NOW_0 3) ∧ t.tx = s.tx := by
  obtain ⟨t, hx, ht⟩ := time_takes (t1 := t1) (t2 := t2) (bound := bound) hs h
  obtain ⟨hok, hat, hsub, htx⟩ := timeHeard_spec s port sub
  refine ⟨t, hx, ?_, ?_, (hsub.mono (by simp)).trans ht.subChanges, ?_⟩
  · rw [rb_of_regs ht.2 (lkState_not_time _ _), hok]
  · rw [ht.1]
    exact hat
  · rw [ht.1]
    exact htx

end

theorem ttTimeout_clears (h : (s.sub port sub).ttAt + 10000000 < s.now) :
    exec (.ttTimeout port sub) s = .next (s.wb (LK_STATE port sub) LK_STATE_TT_OK false).syncEwe := by
  show execTtTimeout port sub s = _
  unfold execTtTimeout
  rw [if_pos h]

theorem linkTimeCommandsComplete : LinkTimeCommandsComplete := fun _ _ _ _ _ _ _ =>
  ⟨fun h => ⟨delayTimer_asks h, delayReq_answers h, delayResp_measures h⟩, timeSendTimer_sends, fun _ => time_heard, ttTimeout_clears⟩

/-- Settles O43: writes of LK_CTRL by their bits (`put32_lkCtrl`), flits by whether the link's state is changing (`takeControl_acts`, `takeControl_latches`), the changes and
the keys by their commands' branches, a first delay by the median of one (`median_one`), and a TIME flit by what the time unit leaves alone (`time_takes`). -/
theorem linkControlAndKeysComplete : Obligations.LinkControlAndKeysComplete :=
  ⟨linkControlCommandsComplete, towpathChangesComplete, linkKeyCommandsComplete, linkTimeCommandsComplete⟩

end

end Sys2Proof.Machine
end
section
/-! PROOFS. Fleet descriptors of a manager: admission (R388, R463 to R465). -/

namespace Sys2Proof.Machine

section
variable {s t u : State} {d : RingExec}

/-- A fleet descriptor that starts is carried out. -/
theorem fleetDesc_starts {r i op : Nat} {f : State → RingExec → State} (h : FleetStarts s r i op d) : s.fleetDesc r i op f = f s d := by
  obtain ⟨hb, hr, hl⟩ := h
  unfold State.fleetDesc
  rw [hb]
  dsimp only
  rw [if_neg (by omega), if_neg hl]

/-! ## ADMIT (R463 to R465) -/

/-- A report that an admission may take: its chain and its signature stand, it answers the nonce, and the record matches it; and the peer accepts too. -/
def reportGood (chain : Bool) (p : Report) (nonce : Nat) (x : AdmissionRecord) (accepts : Bool) : Bool :=
  chain && p.signatureGood && p.nonce.toNat == nonce % 2 ^ 256 && recordMatches x p && accepts

theorem reportGood_iff {chain accepts : Bool} {p : Report} {nonce : Nat} {x : AdmissionRecord} : reportGood chain p nonce x accepts = true
    ↔ chain = true ∧ p.signatureGood = true ∧ p.nonce.toNat = nonce % 2 ^ 256 ∧ recordMatches x p = true ∧ accepts = true := by
  simp [reportGood, and_assoc]

section
variable {ring : Fin 16} {index : Word} {open_ chain accepts : Bool} {p : Report} {x : AdmissionRecord} {r : Nat}

theorem admitDevice_reads (h : FleetStarts s ring.val index.toNat 0x10 d) (hw : s.fleet.waits = []) :
    exec (.admitDevice ring index open_ chain p accepts) s = .next (s.admitRead ring d open_ chain p accepts) := by
  show execAdmitDevice ring index open_ chain p accepts s = _
  unfold execAdmitDevice
  dsimp only
  rw [hw, List.any_nil, if_neg (by simp), fleetDesc_starts h]

/-- What an ADMIT does with its record once that is here. -/
def State.admitBy (s : State) (r : Nat) (d : RingExec) (open_ chain : Bool) (p : Report) (accepts : Bool) : State :=
  let (st, bs, s) := s.keeperRead 8 (d.word 4) 35
  if st ≠ stOK then s.admitFail r d st else s.admitRun r d open_ chain (recordOf bs) p accepts

theorem admitRead_eq (s : State) (r : Nat) (d : RingExec) (open_ chain : Bool) (p : Report) (accepts : Bool) :
    s.admitRead r d open_ chain p accepts = s.keeperReads (recordPlaces s d) (fun s => s.admitBy r d open_ chain p accepts) := rfl

theorem admitRead_asks (h : s.allGot (s.self 0xD00) (recordPlaces s d) = false) :
    s.admitRead r d open_ chain p accepts = s.askAll (s.self 0xD00) 3 none (recordPlaces s d) := by
  rw [admitRead_eq, keeperReads_asks h]

/-- A record that has been read is judged. -/
theorem admitRead_got {st : Nat} {bs : List Byte} (h : s.allGot (s.self 0xD00) (recordPlaces s d) = true) (hr : s.keeperRead 8 (d.word 4) 35 = (st, bs, u)) :
    s.admitRead r d open_ chain p accepts
      = s.used (recordPlaces s d) (if st ≠ stOK then u.admitFail r d st else u.admitRun r d open_ chain (recordOf bs) p accepts) := by
  rw [admitRead_eq, keeperReads_got h, State.admitBy, hr]
  rfl

/-- While its link is not OPEN an ADMIT waits. -/
theorem admitRun_waits (hw : s.fleet.waits = []) : s.admitRun r d false chain x p accepts = (s.addWait 0x10 s.now r d.index).ringStart r d := by
  unfold State.admitRun
  dsimp only
  rw [if_pos (by simp), hw, List.any_nil, if_neg (by simp)]

/-- On an OPEN link the report is judged by the record first, then the record by its form, then the ID. -/
theorem admitRun_judges (hw : s.fleet.waits = []) : s.admitRun r d true chain x p accepts =
    if !reportGood chain p s.random.1 x accepts then s.random.2.admitFail r d stINTEGRITY_FAIL
    else if recordBad x then s.random.2.admitFail r d stBAD_OPCODE
    else if natBits 0 14 (d.word 3) = s.random.2.devId then s.random.2.draw.2.admitFail r d (s.random.2.draw.1 % 256)
    else (s.random.2.admitOk r d x).ringStart r d := by
  have hs : ({ s with fleet := { s.fleet with waits := s.fleet.waits.filter (fun w => !(w.1 == 0x10 && w.2.2 == (r, d.index))) } } : State) = s := by
    rw [hw, List.filter_nil, ← hw]
  unfold State.admitRun
  dsimp only
  rw [if_neg (by simp), hs]
  rfl

section
variable (hw : s.fleet.waits = [])
include hw

theorem admitRun_admits (hg : reportGood chain p s.random.1 x accepts = true) (hx : recordBad x = false) (hid : natBits 0 14 (d.word 3) ≠ s.random.2.devId) :
    s.admitRun r d true chain x p accepts = (s.random.2.admitOk r d x).ringStart r d := by
  rw [admitRun_judges hw, if_neg (by simp [hg]), if_neg (by simp [hx]), if_neg hid]

theorem admitRun_mismatch (hg : ¬reportGood chain p s.random.1 x accepts = true) :
    s.admitRun r d true chain x p accepts = s.random.2.admitFail r d stINTEGRITY_FAIL := by
  rw [admitRun_judges hw, if_pos (by simpa using hg)]

theorem admitRun_malformed (hg : reportGood chain p s.random.1 x accepts = true) (hx : recordBad x = true) :
    s.admitRun r d true chain x p accepts = s.random.2.admitFail r d stBAD_OPCODE := by
  rw [admitRun_judges hw, if_neg (by simp [hg]), if_pos hx]

theorem admitRun_ownId (hg : reportGood chain p s.random.1 x accepts = true) (hx : recordBad x = false) (hid : natBits 0 14 (d.word 3) = s.random.2.devId) :
    s.admitRun r d true chain x p accepts = s.random.2.draw.2.admitFail r d (s.random.2.draw.1 % 256) := by
  rw [admitRun_judges hw, if_neg (by simp [hg]), if_neg (by simp [hx]), if_pos hid]

end

theorem admitTimeout_ends {t0 : Nat} (hw : s.fleet.waits = [(0x10, t0, ring.val, index.toNat)]) (hd : s.ringFind ring.val index.toNat = some d)
    (ht : t0 + 12000000000 ≤ s.now) :
    exec (.admitTimeout ring index) s = .next (({ s with fleet := { s.fleet with waits := [] } } : State).admitFail ring.val d stBUS_FAULT) := by
  show execAdmitTimeout ring index s = _
  unfold execAdmitTimeout
  dsimp only
  rw [hw, List.find?_cons_of_pos (by simp), hd]
  dsimp only
  rw [if_pos ht, List.filter_cons_of_neg (by simp), List.filter_nil]

end

theorem admissionsComplete : AdmissionsComplete := by
  intro ring index chain p accepts d s
  refine ⟨fun h hw => ?_, fun t0 => admitTimeout_ends⟩
  intro l cmd
  have hcmd (o : Bool) : exec (cmd o) s = .next (s.admitRead ring d o chain p accepts) := admitDevice_reads h hw
  refine ⟨fun o hg => (hcmd o).trans (congrArg _ (admitRead_asks hg)), fun st bs u hg hr hu => ?_⟩
  intro x v match_
  have hgot (o : Bool) : exec (cmd o) s = .next (s.used l (if st ≠ stOK then u.admitFail ring d st else u.admitRun ring d o chain x p accepts)) :=
    (hcmd o).trans (congrArg _ (admitRead_got hg hr))
  have hgood : reportGood chain p u.random.1 x accepts = true ↔ match_ := reportGood_iff
  refine ⟨fun o hst => (hgot o).trans (by rw [if_pos hst]), fun hst => ?_⟩
  have hrun {o : Bool} {w : State} (hw : u.admitRun ring d o chain x p accepts = w) : exec (cmd o) s = .next (s.used l w) := by
    rw [hgot, if_neg (not_not.2 hst), hw]
  exact ⟨hrun (admitRun_waits hu), fun hm hx hid => hrun (admitRun_admits hu (hgood.2 hm) hx hid), fun hm => hrun (admitRun_mismatch hu (mt hgood.1 hm)),
    fun hm hx => hrun (admitRun_malformed hu (hgood.2 hm) hx), fun hm hx hid => ⟨_, Nat.mod_lt _ (by decide), hrun (admitRun_ownId hu (hgood.2 hm) hx hid)⟩⟩

end

end Sys2Proof.Machine
end
section
/-! PROOFS. Fleet descriptors of a manager that bind a change to an epoch, or load banks (R385, R387, R388, R391, R394). -/

namespace Sys2Proof.Machine

section
variable {s t u : State} {d : RingExec} {ring : Fin 16} {index : Word}

/-! ## Messages on their way out -/

/-- `t` is `s` but for what waits to leave. -/
def OnlyTx (s t : State) : Prop := ∃ x, t = { s with tx := x }

theorem OnlyTx.refl (s : State) : OnlyTx s s := ⟨s.tx, rfl⟩

theorem OnlyTx.trans (h : OnlyTx s t) (h' : OnlyTx t u) : OnlyTx s u := by
  obtain ⟨_, rfl⟩ := h
  obtain ⟨_, rfl⟩ := h'
  exact ⟨_, rfl⟩

theorem OnlyTx.foldl {α : Type} {f : State → α → State} (hf : ∀ u x, OnlyTx u (f u x)) (s : State) (l : List α) : OnlyTx s (l.foldl f s) := by
  induction l generalizing s with
  | nil => exact .refl s
  | cons x l ih => exact (hf s x).trans (ih (f s x))

theorem onlyTx_castOrders (s : State) (words : List Nat) : OnlyTx s (s.castOrders words) := .foldl (fun _ _ => ⟨_, rfl⟩) _ _

/-! ## RELEASE and GROUP (R388, R394, R403) -/

theorem binds_bind (s : State) (e : Nat) (c : Change) (ref : Option (Nat × Nat)) : Binds s (s.bind e c ref) e c ref := rfl

theorem release_binds (h : FleetStarts s ring.val index.toNat 0x11 d) (he : d.eb = true) (hp : s.epochPast d.target = false) :
    exec (.release ring index) s = .next ((s.bind d.target (.release d.device) (some (ring.val, d.index))).ringStart ring d) := by
  show Host.Outcome.next (s.fleetDesc ring index.toNat 0x11 _) = _
  rw [fleetDesc_starts h, if_neg (by simp [he]), if_neg (by simp [hp])]

/-- What a group table of the free bits `v` gives a group. -/
def groupWords (v : Nat) : List Nat := (List.range 19).map (fun i => natBits (2 + 32 * i) 32 v)

theorem group_binds (h : FleetStarts s ring.val index.toNat 0x1A d) (he : d.eb = true) (hp : s.epochPast d.target = false) : exec (.group ring index) s
    = .next (((s.draw.2.orderAll 5 (s.draw.1 % 4 :: groupWords s.draw.1 ++ [d.target])).bind d.target (.group (s.draw.1 % 4) (groupWords s.draw.1)) none).ringComplete
      ring d stOK) := by
  show Host.Outcome.next (s.fleetDesc ring index.toNat 0x1A _) = _
  rw [fleetDesc_starts h, if_neg (by simp [he]), if_neg (by simp [hp])]
  rfl

/-! ## ROUTES (R387) -/

/-- The switch of the banks of some devices is bound, here and at the others. -/
def State.bindRoutes (s : State) (e : Nat) (devs : List Nat) : State :=
  devs.eraseDups.foldl (fun s dev => if dev = s.devId then s.bind e .routes none else s.orderTo dev 4 [1, e]) s

/-- What a ROUTES does with its list once that is here. -/
def State.routesBy (s : State) (r : Nat) (d : RingExec) : State :=
  let (st, l, s) := s.loadBanks (d.word 2) (natBits 0 16 (d.word 3))
  if st ≠ stOK then s.ringComplete r d st else (if d.eb then s.bindRoutes d.target l else s).ringComplete r d stOK

theorem routes_reads (h : FleetStarts s ring.val index.toNat 0x12 d) (he : d.eb = true → s.epochPast d.target = false) : exec (.routes ring index) s
    = .next (s.keeperReads (s.bankPieces (d.word 2) (natBits 0 16 (d.word 3))) (fun s => s.routesBy ring d)) := by
  show Host.Outcome.next (s.fleetDesc ring index.toNat 0x12 _) = _
  rw [fleetDesc_starts h, if_neg (by simpa using he)]
  rfl

theorem routesBy_loads {devs : List Nat} (hl : s.loadBanks (d.word 2) (natBits 0 16 (d.word 3)) = (stOK, devs, u)) (r : Nat) :
    s.routesBy r d = (if d.eb then u.bindRoutes d.target devs else u).ringComplete r d stOK := by
  rw [State.routesBy, hl]
  rfl

/-! ## BROADCAST (R391) -/

/-- The broadcast that a descriptor starts, from the free bits `v`, of an image at `base`. -/
def State.castOf (s : State) (d : RingExec) (v base : Nat) : Bcast :=
  let len := natBits 0 32 (d.word 3)
  let window := d.word 4 + natBits 0 32 (d.word 5) * 1000
  { number := v % 256, blocks := (len + 262143) / 262144, stage := v / 256 % 2 ^ 48, children := s.castChildren, windowStart := d.word 4, windowEnd := window,
    deadline := window + natBits 32 32 (d.word 5) * 1000, activation := d.target, got := [], missingAt := 0, verified := false, failed := false, source := some (base, len) }

/-- The order of a broadcast, and every chunk of its image. -/
def State.castSends (s : State) (k : Bcast) (base len : Nat) : State :=
  (List.range k.blocks).foldl (fun s b => (List.range 80).foldl (fun s i =>
    k.children.foldl (fun x c => x.sendChunk c k b i (s.srcChunk base len b i)) s) s)
    (s.castOrders [k.number, k.blocks, k.stage, k.windowEnd, k.deadline, k.activation])

theorem onlyTx_castSends (s : State) (k : Bcast) (base len : Nat) : OnlyTx s (s.castSends k base len) :=
  (onlyTx_castOrders ..).trans (.foldl (fun _ _ => .foldl (fun _ _ => .foldl (fun _ _ => ⟨_, rfl⟩) _ _) _ _) _ _)

/-- A BROADCAST has begun. -/
def State.casting (s : State) (k : Bcast) : State := { s.draw.2 with fleet := { s.fleet with bcast := some k } }

theorem broadcast_begins {dev a : Nat} (h : FleetStarts s ring.val index.toNat 0x13 d) (he : d.eb = true) (hp : s.epochPast d.target = false)
    (hr : s.resolve (d.word 2) = some (dev, a)) (hn : natBits 0 32 (d.word 3) ≠ 0)
    (hd : s.dmaRangeOk (s.self 0xD00) (d.word 2) (natBits 0 32 (d.word 3)) false = true) : ∃ base : Nat, exec (.broadcast ring index) s
      = .next ((((s.casting (s.castOf d s.draw.1 base)).castSends (s.castOf d s.draw.1 base) base (natBits 0 32 (d.word 3))).bind d.target .castEnd
        (some (ring.val, d.index))).ringStart ring d) := by
  refine ⟨if dev = s.devId then a else d.word 2, ?_⟩
  show Host.Outcome.next (s.fleetDesc ring index.toNat 0x13 _) = _
  rw [fleetDesc_starts h]
  unfold State.castBegin
  rw [if_neg (by simp [he]), if_neg (by simp [hp])]
  dsimp only
  rw [hr]
  dsimp only
  rw [if_neg (by simp [hn, hd])]
  rfl

theorem castChildren_length (s : State) : s.castChildren.length ≤ 4 := by
  have hroot : s.castRoot ≤ 4 := by
    unfold State.castRoot
    split <;> decide
  exact (List.length_take_le ..).trans hroot

theorem boundDescriptorsComplete : BoundDescriptorsComplete := by
  intro ring index d s
  refine ⟨fun h he hp => ⟨_, binds_bind .., release_binds h he hp⟩, fun h he => ?_, fun h he hp => ?_, fun dev a h he hp hr hn hd => ?_⟩
  · intro n l
    have hx := routes_reads h he
    refine ⟨fun hg => hx.trans (congrArg _ (keeperReads_asks hg)), fun devs u hg hl => ?_⟩
    rw [hx, keeperReads_got hg, routesBy_loads hl]
    rfl
  · exact ⟨_, _, _, _, Nat.mod_lt _ (by decide), by rw [groupWords, List.length_map, List.length_range], rfl, binds_bind .., group_binds h he hp⟩
  · obtain ⟨base, hx⟩ := broadcast_begins h he hp hr hn hd
    obtain ⟨x, hu⟩ := onlyTx_castSends (s.casting (s.castOf d s.draw.1 base)) (s.castOf d s.draw.1 base) base (natBits 0 32 (d.word 3))
    rw [hu] at hx
    exact ⟨_, _, _, rfl, rfl, rfl, rfl, rfl, rfl, rfl, castChildren_length s, rfl, binds_bind .., hx⟩

end

end Sys2Proof.Machine
end
section
/-! PROOFS. Fleet descriptors of a manager that order something of devices (R371, R388, R399, R401, R403, R406, R407). -/

namespace Sys2Proof.Machine

section
variable {s t u : State} {d : RingExec} {ring : Fin 16} {index : Word}

/-! ## SNAPSHOT and RESTORE (R388, R399, R401) -/

section
variable (h : FleetStarts s ring.val index.toNat 0x14 d)
include h

theorem snapshot_none (hb : natBits 0 2 (d.word 2) = 0) : exec (.snapshot ring index) s = .next (s.ringComplete ring d stOK) := by
  show Host.Outcome.next (s.fleetDesc ring index.toNat 0x14 _) = _
  rw [fleetDesc_starts h, hb]
  rfl

/-- A SNAPSHOT that names a target asks every device, and this one for each target named. -/
theorem snapshot_asks {bits : Nat} (hb : natBits 0 2 (d.word 2) = bits) (hn : bits ≠ 0) : exec (.snapshot ring index) s = .next (
    let asked := (s.orderAll 7 [bits]).ringStart ring d
    let first := if natBit 0 bits then asked.snapAsk 0 (ring.val, d.index) else asked
    if natBit 1 bits then first.snapAsk 1 (ring.val, d.index) else first) := by
  show Host.Outcome.next (s.fleetDesc ring index.toNat 0x14 _) = _
  rw [fleetDesc_starts h, hb, if_neg hn]

end

theorem restore_falls_back (h : FleetStarts s ring.val index.toNat 0x15 d) : exec (.restore ring index) s
    = .next (((s.ringStart ring d).restoreAll (natBits 0 48 (d.word 2))).addWait 0x15 (natBits 0 48 (d.word 2)) ring.val d.index) := by
  show Host.Outcome.next (s.fleetDesc ring index.toNat 0x15 _) = _
  rw [fleetDesc_starts h]

/-! ## WITHDRAW (R388) -/

section
variable (h : FleetStarts s ring.val index.toNat 0x1B d)
include h

theorem withdraw_own (ha : ¬natBit 14 (d.word 2) = true) (hd : d.device = s.devId) : exec (.withdraw ring index) s = .next (s.withdraw.ringComplete ring d stOK) := by
  show Host.Outcome.next (s.fleetDesc ring index.toNat 0x1B _) = _
  rw [fleetDesc_starts h]
  simp [ha, hd]

theorem withdraw_other (ha : ¬natBit 14 (d.word 2) = true) (hd : d.device ≠ s.devId) : exec (.withdraw ring index) s
    = .next (((s.orderTo d.device 9 []).addWait 0x1B d.device ring.val d.index).ringStart ring d) := by
  show Host.Outcome.next (s.fleetDesc ring index.toNat 0x1B _) = _
  rw [fleetDesc_starts h]
  simp [ha, hd]

theorem withdraw_alone (ha : natBit 14 (d.word 2) = true) (hg : s.governed = []) : exec (.withdraw ring index) s = .next (s.withdraw.ringComplete ring d stOK) := by
  show Host.Outcome.next (s.fleetDesc ring index.toNat 0x1B _) = _
  rw [fleetDesc_starts h]
  simp [ha, hg]

theorem withdraw_all (ha : natBit 14 (d.word 2) = true) (hg : s.governed ≠ []) : exec (.withdraw ring index) s
    = .next (((s.governed.map (fun m => m.dev)).foldl (fun s x => (s.orderTo x 9 []).addWait 0x1B x ring.val d.index) s.withdraw).ringStart ring d) := by
  show Host.Outcome.next (s.fleetDesc ring index.toNat 0x1B _) = _
  rw [fleetDesc_starts h]
  simp [ha, hg]

end

/-! ## REPLACE (R403) -/

theorem post_fleet {cls : Nat} (h : ¬(cls = 0x02 ∨ cls = 0x1B)) (s : State) (st src x : Nat) : (s.post cls st src x).fleet = s.fleet := by
  obtain ⟨r, e, hp⟩ := postSev_changes h s (classSev cls) st src x
  rw [State.post, hp]

theorem postFleet_fleet (s : State) (dev : Nat) : (s.postFleet dev).fleet = s.fleet := by
  unfold State.postFleet
  exact post_fleet (by decide) s.draw.2 _ _ _

theorem declareFailed_replace (s : State) (dev : Nat) : (s.declareFailed dev).fleet.replace = s.fleet.replace := by
  unfold State.declareFailed
  split
  · rw [postFleet_fleet]
    rfl
  · rfl

/-- The descriptor of a replacement ends, where there is one. -/
def State.endReplacement (s : State) (old : Option Replacement) (st : Nat) : State :=
  match old with
  | some x => (match x.ref with
    | some ref => s.refDone ref st
    | none => s)
  | none => s

theorem endReplacement_none {old : Option Replacement} (h : old.bind (fun x => x.ref) = none) (s : State) (st : Nat) : s.endReplacement old st = s := by
  cases old with
  | none => rfl
  | some x =>
    rw [Option.bind_some] at h
    rw [State.endReplacement, h]

theorem endReplacement_some {old : Option Replacement} {ref : Nat × Nat} (h : old.bind (fun x => x.ref) = some ref) (s : State) (st : Nat) :
    s.endReplacement old st = s.refDone ref st := by
  cases old with
  | none => cases h
  | some x =>
    rw [Option.bind_some] at h
    rw [State.endReplacement, h]

section
variable (h : FleetStarts s ring.val index.toNat 0x16 d)
include h

theorem replace_declares {w : State} (hw : (s.declareFailed d.device).draw.2.endReplacement s.fleet.replace ((s.declareFailed d.device).draw.1 % 256) = w) :
    exec (.replace ring index true) s = .next (({ w with fleet := { w.fleet with
      replace := some ⟨d.device, natBits 16 14 (d.word 2), some (ring.val, d.index)⟩, repairNext := some (natBits 16 14 (d.word 2), d.device) } } : State).ringStart ring d) := by
  subst hw
  rw [← declareFailed_replace s d.device]
  show Host.Outcome.next (s.fleetDesc ring index.toNat 0x16 _) = _
  rw [fleetDesc_starts h]
  rfl

theorem replace_reports : exec (.replace ring index false) s = .next ((s.postFleet d.device).ringComplete ring d stBAD_OPCODE) := by
  show Host.Outcome.next (s.fleetDesc ring index.toNat 0x16 _) = _
  rw [fleetDesc_starts h]
  rfl

end

/-! ## KEEPER_RESET and READMIT (R406, R407) -/

/-- The manager waits for the report of a Keeper that it has reset. -/
def State.askReport (s : State) (dev r i : Nat) : State := { s with fleet := { s.fleet with asked := s.fleet.asked ++ [(dev, s.now, r, i)] } }

theorem keeperReset_orders (h : FleetStarts s ring.val index.toNat 0x17 d) : exec (.keeperReset ring index) s
    = .next (((s.orderTo d.device 14 []).askReport d.device ring.val d.index).ringStart ring d) := by
  show Host.Outcome.next (s.fleetDesc ring index.toNat 0x17 _) = _
  rw [fleetDesc_starts h]
  rfl

section
variable (h : FleetStarts s ring.val index.toNat 0x18 d)
include h

theorem readmit_behind (hb : s.governed.any (fun m => m.dev == d.device && decide (m.epoch < s.epoch)) = true) : exec (.readmit ring index) s
    = .next ((s.declareFailed d.device).ringComplete ring d stBAD_OPCODE) := by
  show Host.Outcome.next (s.fleetDesc ring index.toNat 0x18 _) = _
  rw [fleetDesc_starts h, if_pos hb]

/-- The next decision carries RERUN. -/
def State.rerunNext (s : State) : State := { s with fleet := { s.fleet with rerunNext := true } }

theorem readmit_orders (hb : ¬s.governed.any (fun m => m.dev == d.device && decide (m.epoch < s.epoch)) = true) : exec (.readmit ring index) s
    = .next (((s.orderTo d.device 10 []).rerunNext.addWait 0x18 d.device ring.val d.index).ringStart ring d) := by
  show Host.Outcome.next (s.fleetDesc ring index.toNat 0x18 _) = _
  rw [fleetDesc_starts h, if_neg hb]
  rfl

end

/-! ## FLEET_WAKE (R371) -/

section
variable {p b : Nat} (h : FleetStarts s ring.val index.toNat 0x19 d)
include h

theorem fleetWake_noRoute (he : s.egress d.device = none) : exec (.fleetWake ring index) s = .next (s.ringComplete ring d stBUS_FAULT) := by
  show Host.Outcome.next (s.fleetDesc ring index.toNat 0x19 _) = _
  rw [fleetDesc_starts h]
  dsimp only
  rw [he]

/-- With a way to it, a neighbour gets the flit and another device the order. -/
theorem fleetWake_sends (he : s.egress d.device = some (p, b)) (hs : s.egressStatus d.device 3 = stOK) : exec (.fleetWake ring index) s
    = .next ((if s.rf (LK_STATE p b) LK_STATE_PEER = d.device then s.control p b 4 (natBits 16 4 (d.word 2))
      else s.orderTo d.device 11 [natBits 16 4 (d.word 2)]).ringComplete ring d stOK) := by
  show Host.Outcome.next (s.fleetDesc ring index.toNat 0x19 _) = _
  rw [fleetDesc_starts h]
  dsimp only
  rw [he]
  dsimp only
  rw [if_neg (not_not.2 hs)]

end

theorem orderDescriptorsComplete : OrderDescriptorsComplete := by
  intro ring index d s
  refine ⟨fun h => ?snapshot, fun h => restore_falls_back h, fun h => ⟨withdraw_own h, withdraw_other h, withdraw_alone h, withdraw_all h⟩, fun h => ?replace,
    fun h => ⟨_, rfl, keeperReset_orders h⟩, fun h => ⟨readmit_behind h, fun hb => ⟨_, rfl, readmit_orders h hb⟩⟩, fun h => ?wake⟩
  case snapshot =>
    exact ⟨snapshot_none h, fun hb => snapshot_asks h hb (by decide), fun hb => snapshot_asks h hb (by decide), fun hb => snapshot_asks h hb (by decide)⟩
  case replace =>
    exact ⟨⟨_, _, Nat.mod_lt _ (by decide), fun hn => endReplacement_none hn .., fun _ hr => endReplacement_some hr .., replace_declares h rfl⟩, replace_reports h⟩
  case wake =>
    intro mask
    refine ⟨fun p b he hs => ⟨fun hp => ?_, fun hp => ?_⟩, fleetWake_noRoute h⟩
    · rw [fleetWake_sends h he hs, if_pos hp]
    · rw [fleetWake_sends h he hs, if_neg hp]

/-- Settles O47, descriptor by descriptor: one that starts is carried out, and each branch of the carrying out is a lemma above. -/
theorem fleetDescriptorsComplete : Obligations.FleetDescriptorsComplete := ⟨admissionsComplete, boundDescriptorsComplete, orderDescriptorsComplete⟩

end

end Sys2Proof.Machine
end
section
/-! PROOFS. Orders to a device of a fleet: whose orders it accepts, the ID that it takes, and its admission (R69, R268, R316, R383, R389, R406). -/

namespace Sys2Proof.Machine

/-! ## An ID taken (R316, R383) -/

/-- The registers of the rings' owners. -/
def ringOwners : List Nat := (List.range 16).map KP_RING_OWNER

/-- The owner of one ring follows a change of the device's ID. -/
def State.followId (s : State) (old new r : Nat) : State :=
  if s.rf (KP_RING_OWNER r) KP_RING_OWNER_OWNER / 4096 = old then
    s.wf (KP_RING_OWNER r) KP_RING_OWNER_OWNER (new % 2 ^ 14 * 4096 + s.rf (KP_RING_OWNER r) KP_RING_OWNER_OWNER % 4096)
  else s

section
variable {l : List Nat} {new : Nat}

theorem takeId_eq (s : State) (new : Nat) :
    s.takeId new = (List.range 16).foldl (fun t r => t.followId s.devId new r) (s.wf KP_FLEET_ID KP_FLEET_ID_DEV_ID new) := rfl

theorem regsBut_followId (s : State) (old new r : Nat) : RegsBut s (s.followId old new r) [KP_RING_OWNER r] := by
  unfold State.followId
  split
  · exact (RegsBut.refl s _).wf (List.mem_cons_self ..) _ _
  · exact .refl s _

theorem onlyRegs_followId (s : State) (old new r : Nat) : OnlyRegs s (s.followId old new r) := by
  unfold State.followId
  split
  · exact (OnlyRegs.refl s).wf _ _ _
  · exact .refl s

/-- Registers that no turn of a loop writes stay through the loop. -/
theorem RegsBut.foldl {α : Type} {f : State → α → State} {xs : List α} (hf : ∀ u x, x ∈ xs → RegsBut u (f u x) l) (s : State) : RegsBut s (xs.foldl f s) l := by
  induction xs generalizing s with
  | nil => exact .refl s l
  | cons x xs ih => exact (hf s x (List.mem_cons_self ..)).trans (ih (fun u y hy => hf u y (List.mem_cons_of_mem _ hy)) _)

/-- Beside the ID itself, a device that takes one writes the owners of its rings alone. -/
theorem regsBut_takeId (s : State) (new : Nat) : RegsBut (s.wf KP_FLEET_ID KP_FLEET_ID_DEV_ID new) (s.takeId new) ringOwners :=
  RegsBut.foldl (fun u r hr => RegsBut.mono (regsBut_followId u s.devId new r) (List.cons_subset.2 ⟨List.mem_map_of_mem hr, List.nil_subset _⟩)) _

theorem onlyRegs_takeId (s : State) (new : Nat) : OnlyRegs s (s.takeId new) :=
  ((OnlyRegs.refl s).wf _ _ _).trans (foldl_rel OnlyRegs.refl OnlyRegs.trans (fun _ _ => onlyRegs_followId ..) _ _)

theorem devId_takeId {s : State} (h : new < 2 ^ 14) : (s.takeId new).devId = new :=
  ((regsBut_takeId s new).devId (by decide)).trans (rf_wf_fits (by decide) h)

end

/-! ## Whose orders are accepted (R383, R389) -/

section
variable {s : State} {src : Ident} {o : FleetOrder}

/-- A member of a fleet with no acting standby hears its manager alone. -/
theorem acceptsOrder_stranger (hf : s.inFleet = true) (hm : src.dev.toNat ≠ s.manager) (hl : s.rf KP_FLEET_STBY KP_FLEET_STBY_LEASE ≠ 3) :
    s.acceptsOrder src o = false := by
  unfold State.acceptsOrder
  dsimp only
  split
  · rw [hf, Bool.not_true]
  · simp [hm, hl]

theorem fleetCmd_refused (h : s.acceptsOrder src o = false) : exec (.fleetCmd src o) s = .next s := by
  show execFleetCmd src o s = _
  unfold execFleetCmd
  rw [h, Bool.not_false, if_pos rfl]

theorem fleetCmd_obeyed (h : s.acceptsOrder src o = true) (ho : o ≠ .keeperReset) (hk : s.keeperUp = true) (ha : s.fleet.adrift = false) :
    exec (.fleetCmd src o) s = .next (s.obey src o) := by
  show execFleetCmd src o s = _
  unfold execFleetCmd
  rw [h, Bool.not_true, if_neg Bool.false_ne_true, if_neg ho, hk, ha, Bool.not_false, Bool.and_true, if_pos rfl]

/-- A KEEPER_RESET needs no Keeper that runs. -/
theorem fleetCmd_resets (h : s.acceptsOrder src .keeperReset = true) (hk : s.rb KP_FLEET_CFG KP_FLEET_CFG_KR_AUTH = true) :
    exec (.fleetCmd src .keeperReset) s = .next s.keeperReset := by
  show execFleetCmd src .keeperReset s = _
  unfold execFleetCmd
  rw [h, Bool.not_true, if_neg Bool.false_ne_true, if_pos rfl, State.obey, if_pos hk]

end

/-! ## Admission at the candidate (R69, R268, R383, R463) -/

section
variable {s : State}

/-- The device takes its place in the fleet: its ID, its role, its duty and its manager. -/
def State.placed (s : State) (mgr id role duty : Nat) : State :=
  (((s.takeId id).wf KP_FLEET_ID KP_FLEET_ID_ROLE role).wf KP_FLEET_ID KP_FLEET_ID_DUTY duty).wf KP_FLEET_ID KP_FLEET_ID_MGR_ID (if role = 0 ∨ role = 3 then id else mgr)

theorem placed_fields {mgr id role duty : Nat} (hm : mgr < 2 ^ 14) (hi : id < 2 ^ 14) (hr : role < 4) (hd : duty < 4) : let t := s.placed mgr id role duty
    t.devId = id ∧ t.role = role ∧ t.manager = (if role = 0 ∨ role = 3 then id else mgr) ∧ t.rf KP_FLEET_ID KP_FLEET_ID_DUTY = duty := by
  unfold State.placed State.devId State.role State.manager
  have hmgr : (if role = 0 ∨ role = 3 then id else mgr) < 2 ^ 14 := by split <;> assumption
  refine ⟨?_, ?_, rf_wf_fits (by decide) hmgr, ?_⟩
  · rw [State.rf_wf_disjoint _ _ _ _ _ (by decide) (by decide), State.rf_wf_disjoint _ _ _ _ _ (by decide) (by decide),
      State.rf_wf_disjoint _ _ _ _ _ (by decide) (by decide)]
    exact devId_takeId hi
  · rw [State.rf_wf_disjoint _ _ _ _ _ (by decide) (by decide), State.rf_wf_disjoint _ _ _ _ _ (by decide) (by decide)]
    exact rf_wf_fits (by decide) hr
  · rw [State.rf_wf_disjoint _ _ _ _ _ (by decide) (by decide)]
    exact rf_wf_fits (by decide) hd

theorem onlyRegs_placed (s : State) (mgr id role duty : Nat) : OnlyRegs s (s.placed mgr id role duty) := (((onlyRegs_takeId s id).wf _ _ _).wf _ _ _).wf _ _ _

theorem regsBut_placed (s : State) (mgr id role duty : Nat) : RegsBut s (s.placed mgr id role duty) (KP_FLEET_ID :: ringOwners) := by
  have hid : RegsBut s (s.wf KP_FLEET_ID KP_FLEET_ID_DEV_ID id) (KP_FLEET_ID :: ringOwners) := (RegsBut.refl s _).wf (List.mem_cons_self ..) _ _
  have htake := hid.trans ((regsBut_takeId s id).mono (List.subset_cons_self ..))
  exact ((htake.wf (List.mem_cons_self ..) _ _).wf (List.mem_cons_self ..) _ _).wf (List.mem_cons_self ..) _ _

/-- The manager's right to reset the Keeper is set, and the admission record measured. -/
def State.recorded (s : State) (kr : Bool) (record : BitVec 256) : State := (s.wb KP_FLEET_CFG KP_FLEET_CFG_KR_AUTH kr).measExtend 6 (digestBytes record)

theorem regsBut_measure (s : State) (v : Nat) : RegsBut s (s.wrWide (KP_MEAS 6 0) 8 v) (wordsAt (KP_MEAS 6 0) 8) := (RegsBut.refl s _).wrWide (List.Subset.refl _) v

theorem recorded_krAuth (s : State) (kr : Bool) (record : BitVec 256) : (s.recorded kr record).rb KP_FLEET_CFG KP_FLEET_CFG_KR_AUTH = kr :=
  (rb_of_regs (regsBut_measure _ _) (by decide) _).trans (rb_wb_same s _ (by decide) rfl kr)

theorem onlyRegs_recorded (s : State) (kr : Bool) (record : BitVec 256) : OnlyRegs s (s.recorded kr record) := onlyRegs_wrWide ((OnlyRegs.refl s).wf _ _ _) _ _ _

theorem regsBut_recorded (s : State) (kr : Bool) (record : BitVec 256) : RegsBut s (s.recorded kr record) (KP_FLEET_CFG :: wordsAt (KP_MEAS 6 0) 8) :=
  RegsBut.wrWide (RegsBut.wf (RegsBut.refl s _) (List.mem_cons_self ..) _ _) (List.subset_cons_self ..) _

/-- The admission record is kept. -/
def State.filed (s : State) (record : BitVec 256) : State := { s with sec := { s.sec with records := s.sec.records ++ [record] } }

theorem assignOwn_eq (s : State) (mgr id role duty : Nat) (kr : Bool) (record : BitVec 256) :
    s.assignOwn mgr id role duty kr record = ((s.placed mgr id role duty).recorded kr record).filed record := rfl

/-- The epoch and the training counts are those of the manager. -/
def State.atCounts (s : State) (epoch step cursor : Nat) : State := ((s.wrWide TM_EPOCH_0 2 epoch).wrWide KP_STEP_0 2 step).wrWide KP_CURSOR_0 2 cursor

theorem onlyRegs_atCounts (s : State) (epoch step cursor : Nat) : OnlyRegs s (s.atCounts epoch step cursor) :=
  onlyRegs_wrWide (onlyRegs_wrWide (onlyRegs_wrWide (OnlyRegs.refl s) _ _ _) _ _ _) _ _ _

theorem regsBut_atCounts (s : State) (epoch step cursor : Nat) :
    RegsBut s (s.atCounts epoch step cursor) (wordsAt TM_EPOCH_0 2 ++ wordsAt KP_STEP_0 2 ++ wordsAt KP_CURSOR_0 2) :=
  (((RegsBut.refl s _).wrWide (by decide) _).wrWide (by decide) _).wrWide (by decide) _

theorem atCounts_counts {epoch step cursor : Nat} (he : epoch < 2 ^ 64) (hs : step < 2 ^ 64) (hc : cursor < 2 ^ 64) : let t := s.atCounts epoch step cursor
    t.epoch = epoch ∧ t.rdWide KP_STEP_0 2 = step ∧ t.rdWide KP_CURSOR_0 2 = cursor := by
  have hcur (u : State) : RegsBut u (u.wrWide KP_CURSOR_0 2 cursor) (wordsAt KP_CURSOR_0 2) := (RegsBut.refl u _).wrWide (List.Subset.refl _) _
  have hstep (u : State) : RegsBut u (u.wrWide KP_STEP_0 2 step) (wordsAt KP_STEP_0 2) := (RegsBut.refl u _).wrWide (List.Subset.refl _) _
  have hread (u : State) (a : Nat) {v : Nat} (hv : v < 2 ^ 64) : (u.wrWide a 2 v).rdWide a 2 = v := (rdWide_wrWide u a 2 v).trans (Nat.mod_eq_of_lt hv)
  exact ⟨((hcur _).rdWide (by decide)).trans (((hstep _).rdWide (by decide)).trans (hread _ _ he)), ((hcur _).rdWide (by decide)).trans (hread _ _ hs), hread _ _ hc⟩

section
variable {mgr id role duty : Nat} {kr : Bool} {record : BitVec 256} {epoch step cursor : Nat}

/-- What an assignment writes in registers. -/
def State.assigned (s : State) (mgr id role duty : Nat) (kr : Bool) (record : BitVec 256) (epoch step cursor : Nat) : State :=
  ((s.placed mgr id role duty).recorded kr record).atCounts epoch step cursor

theorem onlyRegs_assigned (s : State) (mgr id role duty : Nat) (kr : Bool) (record : BitVec 256) (epoch step cursor : Nat) :
    OnlyRegs s (s.assigned mgr id role duty kr record epoch step cursor) :=
  ((onlyRegs_placed ..).trans (onlyRegs_recorded ..)).trans (onlyRegs_atCounts ..)

/-- What an assignment writes beside the device's place in the fleet. -/
theorem regsBut_assigned_placed : RegsBut (s.placed mgr id role duty) (s.assigned mgr id role duty kr record epoch step cursor)
    (KP_FLEET_CFG :: wordsAt (KP_MEAS 6 0) 8 ++ (wordsAt TM_EPOCH_0 2 ++ wordsAt KP_STEP_0 2 ++ wordsAt KP_CURSOR_0 2)) :=
  (RegsBut.mono (regsBut_recorded _ kr record) (List.subset_append_left ..)).trans (RegsBut.mono (regsBut_atCounts _ epoch step cursor) (List.subset_append_right ..))

theorem regsBut_assigned : RegsBut s (s.assigned mgr id role duty kr record epoch step cursor)
    (KP_FLEET_ID :: KP_FLEET_CFG :: wordsAt (KP_MEAS 6 0) 8 ++ ringOwners ++ wordsAt TM_EPOCH_0 2 ++ wordsAt KP_STEP_0 2 ++ wordsAt KP_CURSOR_0 2) :=
  (RegsBut.mono (regsBut_placed s mgr id role duty) (by decide)).trans (RegsBut.mono regsBut_assigned_placed (by decide))

/-- What an assigned device reads of its place, of KR_AUTH and of its counts. -/
theorem assigned_fields (hm : mgr < 2 ^ 14) (hi : id < 2 ^ 14) (hr : role < 4) (hd : duty < 4) (he : epoch < 2 ^ 64) (hs : step < 2 ^ 64) (hc : cursor < 2 ^ 64) :
    let t := s.assigned mgr id role duty kr record epoch step cursor
    t.devId = id ∧ t.role = role ∧ t.manager = (if role = 0 ∨ role = 3 then id else mgr) ∧ t.rf KP_FLEET_ID KP_FLEET_ID_DUTY = duty
      ∧ t.rb KP_FLEET_CFG KP_FLEET_CFG_KR_AUTH = kr ∧ t.epoch = epoch ∧ t.rdWide KP_STEP_0 2 = step ∧ t.rdWide KP_CURSOR_0 2 = cursor := by
  obtain ⟨hdev, hrole, hmgr, hduty⟩ := placed_fields (s := s) hm hi hr hd
  have hid {f : Fld} : (s.assigned mgr id role duty kr record epoch step cursor).rf KP_FLEET_ID f = (s.placed mgr id role duty).rf KP_FLEET_ID f :=
    RegsBut.rf regsBut_assigned_placed (by decide) f
  have hkr := (rb_of_regs (regsBut_atCounts ((s.placed mgr id role duty).recorded kr record) epoch step cursor) (by decide) _).trans (recorded_krAuth ..)
  exact ⟨hid.trans hdev, hid.trans hrole, hid.trans hmgr, hid.trans hduty, hkr, atCounts_counts he hs hc⟩

end

section
variable {src : Ident} {id : BitVec 14} {role duty : BitVec 2} {kr : Bool} {r : BitVec 256} {epoch step cursor : BitVec 48}

/-- An assignment writes its registers, keeps its record, and starts the history of epochs anew. -/
theorem obey_assign : s.obey src (.assign id role duty kr r epoch step cursor)
    = { s.assigned src.dev.toNat id.toNat role.toNat duty.toNat kr r epoch.toNat step.toNat cursor.toNat with
        sec := { s.sec with records := s.sec.records ++ [r] }, lock := { s.lock with history := [(epoch.toNat, 0)], past := [] } } := by
  obtain ⟨x, hx⟩ := (onlyRegs_placed s src.dev.toNat id.toNat role.toNat duty.toNat).trans (onlyRegs_recorded _ kr r)
  rw [State.obey, assignOwn_eq, State.assigned, hx]
  rfl

theorem acceptsOrder_assign (h : s.inFleet = false) : s.acceptsOrder src (.assign id role duty kr r epoch step cursor) = true := by
  rw [State.acceptsOrder, h]
  rfl

theorem fleetCmd_assigns (hf : s.inFleet = false) (hk : s.keeperUp = true) (ha : s.fleet.adrift = false) :
    ∃ t : State, exec (.fleetCmd src (.assign id role duty kr r epoch step cursor)) s = .next t
      ∧ t.devId = id.toNat ∧ t.role = role.toNat ∧ t.manager = (if role = 0#2 ∨ role = 3#2 then id.toNat else src.dev.toNat)
      ∧ t.rf KP_FLEET_ID KP_FLEET_ID_DUTY = duty.toNat ∧ t.rb KP_FLEET_CFG KP_FLEET_CFG_KR_AUTH = kr
      ∧ t.epoch = epoch.toNat ∧ t.rdWide KP_STEP_0 2 = step.toNat ∧ t.rdWide KP_CURSOR_0 2 = cursor.toNat
      ∧ RegsBut s t (KP_FLEET_ID :: KP_FLEET_CFG :: wordsAt (KP_MEAS 6 0) 8 ++ ringOwners ++ wordsAt TM_EPOCH_0 2 ++ wordsAt KP_STEP_0 2 ++ wordsAt KP_CURSOR_0 2)
      ∧ t = { s with regs := t.regs, sec := { s.sec with records := s.sec.records ++ [r] }, lock := { s.lock with history := [(epoch.toNat, 0)], past := [] } } := by
  have hx := fleetCmd_obeyed (o := .assign id role duty kr r epoch step cursor) (acceptsOrder_assign (src := src) hf) FleetOrder.noConfusion hk ha
  rw [obey_assign] at hx
  have hboss : (if role.toNat = 0 ∨ role.toNat = 3 then id.toNat else src.dev.toNat) = if role = 0#2 ∨ role = 3#2 then id.toNat else src.dev.toNat := by
    simp only [BitVec.toNat_eq, BitVec.toNat_ofNat]
  have hfields := assigned_fields (s := s) (kr := kr) (record := r) src.dev.isLt id.isLt role.isLt duty.isLt
    (epoch := epoch.toNat) (step := step.toNat) (cursor := cursor.toNat) (by omega) (by omega) (by omega)
  rw [hboss] at hfields
  have hregs := regsBut_assigned (s := s) (mgr := src.dev.toNat) (id := id.toNat) (role := role.toNat) (duty := duty.toNat) (kr := kr) (record := r)
    (epoch := epoch.toNat) (step := step.toNat) (cursor := cursor.toNat)
  have honly := onlyRegs_assigned s src.dev.toNat id.toNat role.toNat duty.toNat kr r epoch.toNat step.toNat cursor.toNat
  generalize s.assigned src.dev.toNat id.toNat role.toNat duty.toNat kr r epoch.toNat step.toNat cursor.toNat = w at hx hfields hregs honly
  obtain ⟨hdev, hrole, hmgr, hduty, hkr, hepoch, hstep, hcursor⟩ := hfields
  have hsame {x : Security} {y : LockState} : RegsBut w { w with sec := x, lock := y } [] := (RegsBut.refl w []).of_regs rfl
  have hread {x : Security} {y : LockState} {a : Nat} {f : Fld} : ({ w with sec := x, lock := y } : State).rf a f = w.rf a f := hsame.rf List.not_mem_nil f
  have hwide {x : Security} {y : LockState} {a : Nat} : ({ w with sec := x, lock := y } : State).rdWide a 2 = w.rdWide a 2 := hsame.rdWide fun _ _ => List.not_mem_nil
  refine ⟨_, hx, hread.trans hdev, hread.trans hrole, hread.trans hmgr, hread.trans hduty, (rb_of_regs hsame List.not_mem_nil _).trans hkr,
    hwide.trans hepoch, hwide.trans hstep, hwide.trans hcursor, hregs.of_regs rfl, ?_⟩
  obtain ⟨x, rfl⟩ := honly
  rfl

end

end

/-- Settles O48: an order by whether it is accepted and from whom, an assignment by what it writes in registers (`obey_assign`), one after another. -/
theorem fleetOrdersComplete : Obligations.FleetOrdersComplete := fun _ _ _ =>
  ⟨fleetCmd_obeyed, fun _ _ _ _ _ _ _ _ hf hk ha => fleetCmd_assigns hf hk ha, fleetCmd_resets, fun hf hm hl => fleetCmd_refused (acceptsOrder_stranger hf hm hl)⟩

end Sys2Proof.Machine
end
section
/-! PROOFS. A broadcast at its receivers and at its sender (R391 to R393). -/

namespace Sys2Proof.Machine

section
variable {s : State} {k : Bcast} (hk : s.fleet.bcast = some k)
include hk

/-! ## Chunks (R391) -/

section
variable {number : Byte} {block : BitVec 16} {index : Byte} {data : List Byte}

/-- A chunk that is held already adds nothing. -/
theorem chunk_held (h : k.got.contains (128 * block.toNat + index.toNat) = true) : exec (.chunk number block index data) s = .next s := by
  show execChunk number block index data s = _
  unfold execChunk
  rw [hk]
  dsimp only
  rw [h, Bool.or_true, if_pos rfl]

/-- A new chunk of the broadcast in reception is stored, noted as held, and forwarded. -/
theorem chunk_stored (hs : k.source = none) (hn : number.toNat = k.number) (hb : block.toNat < k.blocks) (hi : index.toNat < 80)
    (h : ¬k.got.contains (128 * block.toNat + index.toNat) = true) : let bytes := (data ++ List.replicate 4096 0#8).take 4096
    exec (.chunk number block index data) s = .next (k.children.foldl (fun s c => if s.childOpen c then s.sendChunk c k block.toNat index.toNat bytes else s)
      ((s.memWr (k.place block.toNat index.toNat) bytes).2.setCast { k with got := k.got ++ [128 * block.toNat + index.toNat] })) := by
  show execChunk number block index data s = _
  unfold execChunk
  rw [hk]
  dsimp only
  rw [Bool.not_eq_true] at h
  rw [hs, hn, h, if_neg (by simp [hb, hi])]

end

/-! ## MISSING (R392) -/

theorem windowEnd_tells (hs : k.source = none) (hw : k.windowEnd ≤ s.now) (hm : k.missingAt = 0) : exec .broadcastWindowEnd s = .next (s.sendMissing k) := by
  show execBroadcastWindowEnd s = _
  unfold execBroadcastWindowEnd
  rw [hk]
  dsimp only
  rw [if_pos ⟨by rw [hs]; rfl, hw, hm⟩]

theorem receiving_some (hs : k.source = none) (hv : k.verified = false) (hf : k.failed = false) (hl : k.lacking ≠ []) : s.receiving = some k := by
  unfold State.receiving
  rw [hk]
  dsimp only
  rw [if_pos (by simp [hs, hv, hf, hl])]

theorem missingRepeat_tells (hs : k.source = none) (hv : k.verified = false) (hf : k.failed = false) (hl : k.lacking ≠ []) (hm : k.missingAt ≠ 0) (hw : k.missingAt + 100000000 ≤ s.now) (hd : s.now < k.deadline) :
    exec .missingRepeat s = .next (s.sendMissing k) := by
  show execMissingRepeat s = _
  unfold execMissingRepeat
  rw [receiving_some hk hs hv hf hl]
  dsimp only
  rw [if_pos ⟨hm, hw, hd⟩]

/-- A manager notes what its receiver lacks, and sends it. -/
theorem missing_filled {receiver : BitVec 14} {m : Member} (blocks : List (BitVec 16 × BitVec 80)) (hr : 2 ≤ s.role) (hm : s.member receiver.toNat = some m) :
    exec (.missing receiver blocks) s = .next (blocks.foldl (fun s x => if x.1.toNat < k.blocks then s.fillBlock receiver.toNat k x.1.toNat x.2.toNat else s)
      (s.modMember receiver.toNat (fun m => { m with lacking := !blocks.isEmpty }))) := by
  show execMissing receiver blocks s = _
  unfold execMissing
  rw [hk]
  dsimp only
  rw [hm, if_neg (by simp; omega)]

/-! ## The end of a broadcast at a receiver (R393) -/

/-- The image of a complete receiver goes to its other slot. -/
theorem imageVerify_judges {badTries : Nat} (hs : k.source = none) (hv : k.verified = false) (hf : k.failed = false) (hl : k.lacking = []) (hu : s.keeperUp = true) :
    let z := s.writeImage (1 - s.slot) (s.castImage k)
    exec (.imageVerify badTries) s = .next (if !z.imageOk (1 - z.slot) || decide (4 ≤ badTries) then s.setCast { k with failed := true }
      else let u := z.setCast { k with verified := true }; if u.epochPast k.activation then u else u.bind k.activation .image none) := by
  show execImageVerify badTries s = _
  unfold execImageVerify
  rw [hk]
  dsimp only
  rw [if_neg (by simp [hs, hv, hf, hl, hu])]
  split <;> rfl

theorem deadline_fails (hs : k.source = none) (hv : k.verified = false) (hd : k.deadline ≤ s.now) :
    exec .broadcastDeadline s = .next (s.setCast { k with failed := true }) := by
  show execBroadcastDeadline s = _
  unfold execBroadcastDeadline
  rw [hk]
  dsimp only
  rw [if_pos ⟨by rw [hs]; rfl, by rw [hv]; rfl, hd⟩]

end

/-- Settles O50: each command by its guard, and a complete receiver by whether its image verifies. -/
theorem broadcastCommandsComplete : Obligations.BroadcastCommandsComplete := by
  intro k s hk
  refine ⟨fun _ _ _ _ hs hn hb hi => ⟨chunk_held hk, chunk_stored hk hs hn hb hi⟩, windowEnd_tells hk,
    missingRepeat_tells hk, fun _ _ blocks => missing_filled hk blocks, ?_, deadline_fails hk⟩
  intro badTries hs hv hf hl hu z u
  have hgood : (z.imageOk (1 - z.slot) = true ∧ badTries < 4) ↔ ¬(!z.imageOk (1 - z.slot) || decide (4 ≤ badTries)) = true := by simp
  rw [imageVerify_judges hk hs hv hf hl hu, if_congr hgood rfl rfl, ite_not]

end Sys2Proof.Machine
end
section
/-! PROOFS. A manager's watch over its devices, snapshot transfers and heartbeats (R389, R399, R402 to R406). -/

namespace Sys2Proof.Machine

section
variable {s : State} {dev : BitVec 14}

/-! ## Reports and failures (R389, R402, R406) -/

theorem report_kept {score : Byte} {losses : List Dword} {note : LockNote} {epoch : BitVec 48} {m : Member} (hr : 2 ≤ s.role) (hm : s.member dev.toNat = some m) :
    let a := (s.modMember dev.toNat (fun m => { m with
      score := score.toNat, epoch := epoch.toNat, losses := if losses.isEmpty then m.losses else (losses :: m.losses).take 2 })).endAsked dev.toNat stOK
    let b := if note.idle then a.endWaits 0x1B dev.toNat stOK else a
    let c := if b.epoch ≤ epoch.toNat ∨ (b.member dev.toNat).any (fun m => m.duty == 1) = true then b.endWaits 0x110 dev.toNat stOK else b
    exec (.report dev score losses note epoch) s = .next (if note.missed ≠ 0 ∧ epoch.toNat < c.epoch then c.declareFailed dev.toNat else c) := by
  exact if_neg (not_or.2 ⟨Nat.not_lt.2 hr, by simp [hm]⟩)

theorem adrift_fails (epoch : BitVec 48) (hr : 2 ≤ s.role) :
    exec (.adrift dev epoch) s = .next ((s.modMember dev.toNat (fun m => { m with epoch := epoch.toNat })).declareFailed dev.toNat) := by
  show execAdrift dev epoch s = _
  unfold execAdrift
  rw [if_neg (by omega)]

theorem keeperReportTimeout_releases {t0 r i : Nat} (h : s.fleet.asked = [(dev.toNat, t0, r, i)]) (ht : t0 + 10000000000 ≤ s.now) :
    exec (.keeperReportTimeout dev) s = .next ((s.draw.2.endAsked dev.toNat (s.draw.1 % 256)).releaseMember dev.toNat) := by
  show execKeeperReportTimeout dev s = _
  unfold execKeeperReportTimeout
  rw [h, if_pos (by simpa using ht)]

/-! ## Repair and replay (R402 to R404) -/

/-- The switch of a repair. -/
def State.repaired (s : State) : State := ({ s with fleet := { s.fleet with repairAt := none } } : State).switchBank

theorem repaired_bank (s : State) : s.repaired.rb KP_ROUTE KP_ROUTE_BANK = !s.rb KP_ROUTE KP_ROUTE_BANK := rb_wb_same _ _ (by decide) rfl _

theorem repairSwitch_routes {t0 : Nat} (h : s.fleet.repairAt = some (t0, none)) (ht : t0 ≤ s.now) : exec .repairSwitch s = .next s.repaired := by
  show execRepairSwitch s = _
  unfold execRepairSwitch
  rw [h]
  exact if_neg (Nat.not_lt.2 ht)

theorem repairSwitch_ids {t0 old new : Nat} (h : s.fleet.repairAt = some (t0, some (old, new))) (ht : t0 ≤ s.now) :
    exec .repairSwitch s = .next (s.repaired.changeIds old new) := by
  show execRepairSwitch s = _
  unfold execRepairSwitch
  rw [h]
  exact if_neg (Nat.not_lt.2 ht)

/-- A change of the members shows in KP_FLEET_STATUS. -/
theorem setMembers_frame (s : State) (l : List Member) : RegsBut s (s.setMembers l) [KP_FLEET_STATUS]
    ∧ s.setMembers l = { s with regs := (s.setMembers l).regs, fleet := { s.fleet with members := l } } :=
  ⟨(RegsBut.wf (RegsBut.of_regs (RegsBut.refl s _) rfl) (List.mem_cons_self ..) _ _).wf (List.mem_cons_self ..) _ _, rfl⟩

/-- The replacement is over. -/
def State.replaced (s : State) : State := { s with fleet := { s.fleet with replace := none } }

/-- The replaced member counts as failed no longer, and the next decision carries RERUN. -/
def State.replayed (s : State) (dev : Nat) : State := (s.replaced.modMember dev (fun m => { m with failed := false, missed := 0 })).rerunNext

theorem replayed_frame (s : State) (dev : Nat) : RegsBut s (s.replayed dev) [KP_FLEET_STATUS]
    ∧ s.replayed dev = { s with regs := (s.replayed dev).regs, fleet := { s.fleet with replace := none, rerunNext := true, members := (s.replayed dev).fleet.members } } := by
  obtain ⟨l, hl⟩ : ∃ l, s.replayed dev = (s.replaced.setMembers l).rerunNext := ⟨_, rfl⟩
  obtain ⟨hregs, heq⟩ := setMembers_frame s.replaced l
  rw [hl]
  generalize s.replaced.setMembers l = u at hregs heq
  refine ⟨fun a ha => hregs a ha, ?_⟩
  rw [heq]
  rfl

section
variable {x : Replacement} {samples : List Dword} (hx : s.fleet.replace = some x) (hn : s.fleet.repairNext = none) (hr : x.ref = none)
  (hp : s.rb KP_FLEET_CFG KP_FLEET_CFG_REPLAY = true)
include hx hn hr hp

theorem replayCheck_judges : exec (.replayCheck samples) s = if samples == s.lossRecord x.failed then .next (s.replayed x.failed)
    else .next (s.replaced.draw.2.restoreAll s.replaced.draw.2.snapEpoch) := by
  show execReplayCheck samples s = _
  unfold execReplayCheck
  rw [hx]
  dsimp only
  rw [hn, Option.isSome_none, if_neg Bool.false_ne_true, hp, hr, Bool.not_true, Bool.false_or, if_pos rfl]
  rfl

theorem replayCheck_matches (hs : samples = s.lossRecord x.failed) : exec (.replayCheck samples) s = .next (s.replayed x.failed) := by
  rw [replayCheck_judges hx hn hr hp, if_pos (beq_iff_eq.2 hs)]

theorem replayCheck_differs (hs : samples ≠ s.lossRecord x.failed) :
    exec (.replayCheck samples) s = .next (s.replaced.draw.2.restoreAll s.replaced.draw.2.snapEpoch) := by
  rw [replayCheck_judges hx hn hr hp, if_neg (mt beq_iff_eq.1 hs)]

end

end

/-! ## Snapshot transfers (R399) -/

section
variable {s : State} {i : Nat} {good : Bool} {e r : Nat}

theorem syncSnaps_state (s : State) : s.syncSnaps.rf KP_SNAP_STATUS KP_SNAP_STATUS_STATE = s.rf KP_SNAP_STATUS KP_SNAP_STATUS_STATE := by
  unfold State.syncSnaps
  rw [State.wb, State.rf_wf_disjoint _ _ _ _ _ (by decide) (by decide), State.wb, State.rf_wf_disjoint _ _ _ _ _ (by decide) (by decide), State.wb,
    State.rf_wf_disjoint _ _ _ _ _ (by decide) (by decide)]

theorem regsBut_syncSnaps (s : State) : RegsBut s s.syncSnaps [KP_SNAP_STATUS] :=
  ((RegsBut.wf (RegsBut.refl s _) (List.mem_cons_self ..) _ _).wf (List.mem_cons_self ..) _ _).wf (List.mem_cons_self ..) _ _

theorem onlyRegs_syncSnaps (s : State) : OnlyRegs s s.syncSnaps := (((OnlyRegs.refl s).wf _ _ _).wf _ _ _).wf _ _ _

/-- A target has no transfer that runs. -/
def State.snapIdle (s : State) (i : Nat) : State :=
  { s with fleet := { s.fleet with snaps := s.fleet.snaps.set i { s.fleet.snaps.getD i Snap.initial with running := none, image := none, runRefs := [] } } }

/-- A transfer to a target has stopped, and its end stands in KP_SNAP_STATUS. -/
def State.snapStopped (s : State) (i : Nat) (good : Bool) : State :=
  ((s.snapIdle i).wf KP_SNAP_STATUS KP_SNAP_STATUS_STATE (if good then 2 else 3)).syncSnaps.draw.2

theorem snapStopped_state (s : State) (i : Nat) (good : Bool) :
    (s.snapStopped i good).rf KP_SNAP_STATUS KP_SNAP_STATUS_STATE = if good then 2 else 3 := by
  have hdraw (u : State) : u.draw.2.rf KP_SNAP_STATUS KP_SNAP_STATUS_STATE = u.rf KP_SNAP_STATUS KP_SNAP_STATUS_STATE := rfl
  rw [State.snapStopped, hdraw, syncSnaps_state]
  exact rf_wf_fits (by decide) (by cases good <;> decide)

theorem regsBut_snapStopped (s : State) (i : Nat) (good : Bool) : RegsBut s (s.snapStopped i good) [KP_SNAP_STATUS] := by
  have hw : RegsBut s ((s.snapIdle i).wf KP_SNAP_STATUS KP_SNAP_STATUS_STATE (if good then 2 else 3)) [KP_SNAP_STATUS] :=
    RegsBut.wf (RegsBut.of_regs (RegsBut.refl s _) rfl) (List.mem_cons_self ..) _ _
  exact (hw.trans (regsBut_syncSnaps _)).of_regs rfl

theorem snapStopped_eq (s : State) (i : Nat) (good : Bool) : s.snapStopped i good =
    { s with regs := (s.snapStopped i good).regs, fleet := { s.fleet with snaps := (s.snapStopped i good).fleet.snaps }, free := (s.snapStopped i good).free } := by
  obtain ⟨x, hx⟩ := ((OnlyRegs.refl (s.snapIdle i)).wf KP_SNAP_STATUS KP_SNAP_STATUS_STATE (if good then 2 else 3)).trans (onlyRegs_syncSnaps _)
  rw [State.snapStopped, hx]
  rfl

/-- The running transfer of a target is over. -/
theorem snapStopped_running (h : i < s.fleet.snaps.length) : ((s.snapStopped i good).fleet.snaps.getD i Snap.initial).running = none := by
  show ((s.fleet.snaps.set i _).getD i Snap.initial).running = none
  rw [List.getD_eq_getElem _ _ (by rwa [List.length_set]), List.getElem_set_self]

/-- The epoch of a good snapshot is kept. -/
def State.snapKept (s : State) (image : Option SnapImage) (e : Nat) : State := ({ s with fleet := { s.fleet with kept := image } } : State).wrWide KP_SNAP_EPOCH_0 2 e

theorem snapKept_epoch (s : State) (image : Option SnapImage) (e : Nat) : (s.snapKept image e).snapEpoch = e % 2 ^ 64 := rdWide_wrWide ..

theorem regsBut_snapKept (s : State) (image : Option SnapImage) (e : Nat) : RegsBut s (s.snapKept image e) (wordsAt KP_SNAP_EPOCH_0 2) :=
  RegsBut.wrWide (RegsBut.of_regs (RegsBut.refl s _) rfl) (List.Subset.refl _) _

theorem snapKept_eq (s : State) (image : Option SnapImage) (e : Nat) :
    s.snapKept image e = { s with regs := (s.snapKept image e).regs, fleet := { s.fleet with kept := image } } := wrWide_eq ..

/-- An event of the Keeper that is no input of the risk score is recorded, and nothing else happens. -/
theorem post_keeper {cls : Nat} (h : ¬(cls = 0x02 ∨ cls = 0x1B)) (s : State) (st d : Nat) : ∃ e, s.post cls st (s.src 0xD00) d = { s with events := e } := by
  have hm : masterOf (s.src 0xD00 % 4096) = .keeper := by
    have : s.src 0xD00 % 4096 = 0xD00 := by unfold State.src; omega
    exact (congrArg masterOf this).trans rfl
  unfold State.post State.postSev
  dsimp only
  rw [if_neg h, hm]
  exact ⟨_, rfl⟩

section
variable (h : (s.fleet.snaps.getD i Snap.initial).running = some (e, r)) (hr : (s.fleet.snaps.getD i Snap.initial).runRefs = [])
include h hr

/-- A transfer that no descriptor waits for ends with its epoch kept, or with an event. -/
theorem snapEnd_running : s.snapEnd i good = if good then (s.snapStopped i good).snapKept (s.fleet.snaps.getD i Snap.initial).image e
    else (s.snapStopped i good).post 0x27 stOK ((s.snapStopped i good).src 0xD00) e := by
  unfold State.snapEnd
  dsimp only
  rw [h]
  dsimp only
  rw [hr, List.foldl_nil]
  rfl

theorem transferEnd_good (hi : i < s.fleet.snaps.length) : let t := s.snapEnd i true
    (t.fleet.snaps.getD i Snap.initial).running = none ∧ t.rf KP_SNAP_STATUS KP_SNAP_STATUS_STATE = 2 ∧ t.snapEpoch = e % 2 ^ 64
      ∧ RegsBut s t (KP_SNAP_STATUS :: wordsAt KP_SNAP_EPOCH_0 2)
      ∧ t = { s with regs := t.regs, fleet := { s.fleet with snaps := t.fleet.snaps, kept := t.fleet.kept }, free := t.free } := by
  rw [snapEnd_running h hr, if_pos rfl]
  generalize (s.fleet.snaps.getD i Snap.initial).image = image
  have hrun := snapStopped_running (good := true) hi
  have hst := snapStopped_state s i true
  have hregs := regsBut_snapStopped s i true
  have heq := snapStopped_eq s i true
  generalize s.snapStopped i true = u at hrun hst hregs heq
  have hkept := snapKept_eq u image e
  have hkregs := regsBut_snapKept u image e
  refine ⟨?_, (hkregs.rf (by decide) _).trans hst, snapKept_epoch .., (hregs.mono (by simp)).trans (hkregs.mono (List.subset_cons_self ..)), ?_⟩
  · rw [hkept]
    exact hrun
  · rw [hkept, heq]

theorem transferEnd_bad (hi : i < s.fleet.snaps.length) : let t := s.snapEnd i false
    (t.fleet.snaps.getD i Snap.initial).running = none ∧ t.rf KP_SNAP_STATUS KP_SNAP_STATUS_STATE = 3
      ∧ ∃ u : State, t = u.post 0x27 stOK (u.src 0xD00) e ∧ RegsBut s u [KP_SNAP_STATUS]
        ∧ u = { s with regs := u.regs, fleet := { s.fleet with snaps := u.fleet.snaps }, free := u.free } := by
  rw [snapEnd_running h hr, if_neg Bool.false_ne_true]
  have hrun := snapStopped_running (good := false) hi
  have hst := snapStopped_state s i false
  have hregs := regsBut_snapStopped s i false
  have heq := snapStopped_eq s i false
  generalize s.snapStopped i false = u at hrun hst hregs heq
  obtain ⟨ev, hev⟩ := post_keeper (cls := 0x27) (by decide) u stOK e
  refine ⟨?_, ?_, u, rfl, hregs, heq⟩
  · rw [hev]
    exact hrun
  · rw [hev]
    exact hst

end

end

/-! ## Heartbeats (R405, R406) -/

section
variable {s : State}

theorem keeperHeartbeat_heard (hk : s.keeperUp = true) (ha : s.fleet.adrift = false) :
    exec .keeperHeartbeat s = .next { s with fleet := { s.fleet with beats := List.replicate 8 0 } } := by
  show execKeeperHeartbeat s = _
  unfold execKeeperHeartbeat
  rw [hk, ha, Bool.not_false, Bool.and_true, if_pos rfl]

/-- An agent notes how many heartbeats it has missed in a row. -/
def State.missedBeats (s : State) (agent : WharfId) (missed : Nat) : State := { s with fleet := { s.fleet with beats := s.fleet.beats.set agent missed } }

theorem adriftDetect_notes (agent : WharfId) {missed : Nat} (h : missed < 10) : exec (.adriftDetect agent missed) s = .next (s.missedBeats agent missed) :=
  if_neg fun hm => Nat.not_le.2 h hm.1

theorem adriftDetect_goes (agent : WharfId) {missed : Nat} (h : 10 ≤ missed) (ha : s.fleet.adrift = false) :
    exec (.adriftDetect agent missed) s = .next ((s.missedBeats agent missed).goAdrift agent) :=
  if_pos ⟨h, by rw [ha]; rfl⟩

end

theorem fleetSupervisionCompletes : FleetSupervisionCompletes := by
  intro dev s
  refine ⟨fun _ _ _ _ _ hr hm => report_kept hr hm, adrift_fails, fun t0 r i h ht => ⟨_, Nat.mod_lt _ (by decide), keeperReportTimeout_releases h ht⟩,
    fun t0 id h ht => ⟨s.repaired, rfl, repaired_bank s, fun hi => repairSwitch_routes (hi ▸ h) ht, fun old new hi => repairSwitch_ids (hi ▸ h) ht⟩, ?replay, ?transfer,
    keeperHeartbeat_heard, fun agent missed => ⟨adriftDetect_notes agent, adriftDetect_goes agent⟩⟩
  case replay =>
    intro x samples hx hn hr hp
    exact ⟨fun hs => ⟨_, replayCheck_matches hx hn hr hp hs, replayed_frame s x.failed⟩, replayCheck_differs hx hn hr hp⟩
  case transfer =>
    intro sink good e r h hr hi
    refine ⟨_, rfl, ?_⟩
    cases good
    · obtain ⟨hrun, hst, hu⟩ := transferEnd_bad h hr hi
      exact ⟨hrun, hst, fun hg => absurd hg Bool.false_ne_true, fun _ => hu⟩
    · obtain ⟨hrun, hst, hkept⟩ := transferEnd_good h hr hi
      exact ⟨hrun, hst, fun _ => hkept, fun hg => absurd hg.symm Bool.false_ne_true⟩

end Sys2Proof.Machine
end
section
/-! PROOFS. Leases and the standby's takeover (R316, R409, R410). -/

namespace Sys2Proof.Machine

section
variable {s : State} {lock poundUs : Nat} {epoch : BitVec 48}

/-! ## A lease held (R409) -/

/-- A lease is held to its expiry. -/
def State.leased (s : State) (lock poundUs : Nat) : State := (s.wrWide KP_LEASE_EXP_0 2 (leaseEnd lock poundUs % 2 ^ 64)).wf KP_FLEET_STBY KP_FLEET_STBY_LEASE 1

theorem leased_expiry (s : State) (lock poundUs : Nat) : (s.leased lock poundUs).rdWide KP_LEASE_EXP_0 2 = (lock + 3 * (poundUs * 1000 + 20000)) % 2 ^ 64 := by
  have hstby (u : State) : RegsBut u (u.wf KP_FLEET_STBY KP_FLEET_STBY_LEASE 1) [KP_FLEET_STBY] := (RegsBut.refl u _).wf (List.mem_cons_self ..) _ _
  exact ((hstby _).rdWide (by decide)).trans ((rdWide_wrWide ..).trans (Nat.mod_mod _ _))

theorem leased_state (s : State) (lock poundUs : Nat) : (s.leased lock poundUs).leaseSt = 1 := rf_wf_fits (by decide) (by decide)

theorem regsBut_leased (s : State) (lock poundUs : Nat) : RegsBut s (s.leased lock poundUs) (KP_FLEET_STBY :: wordsAt KP_LEASE_EXP_0 2) :=
  RegsBut.wf (RegsBut.wrWide (RegsBut.refl s _) (List.subset_cons_self ..) _) (List.mem_cons_self ..) _ _

theorem onlyRegs_leased (s : State) (lock poundUs : Nat) : OnlyRegs s (s.leased lock poundUs) := (onlyRegs_wrWide (OnlyRegs.refl s) _ _ _).wf _ _ _

/-- A message depends on what waits to leave and on the device's name. -/
theorem send_tx_congr {u : State} {dev cls op : Nat} {words : List Nat} (ht : u.tx = s.tx) (hs : u.self 0xD00 = s.self 0xD00) :
    (u.send dev cls op words).tx = (s.send dev cls op words).tx := by
  unfold State.send State.sendAs
  rw [ht, hs]

/-- What a standby holds of a LEASE. -/
def State.leaseHeard (s : State) (lock poundUs : Nat) : State := { s with fleet := { s.fleet with lease := some (lock, poundUs) } }

theorem leaseHeard_tx (s : State) (lock poundUs : Nat) : (s.leaseHeard lock poundUs).tx = s.tx := rfl

section
variable (hd : s.rf KP_FLEET_ID KP_FLEET_ID_DUTY = 2) (hl : s.leaseSt ≠ 3) (hk : s.keeperUp = true)
include hd hl hk

/-- A standby whose Keeper runs takes up a LEASE, and acknowledges it. -/
theorem lease_taken : exec (.lease lock epoch poundUs) s = .next (((s.leased lock poundUs).leaseHeard lock poundUs).send
    ((s.leased lock poundUs).leaseHeard lock poundUs).manager 0 txLeaseAck [lock, epoch.toNat, poundUs]) :=
  if_neg (not_or.2 ⟨not_not.2 hd, not_or.2 ⟨hl, by rw [hk]; decide⟩⟩)

theorem lease_completes : ∃ t : State, exec (.lease lock epoch poundUs) s = .next t
    ∧ t.rdWide KP_LEASE_EXP_0 2 = (lock + 3 * (poundUs * 1000 + 20000)) % 2 ^ 64 ∧ t.leaseSt = 1
    ∧ RegsBut s t (KP_FLEET_STBY :: wordsAt KP_LEASE_EXP_0 2) ∧ t.tx = (s.send s.manager 0 txLeaseAck [lock, epoch.toNat, poundUs]).tx
    ∧ t = { s with regs := t.regs, fleet := { s.fleet with lease := some (lock, poundUs) }, tx := t.tx } := by
  have hx := lease_taken (lock := lock) (epoch := epoch) (poundUs := poundUs) hd hl hk
  have hexp := leased_expiry s lock poundUs
  have hst := leased_state s lock poundUs
  have hregs := regsBut_leased s lock poundUs
  have honly := onlyRegs_leased s lock poundUs
  generalize s.leased lock poundUs = u at hx hexp hst hregs honly
  have hheard : RegsBut s (u.leaseHeard lock poundUs) (KP_FLEET_STBY :: wordsAt KP_LEASE_EXP_0 2) := hregs.of_regs rfl
  have hmgr : (u.leaseHeard lock poundUs).manager = s.manager := hheard.rf (by decide) _
  have hself : (u.leaseHeard lock poundUs).self 0xD00 = s.self 0xD00 := self_of_devId (hheard.devId (by decide)) _
  rw [hmgr] at hx
  have hsame {dev cls op : Nat} {words : List Nat} : ((u.leaseHeard lock poundUs).send dev cls op words).regs = u.regs := rfl
  refine ⟨_, hx, (rdWide_congr fun _ _ => rd_of_regs _ hsame).trans hexp, (rf_of_regs hsame _).trans hst, hheard.of_regs rfl, ?_, ?_⟩
  · exact send_tx_congr ((leaseHeard_tx ..).trans honly.tx) hself
  · obtain ⟨x, rfl⟩ := honly
    rfl

end

theorem leaseAck_held (hr : 2 ≤ s.role) (hl : s.leaseSt < 2) : exec (.leaseAck lock epoch poundUs) s = .next (s.leased lock poundUs) :=
  if_neg (not_or.2 ⟨Nat.not_lt.2 hr, Nat.not_le.2 hl⟩)

theorem leaseExpiry_stops (hr : 2 ≤ s.role) (hl : s.leaseSt = 1) (he : s.rdWide KP_LEASE_EXP_0 2 ≤ s.now) :
    exec .leaseExpiry s = .next ((s.wf KP_FLEET_STBY KP_FLEET_STBY_LEASE 2).postFleet s.devId) := if_pos ⟨hr, hl, he⟩

/-! ## The takeover (R410) -/

/-- The standby acts, fences the manager and takes its ID. -/
def State.standIn (s : State) : State := ((s.draw.2.wf KP_FLEET_STBY KP_FLEET_STBY_LEASE 3).fence s.manager).takeId s.manager

theorem devId_standIn (s : State) : s.standIn.devId = s.manager := devId_takeId (rf_lt _)

/-- The role that the free bits `v` give the standby, and the manager over it. -/
def takenRole (v : Nat) : Nat := 2 + v % 2

def takenManager (old v : Nat) : Nat := if takenRole v = 3 then old else v / 2 % 2 ^ 14

theorem takenRole_manager (old v : Nat) : takenRole v = 2 ∨ takenRole v = 3 ∧ takenManager old v = old := by
  rcases Nat.mod_two_eq_zero_or_one v with h | h
  · exact .inl (by rw [takenRole, h])
  · have : takenRole v = 3 := by rw [takenRole, h]
    exact .inr ⟨this, if_pos this⟩

/-- The standby in its role: the fleet hears that its manager has failed. -/
def State.standInAs (s : State) (role mgr old : Nat) : State := ((s.wf KP_FLEET_ID KP_FLEET_ID_ROLE role).wf KP_FLEET_ID KP_FLEET_ID_MGR_ID mgr).orderAll 13 [old]

/-- Every device hears the owners of its rings, and is readmitted. -/
def State.rejoinAll (s : State) : State := ((s.governed.foldl (fun s m => s.nameOwners m.dev) s).orderAll 10 []).readmitOwn

theorem standbyTakeover_acts (hf : s.fleet.lease = some (lock, poundUs)) (hd : s.rf KP_FLEET_ID KP_FLEET_ID_DUTY = 2) (hl : s.leaseSt = 1)
    (ht : takeoverAt lock poundUs ≤ s.now) :
    exec .standbyTakeover s = .next (s.standIn.standInAs (takenRole s.draw.1) (takenManager s.manager s.draw.1) s.manager).rejoinAll.rerunNext := by
  show execStandbyTakeover s = _
  unfold execStandbyTakeover
  rw [hf]
  exact if_neg (not_or.2 ⟨not_not.2 hd, not_or.2 ⟨not_not.2 hl, Nat.not_lt.2 ht⟩⟩)

end

theorem leaseCommandsComplete : LeaseCommandsComplete := by
  intro lock epoch poundUs s e
  refine ⟨lease_completes, fun hr hl => ?_, leaseExpiry_stops, fun hf hd hl ht => ?_⟩
  · obtain ⟨x, hx⟩ := onlyRegs_leased s lock poundUs
    exact ⟨_, leaseAck_held hr hl, leased_expiry .., leased_state .., regsBut_leased s lock poundUs, by rw [hx]⟩
  · exact ⟨_, _, s.standIn, _, takenRole_manager s.manager s.draw.1, rfl, devId_standIn s, rfl, standbyTakeover_acts hf hd hl ht⟩

/-- Settles O49: a manager's watch by one lemma for each command, a transfer's end by what it leaves in KP_SNAP_STATUS, a lease by its expiry, and a takeover by the
ID taken. -/
theorem fleetSupervisionAndLeasesComplete : Obligations.FleetSupervisionAndLeasesComplete := ⟨fleetSupervisionCompletes, leaseCommandsComplete⟩

end Sys2Proof.Machine
end
section
/-! PROOFS. The fuses: every step keeps the one-way state of the fuses, whether it takes a command off the queue or fetches one (R420, R429, R454, R455). -/

namespace Sys2Proof.Machine

/-- A step keeps what every command keeps, of the state with the queue that the step leaves it. -/
theorem keeps_step {s t : State} (h : step s = .next t) : ∃ queue, Keeps { s with pending := queue } t := by
  cases hp : s.pending with
  | nil =>
    rw [step_of_empty hp] at h
    have hk : Keeps s t := of_nextAnd (@keeps_tick s s) (keeps_refl s) h
    exact ⟨s.pending, hk⟩
  | cons c rest =>
    rw [step_of_cons hp] at h
    have hk : Keeps { s with pending := rest } t := of_nextAnd (keeps_exec c) (keeps_refl _) h
    exact ⟨rest, hk⟩

/-- Settles O6: a step keeps what `Keeps` says of the fuses, and taking a command off the queue leaves them alone. -/
theorem fusesOnlyGrow : Obligations.FusesOnlyGrow := by
  intro s t h
  obtain ⟨_, hk⟩ := keeps_step h
  exact ⟨hk.rollback, hk.revoked, hk.fused⟩

end Sys2Proof.Machine
end
section
/-! PROOFS. Partial resets (R430 to R434, R442): a request whose target is beyond the four partitions, where the register read as its domain's is PW_RESET_STATUS. -/

namespace Sys2Proof.Machine

/-- After reset the domain of a partition 65 would read OFF. Its register is PW_RESET_STATUS, though, where the request puts its own SCOPE into the bits of STATE: the
domain then reads as one on its way, and the request is latched. -/
theorem requestReset_beyondPartitions : PW_DOM (scopePart 2 65) = PW_RESET_STATUS ∧ State.reset.rf (PW_DOM (scopePart 2 65)) PW_DOM_STATE = 0
    ∧ (State.reset.requestReset 2 65).boot.latched = [65] := by decide +kernel

/-- A request's own SCOPE and TARGET latch nothing. -/
theorem latched_requestShown (s : State) (scope target : Nat) :
    ((s.wf PW_RESET_STATUS PW_RESET_STATUS_SCOPE scope).wf PW_RESET_STATUS PW_RESET_STATUS_TARGET target).boot.latched = s.boot.latched := by
  rw [State.wf_boot, State.wf_boot]

/-- Refutes O53: its second clause has a request do nothing where the domain reads OFF, for every number as a target. After reset, a request for a partition 65, which no
command passes on, is latched: the register that `PW_DOM` gives its domain is PW_RESET_STATUS. -/
theorem not_partialResetsComplete : ¬ Obligations.PartialResetsComplete := by
  intro h
  obtain ⟨-, hoff, hlatched⟩ := requestReset_beyondPartitions
  obtain ⟨-, hrequests, -⟩ := h (State.reset.self 0xD00) State.reset
  obtain ⟨-, hnothing, -⟩ := hrequests 2 65
  have hnone : (State.reset.requestReset 2 65).boot.latched = [] := by
    rw [hnothing rfl (.inl hoff)]
    exact latched_requestShown State.reset 2 65
  exact absurd (hlatched.symm.trans hnone) (by decide)

end Sys2Proof.Machine
end
section
/-! PROOFS. Self-test and fuse repair: how a slice ends, what starts and aborts a test, and how entries are burnt (R424 to R429, R440). -/

namespace Sys2Proof.Machine

/-- A write of a KP_ register by its command, past its checks. -/
theorem put32_kp {s : State} {m : Ident} {o v : Nat} (ho : o < 0x10000) (h4 : o % 4 = 0) (hv : v < 2 ^ 32) (hc : Passes s m (kpBase + o) true) :
    s.put32 m (kpBase + o) v = (s.kpWrite m o v).reply stOK [] := by
  have := put32_reg (v := v) (by unfold kpBase; omega) (target_kp ho) (by simp) (by unfold kpBase; omega) hc.2 rfl (by simp) hc.1
  rwa [Nat.mod_eq_of_lt hv] at this

/-! ## Slices (R425, R426) -/

section
variable {s : State} {t : SelfTest}

/-- One more slice has run, and SLICE shows the next one, or the last. -/
def State.sliceRan (s : State) (t : SelfTest) : State :=
  ({ s with boot := { s.boot with test := some { t with ran := t.ran + 1 } } } : State).syncSlice { t with ran := t.ran + 1 }

theorem nextSlice_eq : s.nextSlice t = if t.slices ≤ t.ran + 1 then (s.sliceRan t).finishTest { t with ran := t.ran + 1 } else s.sliceRan t := rfl

theorem nextSlice_runs (h : t.ran + 1 < t.slices) : s.nextSlice t = s.sliceRan t := by rw [nextSlice_eq, if_neg (Nat.not_le.2 h)]

theorem nextSlice_ends (h : t.slices ≤ t.ran + 1) : s.nextSlice t = (s.sliceRan t).finishTest { t with ran := t.ran + 1 } := by rw [nextSlice_eq, if_pos h]

/-- While another slice is to run, SLICE counts those that have. -/
theorem sliceRan_shows (h : t.ran + 1 < t.slices) : s.sliceRan t
    = ({ s with boot := { s.boot with test := some { t with ran := t.ran + 1 } } } : State).wf KP_TEST_STATUS KP_TEST_STATUS_SLICE (t.ran + 1) := by
  have hshown : min (t.ran + 1) (t.slices - 1) = t.ran + 1 := Nat.min_eq_left (Nat.le_sub_one_of_lt h)
  exact congrArg (State.wf _ KP_TEST_STATUS KP_TEST_STATUS_SLICE) hshown

/-- A field of KP_TEST_STATUS above SLICE stays. -/
theorem sliceRan_rf {g : Fld} (h : 11 ≤ g.lo) : (s.sliceRan t).rf KP_TEST_STATUS g = s.rf KP_TEST_STATUS g :=
  State.rf_wf_disjoint { s with boot := { s.boot with test := some { t with ran := t.ran + 1 } } } _ _ _ _ (by decide) (.inr h)

theorem RegsBut.sliceRan {u : State} (h : RegsBut s u [KP_TEST_STATUS]) (t : SelfTest) : RegsBut s (u.sliceRan t) [KP_TEST_STATUS] :=
  (h.of_regs rfl).wf (List.mem_singleton_self _) _ _

theorem OnlyRegs.sliceRan {u : State} (h : OnlyRegs s u) (t : SelfTest) :
    OnlyRegs { s with boot := { s.boot with test := some { t with ran := t.ran + 1 } } } (u.sliceRan t) := by
  obtain ⟨_, rfl⟩ := h
  exact ⟨_, rfl⟩

theorem selftestSliceTimeout_eq (h : s.boot.test = some t) : exec .selftestSliceTimeout s = .next ((s.bumpF KP_TEST_STATUS KP_TEST_STATUS_INCOMPL 1).nextSlice t) := by
  show execSelftestSliceTimeout s = _
  rw [execSelftestSliceTimeout, h]

theorem selftestSliceEnd_eq (failures passed : List Finding) (h : s.boot.test = some t) : exec (.selftestSliceEnd failures passed) s
    = .next ((if failures = [] then s else s.bumpF KP_TEST_STATUS KP_TEST_STATUS_FAILED 1).nextSlice
      { t with fails := (t.fails ++ failures).eraseDups, passed := t.passed ++ passed.filter (fun f => !failures.contains f) }) := by
  show execSelftestSliceEnd failures passed s = _
  rw [execSelftestSliceEnd, h]
  simp only [List.isEmpty_iff]

end

/-- Settles O56: a slice that runs out of time counts in INCOMPL, and one more slice has run. -/
theorem timedOutSlicesAreIncomplete : Obligations.TimedOutSlicesAreIncomplete := by
  intro t s h
  have hcounted : satAdd (2 ^ KP_TEST_STATUS_INCOMPL.width - 1) (s.rf KP_TEST_STATUS KP_TEST_STATUS_INCOMPL) 1 < 2 ^ KP_TEST_STATUS_INCOMPL.width :=
    Nat.lt_of_le_of_lt (Nat.min_le_left ..) (by decide)
  refine ⟨(s.bumpF KP_TEST_STATUS KP_TEST_STATUS_INCOMPL 1).sliceRan t, ?_, ?_, ?_, ?_, fun hmore => ?_, fun hlast => ?_⟩
  · rw [sliceRan_rf (by decide)]
    exact rf_wf_fits (by decide) hcounted
  · rw [sliceRan_rf (by decide)]
    exact State.rf_wf_disjoint _ _ _ _ _ (by decide) (by decide)
  · exact ((RegsBut.refl s _).wf (List.mem_singleton_self _) _ _).sliceRan t
  · obtain ⟨_, heq⟩ := ((OnlyRegs.refl s).wf KP_TEST_STATUS KP_TEST_STATUS_INCOMPL _).sliceRan t
    rw [State.bumpF, heq]
  · rw [selftestSliceTimeout_eq h, nextSlice_runs hmore]
  · rw [selftestSliceTimeout_eq h, nextSlice_ends hlast]

/-! ## START and ABORT (R424, R428) -/

section
variable {s : State} {m : Ident}

theorem testCtrl_written {v : Nat} (hv : v < 2 ^ 32) (hc : Passes s m KP_TEST_CTRL true) : s.put32 m KP_TEST_CTRL v = (s.testCtrl m v).reply stOK [] :=
  put32_kp (o := 0x50) (by decide) (by decide) hv hc

/-- What a write of START asks for is not to be had. -/
def State.testBarred (s : State) (m : Ident) (full : Bool) (parts : Nat) : Bool :=
  !isKeeperOrControl m || s.boot.test.isSome || (full && s.lockSt != 0) || (!full && (maskParts parts).any (fun k => !s.domOn k))

/-- A write of KP_TEST_CTRL with START and without ABORT. -/
theorem testCtrl_start {v : Nat} (hstart : natBit 0 v = true) (habort : natBit 1 v = false) : s.testCtrl m v
    = if s.testBarred m (natBit 2 v) (natBits 3 4 v) = true then s.regEvent m KP_TEST_CTRL else s.startTest (natBit 2 v) (natBits 3 4 v) := by
  unfold State.testCtrl
  dsimp only
  rw [habort, hstart]
  rfl

theorem selftestFull_eq (hc : Passes s m KP_TEST_CTRL true) : exec (.selftestFull m) s
    = .next ((if s.testBarred m true 0 = true then s.regEvent m KP_TEST_CTRL else s.startTest true 0).reply stOK []) := by
  have h := testCtrl_written (v := 5) (by decide) hc
  rw [testCtrl_start rfl rfl] at h
  exact congrArg Host.Outcome.next h

theorem selftestPart_eq (parts : BitVec 4) (hc : Passes s m KP_TEST_CTRL true) : exec (.selftestPart m parts) s
    = .next ((if s.testBarred m false parts.toNat = true then s.regEvent m KP_TEST_CTRL else s.startTest false parts.toNat).reply stOK []) := by
  have hp : parts.toNat < 16 := parts.isLt
  have hstart : natBit 0 (1 + parts.toNat * 8) = true := beq_iff_eq.2 (by omega)
  have habort : natBit 1 (1 + parts.toNat * 8) = false := beq_eq_false_iff_ne.2 (by omega)
  have hfull : natBit 2 (1 + parts.toNat * 8) = false := beq_eq_false_iff_ne.2 (by omega)
  have hparts : natBits 3 4 (1 + parts.toNat * 8) = parts.toNat := by unfold natBits; omega
  have h := testCtrl_written (v := 1 + parts.toNat * 8) (by omega) hc
  rw [testCtrl_start hstart habort, hfull, hparts] at h
  exact congrArg Host.Outcome.next h

theorem selftestAbort_eq (hc : Passes s m KP_TEST_CTRL true) : exec (.selftestAbort m) s
    = .next ((if s.boot.test.isSome = true then s.endTest 3 else s).reply stOK []) :=
  congrArg Host.Outcome.next (testCtrl_written (v := 2) (by decide) hc)

theorem testBarred_running (h : s.boot.test ≠ none) (full : Bool) (parts : Nat) : s.testBarred m full parts = true := by
  simp [State.testBarred, Option.isSome_iff_ne_none.2 h]

theorem testBarred_outOfIdle (h : s.lockSt ≠ 0) : s.testBarred m true 0 = true := by simp [State.testBarred, h]

theorem mem_maskParts {k mask : Nat} : k ∈ maskParts mask ↔ k < 4 ∧ natBit k mask = true := by simp [maskParts]

theorem testBarred_off {k : Fin 4} {parts : Nat} (hk : natBit k parts = true) (hoff : s.domOn k = false) : s.testBarred m false parts = true := by
  have hany : (maskParts parts).any (fun k => !s.domOn k) = true := List.any_eq_true.2 ⟨k, mem_maskParts.2 ⟨k.isLt, hk⟩, by rw [hoff]; rfl⟩
  simp [State.testBarred, hany]

theorem testBarred_full (hm : isKeeperOrControl m = true) (ht : s.boot.test = none) (hl : s.lockSt = 0) : s.testBarred m true 0 = false := by
  simp [State.testBarred, hm, ht, hl]

theorem testBarred_part {parts : Nat} (hm : isKeeperOrControl m = true) (ht : s.boot.test = none) (hon : (maskParts parts).all (fun k => s.domOn k) = true) :
    s.testBarred m false parts = false := by
  have hany : (maskParts parts).any (fun k => !s.domOn k) = false := by
    rw [← List.not_all_eq_any_not, hon]
    rfl
  simp [State.testBarred, hm, ht, hany]

/-- KP_TEST_STATUS as a test starts. -/
def State.testShown (s : State) : State := (s.wr KP_TEST_STATUS 0).wf KP_TEST_STATUS KP_TEST_STATUS_STATE 1

theorem startTest_full (s : State) : s.startTest true 0 = { s.testShown with boot := { s.boot with test := some ⟨true, 0, 0, [], [], s.now⟩ } } := rfl

theorem selftestFull_starts (hc : Passes s m KP_TEST_CTRL true) (hm : isKeeperOrControl m = true) (ht : s.boot.test = none) (hl : s.lockSt = 0) :
    ∃ t : State, exec (.selftestFull m) s = .next t ∧ t.rf KP_TEST_STATUS KP_TEST_STATUS_STATE = 1 ∧ RegsBut s t [KP_TEST_STATUS]
      ∧ t = { s with regs := t.regs, boot := { s.boot with test := some ⟨true, 0, 0, [], [], s.now⟩ }, resp := ⟨stOK, []⟩ } := by
  refine ⟨_, selftestFull_eq hc, ?_⟩
  rw [testBarred_full hm ht hl, if_neg Bool.false_ne_true, startTest_full]
  have hst : s.testShown.rf KP_TEST_STATUS KP_TEST_STATUS_STATE = 1 := rf_wf_fits (by decide) (by decide)
  have hregs : RegsBut s s.testShown [KP_TEST_STATUS] := ((RegsBut.refl s _).wr (List.mem_singleton_self _) _).wf (List.mem_singleton_self _) _ _
  have honly : OnlyRegs s s.testShown := ⟨_, rfl⟩
  generalize s.testShown = u at *
  obtain ⟨_, rfl⟩ := honly
  exact ⟨hst, hregs, rfl⟩

end

/-! ## BURN and the entries burnt (R429) -/

section
variable {s : State} {m : Ident}

theorem kpWrite_repairCtrl (v : Nat) : s.kpWrite m 0x60 v = s.repairCtrl m v := by
  rw [State.kpWrite, if_neg (by decide), if_neg (by decide), if_pos rfl]

theorem burn_eq (v : Word) (hc : Passes s m KP_REPAIR_CTRL true) : exec (.burn m v) s = .next ((s.repairCtrl m v.toNat).reply stOK []) := by
  have h := put32_kp (o := 0x60) (by decide) (by decide) v.isLt hc
  rw [kpWrite_repairCtrl] at h
  exact congrArg Host.Outcome.next h

theorem repairCtrl_refused {v : Nat} (h : natBits 16 16 v ≠ 0xB007 ∨ (natBit 0 v = true
    ∧ (masterOf m.num.toNat ≠ .keeper ∨ s.holds 1 = none ∨ s.lockSt ≠ 0 ∨ s.boot.test ≠ none ∨ s.boot.burning ≠ []))) :
    s.repairCtrl m v = s.regEvent m KP_REPAIR_CTRL := by
  unfold State.repairCtrl
  split
  · rfl
  · next hkey =>
    obtain ⟨hburn, hbar⟩ := h.resolve_left hkey
    rw [hburn, if_neg (by decide), if_pos]
    simpa [Option.isSome_iff_ne_none] using hbar

/-- The soft record waits to be burnt, and the token is spent. -/
def State.burnBegun (s : State) : State :=
  (({ s with boot := { s.boot with burning := s.fuses.soft } } : State).setAuth none).wb KP_REPAIR_STATUS KP_REPAIR_STATUS_BURN_BUSY (!s.fuses.soft.isEmpty)

theorem repairCtrl_burns {v : Nat} {a : Auth} (hkey : natBits 16 16 v = 0xB007) (hburn : natBit 0 v = true) (hm : masterOf m.num.toNat = .keeper)
    (ha : s.holds 1 = some a) (hl : s.lockSt = 0) (ht : s.boot.test = none) (hb : s.boot.burning = []) : s.repairCtrl m v = s.burnBegun := by
  unfold State.repairCtrl
  rw [if_neg (not_not.2 hkey), hburn, if_neg (by decide), if_neg (by simp [hm, ha, hl, ht, hb])]
  rfl

theorem burn_begins {v : Word} {a : Auth} (hc : Passes s m KP_REPAIR_CTRL true) (hkey : natBits 16 16 v.toNat = 0xB007) (hburn : natBit 0 v.toNat = true)
    (hm : masterOf m.num.toNat = .keeper) (ha : s.holds 1 = some a) (hl : s.lockSt = 0) (ht : s.boot.test = none) (hb : s.boot.burning = []) :
    ∃ t : State, exec (.burn m v) s = .next t ∧ t.rb KP_REPAIR_STATUS KP_REPAIR_STATUS_BURN_BUSY = !s.fuses.soft.isEmpty
      ∧ t.rb KP_SEC_STATUS KP_SEC_STATUS_AUTH_VALID = false ∧ RegsBut s t [KP_REPAIR_STATUS, KP_SEC_STATUS]
      ∧ t = { s with regs := t.regs, boot := { s.boot with burning := s.fuses.soft }, sec := { s.sec with auth := none }, resp := ⟨stOK, []⟩ } := by
  refine ⟨_, burn_eq v hc, ?_⟩
  rw [repairCtrl_burns hkey hburn hm ha hl ht hb, State.burnBegun]
  obtain ⟨hvalid, hregs, honly⟩ := authSpent_setAuth { s with boot := { s.boot with burning := s.fuses.soft } }
  generalize State.setAuth { s with boot := { s.boot with burning := s.fuses.soft } } none = u at *
  have hspent : RegsBut s u [KP_SEC_STATUS] := fun x hx => hregs x hx
  have hbusy := rb_wb_same u KP_REPAIR_STATUS (f := KP_REPAIR_STATUS_BURN_BUSY) (by decide) rfl (!s.fuses.soft.isEmpty)
  have hshown : RegsBut u (u.wb KP_REPAIR_STATUS KP_REPAIR_STATUS_BURN_BUSY (!s.fuses.soft.isEmpty)) [KP_REPAIR_STATUS] :=
    (RegsBut.refl u _).wf (List.mem_singleton_self _) _ _
  replace honly := honly.wf KP_REPAIR_STATUS KP_REPAIR_STATUS_BURN_BUSY (!s.fuses.soft.isEmpty).toNat
  rw [State.wb] at hbusy hshown ⊢
  generalize u.wf KP_REPAIR_STATUS KP_REPAIR_STATUS_BURN_BUSY (!s.fuses.soft.isEmpty).toNat = t at *
  have hreply := (hspent.mono (l' := [KP_REPAIR_STATUS, KP_SEC_STATUS]) (by simp)).trans (hshown.mono (by simp))
  obtain ⟨_, rfl⟩ := honly
  exact ⟨hbusy, (rb_of_regs hshown (by decide) _).trans hvalid, hreply, rfl⟩

/-- The entry in front leaves the list of those that wait to be burnt. -/
def State.entryTaken (s : State) (rest : List Finding) : State :=
  ({ s with boot := { s.boot with burning := rest } } : State).wb KP_REPAIR_STATUS KP_REPAIR_STATUS_BURN_BUSY (!rest.isEmpty)

/-- An entry that has read back moves from the soft record to the fuses. -/
def State.entryFused (s : State) (f : Finding) : State :=
  let u := ({ s with fuses := { s.fuses with fused := s.fuses.fused ++ [f] } } : State).setSoft (s.fuses.soft.filter (fun x => x != f))
  u.wf KP_REPAIR_STATUS KP_REPAIR_STATUS_FUSED u.eFuses

variable {f : Finding} {rest : List Finding}

/-- What becomes of an entry when it is read back. -/
def State.entryRead (s : State) (f : Finding) (good : Bool) : State :=
  if isEFuse f = true ∧ 256 ≤ s.eFuses then s else if good = true then s.entryFused f
    else (s.wb KP_REPAIR_STATUS KP_REPAIR_STATUS_BURN_FAIL true).post 0x26 stOK (s.src 0xD00) 2

theorem fuseEntryBurned_eq (good : Bool) (h : s.boot.burning = f :: rest) :
    exec (.fuseEntryBurned good) s = .next ((s.entryTaken rest).entryRead f good) := by
  show execFuseEntryBurned good s = _
  unfold execFuseEntryBurned
  split
  · next hnone => exact absurd (h.symm.trans hnone) (by simp)
  · next hsome =>
    obtain ⟨rfl, rfl⟩ := List.cons_eq_cons.1 (h.symm.trans hsome)
    extract_lets +onlyGivenNames _ u
    have hu : s.entryTaken rest = u := rfl
    rw [hu, State.entryRead, State.entryFused]
    split
    · rfl
    · split
      · rfl
      · rfl

theorem eFuses_entryTaken (s : State) (rest : List Finding) : (s.entryTaken rest).eFuses = s.eFuses := by
  unfold State.eFuses State.entryTaken
  rw [State.wb_fuses]

theorem entryTaken_busy (s : State) (rest : List Finding) : (s.entryTaken rest).rb KP_REPAIR_STATUS KP_REPAIR_STATUS_BURN_BUSY = !rest.isEmpty :=
  rb_wb_same _ _ (by decide) rfl _

theorem onlyRegs_entryTaken (s : State) (rest : List Finding) : OnlyRegs { s with boot := { s.boot with burning := rest } } (s.entryTaken rest) :=
  (OnlyRegs.refl _).wf _ _ _

theorem regsBut_entryTaken (s : State) (rest : List Finding) : RegsBut s (s.entryTaken rest) [KP_REPAIR_STATUS] :=
  ((RegsBut.refl s _).of_regs rfl).wf (List.mem_singleton_self _) _ _

theorem OnlyRegs.entryFused {u : State} (h : OnlyRegs s u) (f : Finding) :
    OnlyRegs { s with fuses := { s.fuses with fused := s.fuses.fused ++ [f], soft := s.fuses.soft.filter (fun x => x != f) } } (u.entryFused f) := by
  obtain ⟨_, rfl⟩ := h
  exact ((OnlyRegs.refl _).trans ⟨_, rfl⟩).wf _ _ _

theorem RegsBut.entryFused {u : State} (h : RegsBut s u [KP_REPAIR_STATUS]) (f : Finding) : RegsBut s (u.entryFused f) [KP_REPAIR_STATUS] :=
  ((h.of_regs rfl).wf (List.mem_singleton_self _) _ _).wf (List.mem_singleton_self _) _ _

theorem entryFused_busy (s : State) (f : Finding) :
    (s.entryFused f).rb KP_REPAIR_STATUS KP_REPAIR_STATUS_BURN_BUSY = s.rb KP_REPAIR_STATUS KP_REPAIR_STATUS_BURN_BUSY := by
  unfold State.rb State.entryFused State.setSoft
  dsimp only
  rw [State.rf_wf_disjoint _ _ _ _ _ (by decide) (by decide), State.rf_wf_disjoint _ _ _ _ _ (by decide) (by decide)]
  rfl

/-- An entry for which the e-fuse array has room, or that burns elsewhere. -/
theorem entryRead_fits (hroom : isEFuse f = false ∨ s.eFuses < 256) (good : Bool) : (s.entryTaken rest).entryRead f good
    = if good = true then (s.entryTaken rest).entryFused f
      else ((s.entryTaken rest).wb KP_REPAIR_STATUS KP_REPAIR_STATUS_BURN_FAIL true).post 0x26 stOK ((s.entryTaken rest).src 0xD00) 2 := by
  rw [State.entryRead, if_neg]
  rw [eFuses_entryTaken]
  rintro ⟨he, hfull⟩
  rcases hroom with hne | hlt
  · exact absurd (he.symm.trans hne) (by decide)
  · exact absurd hfull (Nat.not_le.2 hlt)

theorem fuseEntryBurned_fuses (h : s.boot.burning = f :: rest) (hroom : isEFuse f = false ∨ s.eFuses < 256) : ∃ t : State,
    exec (.fuseEntryBurned true) s = .next t ∧ RegsBut s t [KP_REPAIR_STATUS] ∧ t.rb KP_REPAIR_STATUS KP_REPAIR_STATUS_BURN_BUSY = !rest.isEmpty
      ∧ t = { s with regs := t.regs, boot := { s.boot with burning := rest },
                     fuses := { s.fuses with fused := s.fuses.fused ++ [f], soft := s.fuses.soft.filter (fun x => x != f) } } := by
  refine ⟨(s.entryTaken rest).entryFused f, ?_, (regsBut_entryTaken s rest).entryFused f, (entryFused_busy ..).trans (entryTaken_busy ..), ?_⟩
  · rw [fuseEntryBurned_eq _ h, entryRead_fits hroom, if_pos rfl]
  · obtain ⟨_, heq⟩ := (onlyRegs_entryTaken s rest).entryFused f
    rw [heq]

theorem fuseEntryBurned_fails (h : s.boot.burning = f :: rest) (hroom : isEFuse f = false ∨ s.eFuses < 256) : ∃ t : State,
    exec (.fuseEntryBurned false) s = .next t ∧ RegsBut s t [KP_REPAIR_STATUS] ∧ t.rb KP_REPAIR_STATUS KP_REPAIR_STATUS_BURN_FAIL = true
      ∧ t = { s with regs := t.regs, boot := { s.boot with burning := rest }, events := t.events } := by
  have hregs := (regsBut_entryTaken s rest).wf (List.mem_singleton_self _) KP_REPAIR_STATUS_BURN_FAIL true.toNat
  have hfail := rb_wb_same (s.entryTaken rest) KP_REPAIR_STATUS (f := KP_REPAIR_STATUS_BURN_FAIL) (by decide) rfl true
  have honly := (onlyRegs_entryTaken s rest).wf KP_REPAIR_STATUS KP_REPAIR_STATUS_BURN_FAIL true.toNat
  have hsrc : ((s.entryTaken rest).wf KP_REPAIR_STATUS KP_REPAIR_STATUS_BURN_FAIL true.toNat).src 0xD00 = (s.entryTaken rest).src 0xD00 :=
    congrArg (· * 4096 + 0xD00) (State.rf_wf_other _ _ _ _ (by decide))
  rw [fuseEntryBurned_eq _ h, entryRead_fits hroom, if_neg Bool.false_ne_true]
  rw [State.wb] at hfail ⊢
  rw [← hsrc]
  generalize (s.entryTaken rest).wf KP_REPAIR_STATUS KP_REPAIR_STATUS_BURN_FAIL true.toNat = u at *
  obtain ⟨_, he⟩ := post_keeper (cls := 0x26) (by decide) u stOK 2
  obtain ⟨_, rfl⟩ := honly
  exact ⟨_, congrArg _ he, hregs, hfail, rfl⟩

theorem fuseEntryBurned_full (h : s.boot.burning = f :: rest) (he : isEFuse f = true) (hfull : 256 ≤ s.eFuses) : ∃ t : State,
    exec (.fuseEntryBurned true) s = .next t ∧ RegsBut s t [KP_REPAIR_STATUS] ∧ t = { s with regs := t.regs, boot := { s.boot with burning := rest } } := by
  refine ⟨s.entryTaken rest, (fuseEntryBurned_eq true h).trans (congrArg _ (if_pos ⟨he, (eFuses_entryTaken s rest).symm ▸ hfull⟩)), regsBut_entryTaken s rest, ?_⟩
  obtain ⟨_, heq⟩ := onlyRegs_entryTaken s rest
  rw [heq]

end

/-- Settles O55: START and ABORT by the one test of what bars them, slices by `State.sliceRan`, BURN and the entries burnt by one lemma for each outcome. -/
theorem selfTestCommandsComplete : Obligations.SelfTestCommandsComplete := by
  intro m s
  refine ⟨fun hc hm => ⟨selftestFull_starts hc hm, fun parts ht hon => ?_, fun ht => ⟨?_, fun parts => ?_⟩, fun hl => ?_, fun parts ⟨k, hk, hoff⟩ => ?_⟩,
    fun hc => ⟨fun ht => ?_, fun ht => ?_⟩, fun t failures passed ht => ⟨selftestSliceEnd_eq failures passed ht, fun hmore => ?_⟩,
    fun v hc hbar => ?_, fun v a hc hkey hburn hm ha hl ht hb => burn_begins hc hkey hburn hm ha hl ht hb,
    fun f rest hb => ⟨fuseEntryBurned_fuses hb, fuseEntryBurned_fails hb, fuseEntryBurned_full hb⟩⟩
  · rw [selftestPart_eq parts hc, testBarred_part hm ht hon, if_neg Bool.false_ne_true]
  · rw [selftestFull_eq hc, if_pos (testBarred_running ht ..)]
  · rw [selftestPart_eq parts hc, if_pos (testBarred_running ht ..)]
  · rw [selftestFull_eq hc, if_pos (testBarred_outOfIdle hl)]
  · rw [selftestPart_eq parts hc, if_pos (testBarred_off hk hoff)]
  · rw [selftestAbort_eq hc, if_pos (Option.isSome_iff_ne_none.2 ht)]
  · rw [selftestAbort_eq hc, ht]
    rfl
  · rw [nextSlice_runs hmore, sliceRan_shows hmore]
  · rw [burn_eq v hc, repairCtrl_refused hbar]

end Sys2Proof.Machine
end
section
/-! PROOFS. Power domains: a write of EN, what it asks of a domain in each state, and the ends of WAKING and DRAINING (R436, R437, R440). -/

namespace Sys2Proof.Machine

section
variable {s t : State} {k : Nat}

/-! ## A write of EN (R436, R440) -/

/-- `t` is `s` but for the register of domain `k`, in which EN and STATE read as given. -/
def DomBecomes (s t : State) (k : Nat) (en : Bool) (st : Nat) : Prop :=
  t.rf (PW_DOM k) PW_DOM_STATE = st ∧ t.rb (PW_DOM k) PW_DOM_EN = en ∧ RegsBut s t [PW_DOM k] ∧ OnlyRegs s t

theorem domBecomes_written (s : State) (k : Nat) (en : Bool) {st : Nat} (h : st < 8) :
    DomBecomes s ((s.wb (PW_DOM k) PW_DOM_EN en).wf (PW_DOM k) PW_DOM_STATE st) k en st := by
  refine ⟨rf_wf_fits (by decide) h, ?_, ((RegsBut.refl s _).wf (List.mem_singleton_self _) _ _).wf (List.mem_singleton_self _) _ _,
    ((OnlyRegs.refl s).wf _ _ _).wf _ _ _⟩
  have hen := rb_wb_same s (PW_DOM k) (f := PW_DOM_EN) (by decide) rfl en
  rw [State.rb] at hen ⊢
  rw [State.rf_wf_disjoint _ _ _ _ _ (by decide) (by decide), hen]

/-- A wake is counted in the same register. -/
theorem DomBecomes.counted {en : Bool} {st : Nat} (h : DomBecomes s t k en st) : DomBecomes s (t.bumpF (PW_DOM k) PW_DOM_WAKES 1) k en st := by
  obtain ⟨hst, hen, hregs, honly⟩ := h
  refine ⟨(State.rf_wf_disjoint _ _ _ _ _ (by decide) (by decide)).trans hst, ?_, hregs.wf (List.mem_singleton_self _) _ _, honly.wf _ _ _⟩
  rw [State.rb] at hen ⊢
  rw [State.bumpF, State.rf_wf_disjoint _ _ _ _ _ (by decide) (by decide), hen]

theorem enableDom_becomes {new : Nat} (h : let st := s.rf (PW_DOM k) PW_DOM_STATE; (st = 0 ∧ new = 1) ∨ (st = 3 ∧ new = 4) ∨ (st = 5 ∧ new = 1)) :
    DomBecomes s (s.enableDom k) k true new := by
  unfold State.enableDom
  rcases h with ⟨hst, rfl⟩ | ⟨hst, rfl⟩ | ⟨hst, rfl⟩
  · rw [hst]
    exact (domBecomes_written s k true (by decide)).counted
  · rw [hst]
    exact domBecomes_written s k true (by decide)
  · rw [hst]
    exact domBecomes_written s k true (by decide)

theorem disableDom_becomes {new : Nat} (h : let st := s.rf (PW_DOM k) PW_DOM_STATE; (st = 1 ∧ new = 5) ∨ (st = 4 ∧ new = 3)) :
    DomBecomes s (s.disableDom k) k false new := by
  unfold State.disableDom
  rcases h with ⟨hst, rfl⟩ | ⟨hst, rfl⟩
  · rw [hst]
    exact domBecomes_written s k false (by decide)
  · rw [hst]
    exact domBecomes_written s k false (by decide)

/-- A domain that is ON drains, unless a reset of it is in progress. -/
theorem disableDom_on (h : s.rf (PW_DOM k) PW_DOM_STATE = 2) : s.disableDom k
    = if s.partInReset k = true then s.wb (PW_DOM k) PW_DOM_EN false else (s.wb (PW_DOM k) PW_DOM_EN false).startDrain k := by
  unfold State.disableDom
  rw [h]
  rfl

variable {m : Ident} {part : PartId}

theorem pwDom_en (s : State) (k : Nat) (en : Bool) : s.pwDom k en.toNat
    = if s.lock.window = true then ({ s with lock := { s.lock with deferred := s.lock.deferred ++ [.power k en] } } : State).syncResets else s.setDom k en := by
  have hbit : natBit 0 en.toNat = en := by cases en <;> rfl
  unfold State.pwDom
  rw [hbit]

theorem pwDomEnWrite_eq (en : Bool) (hc : Passes s m (PW_DOM part) true) : exec (.pwDomEnWrite m part en) s = .next ((s.pwDom part en.toNat).reply stOK []) := by
  have hpart := part.isLt
  have haddr : PW_DOM part = pwBase + (0x100 + 0x4 * part.val) := Nat.add_assoc ..
  have hvalue : (BitVec.ofNat 32 en.toNat).toNat = en.toNat := by cases en <;> rfl
  have hrow : s.pwWrite m (0x100 + 0x4 * part.val) en.toNat = s.pwDom part en.toNat := by
    rw [State.pwWrite, if_neg (by omega), if_neg (by omega), if_pos (by omega), show (0x100 + 0x4 * part.val - 0x100) / 4 = part.val by omega]
  rw [haddr] at hc
  have h := put32_pw (v := BitVec.ofNat 32 en.toNat) (by omega) (by omega) hc
  rw [hvalue, hrow, ← haddr] at h
  exact congrArg Host.Outcome.next h

theorem pwDomEnWrite_waits (en : Bool) (hc : Passes s m (PW_DOM part) true) (hw : s.lock.window = true) : exec (.pwDomEnWrite m part en) s
    = .next ((({ s with lock := { s.lock with deferred := s.lock.deferred ++ [.power part en] } } : State).syncResets).reply stOK []) := by
  rw [pwDomEnWrite_eq en hc, pwDom_en, if_pos hw]

theorem pwDomEnWrite_acts (en : Bool) (hc : Passes s m (PW_DOM part) true) (hw : s.lock.window = false) (ht : s.testHolds part = false) :
    exec (.pwDomEnWrite m part en) s = .next ((if en = true then s.enableDom part else s.disableDom part).reply stOK []) := by
  rw [pwDomEnWrite_eq en hc, pwDom_en, hw, if_neg Bool.false_ne_true, State.setDom, ht, if_neg Bool.false_ne_true]

/-- A command that leaves a domain's register alone changed, and its reply. -/
theorem DomBecomes.completes {c : Instr} {en : Bool} {st : Nat} (h : DomBecomes s t part en st) (hc : exec c s = .next (t.reply stOK [])) : ∃ u : State,
    exec c s = .next u ∧ u.resp = ⟨stOK, []⟩ ∧ u.rf (PW_DOM part) PW_DOM_STATE = st ∧ u.rb (PW_DOM part) PW_DOM_EN = en ∧ RegsBut s u [PW_DOM part]
      ∧ u = { s with regs := u.regs, resp := u.resp } := by
  obtain ⟨hst, hen, hregs, _, rfl⟩ := h
  exact ⟨_, hc, rfl, hst, hen, hregs, rfl⟩

/-! ## WAKING and DRAINING end (R436, R437) -/

/-- The domain is ON, with what waited for it. -/
def State.wokenDom (s : State) (k tookMs : Nat) : State := (((s.loseBasins k).wf (PW_DOM k) PW_DOM_WAKE_MS (min 255 tookMs)).domUp k).partitionsOn

theorem wakingDone_eq {tookMs : Nat} (h : s.rf (PW_DOM part) PW_DOM_STATE = 1 ∨ s.rf (PW_DOM part) PW_DOM_STATE = 5) : exec (.wakingDone part tookMs) s
    = .next (if s.rf (PW_DOM part) PW_DOM_STATE = 5 then (s.wokenDom part tookMs).startDrain part else s.wokenDom part tookMs) := if_pos h

/-- The domain is OFF: what its units held is gone, and no reset of it waits. -/
def State.drainedDom (s : State) (k : Nat) : State :=
  let u := ((s.settleScope 2 k false).clearScope 2 k).loseBasins k
  let v := { u with boot := { u.boot with latched := u.boot.latched.filter (fun x => x != k) } }
  ((v.setResets (v.boot.resets.filter (fun b => scopePart b.scope b.target != k))).wf (PW_DOM k) PW_DOM_STATE 0).partTowpath k

theorem drainingDone_eq (h : s.rf (PW_DOM part) PW_DOM_STATE = 3 ∨ s.rf (PW_DOM part) PW_DOM_STATE = 4) (hd : s.scopeDrained 2 part = true) :
    exec (.drainingDone part) s = .next (if s.rf (PW_DOM part) PW_DOM_STATE = 4
      then ((s.drainedDom part).wf (PW_DOM part) PW_DOM_STATE 1).bumpF (PW_DOM part) PW_DOM_WAKES 1 else s.drainedDom part) := if_pos ⟨h, hd⟩

/-! ## Basins lost (R436, R437) -/

theorem byte_clearMem (s : State) (lo hi a : Nat) : (s.clearMem lo hi).byte a = if lo ≤ a ∧ a < hi then 0#8 else s.byte a := by
  unfold State.byte State.clearMem
  dsimp only
  split
  · next h => exact spGet_filter_dropped 0#8 (fun _ => by simpa using h) s.mem
  · next h => exact spGet_filter_kept 0#8 (fun _ => by simp only [Bool.or_eq_true, decide_eq_true_eq]; omega) s.mem

/-- The basins of the dies of a list are cleared. -/
def State.clearDies (s : State) (l : List Nat) : State := l.foldl (fun s n => s.clearMem (64 * n * basinSize) (64 * (n + 1) * basinSize)) s

theorem loseBasins_eq (s : State) (k : Nat) : s.loseBasins k = s.clearDies (partDies k) := rfl

/-- A byte that reads zero does so after any basins are cleared. -/
theorem byte_clearDies_zero {a : Nat} (l : List Nat) (h : s.byte a = 0#8) : (s.clearDies l).byte a = 0#8 := by
  induction l generalizing s with
  | nil => exact h
  | cons n l ih => exact ih (by rw [byte_clearMem, h, ite_self])

theorem byte_clearDies {a n : Nat} {l : List Nat} (hn : n ∈ l) (ha : 64 * n * basinSize ≤ a ∧ a < 64 * (n + 1) * basinSize) : (s.clearDies l).byte a = 0#8 := by
  induction l generalizing s with
  | nil => exact absurd hn List.not_mem_nil
  | cons x l ih =>
    rcases List.mem_cons.1 hn with rfl | hn
    · exact byte_clearDies_zero l (by rw [byte_clearMem, if_pos ha])
    · exact ih hn

theorem mem_partDies {n : Fin 16} (h : diePart n = k) : n.val ∈ partDies k := List.mem_filter.2 ⟨List.mem_range.2 n.isLt, beq_iff_eq.2 h⟩

end

/-- Settles O54: a write of EN by what it leaves in the domain's register, the ends of WAKING and DRAINING by one equation each, the basins by the ranges cleared. -/
theorem powerDomainsChange : Obligations.PowerDomainsChange := by
  intro m part s
  refine ⟨fun hc hw en => pwDomEnWrite_waits en hc hw, fun hc hw ht => ⟨fun new h => ?_, fun new h => ?_, fun hst hr => ?_, fun hst hr => ?_⟩,
    fun tookMs => ⟨fun hst => ?_, fun hst => ?_⟩, fun n hn a hlo hhi => byte_clearDies (mem_partDies hn) ⟨hlo, hhi⟩,
    fun hd => ⟨fun hst => ?_, fun hst => ?_⟩⟩
  · exact (enableDom_becomes h).completes (pwDomEnWrite_acts true hc hw ht)
  · exact (disableDom_becomes h).completes (pwDomEnWrite_acts false hc hw ht)
  · rw [pwDomEnWrite_acts false hc hw ht, if_neg Bool.false_ne_true, disableDom_on hst, hr, if_neg Bool.false_ne_true]
  · rw [pwDomEnWrite_acts false hc hw ht, if_neg Bool.false_ne_true, disableDom_on hst, if_pos hr]
  · rw [wakingDone_eq (.inl hst), if_neg (by rw [hst]; decide), State.wokenDom]
  · rw [wakingDone_eq (.inr hst), if_pos hst, State.wokenDom]
  · rw [drainingDone_eq (.inl hst) hd, if_neg (by rw [hst]; decide), State.drainedDom]
  · rw [drainingDone_eq (.inr hst) hd, if_pos hst, State.drainedDom]

end Sys2Proof.Machine
end
section
/-! PROOFS. Resets of the whole device and of the Keeper alone: what a device reset keeps and what it puts back, what holds and releases it, and what a Keeper-only
reset clears (R413, R417, R435, R443). -/

namespace Sys2Proof.Machine

/-! ## A fresh nonce, and its captures (R15, R466) -/

section
variable {s t : State}

/-- A change of captures alone. -/
theorem recapture_eq (s : State) (a n : Nat) : ∃ c w, s.recapture a n = { s with capture := c, wbuf := w } := by
  unfold State.recapture
  generalize List.range n = l
  suffices h : ∀ u : State, (∃ c w, u = { s with capture := c, wbuf := w }) →
      ∃ c w, l.foldl (fun s i => { s with capture := spPut 0#32 s.capture (a + 4 * i) (BitVec.ofNat 32 (s.rd (a + 4 * i))) }) u
        = { s with capture := c, wbuf := w } from h _ ⟨_, _, rfl⟩
  induction l with
  | nil => exact fun u hu => hu
  | cons i l ih =>
    rintro _ ⟨_, _, rfl⟩
    exact ih _ ⟨_, _, rfl⟩

/-- The nonce has changed, and its captures hold the new one. -/
def State.freshNonce (s : State) : State := s.newNonce.recapture (KP_AUTH_NONCE 0) 8

/-- `t` is `s` but for the nonce's registers, captures and write buffers, and the generator. -/
def NonceOnly (s t : State) : Prop := RegsBut s t (wordsAt (KP_AUTH_NONCE 0) 8)
  ∧ ∃ r c w k n, t = { s with regs := r, capture := c, wbuf := w, sec := { s.sec with drbgRequests := k }, free := n }

theorem random_state (s : State) : ∃ k n, s.random.2 = { s with sec := { s.sec with drbgRequests := k }, free := n } := ⟨_, _, rfl⟩

theorem newNonce_eq (s : State) : s.newNonce = s.random.2.wrWide (KP_AUTH_NONCE 0) 8 s.random.1 := rfl

theorem newNonce_frame (s : State) : NonceOnly s s.newNonce := by
  obtain ⟨_, _, hdrawn⟩ := random_state s
  have hregs : RegsBut s s.random.2 (wordsAt (KP_AUTH_NONCE 0) 8) := (RegsBut.refl s _).of_regs (by rw [hdrawn])
  rw [newNonce_eq]
  refine ⟨hregs.wrWide (List.Subset.refl _) _, ?_⟩
  rw [wrWide_eq, hdrawn]
  exact ⟨_, _, _, _, _, rfl⟩

theorem freshNonce_frame (s : State) : NonceOnly s s.freshNonce := by
  obtain ⟨hregs, heq⟩ := newNonce_frame s
  unfold State.freshNonce
  obtain ⟨_, _, hcap⟩ := recapture_eq s.newNonce (KP_AUTH_NONCE 0) 8
  rw [hcap]
  refine ⟨hregs.of_regs rfl, ?_⟩
  obtain ⟨_, _, _, _, _, heq⟩ := heq
  rw [heq]
  exact ⟨_, _, _, _, _, rfl⟩

end

/-! ## Device reset (R417) -/

section
variable {s : State}

/-- The part after reset, with what a reset keeps of `s` beside its registers. -/
def State.resetBare (s : State) (hold : Hold) (fatalNew : Nat) : State :=
  let r := State.resetOf s.fuses.part
  { r with
    pending := s.pending, mem := s.mem.filter (fun c => decide (mramBase ≤ c.1 ∧ c.1 < mramBase + 0x4000000)), fuses := s.fuses, free := s.free,
    fatalNew := fatalNew, resp := s.resp
    pins := { r.pins with thermTripN := s.pins.thermTripN, pwrGood := s.pins.pwrGood, resetN := s.pins.resetN, addrSel := s.pins.addrSel }
    boot := { Boot.reset with hold := hold }, power := { r.power with mod := s.power.mod } }

/-- The registers of `z` show what a reset keeps of `s`: the fatal file, the fuses and the self-test that it ended. -/
def State.resetShown (z s : State) : State :=
  let z := (z.wf EV_FATAL EV_FATAL_VALID (s.rf EV_FATAL EV_FATAL_VALID)).syncFatal
  let z := (z.wf KP_SEC_STATUS KP_SEC_STATUS_ROLLBACK s.fuses.rollback).wf KP_SEC_STATUS KP_SEC_STATUS_REVOKED s.fuses.revoked
  let z := (z.wf KP_REPAIR_STATUS KP_REPAIR_STATUS_SOFT s.fuses.soft.length).wf KP_REPAIR_STATUS KP_REPAIR_STATUS_FUSED (min 256 (s.fuses.fused.filter isEFuse).length)
  if s.boot.test.isSome then z.wf KP_TEST_STATUS KP_TEST_STATUS_STATE 3 else z

theorem deviceReset_eq (s : State) (h : Hold) (n : Nat) : s.deviceReset h n = ((s.resetBare h n).resetShown s).freshNonce := rfl

/-- The registers in which a device reset shows what it keeps. -/
def shownAtReset : List Nat := [EV_FATAL, EV_ALERT, KP_SEC_STATUS, KP_REPAIR_STATUS, KP_TEST_STATUS]

theorem resetShown_frame (z s : State) : RegsBut z (z.resetShown s) shownAtReset ∧ OnlyRegs z (z.resetShown s) := by
  unfold State.resetShown State.syncFatal State.wb
  dsimp only
  generalize hu : State.wf _ KP_REPAIR_STATUS KP_REPAIR_STATUS_FUSED _ = u
  have hregs : RegsBut z u shownAtReset := hu ▸ ((((((RegsBut.refl z _).wf (by decide) _ _).wf (by decide) _ _).wf (by decide) _ _).wf (by decide) _ _).wf (by decide) _ _).wf (by decide) _ _
  have honly : OnlyRegs z u := hu ▸ ((((((OnlyRegs.refl z).wf _ _ _).wf _ _ _).wf _ _ _).wf _ _ _).wf _ _ _).wf _ _ _
  split
  · exact ⟨hregs.wf (by decide) _ _, honly.wf _ _ _⟩
  · exact ⟨hregs, honly⟩

/-- A device reset leaves the part after reset but for what it keeps, what shows that, and the generator. -/
theorem deviceReset_frame (s : State) (h : Hold) (n : Nat) :
    RegsBut (State.resetOf s.fuses.part) (s.deviceReset h n) (shownAtReset ++ wordsAt (KP_AUTH_NONCE 0) 8)
      ∧ ∃ r c w x k, s.deviceReset h n = { s.resetBare h n with regs := r, capture := c, wbuf := w, sec := x, free := k } := by
  rw [deviceReset_eq]
  obtain ⟨hshown, honly⟩ := resetShown_frame (s.resetBare h n) s
  obtain ⟨hnonce, heq⟩ := freshNonce_frame ((s.resetBare h n).resetShown s)
  have hbare : RegsBut (State.resetOf s.fuses.part) (s.resetBare h n) (shownAtReset ++ wordsAt (KP_AUTH_NONCE 0) 8) := (RegsBut.refl _ _).of_regs rfl
  refine ⟨hbare.trans ((hshown.mono (List.subset_append_left ..)).trans (hnonce.mono (List.subset_append_right ..))), ?_⟩
  obtain ⟨_, _, _, _, _, heq⟩ := heq
  obtain ⟨_, hshow⟩ := honly
  rw [heq, hshow]
  exact ⟨_, _, _, _, _, rfl⟩

/-- No field of a start, a lock or a power domain reads other than zero after reset. -/
theorem resetOf_idle (p : PartCode) : (State.resetOf p).lockSt = 0 ∧ (State.resetOf p).stage = 0 ∧ ∀ k : Fin 4, (State.resetOf p).rf (PW_DOM k) PW_DOM_STATE = 0 := by
  cases p <;> decide +kernel

theorem deviceReset_mem (s : State) (h : Hold) (n : Nat) :
    (s.deviceReset h n).mem = s.mem.filter (fun c => decide (mramBase ≤ c.1 ∧ c.1 < mramBase + 0x4000000)) := by
  obtain ⟨-, _, _, _, _, _, heq⟩ := deviceReset_frame s h n
  rw [heq]
  rfl

theorem deviceResetKeepsFusesAndMram : DeviceResetKeepsFusesAndMram := by
  intro h n s t
  obtain ⟨hregs, heq⟩ := deviceReset_frame s h n
  obtain ⟨hlock, hstage, hdoms⟩ := resetOf_idle s.fuses.part
  have hmram : ∀ a, mramBase ≤ a → a < mramBase + 0x4000000 → t.byte a = s.byte a := fun a hlo hhi =>
    (congrArg (spGet 0#8 · a) (deviceReset_mem s h n)).trans (spGet_filter_kept 0#8 (fun _ => decide_eq_true ⟨hlo, hhi⟩) s.mem)
  have hrest : ∀ a, a < mramBase → t.byte a = State.reset.byte a := fun a ha =>
    (congrArg (spGet 0#8 · a) (deviceReset_mem s h n)).trans (spGet_filter_dropped 0#8 (fun _ => decide_eq_false fun hin => by omega) s.mem)
  have hst : t.lockSt = 0 := (hregs.rf (by decide) _).trans hlock
  have hsg : t.stage = 0 := (hregs.rf (by decide) _).trans hstage
  have hdom : ∀ k : Fin 4, t.rf (PW_DOM k) PW_DOM_STATE = 0 := fun k => (hregs.rf (by revert k; decide) _).trans (hdoms k)
  change RegsBut _ t _ at hregs
  change ∃ r c w x k, t = _ at heq
  clear_value t
  obtain ⟨_, _, _, _, _, rfl⟩ := heq
  exact ⟨rfl, hregs, rfl, hmram, hrest, rfl, rfl, rfl, rfl, rfl, hst, hsg, rfl, rfl, hdom⟩

end

/-! ## RESET_N and KP_RESET (R413, R417, R443) -/

section
variable {s : State} {m : Ident}

/-- RESET_N as the carrier board drives it. -/
def State.pinAt (s : State) (high : Bool) : State := { s with pins := { s.pins with resetN := high } }

theorem resetNAssert_short {lowNs : Nat} (h : lowNs < 10000) : exec (.resetNAssert lowNs) s = .next s := if_pos h

theorem resetNAssert_resets {lowNs : Nat} (hlow : 10000 ≤ lowNs) (h : s.boot.hold = .pin ∨ s.boot.hold = .kpReset ∨ s.boot.hold = .none ∧ s.boot.phase ≠ 0) :
    exec (.resetNAssert lowNs) s = .next ((s.pinAt false).deviceReset .pin 0) := by
  show execResetNAssert lowNs s = _
  rw [execResetNAssert, if_neg (Nat.not_lt.2 hlow)]
  rcases h with h | h | ⟨h, hphase⟩
  · simp only [h, State.pinAt]
  · simp only [h, State.pinAt]
  · simp only [h, hphase, if_false, State.pinAt]

theorem resetNAssert_held {lowNs : Nat} (hlow : 10000 ≤ lowNs)
    (h : (∃ k : Nat, s.boot.hold = .supply k) ∨ s.boot.hold = .trip ∨ s.boot.hold = .none ∧ s.boot.phase = 0) :
    exec (.resetNAssert lowNs) s = .next (s.pinAt false) := by
  show execResetNAssert lowNs s = _
  rw [execResetNAssert, if_neg (Nat.not_lt.2 hlow)]
  rcases h with ⟨k, h⟩ | h | ⟨h, hphase⟩
  · simp only [h, State.pinAt]
  · simp only [h, State.pinAt]
  · simp only [h, hphase, if_true, State.pinAt]

theorem resetNRelease_eq : exec .resetNRelease s = if s.boot.hold = .pin ∨ s.boot.hold = .none ∧ s.boot.phase = 0 ∧ 40000 ≤ s.rf PW_IN PW_IN_VIN
    then .next (s.pinAt true).tZero else .next (s.pinAt true) := rfl

theorem kpResetRelease_eq (h : s.boot.hold = .kpReset) : exec .kpResetRelease s
    = .next (if s.pins.resetN = true then s.tZero else { s with boot := { s.boot with hold := .pin } }) := if_pos h

theorem kpWrite_kpReset (v : Nat) : s.kpWrite m 0x30 v = s.kpReset m v := if_pos rfl

theorem put32_kpReset (v : Word) (hc : Passes s m KP_RESET true) : s.put32 m KP_RESET v.toNat = (s.kpReset m v.toNat).reply stOK [] := by
  have h := put32_kp (o := 0x30) (by decide) (by decide) v.isLt hc
  rwa [kpWrite_kpReset] at h

theorem kpReset_noKey {v : Nat} (h : natBits 16 16 v ≠ 0xB007) : s.kpReset m v = s.regEvent m KP_RESET := if_pos h

theorem kpReset_device {v : Nat} (hkey : natBits 16 16 v = 0xB007) (h : natBit 0 v = true) : s.kpReset m v = s.deviceReset .kpReset 0 := by
  rw [State.kpReset, if_neg (not_not.2 hkey), if_pos h]

theorem kpReset_keeper {v : Nat} (hkey : natBits 16 16 v = 0xB007) (h : natBit 0 v = false) (hk : natBit 1 v = true) : s.kpReset m v = s.keeperReset := by
  rw [State.kpReset, if_neg (not_not.2 hkey), h, if_neg Bool.false_ne_true, if_pos hk]

end

/-! ## The Keeper-only reset (R406, R435) -/

section
variable {s : State}

/-- The first `n` measurement registers are zero. -/
def State.measZero (s : State) (n : Nat) : State := (List.range n).foldl (fun s i => s.wrWide (KP_MEAS i 0) 8 0) s

theorem measZero_succ (s : State) (n : Nat) : s.measZero (n + 1) = (s.measZero n).wrWide (KP_MEAS n 0) 8 0 := by
  unfold State.measZero
  rw [List.range_succ, List.foldl_append]
  rfl

theorem onlyRegs_measZero (s : State) (n : Nat) : OnlyRegs s (s.measZero n) := by
  induction n with
  | zero => exact .refl s
  | succ n ih => exact measZero_succ s n ▸ onlyRegs_wrWide ih _ _ _

theorem measZero_reads (s : State) {i n : Nat} (h : i < n) : (s.measZero n).rdWide (KP_MEAS i 0) 8 = 0 := by
  induction n with
  | zero => exact absurd h (Nat.not_lt_zero i)
  | succ n ih =>
    rw [measZero_succ]
    rcases Nat.lt_succ_iff_lt_or_eq.1 h with hlt | rfl
    · rw [rdWide_congr (s := s.measZero n) fun j hj => rd_wrWide_other _ _ _ _ (.inl (by unfold KP_MEAS; omega)), ih hlt]
    · rw [rdWide_wrWide, Nat.zero_mod]

/-- The Keeper is down, and no session or key of it is left. -/
def State.keeperStopped (s : State) : State :=
  { s with boot := { s.boot with keeperDown := true }, sec := { s.sec with session := none, ephemeral := none, attested := [], drbgRequests := 0 } }

/-- The Keeper's registers as it restarts: no token, stage 0, a fresh nonce. -/
def State.keeperFresh (s : State) : State := ((s.setAuth none).setStage 0).freshNonce

theorem keeperReset_eq (s : State) : s.keeperReset = ((s.measZero 8).keeperStopped.keeperFresh.clearCaptures (KP_MEAS 0 0) (KP_MEAS 0 0 + 0x100)).clearCaptures
    (KP_MEAS_EXT 0) (KP_MEAS_EXT 0 + 32) := rfl

/-- The registers that change as the Keeper restarts. -/
def freshRegs : List Nat := [KP_SEC_STATUS, KP_BOOT_STATUS] ++ wordsAt (KP_AUTH_NONCE 0) 8

theorem keeperFresh_frame (s : State) : s.keeperFresh.stage = 0 ∧ RegsBut s s.keeperFresh freshRegs
    ∧ ∃ r c w k n, s.keeperFresh = { s with regs := r, capture := c, wbuf := w, sec := { s.sec with auth := none, drbgRequests := k }, free := n } := by
  obtain ⟨-, hauth, honly⟩ := authSpent_setAuth s
  obtain ⟨hnonce, heq⟩ := freshNonce_frame ((s.setAuth none).setStage 0)
  have hstage : ((s.setAuth none).setStage 0).stage = 0 := rf_wf_fits (by decide) (by decide)
  have hset : RegsBut (s.setAuth none) ((s.setAuth none).setStage 0) [KP_BOOT_STATUS] := (RegsBut.refl _ _).wf (List.mem_singleton_self _) _ _
  refine ⟨(hnonce.rf (by decide) _).trans hstage, (hauth.mono (by decide)).trans ((hset.mono (by decide)).trans (hnonce.mono (by decide))), ?_⟩
  obtain ⟨_, hset⟩ := honly.wf KP_BOOT_STATUS KP_BOOT_STATUS_STAGE 0
  obtain ⟨_, _, _, _, _, heq⟩ := heq
  rw [State.keeperFresh, heq, State.setStage, hset]
  exact ⟨_, _, _, _, _, rfl⟩

theorem keeperStopped_regs (s : State) : s.keeperStopped.regs = s.regs := rfl

theorem rdWide_of_regs {t : State} (h : t.regs = s.regs) (a n : Nat) : t.rdWide a n = s.rdWide a n := rdWide_congr fun _ _ => rd_of_regs _ h

theorem meas_not_fresh : ∀ i : Fin 8, ∀ j < 8, KP_MEAS i 0 + 4 * j ∉ freshRegs := by decide +kernel

theorem keeperReset_completes (s : State) : s.keeperReset.boot.keeperDown = true ∧ s.keeperReset.stage = 0
    ∧ (∀ i : Fin 8, s.keeperReset.rdWide (KP_MEAS i 0) 8 = 0) ∧ s.keeperReset.sec.session = none ∧ s.keeperReset.sec.auth = none
    ∧ s.keeperReset.mem = s.mem ∧ s.keeperReset.cores = s.cores := by
  obtain ⟨hstage, hregs, heq⟩ := keeperFresh_frame (s.measZero 8).keeperStopped
  have hmeas : ∀ i : Fin 8, (s.measZero 8).keeperStopped.keeperFresh.rdWide (KP_MEAS i 0) 8 = 0 := fun i =>
    (hregs.rdWide (meas_not_fresh i)).trans ((rdWide_of_regs (keeperStopped_regs _) ..).trans (measZero_reads s i.isLt))
  obtain ⟨_, hzero⟩ := onlyRegs_measZero s 8
  rw [keeperReset_eq]
  generalize (s.measZero 8).keeperStopped.keeperFresh = t at *
  have hframe : t.boot.keeperDown = true ∧ t.sec.session = none ∧ t.sec.auth = none ∧ t.mem = s.mem ∧ t.cores = s.cores := by
    obtain ⟨_, _, _, _, _, rfl⟩ := heq
    rw [hzero]
    exact ⟨rfl, rfl, rfl, rfl, rfl⟩
  obtain ⟨hdown, hsession, hauth, hmem, hcores⟩ := hframe
  exact ⟨hdown, hstage, fun i => (rdWide_of_regs (s := t) rfl ..).trans (hmeas i), hsession, hauth, hmem, hcores⟩

/-- The Keeper runs again, in step with the start phases that have ended. -/
def State.keeperBack (s : State) : State :=
  (({ s with boot := { s.boot with keeperDown := false }, fleet := { s.fleet with adrift := false, beats := List.replicate 8 0 } } : State).setStage
    (phaseStage s.boot.phase)).setLockSt 4

theorem keeperRestarted_noImage (h : s.boot.keeperDown = true) (hslot : s.bootSlot = none) : exec .keeperRestarted s = .next (s.startFail 1) := by
  show execKeeperRestarted s = _
  rw [execKeeperRestarted, h, hslot]
  rfl

theorem keeperRestarted_boots {slot : Nat} {fb : Bool} (h : s.boot.keeperDown = true) (hslot : s.bootSlot = some (slot, fb)) :
    exec .keeperRestarted s = .next (((s.bootImage slot fb).measFirmware).measAgain).keeperBack := by
  show execKeeperRestarted s = _
  rw [execKeeperRestarted, if_neg (by rw [h]; decide)]
  split
  · next hnone => exact absurd (hslot.symm.trans hnone) (by simp)
  · next hsome =>
    obtain ⟨rfl, rfl⟩ := Prod.mk.inj (Option.some.inj (hslot.symm.trans hsome))
    extract_lets +onlyGivenNames u
    have hu : ((s.bootImage slot fb).measFirmware).measAgain = u := rfl
    rw [hu, State.keeperBack]

end

theorem deviceResetCommandsComplete : DeviceResetCommandsComplete := by
  intro m s
  refine ⟨fun lowNs => ⟨resetNAssert_short, fun hlow => ⟨resetNAssert_resets hlow, resetNAssert_held hlow⟩⟩,
    ⟨fun h => resetNRelease_eq.trans (if_pos h), fun h => resetNRelease_eq.trans (if_neg h)⟩, fun hhold => ⟨fun hpin => ?_, fun hpin => ?_⟩,
    fun v hc => ⟨fun hkey hdevice => ?_, fun hkey hdevice hkeeper => ?_, fun hkey => ?_⟩, keeperReset_completes s, fun hdown => ?_⟩
  · rw [kpResetRelease_eq hhold, if_pos hpin]
  · rw [kpResetRelease_eq hhold, hpin, if_neg Bool.false_ne_true]
  · show Host.Outcome.next (s.put32 m KP_RESET v.toNat) = _
    rw [put32_kpReset v hc, kpReset_device hkey hdevice]
  · show Host.Outcome.next (s.put32 m KP_RESET v.toNat) = _
    rw [put32_kpReset v hc, kpReset_keeper hkey hdevice hkeeper]
  · have hwritten : s.put32 m KP_RESET v.toNat = (s.regEvent m KP_RESET).reply stOK [] := by rw [put32_kpReset v hc, kpReset_noKey hkey]
    exact ⟨congrArg Host.Outcome.next hwritten, congrArg Host.Outcome.next hwritten⟩
  · cases hslot : s.bootSlot with
    | none => exact keeperRestarted_noImage hdown hslot
    | some x => exact keeperRestarted_boots hdown hslot

/-- Settles O52: a device reset by its frame over the part after reset, RESET_N and KP_RESET by one lemma for each outcome, a Keeper-only reset by what it clears. -/
theorem deviceResetsComplete : Obligations.DeviceResetsComplete := ⟨deviceResetKeepsFusesAndMram, deviceResetCommandsComplete⟩

end Sys2Proof.Machine
end
